-- ==== Sys2Proof/Word.lean ====
section
/-! DEFINITION. The word types of the FZ96 model (R5: bit 0 is the least significant bit; registers are 64 bits wide). -/

namespace Sys2Proof

/-- A byte of a frame, of a table window or of an image. -/
abbrev Byte := BitVec 8

/-- A register or table-window word (R5). -/
abbrev Word := BitVec 64

/-- Bytes as they stand on a wire or in a window, lowest address first. -/
abbrev Bytes := List Byte

end Sys2Proof
end

