-- ==== Sys2Proof/Syntax.lean ====
section
/-! DEFINITION. The commands of the FZ96: one constructor of `Instr` per row of spec/opcode_table.json.
The table gives its rows no operand bits, so the operands are the model's (log 3): what the rule of the row says the event carries
(a port, a frame, a register value) and what only the world outside the block can decide (an integrity check's verdict,
a measured temperature). -/

namespace Sys2Proof

/-- What makes a port condition of R71 change (LINK_FAULT_CHANGE). -/
inductive LinkCond where
  | blockLock (lane : Nat) (ok : Bool)
  | amLock (ok : Bool)
  | localFault (on : Bool)
  | remoteFault (on : Bool)
  deriving DecidableEq, Repr

/-- How a received frame reached the MAC (R69): what the lanes report beside its bytes. -/
structure RxMarks where
  cutByLinkDown : Bool
  cdcOverrun    : Bool
  fecBad        : Bool
  deriving DecidableEq, Repr

/-- A MACsec alarm source of Table 4.4. -/
inductive AlarmSource where
  | voltage | clock | temperature | fault | watchdog
  deriving DecidableEq, Repr

/-- The header of an FCP frame (Table 17.1) that a request of a session carries; `tagOk` is the outcome of its GCM tag (R394). -/
structure FcpHdr where
  session : Nat
  request : Nat
  seq     : Nat
  tagOk   : Bool
  deriving DecidableEq, Repr

/-- An operation of an FCP batch (Table 17.5): head and data. -/
structure BatchOp where
  opcode : Nat
  target : Nat
  table  : Nat
  index  : Nat
  static : Bool
  data   : Bytes
  deriving DecidableEq, Repr

/-- A masked register word of a REG_WRITE (R403). -/
structure MaskedWord where
  value : Word
  mask  : Word
  deriving DecidableEq, Repr

/-- What the descriptor of a record on the fabric carries (R324, R326): the version, the frame length, the epoch stamp, the ingress rate in Mb/s (R259)
and the stamped result of Table 8.8. The spec gives the version-2 descriptor no byte layout, so its 32 bytes travel as one value (log 16). -/
structure FabDesc where
  v1      : Bool
  len     : Nat
  epoch   : Nat
  rate    : Nat
  dkind   : Nat
  dest    : Nat
  encap   : Nat
  gen     : Nat
  labelOp : Nat
  newLabel : Nat
  ttlDec  : Bool
  tc      : Nat
  colour  : Nat
  vrf     : Nat
  nh      : Nat
  spread  : Nat
  deriving DecidableEq, Repr

/-- A run of payload bytes of a cell: bytes `off` to `off + len - 1` of a record's descriptor, or frame bytes. -/
inductive Piece where
  | desc (d : FabDesc) (off len : Nat)
  | data (bs : Bytes)
  deriving DecidableEq, Repr

/-- One cell of the Malyth link (Table 13.2), decoded from its header; `crcOk` is the outcome of its CRC-16 (R318). -/
structure Cell where
  type     : Nat
  quarters : Nat
  badTail  : Bool
  v2       : Bool
  destDev  : Nat
  destPort : Nat
  tc       : Nat
  srcDev   : Nat
  seq      : Nat
  rstart   : Nat
  payload  : List Piece
  crcOk    : Bool
  deriving DecidableEq, Repr

/-- The NOTICE field of an overhead block (Table 13.4). -/
structure Notice where
  heartbeat : Bool
  origin    : Nat
  port      : Nat
  up        : Bool
  seq       : Nat
  deriving DecidableEq, Repr

/-- One overhead block position tested on a fabric lane (Table 13.1, R319): `alignOk`, `crcOk` and `fecOk` are the outcomes of the tests of R319.
`linkDelay` is the delay measured through TURN (R322). A NOTICE field in use comes as a command of its own (NOTICE_RX). -/
structure Overhead where
  alignOk    : Bool
  crcOk      : Bool
  fecOk      : Bool
  versionMax : Nat
  versionSel : Nat
  ready      : Bool
  laneAligned : Bool
  ident      : Nat
  frameCnt   : Nat
  creditRet  : Nat
  buffer     : Nat
  arrivalNs  : Nat
  linkDelay  : Nat
  deriving DecidableEq, Repr

/-- A time cell's payload (Table 13.7): origin time in ns, correction in ns. -/
structure TimeCell where
  originDev  : Nat
  originNs   : Nat
  correction : Int
  seq        : Nat
  quality    : Nat
  deriving DecidableEq, Repr

/-- A TOD message (Table 15.3). -/
structure TodMsg where
  seconds : Nat
  quality : Nat
  crcOk   : Bool
  deriving DecidableEq, Repr

/-- A credit request entry (Table 13.6). -/
structure CreditReq where
  srcDev  : Nat
  voq     : Nat
  port    : Nat
  tc      : Nat
  wanted  : Nat
  surrendered : Nat
  deriving DecidableEq, Repr

/-- A request to an HBM controller (Table 11.1); `data` holds the bursts of a write. -/
structure HbmReq where
  write : Bool
  hint  : Nat
  cls   : Nat
  len   : Nat
  burst : Nat
  tag   : Nat
  data  : Bytes
  deriving DecidableEq, Repr

/-- What the stack returned for a request (R280): good, corrected in one symbol, or uncorrectable with its syndrome. -/
inductive EccResult where
  | good
  | corrected
  | uncorrectable (syndrome : Nat)
  deriving DecidableEq, Repr

/-- The issue of an engine instruction: the engine, and the worst outcome of the memory reads the instruction makes, its own fetch among them (R236). -/
structure Issue where
  e   : Nat
  ecc : EccResult
  deriving DecidableEq, Repr

/-- What a governor epoch measures and is asked for (R374, R382): currents and demand in 0.5 A units, wants and class-0 spend in pJ. -/
structure EpochMeas where
  currentF : Nat
  currentT : Nat
  demandF  : Nat
  demandT  : Nat
  want1    : Nat
  want2    : Nat
  want3    : Nat
  spent0   : Nat
  inputQueuesEmpty : Bool
  deriving DecidableEq, Repr

/-- Which timing source an event concerns (Table 15.1). -/
inductive TimeSource where
  | ext | pps | fabric | soft
  deriving DecidableEq, Repr

/-- An uncorrectable error that a hash lookup met (R201, R211): at classification stage `stage` (8 destination MAC lookup, 9 source MAC lookup), in the slot at byte address `slot`. -/
structure HashErr where
  stage : Nat
  slot  : Nat
  deriving DecidableEq, Repr

/-- The memory errors that the reads of an ingress lookup met (R210, R211): in hash lookups, and in direct-index reads by their order in the pass
(from 0); and how many single-bit errors were corrected in each. -/
structure EccErrs where
  hash     : List HashErr
  hashCorr : Nat
  dit      : List Nat
  ditCorr  : Nat
  deriving DecidableEq, Repr

/-- The departure timestamp a packet asks for, with the descriptor's 16-bit tag (R86). -/
inductive TsReq where
  | none
  | twoStep (tag : Nat)
  | oneStep (tag : Nat)
  deriving DecidableEq, Repr

/-- A counter address of R414. -/
structure CounterAddr where
  bank  : Nat
  index : Nat
  deriving DecidableEq, Repr

/-- The commands: operations and events of the FZ96, in the order of spec/opcode_table.json.
`h` is the header of an FCP request (R394), `sid` a session number; `k` a slice, `p` a line port, `e` an engine, `x` an HBM controller
(numbered as the register blocks: table controllers 0 to 127, buffer controllers 128 to 511). -/
inductive Instr where
  | pwrGoodLow (ns : Nat) (railLow : Bool)
  | rstNLow (ns : Nat)
  | leaveColdReset
  | bootRomStart
  | slotHeaderRead (flashOk : Bool) (flashMiB : Nat) (hdr : Bytes)
  | sectionTableRead (tbl : Bytes) (keyHash : BitVec 384)
  | signatureVerified (ok : Bool)
  | bodyReadDone (digestOk : Bool) (body : Bytes)
  | flashReadStall
  | firmwareReportsRunning (digestOk : Bool)
  | firmwareStartTimeout
  | stackTrainingDone (failed : List Nat)
  | startupBistDone (misr : List (Nat × List Word))
  | fabricWaitExpiry
  | staticTablesDone
  | firmwareWarmRestart
  | warmRestartTimeout
  | rxFrame (p : Nat) (frame : Bytes) (marks : RxMarks)
  | lineLaneSignalLoss (lane : Nat)
  | lineLaneSignalReturn (lane : Nat)
  | laneRetrainDone (lane : Nat)
  | linkFaultChange (p : Nat) (c : LinkCond)
  | linkDownHoldExpiry (p : Nat)
  | linkUpHoldExpiry (p : Nat)
  | adminUpWrite (p : Nat) (up : Bool)
  | degThreshWrite (p : Nat) (v : Nat)
  | fecWindowEnd (p : Nat) (corrected uncorrectable : Nat) (evaluated : Bool)
  | txFrameEnd (p : Nat)
  | flexeOverheadBlock (k j : Nat) (ohGood mfGood : Bool) (group phy cal skewNs : Nat)
  | flexeCalendarRequest (k : Nat) (cal : Nat)
  | flexeSwitchWrite (k : Nat)
  | flexeCalendarSwitch (k : Nat)
  | flexeSwitchAbandon (k : Nat)
  | macsecRxFrame (p : Nat) (icvOk : Bool) (plain : Bytes)
  | macsecTxFrame (p : Nat)
  | install (p c a : Nat)
  | retire (p c a : Nat)
  | saRetireDone (p c a : Nat)
  | txAnWrite (p : Nat) (an : Nat)
  | macsecAlarmFire (src : AlarmSource)
  | macsecAlarmClear (mask : Nat)
  | voltageExcursion (ns : Nat)
  | ref25mFault
  | faultInjectionDetect
  | bridgeBeatError (k : Nat) (toF : Bool) (replayOk : Bool)
  | bridgeRetrainDone (k : Nat) (toF : Bool) (ok : Bool)
  | bridgeRetrainWrite (mask : Nat)
  | bridgeReqTimeout (h : FcpHdr) (write : Bool)
  | headerParse (k : Nat)
  | fragHoldTimeout (k : Nat)
  | fragEntryExpiry (k : Nat) (shared : Bool) (i : Nat)
  | ingressLookup (k : Nat) (errs : EccErrs)
  | emhashBankRead (bank waited : Nat)
  | flowLookupResponse (pid : Nat) (uncorrectable : Bool)
  | flowLookupTimeout (pid : Nat)
  | assocKeyQueued (k : Nat)
  | assocSearchResult (pid i : Nat) (ecc : EccResult)
  | assocDispatchTimeout (pid i : Nat)
  | meterRefresh (m : Nat)
  | samplerCfgWrite (n : Nat) (v : Word)
  | assocMoveStart (a src dst count dstArray : Nat)
  | assocRowMove (a : Nat)
  | assocMoveSourceClear (a : Nat)
  | assocScrubRead (a : Nat) (parityOk : Bool)
  | assocRowRepair (a r : Nat)
  | learnArbiterServe (l : Nat)
  | learnHandoffInsert
  | pouncerPortFlush (p : Nat)
  | pouncerAgeVisit (slot : Nat)
  | pouncerIdlePass (f : Nat) (bucketAddr way : Nat)
  | compareWalkRead (addr : Nat)
  | compareConfirm (addr : Nat)
  | comparePeriodOverrun
  | encapHoldExpiry (i : Nat)
  | egressProcess (k : Nat) (underrun aclDrop : Bool) (ts : TsReq)
  | engineDispatch (k : Nat)
  | engineHoldRetry (k : Nat)
  | engineWaitExpiry (k : Nat)
  | programStart (e : Nat)
  | add (i : Issue) (rd ra rb : Nat)
  | sub (i : Issue) (rd ra rb : Nat)
  | and (i : Issue) (rd ra rb : Nat)
  | or (i : Issue) (rd ra rb : Nat)
  | xor (i : Issue) (rd ra rb : Nat)
  | shl (i : Issue) (rd ra rb : Nat)
  | shr (i : Issue) (rd ra rb : Nat)
  | min (i : Issue) (rd ra rb : Nat)
  | max (i : Issue) (rd ra rb : Nat)
  | crc (i : Issue) (rd ra rb : Nat)
  | clz (i : Issue) (rd ra : Nat)
  | addi (i : Issue) (rd ra : Nat) (imm : BitVec 16)
  | andi (i : Issue) (rd ra : Nat) (imm : BitVec 16)
  | ori (i : Issue) (rd ra : Nat) (imm : BitVec 16)
  | xori (i : Issue) (rd ra : Nat) (imm : BitVec 16)
  | shli (i : Issue) (rd ra : Nat) (imm : BitVec 16)
  | shri (i : Issue) (rd ra : Nat) (imm : BitVec 16)
  | movi (i : Issue) (rd : Nat) (imm : BitVec 16)
  | insh (i : Issue) (rd sz : Nat) (imm : BitVec 16)
  | ld (i : Issue) (rd ra sz : Nat) (imm : BitVec 16)
  | st (i : Issue) (rd ra sz : Nat) (imm : BitVec 16)
  | xadd (i : Issue) (rd ra rb : Nat)
  | beq (i : Issue) (ra rb target : Nat)
  | bne (i : Issue) (ra rb target : Nat)
  | blt (i : Issue) (ra rb target : Nat)
  | bge (i : Issue) (ra rb target : Nat)
  | jmp (i : Issue) (target : Nat)
  | call (i : Issue) (target : Nat)
  | ret (i : Issue)
  | pfind (i : Issue) (rd ra rb set : Nat)
  | pfindScanDone (e wait : Nat)
  | pmatch (i : Issue) (rd ra set : Nat)
  | verdict (i : Issue) (action : Nat) (colourSet : Bool) (colour : Nat) (value : BitVec 16)
  | endProg (i : Issue)
  | nop (i : Issue)
  | programBudgetExpiry (e : Nat)
  | engineResultReturn (k : Nat)
  | engineDrainWrite (c : Nat) (v : Bool)
  | clusterDrained (c : Nat)
  | packetAdmit (k : Nat) (fromFabric : Bool)
  | streamTail (k : Nat) (bad : Bool)
  | packetDepart (n : Nat)
  | bufferReadError (voq : Bool) (n : Nat) (status : Nat)
  | quotaWrite (r : Nat) (onDie hbm : Nat)
  | portQueuesClose (p : Nat)
  | portNoticeSend (p : Nat)
  | noticeRx (n : Notice)
  | voqCloseOnNotice (dev port : Nat)
  | flushChainFree
  | flushListAdmit
  | hbmRequest (x : Nat) (r : HbmReq)
  | hbmResponse (x tag : Nat) (ecc : EccResult)
  | openRowTimeout (x bank : Nat)
  | fz24WriteAge (x : Nat)
  | refreshDue (x bank : Nat)
  | trainPassStart (stack : Nat) (tempC : Int)
  | trainNowWrite (stack : Nat)
  | trainPause (x : Nat) (ok : Bool)
  | hbmCaParity (x : Nat)
  | hbmCmdTimeout (x tag : Nat)
  | hbmSyndromeRead (h : FcpHdr) (x : Nat)
  | hbmFreezeTimeout (x : Nat)
  | hbmRelease (x : Nat)
  | hbmRetrainDone (x : Nat) (ok : Bool) (us : Nat)
  | schedDecision (n : Nat)
  | shaperRefresh (kind i : Nat)
  | shaperProfileWrite (i : Nat) (hi lo : Word)
  | shaperAssignStart (kind index profile : Nat)
  | shaperSweepDone
  | gateIntervalEnd (p : Nat)
  | hatbandCommit (p : Nat)
  | hatbandCancel (p : Nat)
  | hatbandTakeover (p : Nat)
  | replWalk (c : Nat)
  | replWalkTimeout (c : Nat)
  | stuckQueueVisit (q : Nat)
  | fabricLaneSignalLoss (l : Nat)
  | malythFrameRx (l : Nat) (o : Overhead)
  | cellRx (l : Nat) (c : Cell) (cdcOverrun : Bool)
  | reasmTimeout (srcDev type port tc : Nat)
  | reasmContextIdle (srcDev type port tc : Nat)
  | cellSend (q : Nat)
  | creditRequestSend (q : Nat)
  | creditRequestRx (r : CreditReq)
  | creditGrantIssue (port tc : Nat)
  | creditGrantRx (q units : Nat)
  | standingCreditExpiry (q : Nat)
  | starveTimeout (q : Nat)
  | timeCellSend
  | timeCellRx (c : TimeCell) (steer : Int)
  | noticeRepeat (p : Nat)
  | noticeAckRx (dev port seq : Nat)
  | heartbeatSend
  | devTimeoutExpiry (d : Nat)
  | quietPeriodEnd
  | epochOpen (h : FcpHdr)
  | epochArm (h : FcpHdr) (seconds ns : Nat)
  | epochSwitchNow (h : FcpHdr)
  | epochAbort (h : FcpHdr)
  | epochSwitch
  | epochDrainTimeout
  | epochSweepDone
  | lookupBoundary
  | sliceReloadDone (k : Nat)
  | ppsInEdge (offset : Int) (inWindow : Bool) (steer : Int)
  | todInMessage (m : TodMsg)
  | sourceQualified (src : TimeSource) (offset : Int)
  | sourceLoss (src : TimeSource) (cause : Nat)
  | holdoverLimitExpiry
  | slewDone
  | timeAdjStart (slew : Bool) (phase : Int)
  | timeFreqWrite (steer : Int)
  | timeNowRead (h : FcpHdr)
  | ppsOutEdge
  | todOutSend
  | creditEpoch (m : EpochMeas)
  | regionSwitchOn (onF : Bool) (region : Nat) (idleHalfA : Nat)
  | pfwNFall
  | pfwNRise
  | pfwReleaseHoldExpiry
  | sensorReading (i : Nat) (t : Int)
  | tierExit
  | thermtrip
  | peakClr (i : Nat)
  | mgmtOtherFrame (m : Nat)
  | hello (port req verLo verHi : Nat) (keyHash : BitVec 384)
  | auth (h : FcpHdr) (sigOk : Bool)
  | keepalive (h : FcpHdr)
  | close (h : FcpHdr)
  | keepaliveSend (sid : Nat)
  | sessionKeepaliveTimeout (sid : Nat)
  | regRead (h : FcpHdr) (addr count : Nat)
  | regWrite (h : FcpHdr) (addr : Nat) (words : List MaskedWord)
  | regTxnTimeout (h : FcpHdr) (write : Bool) (addr : Nat)
  | batchBegin (h : FcpHdr) (batch kind count : Nat)
  | batchData (h : FcpHdr) (batch segment : Nat) (ops : List BatchOp)
  | batchEnd (h : FcpHdr) (batch segments : Nat)
  | batchApply
  | batchSegmentTimeout (sid batch : Nat)
  | eventAck (h : FcpHdr) (seq : Nat)
  | eventResume (h : FcpHdr) (seq : Nat)
  | eventResend (sid : Nat)
  | eventWindowClose (code key : Nat)
  | learnAck (h : FcpHdr)
  | learnLogDrain (n : Nat)
  | shadowReloadDone (t : Nat)
  | imageStage (h : FcpHdr) (switchNow : Bool) (seconds ns : Nat)
  | sliceReload (h : FcpHdr) (k : Nat)
  | flashWrite (h : FcpHdr) (addr : Nat) (data : Bytes)
  | restart (h : FcpHdr)
  | reset (h : FcpHdr)
  | resetDelayExpiry
  | attest (h : FcpHdr) (nonce : Bytes)
  | bootStatus (h : FcpHdr)
  | fuseOwnerKey (h : FcpHdr) (slot : Nat) (hash : BitVec 384) (readBackOk : Bool)
  | fuseRevokeOwner (h : FcpHdr) (slot : Nat) (readBackOk : Bool)
  | fuseRevokeProvisioning (h : FcpHdr) (key : Nat) (readBackOk : Bool)
  | fuseJtagLevel (h : FcpHdr) (level : Nat) (readBackOk : Bool)
  | secfloorRaise (h : FcpHdr)
  | bistStart (h : FcpHdr) (segment level : Nat)
  | counterRead (h : FcpHdr) (cs : List CounterAddr)
  | counterReadClear (h : FcpHdr) (cs : List CounterAddr)
  | counterListNames (h : FcpHdr) (c : CounterAddr)
  | kick
  | watchdogExpiry
  | boardHeartbeatWrite
  | heartbeatTimeout
  | twiTransfer (write : Bool) (pointer : Nat) (data : Bytes) (count : Nat)
  | bypass
  | idcode
  | samplePreload
  | extest
  | clamp
  | highz
  | mgmt (write : Bool) (addr : Nat) (value : Word)
  | snapshotInstant
  | dumpWalkDone (us : Nat)
  | accumulatorFlushApply
  | cntFilterWrite (f word : Nat) (v : Word)
  | telemetrySend (i : Nat)
  | bistSegmentStart
  | bistSegmentDone (seg : Nat) (misr : List Word) (ms : Nat)
  | bistRestoreDone (seg : Nat) (retrainFailed : List Nat)
  | bistDrainWaitExpiry
  | pllOutputDeparts
  | alarmSourceStopsFiring (src : AlarmSource)
  | trainingPauseEnds (x : Nat)
  | ppsOutFall
  | stagedImageChecksDone (flashOk : Bool) (hdr tbl : Bytes) (keyHash : BitVec 384) (sigOk digestOk : Bool) (body : Bytes)
  deriving DecidableEq, Repr

end Sys2Proof
end

