-- ==== Sys2Proof/Machine/Bits.lean ====
section
/-! DEFINITION. Bit fields, byte order and the small arithmetic shared by every family (R5: bit 0 least significant, wire fields most significant byte first). -/

namespace Sys2Proof.Machine

/-- A field [hi:lo] of a word (R5). -/
structure Field where
  hi : Nat
  lo : Nat
  deriving DecidableEq, Repr

/-- The number of bits of a field. -/
def Field.width (f : Field) : Nat := f.hi + 1 - f.lo

/-- Bits [hi:lo] of a number. -/
def bits (v hi lo : Nat) : Nat := (v / 2 ^ lo) % 2 ^ (hi + 1 - lo)

/-- Bit `i` of a number. -/
def bit (v i : Nat) : Bool := (v / 2 ^ i) % 2 == 1

/-- The number `v` with bits [lo + w - 1:lo] replaced by the low `w` bits of `x`. -/
def setBits (v lo w x : Nat) : Nat :=
  2 ^ lo * (x % 2 ^ w) + v % 2 ^ lo + 2 ^ (lo + w) * (v / 2 ^ (lo + w))

/-- The value of field `f` of a word. -/
def getField (f : Field) (w : Word) : Nat := bits w.toNat f.hi f.lo

/-- The word with field `f` set to `v`, `v` narrowed to the field's width. -/
def putField (f : Field) (v : Nat) (w : Word) : Word := BitVec.ofNat 64 (setBits w.toNat f.lo f.width v)

/-- A `w`-bit two's complement value. -/
def toSigned (w v : Nat) : Int := if v < 2 ^ (w - 1) then (v : Int) else (v : Int) - (2 ^ w : Nat)

/-- An integer narrowed to `w` bits, two's complement. -/
def ofSigned (w : Nat) (i : Int) : Nat := (i % ((2 ^ w : Nat) : Int)).toNat

/-- One as a field value. -/
def b2n (b : Bool) : Nat := if b then 1 else 0

/-- A number from bytes, most significant first (R5). -/
def beNat (bs : Bytes) : Nat := bs.foldl (fun a b => a * 256 + b.toNat) 0

/-- The `n` bytes of a number, most significant first (R5). -/
def natBe : Nat → Nat → Bytes
  | 0, _ => []
  | n + 1, v => BitVec.ofNat 8 (v / 256 ^ n) :: natBe n v

/-- Bytes `off` to `off + n - 1` of a byte string, as a number; bytes past the end read as zero. -/
def beAt (bs : Bytes) (off n : Nat) : Nat := beNat (((bs.drop off) ++ List.replicate n 0).take n)

/-- Bits of a byte string that is numbered as a wire field: bit offset 0 is the most significant bit of byte 0. -/
def wireBits (bs : Bytes) (off w : Nat) : Nat :=
  bits (beAt bs (off / 8) ((off % 8 + w + 7) / 8)) (8 * ((off % 8 + w + 7) / 8) - 1 - off % 8)
    (8 * ((off % 8 + w + 7) / 8) - off % 8 - w)

/-- The number of ones among the low `n` bits of `v`. -/
def popCount (n v : Nat) : Nat := ((List.range n).filter (fun i => bit v i)).length

/-- The lowest index below `n` for which `p` holds, searching from `start` and going round (R463). -/
def rotFind (n start : Nat) (p : Nat → Bool) : Option Nat :=
  ((List.range n).map (fun i => (start + i) % n)).find? p

/-- The ceiling of a quotient. -/
def ceilDiv (a b : Nat) : Nat := (a + b - 1) / b

end Sys2Proof.Machine
end

