-- ==== Sys2Proof/Machine/Regs.lean ====
section
/-! DEFINITION. The register map of the FZ96: every register block of the spec's chapters (the words a chapter describes in prose among them),
with its replication, its fields, their access codes (Table 0.4), reset values (R11) and legal ranges (R7).
`Reg.x i j` is a register's byte address in the management address space (R5), `Fld.x_f` a field's position. -/

namespace Sys2Proof.Machine

/-- The access codes of Table 0.4 (STK is a flag beside the code it is paired with). -/
inductive Access where
  | ro | rw | wo | w1c | w1s | sc | img | snap
  deriving DecidableEq, Repr

/-- Who may write a field the spec lets be written: a controller, the control firmware alone, or a batch entry alone. -/
inductive Writer where
  | host | firmware | batch
  deriving DecidableEq, Repr

/-- A field of a register: its bits, access code, STK mark, reset value and range (R7, R8, R11). -/
structure FieldDesc where
  hi     : Nat
  lo     : Nat
  acc    : Access
  stk    : Bool
  reset  : Nat
  min    : Int
  max    : Int
  signed : Bool
  writer : Writer
  deriving DecidableEq, Repr

/-- A register block: first address, replication as (count, stride) from the outermost index, and its fields, highest bits first. -/
structure RegDesc where
  base   : Nat
  dims   : List (Nat × Nat)
  fields : List FieldDesc
  deriving DecidableEq, Repr

/-- Whether address `a`, less the block's base, is one of the replicated registers. -/
def inDims : List (Nat × Nat) → Nat → Bool
  | [], off => off == 0
  | (n, st) :: ds, off => (off / st < n) && inDims ds (off % st)

/-- Whether `a` is a register of block `d`. -/
def RegDesc.hit (d : RegDesc) (a : Nat) : Bool :=
  d.base ≤ a && inDims d.dims (a - d.base)

/-- The word a register block holds after cold reset (R11). -/
def RegDesc.resetWord (d : RegDesc) : Word :=
  BitVec.ofNat 64 (d.fields.foldl (fun w f => w + 2 ^ f.lo * f.reset) 0)

/-- One row of a field table. -/
def fd (hi lo : Nat) (acc : Access) (stk : Bool) (reset : Nat) (min max : Int) (signed : Bool) (writer : Writer) : FieldDesc :=
  { hi := hi, lo := lo, acc := acc, stk := stk, reset := reset, min := min, max := max, signed := signed, writer := writer }

/-- Registers of chapter 1. -/
def regs01 : List RegDesc := [
  -- BRIDGE_CTRL
  { base := 0x21800000, dims := [], fields := [
    fd 47 36 .ro false 0 0 4095 false .host,
    fd 35 24 .sc false 0 0 4095 false .host,
    fd 11 8 .rw false 8 2 15 false .host,
    fd 7 0 .rw false 20 5 200 false .host] }]

/-- Registers of chapter 2. -/
def regs02 : List RegDesc := [
  -- BOOT_STATUS
  { base := 0x1000, dims := [], fields := [
    fd 55 48 .ro true 0 0 255 false .host,
    fd 47 40 .ro true 0 0 255 false .host,
    fd 39 32 .ro true 0 0 255 false .host,
    fd 23 16 .ro true 0 0 255 false .host,
    fd 15 8 .ro true 0 0 255 false .host,
    fd 1 0 .ro true 0 0 3 false .host] },
  -- BOOT_POLICY
  { base := 0x1008, dims := [], fields := [
    fd 31 24 .img false 3 1 15 false .host,
    fd 23 16 .img false 4 0 32 false .host,
    fd 12 12 .img false 0 0 1 false .host,
    fd 9 0 .img false 50 0 1000 false .host] },
  -- FUSE_STATUS
  { base := 0x1010, dims := [], fields := [
    fd 23 23 .ro false 0 0 1 false .host,
    fd 22 21 .ro false 0 0 3 false .host,
    fd 20 14 .ro false 0 0 127 false .host,
    fd 13 12 .ro false 0 0 3 false .host,
    fd 7 4 .ro false 0 0 15 false .host,
    fd 3 0 .ro false 0 0 15 false .host] }]

/-- Registers of chapter 3. -/
def regs03 : List RegDesc := [
  -- LINE_PORT_CFG
  { base := 0x10000000, dims := [(96, 0x1000)], fields := [
    fd 63 50 .img false 0 0 10000 false .host,
    fd 49 36 .img false 0 0 10000 false .host,
    fd 35 22 .img false 9216 1518 16000 false .host,
    fd 17 17 .img false 0 0 1 false .host,
    fd 16 16 .img false 0 0 1 false .host,
    fd 15 15 .img false 0 0 1 false .host,
    fd 14 12 .img false 0 0 3 false .host,
    fd 11 8 .img false 0 0 11 false .host,
    fd 7 0 .img false 0 0 255 false .host] },
  -- LINE_PORT_CTRL
  { base := 0x10000008, dims := [(96, 0x1000)], fields := [
    fd 39 16 .rw false 0 0 16777215 false .host,
    fd 1 1 .rw false 0 0 1 false .host,
    fd 0 0 .rw false 1 0 1 false .host] },
  -- LINE_PORT_STATUS
  { base := 0x10000010, dims := [(96, 0x1000)], fields := [
    fd 23 16 .ro false 0 0 255 false .host,
    fd 15 12 .ro false 10 0 15 false .host,
    fd 6 6 .ro false 0 0 1 false .host,
    fd 5 5 .ro false 0 0 1 false .host,
    fd 4 4 .ro false 0 0 1 false .host,
    fd 3 3 .ro false 0 0 1 false .host,
    fd 2 2 .ro false 0 0 1 false .host,
    fd 1 1 .ro false 0 0 1 false .host,
    fd 0 0 .ro false 0 0 1 false .host] },
  -- LINE_TSP_ADJ
  { base := 0x10000018, dims := [(96, 0x1000)], fields := [
    fd 63 56 .img false 0 0 255 false .host,
    fd 31 16 .rw false 0 (-32768) 32767 true .host,
    fd 15 0 .rw false 0 (-32768) 32767 true .host] },
  -- LINE_TSP_RING_PTR
  { base := 0x10000020, dims := [(96, 0x1000)], fields := [
    fd 13 8 .ro false 0 0 63 false .host,
    fd 5 0 .rw false 0 0 63 false .firmware] },
  -- LINE_FLEXE_CFG
  { base := 0x10100000, dims := [(12, 0x1000)], fields := [
    fd 43 24 .img false 0 1 1048574 false .host,
    fd 23 16 .img false 0 1 247 false .host,
    fd 15 8 .img false 0 0 255 false .host,
    fd 0 0 .img false 0 0 1 false .host] },
  -- LINE_FLEXE_CTRL
  { base := 0x10100008, dims := [(12, 0x1000)], fields := [
    fd 0 0 .sc false 0 0 1 false .host] },
  -- LINE_FLEXE_STATUS
  { base := 0x10100010, dims := [(12, 0x1000)], fields := [
    fd 41 32 .ro false 0 0 1023 false .host,
    fd 31 24 .ro false 0 0 255 false .host,
    fd 23 16 .ro false 0 0 255 false .host,
    fd 2 2 .ro false 0 0 1 false .host,
    fd 1 1 .ro false 0 0 1 false .host,
    fd 0 0 .ro false 0 0 1 false .host] },
  -- LINE_TSP_RING_WORD
  { base := 0x10000800, dims := [(96, 0x1000), (128, 0x8)], fields := [
    fd 63 0 .ro false 0 0 0xffffffffffffffff false .host] },
  -- LINE_FLEXE_CAL_A
  { base := 0x10100800, dims := [(12, 0x1000), (40, 0x8)], fields := [
    fd 63 0 .img false 0 0 0xffffffffffffffff false .host] },
  -- LINE_FLEXE_CAL_B
  { base := 0x10100940, dims := [(12, 0x1000), (40, 0x8)], fields := [
    fd 63 0 .img false 0 0 0xffffffffffffffff false .host] }]

/-- Registers of chapter 4. -/
def regs04 : List RegDesc := [
  -- MACSEC_ALARM
  { base := 0x101f0000, dims := [], fields := [
    fd 4 0 .w1c true 0 0 31 false .host] },
  -- MACSEC_SECY_CFG
  { base := 0x10200000, dims := [(96, 0x10000)], fields := [
    fd 63 50 .img false 9216 128 16000 false .host,
    fd 31 16 .img false 0 0 65535 false .host,
    fd 10 10 .img false 1 0 1 false .host,
    fd 9 8 .img false 0 0 2 false .host,
    fd 7 7 .img false 1 0 1 false .host,
    fd 6 6 .img false 0 0 1 false .host,
    fd 5 5 .img false 1 0 1 false .host,
    fd 4 2 .img false 0 0 3 false .host,
    fd 0 0 .img false 0 0 1 false .host] },
  -- MACSEC_SECY_CTRL
  { base := 0x10200008, dims := [(96, 0x10000)], fields := [
    fd 63 32 .rw false 0 0 4294967295 false .host,
    fd 27 16 .rw false 1024 1 4095 false .host,
    fd 2 2 .rw false 1 0 1 false .host,
    fd 1 0 .rw false 0 0 3 false .host] },
  -- MACSEC_SC_CFG
  { base := 0x10201000, dims := [(96, 0x10000), (64, 0x200)], fields := [
    fd 63 0 .rw false 0 0 0xffffffffffffffff false .host] },
  -- MACSEC_SC_CTRL
  { base := 0x10201008, dims := [(96, 0x10000), (64, 0x200)], fields := [
    fd 0 0 .rw false 0 0 1 false .host] },
  -- MACSEC_SA_CTRL
  { base := 0x10201070, dims := [(96, 0x10000), (64, 0x200), (4, 0x40)], fields := [
    fd 63 32 .rw false 0 0 4294967295 false .host,
    fd 4 2 .ro false 0 0 7 false .host,
    fd 1 1 .sc false 0 0 1 false .host,
    fd 0 0 .sc false 0 0 1 false .host] },
  -- MACSEC_SA_PN
  { base := 0x10201078, dims := [(96, 0x10000), (64, 0x200), (4, 0x40)], fields := [
    fd 63 0 .rw false 1 0 0xffffffffffffffff false .host] },
  -- MACSEC_SA_KEY0
  { base := 0x10201040, dims := [(96, 0x10000), (64, 0x200), (4, 0x40)], fields := [
    fd 63 0 .wo false 0 0 0xffffffffffffffff false .host] },
  -- MACSEC_SA_KEY1
  { base := 0x10201048, dims := [(96, 0x10000), (64, 0x200), (4, 0x40)], fields := [
    fd 63 0 .wo false 0 0 0xffffffffffffffff false .host] },
  -- MACSEC_SA_KEY2
  { base := 0x10201050, dims := [(96, 0x10000), (64, 0x200), (4, 0x40)], fields := [
    fd 63 0 .wo false 0 0 0xffffffffffffffff false .host] },
  -- MACSEC_SA_KEY3
  { base := 0x10201058, dims := [(96, 0x10000), (64, 0x200), (4, 0x40)], fields := [
    fd 63 0 .wo false 0 0 0xffffffffffffffff false .host] },
  -- MACSEC_SA_SALT0
  { base := 0x10201060, dims := [(96, 0x10000), (64, 0x200), (4, 0x40)], fields := [
    fd 63 0 .wo false 0 0 0xffffffffffffffff false .host] },
  -- MACSEC_SA_SALT1
  { base := 0x10201068, dims := [(96, 0x10000), (64, 0x200), (4, 0x40)], fields := [
    fd 63 32 .wo false 0 0 4294967295 false .host] }]

/-- Registers of chapter 5. -/
def regs05 : List RegDesc := [
  -- PARSER_SLICE_CFG
  { base := 0x20000000, dims := [(12, 0x100000)], fields := [
    fd 2 0 .img false 2 2 4 false .host] },
  -- PARSER_SLICE_STATUS
  { base := 0x20000008, dims := [(12, 0x100000)], fields := [
    fd 40 32 .ro false 0 0 511 false .host,
    fd 26 16 .ro false 0 0 2047 false .host,
    fd 5 0 .ro false 0 0 63 false .host] },
  -- PARSER_PORT_CFG
  { base := 0x20000100, dims := [(12, 0x100000), (8, 0x10)], fields := [
    fd 63 56 .img false 0 0 254 false .host,
    fd 55 40 .img false 0 0 65535 false .host,
    fd 39 39 .img false 0 0 1 false .host,
    fd 38 37 .img false 1 0 2 false .host,
    fd 36 36 .img false 0 0 1 false .host,
    fd 35 18 .img false 0x15540 0 262143 false .host] },
  -- FRAG_CFG
  { base := 0x21100000, dims := [], fields := [
    fd 25 16 .rw false 10 1 1000 false .host,
    fd 4 0 .rw false 4 1 20 false .host] },
  -- FRAG_STATUS
  { base := 0x21100008, dims := [], fields := [
    fd 44 32 .ro false 0 0 8191 false .host] },
  -- PARSER_FORM_WORD
  { base := 0x20010000, dims := [(12, 0x100000), (255, 0x80), (16, 0x8)], fields := [
    fd 63 0 .img false 0 0 0xffffffffffffffff false .host] }]

/-- Registers of chapter 6. -/
def regs06 : List RegDesc := [
  -- CLASS_PORT_CFG
  { base := 0x20021000, dims := [(12, 0x100000), (8, 0x10)], fields := [
    fd 63 60 .img false 0 0 15 false .host,
    fd 59 56 .img false 0 0 15 false .host,
    fd 55 53 .img false 0 0 7 false .host,
    fd 47 42 .rw false 0 0 63 false .host,
    fd 41 36 .rw false 0 0 63 false .host,
    fd 35 26 .rw false 0 0 1023 false .host,
    fd 25 16 .rw false 0 0 1023 false .host] },
  -- CLASS_STAGE_CFG
  { base := 0x20020000, dims := [(12, 0x100000), (8, 0x20)], fields := [
    fd 63 62 .img false 0 0 3 false .host,
    fd 61 54 .img false 0 0 255 false .host,
    fd 53 50 .img false 0 0 15 false .host,
    fd 49 46 .img false 0 0 15 false .host] },
  -- EMHASH_TABLE_CFG
  { base := 0x21200000, dims := [(256, 0x8)], fields := [
    fd 63 48 .img false 0 0 65535 false .host,
    fd 47 32 .img false 0 0 65535 false .host,
    fd 31 26 .img false 0 0 63 false .host,
    fd 25 19 .img false 0 2 64 false .host,
    fd 18 17 .img false 0 0 2 false .host,
    fd 16 16 .img false 0 0 1 false .host,
    fd 15 12 .img false 0 0 15 false .host,
    fd 11 0 .img false 0 0 4095 false .host] },
  -- RANGE_CMP
  { base := 0x20030000, dims := [(12, 0x100000), (512, 0x8)], fields := [
    fd 63 63 .rw false 0 0 1 false .batch,
    fd 62 62 .rw false 0 0 1 false .batch,
    fd 61 61 .rw false 0 0 1 false .batch,
    fd 60 51 .rw false 0 0 1023 false .batch,
    fd 50 47 .rw false 0 0 15 false .batch,
    fd 31 16 .rw false 0 0 65535 false .batch,
    fd 15 0 .rw false 0 0 65535 false .batch] },
  -- SPREAD_PROFILE
  { base := 0x21300000, dims := [(16, 0x20)], fields := [
    fd 63 62 .img false 0 0 2 false .host,
    fd 61 61 .img false 0 0 1 false .host,
    fd 60 60 .img false 1 0 1 false .host,
    fd 31 0 .img false 0 0 4294967295 false .host] },
  -- MIRROR_SESSION
  { base := 0x21500008, dims := [(63, 0x8)], fields := [
    fd 63 63 .rw false 0 0 1 false .host,
    fd 62 56 .rw false 0 0 127 false .host,
    fd 55 42 .rw false 0 0 9216 false .host,
    fd 41 23 .rw false 0 0 524287 false .host,
    fd 22 20 .rw false 0 0 7 false .host,
    fd 19 19 .rw false 0 0 1 false .host] },
  -- SAMPLE_CTRL
  { base := 0x21500200, dims := [], fields := [
    fd 22 0 .rw false 0xf4240 1000 8000000 false .host] },
  -- SAMPLER_CFG
  { base := 0x21510008, dims := [(1023, 0x8)], fields := [
    fd 63 63 .rw false 0 0 1 false .host,
    fd 62 62 .rw false 0 0 1 false .host,
    fd 61 61 .rw false 0 0 1 false .host,
    fd 60 51 .rw false 128 64 512 false .host,
    fd 50 27 .rw false 1 1 16777215 false .host,
    fd 15 0 .rw false 0 0 65535 false .host] },
  -- CLASS_STAGE_MISS
  { base := 0x20020008, dims := [(12, 0x100000), (8, 0x20)], fields := [
    fd 47 0 .img false 0 0 0xffffffffffff false .host] },
  -- CLASS_STAGE_KEY0
  { base := 0x20020010, dims := [(12, 0x100000), (8, 0x20)], fields := [
    fd 63 0 .img false 0 0 0xffffffffffffffff false .host] },
  -- CLASS_STAGE_KEY1
  { base := 0x20020018, dims := [(12, 0x100000), (8, 0x20)], fields := [
    fd 63 0 .img false 0 0 0xffffffffffffffff false .host] },
  -- RANGE_RESULT
  { base := 0x20031000, dims := [(12, 0x100000), (512, 0x8)], fields := [
    fd 47 0 .rw false 0 0 0xffffffffffff false .batch] },
  -- SPREAD_PROFILE_MASK_HI
  { base := 0x21300008, dims := [(16, 0x20)], fields := [
    fd 63 0 .img false 0 0 0xffffffffffffffff false .host] },
  -- SPREAD_PROFILE_MASK_LO
  { base := 0x21300010, dims := [(16, 0x20)], fields := [
    fd 63 0 .img false 0 0 0xffffffffffffffff false .host] }]

/-- Registers of chapter 7. -/
def regs07 : List RegDesc := [
  -- ASSOC_CTRL
  { base := 0x30000000, dims := [], fields := [
    fd 62 48 .img false 0 0 32767 false .host,
    fd 25 16 .rw false 10 1 1000 false .host,
    fd 8 0 .rw false 50 10 500 false .host] },
  -- ASSOC_TABLE_CFG
  { base := 0x30001000, dims := [(64, 0x10)], fields := [
    fd 63 62 .img false 0 0 2 false .host,
    fd 61 60 .img false 0 0 2 false .host,
    fd 59 58 .img false 0 0 2 false .host,
    fd 57 57 .img false 0 0 1 false .host,
    fd 56 56 .img false 1 0 1 false .host] },
  -- ASSOC_PART_HI
  { base := 0x30010000, dims := [(128, 0x40)], fields := [
    fd 63 0 .img false 0 0 0xffffffffffffffff false .host] },
  -- ASSOC_ARRAY_STATUS
  { base := 0x30010010, dims := [(128, 0x40)], fields := [
    fd 47 32 .ro false 0 0 65535 false .host,
    fd 31 17 .ro false 0 0 32767 false .host,
    fd 2 2 .ro false 0 0 1 false .host,
    fd 1 1 .w1c false 0 0 1 false .host,
    fd 0 0 .ro false 0 0 1 false .host] },
  -- ASSOC_MOVE
  { base := 0x30010018, dims := [(128, 0x40)], fields := [
    fd 63 49 .rw false 0 0 32767 false .firmware,
    fd 48 34 .rw false 0 0 32767 false .firmware,
    fd 33 18 .rw false 1 1 32768 false .firmware,
    fd 17 11 .rw false 0 0 127 false .firmware,
    fd 0 0 .sc false 0 0 1 false .firmware] },
  -- ASSOC_MOVE_STATUS
  { base := 0x30010020, dims := [(128, 0x40)], fields := [
    fd 31 16 .ro false 0 0 65535 false .host,
    fd 1 0 .ro false 0 0 3 false .host] },
  -- ASSOC_SEARCH
  { base := 0x20040000, dims := [(12, 0x100000), (4, 0x20)], fields := [
    fd 63 63 .img false 0 0 1 false .host,
    fd 62 57 .img false 0 0 63 false .host,
    fd 56 51 .img false 0 0 63 false .host,
    fd 50 43 .img false 0 0 255 false .host,
    fd 42 35 .img false 0 0 255 false .host,
    fd 34 33 .img false 0 0 2 false .host,
    fd 32 31 .img false 0 0 2 false .host,
    fd 30 30 .img false 0 0 1 false .host] },
  -- ASSOC_TABLE_TEMPLATE
  { base := 0x30001008, dims := [(64, 0x10)], fields := [
    fd 47 0 .img false 0 0 0xffffffffffff false .host] },
  -- ASSOC_PART_LO
  { base := 0x30010008, dims := [(128, 0x40)], fields := [
    fd 63 0 .img false 0 0 0xffffffffffffffff false .host] },
  -- ASSOC_SEARCH_MISS
  { base := 0x20040008, dims := [(12, 0x100000), (4, 0x20)], fields := [
    fd 47 0 .img false 0 0 0xffffffffffff false .host] },
  -- ASSOC_SEARCH_KEY0
  { base := 0x20040010, dims := [(12, 0x100000), (4, 0x20)], fields := [
    fd 63 0 .img false 0 0 0xffffffffffffffff false .host] },
  -- ASSOC_SEARCH_KEY1
  { base := 0x20040018, dims := [(12, 0x100000), (4, 0x20)], fields := [
    fd 63 0 .img false 0 0 0xffffffffffffffff false .host] }]

/-- Registers of chapter 8. -/
def regs08 : List RegDesc := [
  -- DIT_CTRL
  { base := 0x21400000, dims := [], fields := [
    fd 47 40 .img false 0 0 254 false .host,
    fd 39 32 .img false 38 16 120 false .host,
    fd 31 31 .img false 0 0 1 false .host,
    fd 30 30 .img false 1 0 1 false .host,
    fd 29 28 .rw false 1 0 2 false .host,
    fd 27 16 .rw false 20 11 600 false .host,
    fd 15 8 .rw false 20 2 200 false .host] },
  -- LEARN_CFG
  { base := 0x21400008, dims := [], fields := [
    fd 27 18 .img false 10 1 600 false .host,
    fd 17 15 .rw false 4 1 6 false .host,
    fd 14 8 .rw false 10 1 100 false .host,
    fd 0 0 .rw false 1 0 1 false .host] },
  -- LEARN_LOG_PTR
  { base := 0x21400010, dims := [], fields := [
    fd 63 48 .img false 0 0 65535 false .host,
    fd 31 16 .ro false 0 0 65535 false .host,
    fd 15 0 .rw false 0 0 65535 false .firmware] },
  -- TABLE_AGE_CFG
  { base := 0x21401000, dims := [(256, 0x8)], fields := [
    fd 18 18 .ro false 0 0 1 false .host,
    fd 17 2 .rw false 300 2 65000 false .host,
    fd 1 1 .img false 0 0 1 false .host,
    fd 0 0 .rw false 0 0 1 false .host] },
  -- DIT_SMAC
  { base := 0x21402000, dims := [(256, 0x8)], fields := [
    fd 47 0 .rw false 0 0 0xffffffffffff false .host] },
  -- DIT_PORT_CFG
  { base := 0x20050000, dims := [(12, 0x100000), (8, 0x10)], fields := [
    fd 63 44 .img false 0 0 1048575 false .host,
    fd 43 28 .rw false 0 0 65535 false .host,
    fd 27 27 .rw false 1 0 1 false .host,
    fd 26 26 .img false 0 0 1 false .host,
    fd 25 25 .rw false 0 0 1 false .host,
    fd 24 24 .rw false 0 0 1 false .host,
    fd 23 8 .ro false 0 0 65535 false .host] },
  -- FLOW_TABLE_CFG
  { base := 0x21600000, dims := [(16, 0x10)], fields := [
    fd 63 63 .img false 0 0 1 false .host,
    fd 61 48 .img false 0 0 16383 false .host,
    fd 47 43 .img false 0 10 23 false .host,
    fd 42 37 .img false 0 1 40 false .host,
    fd 36 25 .rw false 10 1 3600 false .host,
    fd 24 24 .rw false 0 0 1 false .host] },
  -- COMPARE_CTRL
  { base := 0x21700000, dims := [], fields := [
    fd 16 0 .rw false 60 10 86400 false .host] },
  -- COMPARE_STATUS
  { base := 0x21700008, dims := [], fields := [
    fd 0 0 .w1c false 0 0 1 false .host] },
  -- FLOW_TABLE_SEEDS
  { base := 0x21600008, dims := [(16, 0x10)], fields := [
    fd 63 48 .img false 0 0 65535 false .host,
    fd 47 32 .img false 0 0 65535 false .host] }]

/-- Registers of chapter 9. -/
def regs09 : List RegDesc := [
  -- ENGINE_TC_POLICY
  { base := 0x40000100, dims := [(8, 0x8)], fields := [
    fd 12 3 .img false 20 1 500 false .host,
    fd 2 2 .img false 0 0 1 false .host,
    fd 1 0 .img false 0 0 2 false .host] },
  -- ENGINE_PROG
  { base := 0x40001000, dims := [(255, 0x8)], fields := [
    fd 63 63 .img false 0 0 1 false .host,
    fd 62 55 .img false 0 0 255 false .host,
    fd 54 43 .img false 0 0 4095 false .host,
    fd 42 33 .img false 0 1 512 false .host,
    fd 32 21 .img false 400 50 4000 false .host,
    fd 20 19 .img false 1 0 3 false .host,
    fd 18 17 .img false 2 0 3 false .host] },
  -- ENGINE_CLUSTER_CTRL
  { base := 0x40100000, dims := [(8, 0x10000)], fields := [
    fd 47 36 .rw false 0 0 4095 false .host,
    fd 35 20 .rw false 1024 1 65535 false .host,
    fd 2 1 .rw false 0 0 3 false .host,
    fd 0 0 .rw false 0 0 1 false .host] },
  -- ENGINE_CLUSTER_STATUS
  { base := 0x40100008, dims := [(8, 0x10000)], fields := [
    fd 21 16 .ro false 0 0 63 false .host,
    fd 15 10 .ro false 0 0 63 false .host,
    fd 3 3 .ro false 0 0 1 false .host,
    fd 2 2 .ro false 0 0 1 false .host,
    fd 1 1 .ro false 0 0 1 false .host,
    fd 0 0 .ro false 0 0 1 false .host] },
  -- ENGINE_SAMPLE_PTR
  { base := 0x40100010, dims := [(8, 0x10000)], fields := [
    fd 27 16 .ro false 0 0 4095 false .host,
    fd 11 0 .rw false 0 0 4095 false .firmware] },
  -- ENGINE_STORE_WORD
  { base := 0x41000000, dims := [(8, 0x10000), (2048, 0x8)], fields := [
    fd 63 0 .img false 0 0 0xffffffffffffffff false .host] }]

/-- Registers of chapter 10. -/
def regs10 : List RegDesc := [
  -- TRAFFIC_POOL_STATUS
  { base := 0x50000000, dims := [], fields := [
    fd 53 45 .ro false 0 0 511 false .host,
    fd 44 19 .ro false 0 0 67108863 false .host,
    fd 15 0 .ro false 0 0 65535 false .host] },
  -- TRAFFIC_QUOTA
  { base := 0x50001000, dims := [(24, 0x10)], fields := [
    fd 57 32 .rw false 0 0 50331648 false .host,
    fd 15 0 .rw false 0 0 32768 false .host] },
  -- TRAFFIC_QUOTA_USED
  { base := 0x50001008, dims := [(24, 0x10)], fields := [
    fd 57 32 .ro false 0 0 67108863 false .host,
    fd 31 31 .ro false 0 0 1 false .host,
    fd 30 30 .ro false 0 0 1 false .host,
    fd 15 0 .ro false 0 0 65535 false .host] },
  -- TRAFFIC_ADMIT_PROFILE_HI
  { base := 0x50010000, dims := [(4096, 0x10)], fields := [
    fd 63 0 .img false 0 0 0xffffffffffffffff false .host] },
  -- TRAFFIC_PORT_TC_LIMIT
  { base := 0x50020000, dims := [(99, 0x40), (8, 0x8)], fields := [
    fd 63 40 .img false 0 0 16777215 false .host,
    fd 39 16 .img false 0 0 16777215 false .host] },
  -- TRAFFIC_PORT_CFG
  { base := 0x50030000, dims := [(96, 0x8)], fields := [
    fd 63 56 .img false 0 0 255 false .host,
    fd 1 1 .ro false 0 0 1 false .host,
    fd 0 0 .ro false 1 0 1 false .host] },
  -- TRAFFIC_FLUSH_STATUS
  { base := 0x50031000, dims := [], fields := [
    fd 44 32 .ro false 0 0 8191 false .host,
    fd 31 0 .ro false 0 0 4294967295 false .host] },
  -- TRAFFIC_ADMIT_PROFILE_LO
  { base := 0x50010008, dims := [(4096, 0x10)], fields := [
    fd 63 0 .img false 0 0 0xffffffffffffffff false .host] }]

/-- Registers of chapter 11. -/
def regs11 : List RegDesc := [
  -- HBM_CTRL
  { base := 0x60000000, dims := [(512, 0x4000)], fields := [
    fd 63 58 .img false 24 4 60 false .host,
    fd 57 52 .img false 8 0 63 false .host,
    fd 51 51 .img false 0 0 1 false .host,
    fd 50 41 .rw false 50 1 1000 false .host,
    fd 40 37 .rw false 3 1 15 false .host,
    fd 36 29 .rw false 50 10 255 false .host,
    fd 28 25 .rw false 6 2 8 false .host,
    fd 24 24 .rw false 0 0 1 false .host,
    fd 23 23 .sc false 0 0 1 false .host] },
  -- HBM_STATUS
  { base := 0x60000008, dims := [(512, 0x4000)], fields := [
    fd 47 40 .ro false 0 0 255 false .host,
    fd 31 28 .ro false 0 0 15 false .host,
    fd 27 23 .ro false 0 0 31 false .host,
    fd 4 4 .ro false 0 0 1 false .host,
    fd 3 3 .ro false 0 0 1 false .host,
    fd 2 0 .ro false 0 0 7 false .host] },
  -- HBM_SYNDROME
  { base := 0x60000010, dims := [(512, 0x4000)], fields := [
    fd 63 61 .ro false 0 0 7 false .host,
    fd 59 56 .ro false 0 0 15 false .host,
    fd 55 43 .ro false 0 0 8191 false .host,
    fd 42 37 .ro false 0 0 63 false .host,
    fd 36 23 .ro false 0 0 16383 false .host,
    fd 22 21 .ro false 0 0 3 false .host,
    fd 15 0 .ro false 0 0 65535 false .host] },
  -- HBM_POISON
  { base := 0x60000100, dims := [(512, 0x4000), (16, 0x8)], fields := [
    fd 63 63 .ro false 0 0 1 false .host,
    fd 62 40 .ro false 0 0 8388607 false .host] },
  -- HBM_CAPTURE_W0
  { base := 0x60001000, dims := [(512, 0x4000), (256, 0x10)], fields := [
    fd 63 0 .ro false 0 0 0xffffffffffffffff false .host] },
  -- HBM_STACK_CFG
  { base := 0x61000000, dims := [(8, 0x100)], fields := [
    fd 31 22 .rw false 100 10 1000 false .host,
    fd 21 17 .rw false 5 1 20 false .host,
    fd 0 0 .sc false 0 0 1 false .host] },
  -- HBM_STACK_STATUS
  { base := 0x61000008, dims := [(8, 0x100)], fields := [
    fd 23 16 .ro false 0 0 255 false .host,
    fd 15 8 .ro false 0 0 255 false .host,
    fd 7 7 .ro false 0 0 1 false .host] },
  -- HBM_CAPTURE_W1
  { base := 0x60001008, dims := [(512, 0x4000), (256, 0x10)], fields := [
    fd 63 0 .ro false 0 0 0xffffffffffffffff false .host] }]

/-- Registers of chapter 12. -/
def regs12 : List RegDesc := [
  -- TRAFFIC_DEVICE
  { base := 0x50040000, dims := [], fields := [
    fd 11 0 .img false 0 0 4095 false .host] },
  -- TRAFFIC_STUCK_CFG
  { base := 0x50040008, dims := [], fields := [
    fd 9 0 .rw false 100 10 1000 false .host] },
  -- TRAFFIC_SHAPER_SWEEP
  { base := 0x50040010, dims := [], fields := [
    fd 0 0 .ro false 0 0 1 false .host] },
  -- TRAFFIC_SHAPER_ASSIGN
  { base := 0x50040018, dims := [], fields := [
    fd 63 62 .rw false 0 0 2 false .host,
    fd 61 45 .rw false 0 0 131071 false .host,
    fd 44 33 .rw false 0 0 4095 false .host,
    fd 0 0 .sc false 0 0 1 false .host] },
  -- TRAFFIC_SHAPER_PROFILE_HI
  { base := 0x50070000, dims := [(4096, 0x10)], fields := [
    fd 63 0 .rw false 0 0 0xffffffffffffffff false .host] },
  -- TRAFFIC_VOQ_MAP
  { base := 0x50050000, dims := [(4096, 0x8)], fields := [
    fd 63 63 .img false 0 0 1 false .host,
    fd 62 44 .img false 0 0 524287 false .host,
    fd 43 37 .img false 0 0 127 false .host] },
  -- TRAFFIC_SCHED_PORT
  { base := 0x50060000, dims := [(512, 0x20)], fields := [
    fd 63 63 .img false 0 0 1 false .host,
    fd 62 62 .img false 0 0 1 false .host,
    fd 61 43 .img false 0 0 524287 false .host,
    fd 42 30 .img false 0 0 8191 false .host,
    fd 29 22 .img false 20 (-128) 127 true .host,
    fd 21 14 .img false 64 4 255 false .host] },
  -- HATBAND_CFG
  { base := 0x50080000, dims := [(96, 0x80)], fields := [
    fd 63 63 .img false 0 0 1 false .host,
    fd 62 62 .ro false 0 0 1 false .host,
    fd 61 61 .ro false 0 0 1 false .host,
    fd 60 60 .sc false 0 0 1 false .host,
    fd 59 59 .sc false 0 0 1 false .host,
    fd 58 47 .img false 190 0 4095 false .host,
    fd 46 37 .rw false 16 0 1023 false .host] },
  -- HATBAND_TAKEOVER
  { base := 0x50080008, dims := [(96, 0x80)], fields := [
    fd 47 0 .rw false 0 0 0xffffffffffff false .host] },
  -- HATBAND_STATUS
  { base := 0x50080018, dims := [(96, 0x80)], fields := [
    fd 41 30 .ro false 0 0 4095 false .host,
    fd 2 0 .ro false 0 0 7 false .host] },
  -- HATBAND_LIST
  { base := 0x50080020, dims := [(96, 0x80), (2, 0x20)], fields := [
    fd 63 16 .rw false 0 0 0xffffffffffff false .host,
    fd 10 0 .rw false 0 0 2047 false .host] },
  -- TRAFFIC_REPL_STATUS
  { base := 0x50040020, dims := [], fields := [
    fd 18 0 .ro false 0 0 524287 false .host] },
  -- TRAFFIC_SHAPER_PROFILE_LO
  { base := 0x50070008, dims := [(4096, 0x10)], fields := [
    fd 63 0 .rw false 0 0 0xffffffffffffffff false .host] },
  -- HATBAND_TAKEOVER_NS
  { base := 0x50080010, dims := [(96, 0x80)], fields := [
    fd 29 0 .rw false 0 0 1073741823 false .host] },
  -- HATBAND_LIST_W1
  { base := 0x50080028, dims := [(96, 0x80), (2, 0x20)], fields := [
    fd 63 34 .rw false 0 0 1073741823 false .host,
    fd 33 2 .rw false 0 0 4294967295 false .host] },
  -- HATBAND_ENTRY_WORD
  { base := 0x50100000, dims := [(96, 0x2000), (2, 0x1000), (512, 0x8)], fields := [
    fd 63 0 .rw false 0 0 0xffffffffffffffff false .host] }]

/-- Registers of chapter 13. -/
def regs13 : List RegDesc := [
  -- FABRIC_GROUP_CFG
  { base := 0x70000000, dims := [(60, 0x100)], fields := [
    fd 63 63 .img false 0 0 1 false .host,
    fd 62 56 .img false 0 0 119 false .host,
    fd 55 53 .img false 0 0 7 false .host,
    fd 52 52 .img false 0 0 1 false .host,
    fd 51 48 .img false 2 1 2 false .host,
    fd 47 44 .img false 1 1 2 false .host,
    fd 43 40 .rw false 4 2 15 false .host,
    fd 39 35 .rw false 6 2 31 false .host] },
  -- FABRIC_GROUP_STATUS
  { base := 0x70000008, dims := [(60, 0x100)], fields := [
    fd 63 56 .ro false 0 0 255 false .host,
    fd 55 48 .ro false 0 0 255 false .host,
    fd 47 44 .ro false 0 0 15 false .host,
    fd 43 43 .ro false 0 0 1 false .host,
    fd 42 42 .ro false 0 0 1 false .host,
    fd 41 32 .ro false 0 0 1023 false .host,
    fd 31 20 .ro false 0 0 4095 false .host] },
  -- FABRIC_LANE_STATUS
  { base := 0x70010000, dims := [(120, 0x8)], fields := [
    fd 63 62 .ro false 0 0 3 false .host,
    fd 61 61 .ro false 0 0 1 false .host,
    fd 60 56 .ro false 0 0 31 false .host,
    fd 55 52 .ro false 0 0 15 false .host,
    fd 51 40 .ro false 0 0 4095 false .host,
    fd 39 30 .ro false 0 0 1023 false .host,
    fd 29 18 .ro false 0 0 4095 false .host,
    fd 17 14 .ro false 0 0 15 false .host] },
  -- FABRIC_CTRL
  { base := 0x70200000, dims := [], fields := [
    fd 63 54 .rw false 20 2 1000 false .host,
    fd 53 44 .rw false 10 1 1000 false .host,
    fd 43 34 .rw false 10 2 1000 false .host,
    fd 33 27 .rw false 4 1 64 false .host,
    fd 26 16 .rw false 64 8 2047 false .host,
    fd 15 6 .rw false 32 1 1000 false .host] },
  -- FABRIC_DEVICE_STATUS
  { base := 0x70100000, dims := [(4096, 0x8)], fields := [
    fd 7 7 .ro false 0 0 1 false .host,
    fd 6 6 .ro false 0 0 1 false .host,
    fd 5 5 .ro false 0 0 1 false .host,
    fd 4 4 .w1c false 0 0 1 false .host] }]

/-- Registers of chapter 14. -/
def regs14 : List RegDesc := [
  -- EPOCH_STATE
  { base := 0x2000, dims := [], fields := [
    fd 63 48 .ro true 0 0 65535 false .host,
    fd 47 32 .ro true 0 0 65535 false .host,
    fd 11 8 .ro true 0 0 15 false .host,
    fd 2 0 .ro true 0 0 7 false .host] },
  -- EPOCH_CTRL
  { base := 0x2008, dims := [], fields := [
    fd 45 32 .rw true 100 10 10000 false .host,
    fd 31 16 .rw true 100 10 10000 false .host,
    fd 3 3 .sc false 0 0 1 false .host,
    fd 2 2 .sc false 0 0 1 false .host,
    fd 1 1 .sc false 0 0 1 false .host,
    fd 0 0 .sc false 0 0 1 false .host] },
  -- EPOCH_SWITCH_TIME
  { base := 0x2010, dims := [], fields := [
    fd 47 0 .rw true 0 0 0xffffffffffff false .host] },
  -- EPOCH_INFLIGHT
  { base := 0x2020, dims := [], fields := [
    fd 63 32 .ro false 0 0 4294967295 false .host,
    fd 31 0 .ro false 0 0 4294967295 false .host] },
  -- EPOCH_BANK_SEL
  { base := 0x2028, dims := [], fields := [
    fd 63 0 .ro true 0 0 0xffffffffffffffff false .host] },
  -- EPOCH_SWITCH_NS
  { base := 0x2018, dims := [], fields := [
    fd 29 0 .rw true 0 0 1073741823 false .host] },
  -- EPOCH_BANK_SEL_NEXT
  { base := 0x2030, dims := [], fields := [
    fd 63 0 .ro true 0 0 0xffffffffffffffff false .host] }]

/-- Registers of chapter 15. -/
def regs15 : List RegDesc := [
  -- TIME_SRC_CFG
  { base := 0x3000, dims := [], fields := [
    fd 63 61 .rw true 0 0 4 false .host,
    fd 60 58 .rw true 0 0 4 false .host,
    fd 57 55 .rw true 0 0 4 false .host,
    fd 54 53 .rw true 0 0 2 false .host,
    fd 52 41 .rw true 0 0 4095 false .host,
    fd 40 31 .rw true 10 1 600 false .host,
    fd 30 21 .rw true 100 10 1000 false .host,
    fd 20 15 .rw true 2 1 60 false .host] },
  -- TIME_SERVO
  { base := 0x3008, dims := [], fields := [
    fd 63 50 .rw true 100 1 10000 false .host,
    fd 49 40 .rw true 20 2 1000 false .host,
    fd 39 26 .rw true 1000 10 16000 false .host,
    fd 25 17 .rw true 50 1 500 false .host,
    fd 16 16 .rw true 0 0 1 false .host,
    fd 15 5 .rw true 240 1 1440 false .host] },
  -- TIME_OUT_CFG
  { base := 0x3010, dims := [], fields := [
    fd 63 44 .rw true 0x186a0 1 500000 false .host,
    fd 43 28 .rw true 0 (-32768) 32767 true .host,
    fd 27 26 .rw true 0 0 2 false .host,
    fd 23 4 .rw true 0x1c200 9600 921600 false .host,
    fd 0 0 .rw true 1 0 1 false .host] },
  -- TIME_STATUS
  { base := 0x3018, dims := [], fields := [
    fd 63 56 .ro true 96 0 255 false .host,
    fd 55 48 .ro true 0 0 255 false .host,
    fd 47 45 .ro true 0 0 7 false .host,
    fd 44 43 .ro true 0 0 3 false .host,
    fd 42 42 .ro true 0 0 1 false .host,
    fd 41 41 .ro true 0 0 1 false .host,
    fd 31 0 .ro true 0 (-2147483648) 2147483647 true .host] },
  -- TIME_NOW
  { base := 0x3020, dims := [], fields := [
    fd 47 0 .ro true 0 0 0xffffffffffff false .host] },
  -- TIME_ADJ
  { base := 0x3030, dims := [], fields := [
    fd 63 63 .sc false 0 0 1 false .host,
    fd 62 62 .rw true 0 0 1 false .host,
    fd 39 0 .rw true 0 (-549755813888) 0x7fffffffff true .host] },
  -- TIME_UTC
  { base := 0x3040, dims := [], fields := [
    fd 18 16 .rw true 0 0 7 false .host,
    fd 15 0 .rw true 0 (-32768) 32767 true .host] },
  -- TIME_NOW_NS
  { base := 0x3028, dims := [], fields := [
    fd 37 8 .ro true 0 0 1073741823 false .host,
    fd 7 0 .ro true 0 0 255 false .host] },
  -- TIME_FREQ
  { base := 0x3038, dims := [], fields := [
    fd 31 0 .rw true 0 (-51200000) 51200000 true .host] }]

/-- Registers of chapter 16. -/
def regs16 : List RegDesc := [
  -- GOV_BUDGET
  { base := 0x4000, dims := [], fields := [
    fd 63 54 .rw true 560 200 600 false .host,
    fd 53 44 .img false 0 0 600 false .host,
    fd 43 32 .rw true 100 10 4000 false .host,
    fd 31 22 .rw true 100 1 1000 false .host,
    fd 21 21 .rw true 1 0 1 false .host] },
  -- GOV_CLASS
  { base := 0x4008, dims := [], fields := [
    fd 63 53 .rw true 256 1 1024 false .host,
    fd 52 42 .rw true 0 0 1024 false .host,
    fd 41 31 .rw true 16 1 1024 false .host] },
  -- GOV_RAIL
  { base := 0x4010, dims := [], fields := [
    fd 63 58 .rw true 20 5 60 false .host,
    fd 57 52 .rw true 8 0 32 false .host,
    fd 51 46 .rw true 4 0 32 false .host] },
  -- GOV_PFW
  { base := 0x4018, dims := [], fields := [
    fd 63 55 .rw true 60 10 280 false .host,
    fd 54 46 .rw true 40 10 180 false .host,
    fd 45 40 .rw true 20 5 60 false .host,
    fd 39 30 .rw true 10 1 1000 false .host] },
  -- GOV_STATUS
  { base := 0x4020, dims := [], fields := [
    fd 63 54 .ro true 560 0 1023 false .host,
    fd 53 51 .ro true 0 0 7 false .host,
    fd 50 50 .ro true 0 0 1 false .host,
    fd 49 48 .ro true 0 0 3 false .host,
    fd 47 45 .ro false 0 0 7 false .host,
    fd 44 43 .ro false 0 0 3 false .host,
    fd 31 0 .ro false 0 0 4294967295 false .host] },
  -- GOV_SPEND
  { base := 0x4028, dims := [], fields := [
    fd 63 48 .ro false 0 0 65535 false .host,
    fd 47 32 .ro false 0 0 65535 false .host,
    fd 31 16 .ro false 0 0 65535 false .host,
    fd 15 0 .ro false 0 0 65535 false .host] },
  -- GOV_RAIL_STATUS
  { base := 0x4030, dims := [], fields := [
    fd 63 54 .ro false 0 0 1023 false .host,
    fd 53 44 .ro false 0 0 1023 false .host,
    fd 43 36 .ro false 0 0 255 false .host,
    fd 35 26 .ro false 0 0 1023 false .host,
    fd 25 16 .ro false 0 0 1023 false .host,
    fd 15 8 .ro false 0 0 255 false .host] },
  -- GOV_THERM_CFG
  { base := 0x4040, dims := [], fields := [
    fd 63 56 .rw true 90 60 110 false .host,
    fd 55 48 .rw true 95 60 110 false .host,
    fd 47 40 .rw true 100 60 110 false .host,
    fd 39 32 .rw true 105 60 110 false .host,
    fd 31 28 .rw true 3 1 10 false .host] },
  -- GOV_SENSOR
  { base := 0x4100, dims := [(24, 0x8)], fields := [
    fd 17 10 .ro true 0 0 255 false .host,
    fd 9 2 .ro false 0 0 255 false .host,
    fd 1 1 .sc false 0 0 1 false .host,
    fd 0 0 .ro true 0 0 1 false .host] }]

/-- Registers of chapter 17. -/
def regs17 : List RegDesc := [
  -- FCP_CFG
  { base := 0x5000, dims := [], fields := [
    fd 63 16 .img false 0 0 0xffffffffffff false .host,
    fd 15 0 .img false 34997 0 65535 false .host] },
  -- FCP_CTRL
  { base := 0x5008, dims := [], fields := [
    fd 63 44 .img false 0x186a0 1000 1000000 false .host,
    fd 43 41 .img false 7 0 7 false .host,
    fd 40 35 .rw false 3 1 60 false .host,
    fd 3 0 .ro false 0 0 15 false .host] },
  -- WDOG_CTRL
  { base := 0x7000, dims := [], fields := [
    fd 63 47 .rw true 1000 100 10000 false .host,
    fd 0 0 .sc false 0 0 1 false .firmware] },
  -- BOARD_HEARTBEAT
  { base := 0x7008, dims := [], fields := [
    fd 31 0 .rw true 0 0 4294967295 false .firmware] },
  -- BOARD_CFG
  { base := 0x7010, dims := [], fields := [
    fd 63 58 .rw true 5 1 60 false .host] },
  -- FCP_PORTS_LO
  { base := 0x5010, dims := [], fields := [
    fd 63 0 .img false 0 0 0xffffffffffffffff false .host] },
  -- FCP_PORTS_HI
  { base := 0x5018, dims := [], fields := [
    fd 31 0 .img false 0 0 4294967295 false .host] },
  -- FCP_PEER_WORD
  { base := 0x5100, dims := [(16, 0x40), (8, 0x8)], fields := [
    fd 63 0 .img false 0 0 0xffffffffffffffff false .host] }]

/-- Registers of chapter 18. -/
def regs18 : List RegDesc := [
  -- DUMP_CTRL
  { base := 0x6100, dims := [], fields := [
    fd 63 50 .rw true 1000 1 10000 false .host,
    fd 49 35 .img false 0 0 32767 false .host,
    fd 34 20 .img false 0 0 32767 false .host] },
  -- DUMP_STATUS
  { base := 0x6108, dims := [], fields := [
    fd 63 32 .ro true 0 0 4294967295 false .host,
    fd 31 26 .ro true 0 0 63 false .host,
    fd 25 16 .ro true 0 0 1023 false .host,
    fd 0 0 .ro false 0 0 1 false .host] },
  -- TELE_CTRL
  { base := 0x6110, dims := [], fields := [
    fd 63 63 .rw true 1 0 1 false .host,
    fd 62 48 .rw true 1000 10 20000 false .host,
    fd 47 34 .rw true 1500 576 9000 false .host,
    fd 33 26 .rw true 1 1 255 false .host,
    fd 25 10 .rw true 49200 1024 65535 false .host,
    fd 9 7 .rw true 6 0 7 false .host] },
  -- CNT_ACCESS
  { base := 0x6128, dims := [], fields := [
    fd 63 32 .img false 0 0 4294967295 false .host,
    fd 31 0 .img false 0 0 4294967295 false .host] },
  -- TELE_COLLECTOR
  { base := 0x6200, dims := [(4, 0x40)], fields := [
    fd 63 63 .rw true 0 0 1 false .host,
    fd 62 62 .rw true 0 0 1 false .host,
    fd 61 55 .rw true 0 0 127 false .host,
    fd 54 48 .rw true 96 0 97 false .host,
    fd 47 0 .rw true 0 0 0xffffffffffff false .host] },
  -- CNT_FILTER
  { base := 0x6400, dims := [(64, 0x20)], fields := [
    fd 63 63 .rw true 0 0 1 false .host,
    fd 62 60 .rw true 0 0 5 false .host,
    fd 59 56 .rw true 0 0 15 false .host,
    fd 55 48 .rw true 0 0 255 false .host,
    fd 47 39 .rw true 0 0 511 false .host,
    fd 38 30 .rw true 0 0 511 false .host,
    fd 0 0 .ro true 0 0 1 false .host] },
  -- TRACE_CFG
  { base := 0x20060000, dims := [(12, 0x100000)], fields := [
    fd 63 63 .rw false 0 0 1 false .host,
    fd 62 39 .rw false 0x10000 1 16777215 false .host,
    fd 38 31 .rw false 0 0 255 false .host,
    fd 30 23 .rw false 0 0 255 false .host] },
  -- TELE_SRC_HI
  { base := 0x6118, dims := [], fields := [
    fd 63 0 .rw true 0 0 0xffffffffffffffff false .host] },
  -- TELE_SRC_LO
  { base := 0x6120, dims := [], fields := [
    fd 63 0 .rw true 0 0 0xffffffffffffffff false .host] },
  -- TELE_COLLECTOR_UDP
  { base := 0x6208, dims := [(4, 0x40)], fields := [
    fd 63 48 .rw true 0 0 65535 false .host] },
  -- TELE_COLLECTOR_ADDR_HI
  { base := 0x6210, dims := [(4, 0x40)], fields := [
    fd 63 0 .rw true 0 0 0xffffffffffffffff false .host] },
  -- TELE_COLLECTOR_ADDR_LO
  { base := 0x6218, dims := [(4, 0x40)], fields := [
    fd 63 0 .rw true 0 0 0xffffffffffffffff false .host] },
  -- CNT_FILTER_LO
  { base := 0x6408, dims := [(64, 0x20)], fields := [
    fd 47 0 .rw true 0 0 0xffffffffffff false .host] },
  -- CNT_FILTER_HI
  { base := 0x6410, dims := [(64, 0x20)], fields := [
    fd 47 0 .rw true 0 0 0xffffffffffff false .host] }]

/-- Registers of chapter 19. -/
def regs19 : List RegDesc := [
  -- BIST_CTRL
  { base := 0x8000, dims := [], fields := [
    fd 63 62 .img false 3 0 3 false .host,
    fd 61 52 .rw true 100 1 1000 false .host,
    fd 51 47 .ro false 0 0 31 false .host,
    fd 46 45 .ro false 0 0 3 false .host] },
  -- BIST_SEG_STATUS
  { base := 0x8100, dims := [(180, 0x8)], fields := [
    fd 63 61 .ro true 0 0 7 false .host,
    fd 60 58 .ro true 0 0 7 false .host,
    fd 57 56 .ro true 0 0 3 false .host,
    fd 55 48 .ro true 0 0 255 false .host,
    fd 47 32 .ro true 0 0 65535 false .host,
    fd 31 24 .ro true 0 0 255 false .host] },
  -- BIST_SIG
  { base := 0x8800, dims := [(180, 0x8)], fields := [
    fd 63 0 .ro true 0 0 0xffffffffffffffff false .host] },
  -- BIST_GOLDEN
  { base := 0x9000, dims := [(180, 0x20), (4, 0x8)], fields := [
    fd 63 0 .img false 0 0 0xffffffffffffffff false .host] }]

/-- The register tables, one list a chapter. -/
def regChapters : List (List RegDesc) :=
  [regs01, regs02, regs03, regs04, regs05, regs06, regs07, regs08, regs09, regs10, regs11, regs12, regs13, regs14, regs15, regs16, regs17, regs18, regs19]

/-- The register block an address belongs to, if any. -/
def findReg (a : Nat) : Option RegDesc :=
  regChapters.findSome? (fun c => c.find? (fun d => d.hit a))

/-- The value a register reads as when nothing has written it: its value after cold reset (R11). -/
def resetOf (a : Nat) : Word :=
  match findReg a with
  | some d => d.resetWord
  | none => 0

namespace Reg
/-- BRIDGE_CTRL -/
def bridgeCtrl : Nat := 0x21800000
/-- BOOT_STATUS -/
def bootStatus : Nat := 0x1000
/-- BOOT_POLICY -/
def bootPolicy : Nat := 0x1008
/-- FUSE_STATUS -/
def fuseStatus : Nat := 0x1010
/-- LINE_PORT_CFG -/
def linePortCfg (i : Nat) : Nat := 0x10000000 + 0x1000 * i
/-- LINE_PORT_CTRL -/
def linePortCtrl (i : Nat) : Nat := 0x10000008 + 0x1000 * i
/-- LINE_PORT_STATUS -/
def linePortStatus (i : Nat) : Nat := 0x10000010 + 0x1000 * i
/-- LINE_TSP_ADJ -/
def lineTspAdj (i : Nat) : Nat := 0x10000018 + 0x1000 * i
/-- LINE_TSP_RING_PTR -/
def lineTspRingPtr (i : Nat) : Nat := 0x10000020 + 0x1000 * i
/-- LINE_FLEXE_CFG -/
def lineFlexeCfg (i : Nat) : Nat := 0x10100000 + 0x1000 * i
/-- LINE_FLEXE_CTRL -/
def lineFlexeCtrl (i : Nat) : Nat := 0x10100008 + 0x1000 * i
/-- LINE_FLEXE_STATUS -/
def lineFlexeStatus (i : Nat) : Nat := 0x10100010 + 0x1000 * i
/-- LINE_TSP_RING_WORD -/
def lineTspRingWord (i j : Nat) : Nat := 0x10000800 + 0x1000 * i + 0x8 * j
/-- LINE_FLEXE_CAL_A -/
def lineFlexeCalA (i j : Nat) : Nat := 0x10100800 + 0x1000 * i + 0x8 * j
/-- LINE_FLEXE_CAL_B -/
def lineFlexeCalB (i j : Nat) : Nat := 0x10100940 + 0x1000 * i + 0x8 * j
/-- MACSEC_ALARM -/
def macsecAlarm : Nat := 0x101f0000
/-- MACSEC_SECY_CFG -/
def macsecSecyCfg (i : Nat) : Nat := 0x10200000 + 0x10000 * i
/-- MACSEC_SECY_CTRL -/
def macsecSecyCtrl (i : Nat) : Nat := 0x10200008 + 0x10000 * i
/-- MACSEC_SC_CFG -/
def macsecScCfg (i j : Nat) : Nat := 0x10201000 + 0x10000 * i + 0x200 * j
/-- MACSEC_SC_CTRL -/
def macsecScCtrl (i j : Nat) : Nat := 0x10201008 + 0x10000 * i + 0x200 * j
/-- MACSEC_SA_CTRL -/
def macsecSaCtrl (i j k : Nat) : Nat := 0x10201070 + 0x10000 * i + 0x200 * j + 0x40 * k
/-- MACSEC_SA_PN -/
def macsecSaPn (i j k : Nat) : Nat := 0x10201078 + 0x10000 * i + 0x200 * j + 0x40 * k
/-- MACSEC_SA_KEY0 -/
def macsecSaKey0 (i j k : Nat) : Nat := 0x10201040 + 0x10000 * i + 0x200 * j + 0x40 * k
/-- MACSEC_SA_KEY1 -/
def macsecSaKey1 (i j k : Nat) : Nat := 0x10201048 + 0x10000 * i + 0x200 * j + 0x40 * k
/-- MACSEC_SA_KEY2 -/
def macsecSaKey2 (i j k : Nat) : Nat := 0x10201050 + 0x10000 * i + 0x200 * j + 0x40 * k
/-- MACSEC_SA_KEY3 -/
def macsecSaKey3 (i j k : Nat) : Nat := 0x10201058 + 0x10000 * i + 0x200 * j + 0x40 * k
/-- MACSEC_SA_SALT0 -/
def macsecSaSalt0 (i j k : Nat) : Nat := 0x10201060 + 0x10000 * i + 0x200 * j + 0x40 * k
/-- MACSEC_SA_SALT1 -/
def macsecSaSalt1 (i j k : Nat) : Nat := 0x10201068 + 0x10000 * i + 0x200 * j + 0x40 * k
/-- PARSER_SLICE_CFG -/
def parserSliceCfg (i : Nat) : Nat := 0x20000000 + 0x100000 * i
/-- PARSER_SLICE_STATUS -/
def parserSliceStatus (i : Nat) : Nat := 0x20000008 + 0x100000 * i
/-- PARSER_PORT_CFG -/
def parserPortCfg (i j : Nat) : Nat := 0x20000100 + 0x100000 * i + 0x10 * j
/-- FRAG_CFG -/
def fragCfg : Nat := 0x21100000
/-- FRAG_STATUS -/
def fragStatus : Nat := 0x21100008
/-- PARSER_FORM_WORD -/
def parserFormWord (i j k : Nat) : Nat := 0x20010000 + 0x100000 * i + 0x80 * j + 0x8 * k
/-- CLASS_PORT_CFG -/
def classPortCfg (i j : Nat) : Nat := 0x20021000 + 0x100000 * i + 0x10 * j
/-- CLASS_STAGE_CFG -/
def classStageCfg (i j : Nat) : Nat := 0x20020000 + 0x100000 * i + 0x20 * j
/-- EMHASH_TABLE_CFG -/
def emhashTableCfg (i : Nat) : Nat := 0x21200000 + 0x8 * i
/-- RANGE_CMP -/
def rangeCmp (i j : Nat) : Nat := 0x20030000 + 0x100000 * i + 0x8 * j
/-- SPREAD_PROFILE -/
def spreadProfile (i : Nat) : Nat := 0x21300000 + 0x20 * i
/-- MIRROR_SESSION -/
def mirrorSession (i : Nat) : Nat := 0x21500000 + 0x8 * i
/-- SAMPLE_CTRL -/
def sampleCtrl : Nat := 0x21500200
/-- SAMPLER_CFG -/
def samplerCfg (i : Nat) : Nat := 0x21510000 + 0x8 * i
/-- CLASS_STAGE_MISS -/
def classStageMiss (i j : Nat) : Nat := 0x20020008 + 0x100000 * i + 0x20 * j
/-- CLASS_STAGE_KEY0 -/
def classStageKey0 (i j : Nat) : Nat := 0x20020010 + 0x100000 * i + 0x20 * j
/-- CLASS_STAGE_KEY1 -/
def classStageKey1 (i j : Nat) : Nat := 0x20020018 + 0x100000 * i + 0x20 * j
/-- RANGE_RESULT -/
def rangeResult (i j : Nat) : Nat := 0x20031000 + 0x100000 * i + 0x8 * j
/-- SPREAD_PROFILE_MASK_HI -/
def spreadProfileMaskHi (i : Nat) : Nat := 0x21300008 + 0x20 * i
/-- SPREAD_PROFILE_MASK_LO -/
def spreadProfileMaskLo (i : Nat) : Nat := 0x21300010 + 0x20 * i
/-- ASSOC_CTRL -/
def assocCtrl : Nat := 0x30000000
/-- ASSOC_TABLE_CFG -/
def assocTableCfg (i : Nat) : Nat := 0x30001000 + 0x10 * i
/-- ASSOC_PART_HI -/
def assocPartHi (i : Nat) : Nat := 0x30010000 + 0x40 * i
/-- ASSOC_ARRAY_STATUS -/
def assocArrayStatus (i : Nat) : Nat := 0x30010010 + 0x40 * i
/-- ASSOC_MOVE -/
def assocMove (i : Nat) : Nat := 0x30010018 + 0x40 * i
/-- ASSOC_MOVE_STATUS -/
def assocMoveStatus (i : Nat) : Nat := 0x30010020 + 0x40 * i
/-- ASSOC_SEARCH -/
def assocSearch (i j : Nat) : Nat := 0x20040000 + 0x100000 * i + 0x20 * j
/-- ASSOC_TABLE_TEMPLATE -/
def assocTableTemplate (i : Nat) : Nat := 0x30001008 + 0x10 * i
/-- ASSOC_PART_LO -/
def assocPartLo (i : Nat) : Nat := 0x30010008 + 0x40 * i
/-- ASSOC_SEARCH_MISS -/
def assocSearchMiss (i j : Nat) : Nat := 0x20040008 + 0x100000 * i + 0x20 * j
/-- ASSOC_SEARCH_KEY0 -/
def assocSearchKey0 (i j : Nat) : Nat := 0x20040010 + 0x100000 * i + 0x20 * j
/-- ASSOC_SEARCH_KEY1 -/
def assocSearchKey1 (i j : Nat) : Nat := 0x20040018 + 0x100000 * i + 0x20 * j
/-- DIT_CTRL -/
def ditCtrl : Nat := 0x21400000
/-- LEARN_CFG -/
def learnCfg : Nat := 0x21400008
/-- LEARN_LOG_PTR -/
def learnLogPtr : Nat := 0x21400010
/-- TABLE_AGE_CFG -/
def tableAgeCfg (i : Nat) : Nat := 0x21401000 + 0x8 * i
/-- DIT_SMAC -/
def ditSmac (i : Nat) : Nat := 0x21402000 + 0x8 * i
/-- DIT_PORT_CFG -/
def ditPortCfg (i j : Nat) : Nat := 0x20050000 + 0x100000 * i + 0x10 * j
/-- FLOW_TABLE_CFG -/
def flowTableCfg (i : Nat) : Nat := 0x21600000 + 0x10 * i
/-- COMPARE_CTRL -/
def compareCtrl : Nat := 0x21700000
/-- COMPARE_STATUS -/
def compareStatus : Nat := 0x21700008
/-- FLOW_TABLE_SEEDS -/
def flowTableSeeds (i : Nat) : Nat := 0x21600008 + 0x10 * i
/-- ENGINE_TC_POLICY -/
def engineTcPolicy (i : Nat) : Nat := 0x40000100 + 0x8 * i
/-- ENGINE_PROG -/
def engineProg (i : Nat) : Nat := 0x40001000 + 0x8 * i
/-- ENGINE_CLUSTER_CTRL -/
def engineClusterCtrl (i : Nat) : Nat := 0x40100000 + 0x10000 * i
/-- ENGINE_CLUSTER_STATUS -/
def engineClusterStatus (i : Nat) : Nat := 0x40100008 + 0x10000 * i
/-- ENGINE_SAMPLE_PTR -/
def engineSamplePtr (i : Nat) : Nat := 0x40100010 + 0x10000 * i
/-- ENGINE_STORE_WORD -/
def engineStoreWord (i j : Nat) : Nat := 0x41000000 + 0x10000 * i + 0x8 * j
/-- TRAFFIC_POOL_STATUS -/
def trafficPoolStatus : Nat := 0x50000000
/-- TRAFFIC_QUOTA -/
def trafficQuota (i : Nat) : Nat := 0x50001000 + 0x10 * i
/-- TRAFFIC_QUOTA_USED -/
def trafficQuotaUsed (i : Nat) : Nat := 0x50001008 + 0x10 * i
/-- TRAFFIC_ADMIT_PROFILE_HI -/
def trafficAdmitProfileHi (i : Nat) : Nat := 0x50010000 + 0x10 * i
/-- TRAFFIC_PORT_TC_LIMIT -/
def trafficPortTcLimit (i j : Nat) : Nat := 0x50020000 + 0x40 * i + 0x8 * j
/-- TRAFFIC_PORT_CFG -/
def trafficPortCfg (i : Nat) : Nat := 0x50030000 + 0x8 * i
/-- TRAFFIC_FLUSH_STATUS -/
def trafficFlushStatus : Nat := 0x50031000
/-- TRAFFIC_ADMIT_PROFILE_LO -/
def trafficAdmitProfileLo (i : Nat) : Nat := 0x50010008 + 0x10 * i
/-- HBM_CTRL -/
def hbmCtrl (i : Nat) : Nat := 0x60000000 + 0x4000 * i
/-- HBM_STATUS -/
def hbmStatus (i : Nat) : Nat := 0x60000008 + 0x4000 * i
/-- HBM_SYNDROME -/
def hbmSyndrome (i : Nat) : Nat := 0x60000010 + 0x4000 * i
/-- HBM_POISON -/
def hbmPoison (i j : Nat) : Nat := 0x60000100 + 0x4000 * i + 0x8 * j
/-- HBM_CAPTURE_W0 -/
def hbmCaptureW0 (i j : Nat) : Nat := 0x60001000 + 0x4000 * i + 0x10 * j
/-- HBM_STACK_CFG -/
def hbmStackCfg (i : Nat) : Nat := 0x61000000 + 0x100 * i
/-- HBM_STACK_STATUS -/
def hbmStackStatus (i : Nat) : Nat := 0x61000008 + 0x100 * i
/-- HBM_CAPTURE_W1 -/
def hbmCaptureW1 (i j : Nat) : Nat := 0x60001008 + 0x4000 * i + 0x10 * j
/-- TRAFFIC_DEVICE -/
def trafficDevice : Nat := 0x50040000
/-- TRAFFIC_STUCK_CFG -/
def trafficStuckCfg : Nat := 0x50040008
/-- TRAFFIC_SHAPER_SWEEP -/
def trafficShaperSweep : Nat := 0x50040010
/-- TRAFFIC_SHAPER_ASSIGN -/
def trafficShaperAssign : Nat := 0x50040018
/-- TRAFFIC_SHAPER_PROFILE_HI -/
def trafficShaperProfileHi (i : Nat) : Nat := 0x50070000 + 0x10 * i
/-- TRAFFIC_VOQ_MAP -/
def trafficVoqMap (i : Nat) : Nat := 0x50050000 + 0x8 * i
/-- TRAFFIC_SCHED_PORT -/
def trafficSchedPort (i : Nat) : Nat := 0x50060000 + 0x20 * i
/-- HATBAND_CFG -/
def hatbandCfg (i : Nat) : Nat := 0x50080000 + 0x80 * i
/-- HATBAND_TAKEOVER -/
def hatbandTakeover (i : Nat) : Nat := 0x50080008 + 0x80 * i
/-- HATBAND_STATUS -/
def hatbandStatus (i : Nat) : Nat := 0x50080018 + 0x80 * i
/-- HATBAND_LIST -/
def hatbandList (i j : Nat) : Nat := 0x50080020 + 0x80 * i + 0x20 * j
/-- TRAFFIC_REPL_STATUS -/
def trafficReplStatus : Nat := 0x50040020
/-- TRAFFIC_SHAPER_PROFILE_LO -/
def trafficShaperProfileLo (i : Nat) : Nat := 0x50070008 + 0x10 * i
/-- HATBAND_TAKEOVER_NS -/
def hatbandTakeoverNs (i : Nat) : Nat := 0x50080010 + 0x80 * i
/-- HATBAND_LIST_W1 -/
def hatbandListW1 (i j : Nat) : Nat := 0x50080028 + 0x80 * i + 0x20 * j
/-- HATBAND_ENTRY_WORD -/
def hatbandEntryWord (i j k : Nat) : Nat := 0x50100000 + 0x2000 * i + 0x1000 * j + 0x8 * k
/-- FABRIC_GROUP_CFG -/
def fabricGroupCfg (i : Nat) : Nat := 0x70000000 + 0x100 * i
/-- FABRIC_GROUP_STATUS -/
def fabricGroupStatus (i : Nat) : Nat := 0x70000008 + 0x100 * i
/-- FABRIC_LANE_STATUS -/
def fabricLaneStatus (i : Nat) : Nat := 0x70010000 + 0x8 * i
/-- FABRIC_CTRL -/
def fabricCtrl : Nat := 0x70200000
/-- FABRIC_DEVICE_STATUS -/
def fabricDeviceStatus (i : Nat) : Nat := 0x70100000 + 0x8 * i
/-- EPOCH_STATE -/
def epochState : Nat := 0x2000
/-- EPOCH_CTRL -/
def epochCtrl : Nat := 0x2008
/-- EPOCH_SWITCH_TIME -/
def epochSwitchTime : Nat := 0x2010
/-- EPOCH_INFLIGHT -/
def epochInflight : Nat := 0x2020
/-- EPOCH_BANK_SEL -/
def epochBankSel : Nat := 0x2028
/-- EPOCH_SWITCH_NS -/
def epochSwitchNs : Nat := 0x2018
/-- EPOCH_BANK_SEL_NEXT -/
def epochBankSelNext : Nat := 0x2030
/-- TIME_SRC_CFG -/
def timeSrcCfg : Nat := 0x3000
/-- TIME_SERVO -/
def timeServo : Nat := 0x3008
/-- TIME_OUT_CFG -/
def timeOutCfg : Nat := 0x3010
/-- TIME_STATUS -/
def timeStatus : Nat := 0x3018
/-- TIME_NOW -/
def timeNow : Nat := 0x3020
/-- TIME_ADJ -/
def timeAdj : Nat := 0x3030
/-- TIME_UTC -/
def timeUtc : Nat := 0x3040
/-- TIME_NOW_NS -/
def timeNowNs : Nat := 0x3028
/-- TIME_FREQ -/
def timeFreq : Nat := 0x3038
/-- GOV_BUDGET -/
def govBudget : Nat := 0x4000
/-- GOV_CLASS -/
def govClass : Nat := 0x4008
/-- GOV_RAIL -/
def govRail : Nat := 0x4010
/-- GOV_PFW -/
def govPfw : Nat := 0x4018
/-- GOV_STATUS -/
def govStatus : Nat := 0x4020
/-- GOV_SPEND -/
def govSpend : Nat := 0x4028
/-- GOV_RAIL_STATUS -/
def govRailStatus : Nat := 0x4030
/-- GOV_THERM_CFG -/
def govThermCfg : Nat := 0x4040
/-- GOV_SENSOR -/
def govSensor (i : Nat) : Nat := 0x4100 + 0x8 * i
/-- FCP_CFG -/
def fcpCfg : Nat := 0x5000
/-- FCP_CTRL -/
def fcpCtrl : Nat := 0x5008
/-- WDOG_CTRL -/
def wdogCtrl : Nat := 0x7000
/-- BOARD_HEARTBEAT -/
def boardHeartbeat : Nat := 0x7008
/-- BOARD_CFG -/
def boardCfg : Nat := 0x7010
/-- FCP_PORTS_LO -/
def fcpPortsLo : Nat := 0x5010
/-- FCP_PORTS_HI -/
def fcpPortsHi : Nat := 0x5018
/-- FCP_PEER_WORD -/
def fcpPeerWord (i j : Nat) : Nat := 0x5100 + 0x40 * i + 0x8 * j
/-- DUMP_CTRL -/
def dumpCtrl : Nat := 0x6100
/-- DUMP_STATUS -/
def dumpStatus : Nat := 0x6108
/-- TELE_CTRL -/
def teleCtrl : Nat := 0x6110
/-- CNT_ACCESS -/
def cntAccess : Nat := 0x6128
/-- TELE_COLLECTOR -/
def teleCollector (i : Nat) : Nat := 0x6200 + 0x40 * i
/-- CNT_FILTER -/
def cntFilter (i : Nat) : Nat := 0x6400 + 0x20 * i
/-- TRACE_CFG -/
def traceCfg (i : Nat) : Nat := 0x20060000 + 0x100000 * i
/-- TELE_SRC_HI -/
def teleSrcHi : Nat := 0x6118
/-- TELE_SRC_LO -/
def teleSrcLo : Nat := 0x6120
/-- TELE_COLLECTOR_UDP -/
def teleCollectorUdp (i : Nat) : Nat := 0x6208 + 0x40 * i
/-- TELE_COLLECTOR_ADDR_HI -/
def teleCollectorAddrHi (i : Nat) : Nat := 0x6210 + 0x40 * i
/-- TELE_COLLECTOR_ADDR_LO -/
def teleCollectorAddrLo (i : Nat) : Nat := 0x6218 + 0x40 * i
/-- CNT_FILTER_LO -/
def cntFilterLo (i : Nat) : Nat := 0x6408 + 0x20 * i
/-- CNT_FILTER_HI -/
def cntFilterHi (i : Nat) : Nat := 0x6410 + 0x20 * i
/-- BIST_CTRL -/
def bistCtrl : Nat := 0x8000
/-- BIST_SEG_STATUS -/
def bistSegStatus (i : Nat) : Nat := 0x8100 + 0x8 * i
/-- BIST_SIG -/
def bistSig (i : Nat) : Nat := 0x8800 + 0x8 * i
/-- BIST_GOLDEN -/
def bistGolden (i j : Nat) : Nat := 0x9000 + 0x20 * i + 0x8 * j
end Reg

namespace Fld
def bridgeCtrl_fenced : Field := ⟨47, 36⟩
def bridgeCtrl_retrain : Field := ⟨35, 24⟩
def bridgeCtrl_retryLimit : Field := ⟨11, 8⟩
def bridgeCtrl_reqTimeout : Field := ⟨7, 0⟩
def bootStatus_warmCount : Field := ⟨55, 48⟩
def bootStatus_failA : Field := ⟨47, 40⟩
def bootStatus_failB : Field := ⟨39, 32⟩
def bootStatus_step : Field := ⟨23, 16⟩
def bootStatus_secVersion : Field := ⟨15, 8⟩
def bootStatus_slot : Field := ⟨1, 0⟩
def bootPolicy_warmLimit : Field := ⟨31, 24⟩
def bootPolicy_hbmFenceLimit : Field := ⟨23, 16⟩
def bootPolicy_bistMode : Field := ⟨12, 12⟩
def bootPolicy_fabricWait : Field := ⟨9, 0⟩
def fuseStatus_identityValid : Field := ⟨23, 23⟩
def fuseStatus_jtagLevel : Field := ⟨22, 21⟩
def fuseStatus_secFloor : Field := ⟨20, 14⟩
def fuseStatus_provRevoked : Field := ⟨13, 12⟩
def fuseStatus_keyRevoked : Field := ⟨7, 4⟩
def fuseStatus_keyPresent : Field := ⟨3, 0⟩
def linePortCfg_linkUpHold : Field := ⟨63, 50⟩
def linePortCfg_linkDownHold : Field := ⟨49, 36⟩
def linePortCfg_maxFrame : Field := ⟨35, 22⟩
def linePortCfg_degAction : Field := ⟨17, 17⟩
def linePortCfg_tsOnestep : Field := ⟨16, 16⟩
def linePortCfg_flexePhy : Field := ⟨15, 15⟩
def linePortCfg_fec : Field := ⟨14, 12⟩
def linePortCfg_mode : Field := ⟨11, 8⟩
def linePortCfg_lanePol : Field := ⟨7, 0⟩
def linePortCtrl_degThresh : Field := ⟨39, 16⟩
def linePortCtrl_downMode : Field := ⟨1, 1⟩
def linePortCtrl_adminUp : Field := ⟨0, 0⟩
def linePortStatus_blockLock : Field := ⟨23, 16⟩
def linePortStatus_downCause : Field := ⟨15, 12⟩
def linePortStatus_hold : Field := ⟨6, 6⟩
def linePortStatus_fecDegrade : Field := ⟨5, 5⟩
def linePortStatus_remoteFault : Field := ⟨4, 4⟩
def linePortStatus_localFault : Field := ⟨3, 3⟩
def linePortStatus_amLock : Field := ⟨2, 2⟩
def linePortStatus_signal : Field := ⟨1, 1⟩
def linePortStatus_up : Field := ⟨0, 0⟩
def lineTspAdj_lanePolHi : Field := ⟨63, 56⟩
def lineTspAdj_txAdj : Field := ⟨31, 16⟩
def lineTspAdj_rxAdj : Field := ⟨15, 0⟩
def lineTspRingPtr_wr : Field := ⟨13, 8⟩
def lineTspRingPtr_rd : Field := ⟨5, 0⟩
def lineFlexeCfg_groupNum : Field := ⟨43, 24⟩
def lineFlexeCfg_phyBase : Field := ⟨23, 16⟩
def lineFlexeCfg_phyMap : Field := ⟨15, 8⟩
def lineFlexeCfg_startCal : Field := ⟨0, 0⟩
def lineFlexeCtrl_switch : Field := ⟨0, 0⟩
def lineFlexeStatus_skew : Field := ⟨41, 32⟩
def lineFlexeStatus_mfLock : Field := ⟨31, 24⟩
def lineFlexeStatus_ohLock : Field := ⟨23, 16⟩
def lineFlexeStatus_activeCal : Field := ⟨2, 2⟩
def lineFlexeStatus_mismatch : Field := ⟨1, 1⟩
def lineFlexeStatus_up : Field := ⟨0, 0⟩
def lineTspRingWord_word : Field := ⟨63, 0⟩
def lineFlexeCalA_slots : Field := ⟨63, 0⟩
def lineFlexeCalB_slots : Field := ⟨63, 0⟩
def macsecAlarm_source : Field := ⟨4, 0⟩
def macsecSecyCfg_maxFrame : Field := ⟨63, 50⟩
def macsecSecyCfg_bypassEtype : Field := ⟨31, 16⟩
def macsecSecyCfg_includeSci : Field := ⟨10, 10⟩
def macsecSecyCfg_confOffset : Field := ⟨9, 8⟩
def macsecSecyCfg_confidential : Field := ⟨7, 7⟩
def macsecSecyCfg_validate : Field := ⟨6, 6⟩
def macsecSecyCfg_protect : Field := ⟨5, 5⟩
def macsecSecyCfg_cipher : Field := ⟨4, 2⟩
def macsecSecyCfg_enable : Field := ⟨0, 0⟩
def macsecSecyCtrl_replayWindow : Field := ⟨63, 32⟩
def macsecSecyCtrl_pnWarn : Field := ⟨27, 16⟩
def macsecSecyCtrl_replayProtect : Field := ⟨2, 2⟩
def macsecSecyCtrl_txAn : Field := ⟨1, 0⟩
def macsecScCfg_sci : Field := ⟨63, 0⟩
def macsecScCtrl_valid : Field := ⟨0, 0⟩
def macsecSaCtrl_ssci : Field := ⟨63, 32⟩
def macsecSaCtrl_state : Field := ⟨4, 2⟩
def macsecSaCtrl_retire : Field := ⟨1, 1⟩
def macsecSaCtrl_install : Field := ⟨0, 0⟩
def macsecSaPn_pn : Field := ⟨63, 0⟩
def macsecSaKey0_key : Field := ⟨63, 0⟩
def macsecSaKey1_key : Field := ⟨63, 0⟩
def macsecSaKey2_key : Field := ⟨63, 0⟩
def macsecSaKey3_key : Field := ⟨63, 0⟩
def macsecSaSalt0_salt : Field := ⟨63, 0⟩
def macsecSaSalt1_salt : Field := ⟨63, 32⟩
def parserSliceCfg_maxPass : Field := ⟨2, 0⟩
def parserSliceStatus_recircUsed : Field := ⟨40, 32⟩
def parserSliceStatus_fragUsed : Field := ⟨26, 16⟩
def parserSliceStatus_holdUsed : Field := ⟨5, 0⟩
def parserPortCfg_entryForm : Field := ⟨63, 56⟩
def parserPortCfg_vrfTag : Field := ⟨55, 40⟩
def parserPortCfg_vrfVlan : Field := ⟨39, 39⟩
def parserPortCfg_fragPolicy : Field := ⟨38, 37⟩
def parserPortCfg_fragScope : Field := ⟨36, 36⟩
def parserPortCfg_errAction : Field := ⟨35, 18⟩
def fragCfg_life : Field := ⟨25, 16⟩
def fragCfg_hold : Field := ⟨4, 0⟩
def fragStatus_sharedUsed : Field := ⟨44, 32⟩
def parserFormWord_word : Field := ⟨63, 0⟩
def classPortCfg_firstStage : Field := ⟨63, 60⟩
def classPortCfg_recircStage : Field := ⟨59, 56⟩
def classPortCfg_defaultTc : Field := ⟨55, 53⟩
def classPortCfg_rxMirror : Field := ⟨47, 42⟩
def classPortCfg_txMirror : Field := ⟨41, 36⟩
def classPortCfg_rxSampler : Field := ⟨35, 26⟩
def classPortCfg_txSampler : Field := ⟨25, 16⟩
def classStageCfg_type : Field := ⟨63, 62⟩
def classStageCfg_table : Field := ⟨61, 54⟩
def classStageCfg_nextHit : Field := ⟨53, 50⟩
def classStageCfg_nextMiss : Field := ⟨49, 46⟩
def emhashTableCfg_seed1 : Field := ⟨63, 48⟩
def emhashTableCfg_seed2 : Field := ⟨47, 32⟩
def emhashTableCfg_bankLo : Field := ⟨31, 26⟩
def emhashTableCfg_bankCnt : Field := ⟨25, 19⟩
def emhashTableCfg_width : Field := ⟨18, 17⟩
def emhashTableCfg_aged : Field := ⟨16, 16⟩
def emhashTableCfg_agedOp : Field := ⟨15, 12⟩
def emhashTableCfg_agedProfile : Field := ⟨11, 0⟩
def rangeCmp_valid : Field := ⟨63, 63⟩
def rangeCmp_invert : Field := ⟨62, 62⟩
def rangeCmp_l4Guard : Field := ⟨61, 61⟩
def rangeCmp_srcBit : Field := ⟨60, 51⟩
def rangeCmp_width : Field := ⟨50, 47⟩
def rangeCmp_lo : Field := ⟨31, 16⟩
def rangeCmp_hi : Field := ⟨15, 0⟩
def spreadProfile_func : Field := ⟨63, 62⟩
def spreadProfile_symmetric : Field := ⟨61, 61⟩
def spreadProfile_fragSafe : Field := ⟨60, 60⟩
def spreadProfile_seed : Field := ⟨31, 0⟩
def mirrorSession_valid : Field := ⟨63, 63⟩
def mirrorSession_dest : Field := ⟨62, 56⟩
def mirrorSession_trunc : Field := ⟨55, 42⟩
def mirrorSession_encap : Field := ⟨41, 23⟩
def mirrorSession_tc : Field := ⟨22, 20⟩
def mirrorSession_onDrop : Field := ⟨19, 19⟩
def sampleCtrl_maxRate : Field := ⟨22, 0⟩
def samplerCfg_valid : Field := ⟨63, 63⟩
def samplerCfg_mode : Field := ⟨62, 62⟩
def samplerCfg_sflow : Field := ⟨61, 61⟩
def samplerCfg_trunc : Field := ⟨60, 51⟩
def samplerCfg_n : Field := ⟨50, 27⟩
def samplerCfg_source : Field := ⟨15, 0⟩
def classStageMiss_word : Field := ⟨47, 0⟩
def classStageKey0_word : Field := ⟨63, 0⟩
def classStageKey1_word : Field := ⟨63, 0⟩
def rangeResult_result : Field := ⟨47, 0⟩
def spreadProfileMaskHi_mask : Field := ⟨63, 0⟩
def spreadProfileMaskLo_mask : Field := ⟨63, 0⟩
def assocCtrl_indBase : Field := ⟨62, 48⟩
def assocCtrl_scrubPeriod : Field := ⟨25, 16⟩
def assocCtrl_dispatchTimeout : Field := ⟨8, 0⟩
def assocTableCfg_kind : Field := ⟨63, 62⟩
def assocTableCfg_width : Field := ⟨61, 60⟩
def assocTableCfg_resultMode : Field := ⟨59, 58⟩
def assocTableCfg_placement : Field := ⟨57, 57⟩
def assocTableCfg_repair : Field := ⟨56, 56⟩
def assocPartHi_word : Field := ⟨63, 0⟩
def assocArrayStatus_validRows : Field := ⟨47, 32⟩
def assocArrayStatus_scrubRow : Field := ⟨31, 17⟩
def assocArrayStatus_underTest : Field := ⟨2, 2⟩
def assocArrayStatus_paritySeen : Field := ⟨1, 1⟩
def assocArrayStatus_enabled : Field := ⟨0, 0⟩
def assocMove_srcRow : Field := ⟨63, 49⟩
def assocMove_dstRow : Field := ⟨48, 34⟩
def assocMove_count : Field := ⟨33, 18⟩
def assocMove_dstArray : Field := ⟨17, 11⟩
def assocMove_start : Field := ⟨0, 0⟩
def assocMoveStatus_done : Field := ⟨31, 16⟩
def assocMoveStatus_code : Field := ⟨1, 0⟩
def assocSearch_valid : Field := ⟨63, 63⟩
def assocSearch_table : Field := ⟨62, 57⟩
def assocSearch_tableAlt : Field := ⟨56, 51⟩
def assocSearch_flagValue : Field := ⟨50, 43⟩
def assocSearch_flagMask : Field := ⟨42, 35⟩
def assocSearch_errAction : Field := ⟨34, 33⟩
def assocSearch_passes : Field := ⟨32, 31⟩
def assocSearch_altValid : Field := ⟨30, 30⟩
def assocTableTemplate_template : Field := ⟨47, 0⟩
def assocPartLo_word : Field := ⟨63, 0⟩
def assocSearchMiss_word : Field := ⟨47, 0⟩
def assocSearchKey0_word : Field := ⟨63, 0⟩
def assocSearchKey1_word : Field := ⟨63, 0⟩
def ditCtrl_popForm : Field := ⟨47, 40⟩
def ditCtrl_labelSrc : Field := ⟨39, 32⟩
def ditCtrl_labelAuto : Field := ⟨31, 31⟩
def ditCtrl_repair : Field := ⟨30, 30⟩
def ditCtrl_hashErrAction : Field := ⟨29, 28⟩
def ditCtrl_encapHold : Field := ⟨27, 16⟩
def ditCtrl_flowTimeout : Field := ⟨15, 8⟩
def learnCfg_ageUnit : Field := ⟨27, 18⟩
def learnCfg_moveLimit : Field := ⟨17, 15⟩
def learnCfg_moveWindow : Field := ⟨14, 8⟩
def learnCfg_dampen : Field := ⟨0, 0⟩
def learnLogPtr_base : Field := ⟨63, 48⟩
def learnLogPtr_wr : Field := ⟨31, 16⟩
def learnLogPtr_rd : Field := ⟨15, 0⟩
def tableAgeCfg_stale : Field := ⟨18, 18⟩
def tableAgeCfg_ageLimit : Field := ⟨17, 2⟩
def tableAgeCfg_learnTable : Field := ⟨1, 1⟩
def tableAgeCfg_ageEn : Field := ⟨0, 0⟩
def ditSmac_mac : Field := ⟨47, 0⟩
def ditPortCfg_learnNh : Field := ⟨63, 44⟩
def ditPortCfg_learnLimit : Field := ⟨43, 28⟩
def ditPortCfg_learnEn : Field := ⟨27, 27⟩
def ditPortCfg_bridge : Field := ⟨26, 26⟩
def ditPortCfg_conflictAct : Field := ⟨25, 25⟩
def ditPortCfg_limitAct : Field := ⟨24, 24⟩
def ditPortCfg_learned : Field := ⟨23, 8⟩
def flowTableCfg_valid : Field := ⟨63, 63⟩
def flowTableCfg_base : Field := ⟨61, 48⟩
def flowTableCfg_log2Buckets : Field := ⟨47, 43⟩
def flowTableCfg_keyLen : Field := ⟨42, 37⟩
def flowTableCfg_idlePeriod : Field := ⟨36, 25⟩
def flowTableCfg_ageEn : Field := ⟨24, 24⟩
def compareCtrl_period : Field := ⟨16, 0⟩
def compareStatus_late : Field := ⟨0, 0⟩
def flowTableSeeds_seed1 : Field := ⟨63, 48⟩
def flowTableSeeds_seed2 : Field := ⟨47, 32⟩
def engineTcPolicy_wait : Field := ⟨12, 3⟩
def engineTcPolicy_expire : Field := ⟨2, 2⟩
def engineTcPolicy_policy : Field := ⟨1, 0⟩
def engineProg_valid : Field := ⟨63, 63⟩
def engineProg_clusters : Field := ⟨62, 55⟩
def engineProg_entry : Field := ⟨54, 43⟩
def engineProg_length : Field := ⟨42, 33⟩
def engineProg_budget : Field := ⟨32, 21⟩
def engineProg_timeoutAct : Field := ⟨20, 19⟩
def engineProg_faultAct : Field := ⟨18, 17⟩
def engineClusterCtrl_sampleAddr : Field := ⟨47, 36⟩
def engineClusterCtrl_sampleN : Field := ⟨35, 20⟩
def engineClusterCtrl_sampleMode : Field := ⟨2, 1⟩
def engineClusterCtrl_drain : Field := ⟨0, 0⟩
def engineClusterStatus_queue : Field := ⟨21, 16⟩
def engineClusterStatus_busy : Field := ⟨15, 10⟩
def engineClusterStatus_disabled : Field := ⟨3, 3⟩
def engineClusterStatus_underTest : Field := ⟨2, 2⟩
def engineClusterStatus_drained : Field := ⟨1, 1⟩
def engineClusterStatus_eligible : Field := ⟨0, 0⟩
def engineSamplePtr_wr : Field := ⟨27, 16⟩
def engineSamplePtr_rd : Field := ⟨11, 0⟩
def engineStoreWord_word : Field := ⟨63, 0⟩
def trafficPoolStatus_fenced : Field := ⟨53, 45⟩
def trafficPoolStatus_hbmFree : Field := ⟨44, 19⟩
def trafficPoolStatus_ondieFree : Field := ⟨15, 0⟩
def trafficQuota_hbmQuota : Field := ⟨57, 32⟩
def trafficQuota_ondieQuota : Field := ⟨15, 0⟩
def trafficQuotaUsed_hbmUsed : Field := ⟨57, 32⟩
def trafficQuotaUsed_overHbm : Field := ⟨31, 31⟩
def trafficQuotaUsed_overOndie : Field := ⟨30, 30⟩
def trafficQuotaUsed_ondieUsed : Field := ⟨15, 0⟩
def trafficAdmitProfileHi_word : Field := ⟨63, 0⟩
def trafficPortTcLimit_ingLimit : Field := ⟨63, 40⟩
def trafficPortTcLimit_egrLimit : Field := ⟨39, 16⟩
def trafficPortCfg_ctTcMask : Field := ⟨63, 56⟩
def trafficPortCfg_remoteDownSeen : Field := ⟨1, 1⟩
def trafficPortCfg_closed : Field := ⟨0, 0⟩
def trafficFlushStatus_listUsed : Field := ⟨44, 32⟩
def trafficFlushStatus_pending : Field := ⟨31, 0⟩
def trafficAdmitProfileLo_word : Field := ⟨63, 0⟩
def hbmCtrl_highWm : Field := ⟨63, 58⟩
def hbmCtrl_lowWm : Field := ⟨57, 52⟩
def hbmCtrl_mode : Field := ⟨51, 51⟩
def hbmCtrl_freezeTimeout : Field := ⟨50, 41⟩
def hbmCtrl_freezeLimit : Field := ⟨40, 37⟩
def hbmCtrl_cmdTimeout : Field := ⟨36, 29⟩
def hbmCtrl_refUrgent : Field := ⟨28, 25⟩
def hbmCtrl_freezeHold : Field := ⟨24, 24⟩
def hbmCtrl_release : Field := ⟨23, 23⟩
def hbmStatus_captureNext : Field := ⟨47, 40⟩
def hbmStatus_freezes : Field := ⟨31, 28⟩
def hbmStatus_poisonUsed : Field := ⟨27, 23⟩
def hbmStatus_taint : Field := ⟨4, 4⟩
def hbmStatus_waitMap : Field := ⟨3, 3⟩
def hbmStatus_state : Field := ⟨2, 0⟩
def hbmSyndrome_cause : Field := ⟨63, 61⟩
def hbmSyndrome_bank : Field := ⟨59, 56⟩
def hbmSyndrome_row : Field := ⟨55, 43⟩
def hbmSyndrome_column : Field := ⟨42, 37⟩
def hbmSyndrome_tag : Field := ⟨36, 23⟩
def hbmSyndrome_class : Field := ⟨22, 21⟩
def hbmSyndrome_syndrome : Field := ⟨15, 0⟩
def hbmPoison_valid : Field := ⟨63, 63⟩
def hbmPoison_burst : Field := ⟨62, 40⟩
def hbmCaptureW0_word : Field := ⟨63, 0⟩
def hbmStackCfg_trainPeriod : Field := ⟨31, 22⟩
def hbmStackCfg_trainDelta : Field := ⟨21, 17⟩
def hbmStackCfg_trainNow : Field := ⟨0, 0⟩
def hbmStackStatus_temp : Field := ⟨23, 16⟩
def hbmStackStatus_trainTemp : Field := ⟨15, 8⟩
def hbmStackStatus_passActive : Field := ⟨7, 7⟩
def hbmCaptureW1_word : Field := ⟨63, 0⟩
def trafficDevice_self : Field := ⟨11, 0⟩
def trafficStuckCfg_stuckTimeout : Field := ⟨9, 0⟩
def trafficShaperSweep_busy : Field := ⟨0, 0⟩
def trafficShaperAssign_kind : Field := ⟨63, 62⟩
def trafficShaperAssign_index : Field := ⟨61, 45⟩
def trafficShaperAssign_profile : Field := ⟨44, 33⟩
def trafficShaperAssign_start : Field := ⟨0, 0⟩
def trafficShaperProfileHi_word : Field := ⟨63, 0⟩
def trafficVoqMap_valid : Field := ⟨63, 63⟩
def trafficVoqMap_voqBase : Field := ⟨62, 44⟩
def trafficVoqMap_ports : Field := ⟨43, 37⟩
def trafficSchedPort_valid : Field := ⟨63, 63⟩
def trafficSchedPort_qselMode : Field := ⟨62, 62⟩
def trafficSchedPort_qbase : Field := ⟨61, 43⟩
def trafficSchedPort_qspan : Field := ⟨42, 30⟩
def trafficSchedPort_overhead : Field := ⟨29, 22⟩
def trafficSchedPort_window : Field := ⟨21, 14⟩
def hatbandCfg_enable : Field := ⟨63, 63⟩
def hatbandCfg_activeBank : Field := ⟨62, 62⟩
def hatbandCfg_pending : Field := ⟨61, 61⟩
def hatbandCfg_commit : Field := ⟨60, 60⟩
def hatbandCfg_cancel : Field := ⟨59, 59⟩
def hatbandCfg_lead : Field := ⟨58, 47⟩
def hatbandCfg_brimMargin : Field := ⟨46, 37⟩
def hatbandTakeover_seconds : Field := ⟨47, 0⟩
def hatbandStatus_entry : Field := ⟨41, 30⟩
def hatbandStatus_refused : Field := ⟨2, 0⟩
def hatbandList_seconds : Field := ⟨63, 16⟩
def hatbandList_len : Field := ⟨10, 0⟩
def trafficReplStatus_ctxUsed : Field := ⟨18, 0⟩
def trafficShaperProfileLo_word : Field := ⟨63, 0⟩
def hatbandTakeoverNs_nanoseconds : Field := ⟨29, 0⟩
def hatbandListW1_nanoseconds : Field := ⟨63, 34⟩
def hatbandListW1_cycle : Field := ⟨33, 2⟩
def hatbandEntryWord_word : Field := ⟨63, 0⟩
def fabricGroupCfg_enable : Field := ⟨63, 63⟩
def fabricGroupCfg_firstLane : Field := ⟨62, 56⟩
def fabricGroupCfg_lanes : Field := ⟨55, 53⟩
def fabricGroupCfg_rate : Field := ⟨52, 52⟩
def fabricGroupCfg_versionMax : Field := ⟨51, 48⟩
def fabricGroupCfg_versionMin : Field := ⟨47, 44⟩
def fabricGroupCfg_confirmN : Field := ⟨43, 40⟩
def fabricGroupCfg_loseM : Field := ⟨39, 35⟩
def fabricGroupStatus_aligned : Field := ⟨63, 56⟩
def fabricGroupStatus_active : Field := ⟨55, 48⟩
def fabricGroupStatus_version : Field := ⟨47, 44⟩
def fabricGroupStatus_readyRx : Field := ⟨43, 43⟩
def fabricGroupStatus_ready : Field := ⟨42, 42⟩
def fabricGroupStatus_skew : Field := ⟨41, 32⟩
def fabricGroupStatus_partner : Field := ⟨31, 20⟩
def fabricLaneStatus_state : Field := ⟨63, 62⟩
def fabricLaneStatus_active : Field := ⟨61, 61⟩
def fabricLaneStatus_errRun : Field := ⟨60, 56⟩
def fabricLaneStatus_goodRun : Field := ⟨55, 52⟩
def fabricLaneStatus_delay : Field := ⟨51, 40⟩
def fabricLaneStatus_skew : Field := ⟨39, 30⟩
def fabricLaneStatus_outstanding : Field := ⟨29, 18⟩
def fabricLaneStatus_partnerMax : Field := ⟨17, 14⟩
def fabricCtrl_reasmTimeout : Field := ⟨63, 54⟩
def fabricCtrl_starveTimeout : Field := ⟨53, 44⟩
def fabricCtrl_devTimeout : Field := ⟨43, 34⟩
def fabricCtrl_quantum : Field := ⟨33, 27⟩
def fabricCtrl_target : Field := ⟨26, 16⟩
def fabricCtrl_timePeriod : Field := ⟨15, 6⟩
def fabricDeviceStatus_heard : Field := ⟨7, 7⟩
def fabricDeviceStatus_v2 : Field := ⟨6, 6⟩
def fabricDeviceStatus_alive : Field := ⟨5, 5⟩
def fabricDeviceStatus_starved : Field := ⟨4, 4⟩
def epochState_current : Field := ⟨63, 48⟩
def epochState_other : Field := ⟨47, 32⟩
def epochState_refused : Field := ⟨11, 8⟩
def epochState_phase : Field := ⟨2, 0⟩
def epochCtrl_drainTimeout : Field := ⟨45, 32⟩
def epochCtrl_batchGap : Field := ⟨31, 16⟩
def epochCtrl_abort : Field := ⟨3, 3⟩
def epochCtrl_switchNow : Field := ⟨2, 2⟩
def epochCtrl_arm : Field := ⟨1, 1⟩
def epochCtrl_open : Field := ⟨0, 0⟩
def epochSwitchTime_seconds : Field := ⟨47, 0⟩
def epochInflight_other : Field := ⟨63, 32⟩
def epochInflight_current : Field := ⟨31, 0⟩
def epochBankSel_sel : Field := ⟨63, 0⟩
def epochSwitchNs_nanoseconds : Field := ⟨29, 0⟩
def epochBankSelNext_sel : Field := ⟨63, 0⟩
def timeSrcCfg_src0 : Field := ⟨63, 61⟩
def timeSrcCfg_src1 : Field := ⟨60, 58⟩
def timeSrcCfg_src2 : Field := ⟨57, 55⟩
def timeSrcCfg_role : Field := ⟨54, 53⟩
def timeSrcCfg_followDev : Field := ⟨52, 41⟩
def timeSrcCfg_qualify : Field := ⟨40, 31⟩
def timeSrcCfg_ppsWindow : Field := ⟨30, 21⟩
def timeSrcCfg_softTimeout : Field := ⟨20, 15⟩
def timeServo_loopBw : Field := ⟨63, 50⟩
def timeServo_lockThresh : Field := ⟨49, 40⟩
def timeServo_stepThresh : Field := ⟨39, 26⟩
def timeServo_slewRate : Field := ⟨25, 17⟩
def timeServo_noStep : Field := ⟨16, 16⟩
def timeServo_holdoverLimit : Field := ⟨15, 5⟩
def timeOutCfg_ppsWidth : Field := ⟨63, 44⟩
def timeOutCfg_outAdj : Field := ⟨43, 28⟩
def timeOutCfg_outSquelch : Field := ⟨27, 26⟩
def timeOutCfg_todBaud : Field := ⟨23, 4⟩
def timeOutCfg_todOutEn : Field := ⟨0, 0⟩
def timeStatus_quality : Field := ⟨63, 56⟩
def timeStatus_upstreamQ : Field := ⟨55, 48⟩
def timeStatus_source : Field := ⟨47, 45⟩
def timeStatus_state : Field := ⟨44, 43⟩
def timeStatus_todValid : Field := ⟨42, 42⟩
def timeStatus_slewing : Field := ⟨41, 41⟩
def timeStatus_offset : Field := ⟨31, 0⟩
def timeNow_seconds : Field := ⟨47, 0⟩
def timeAdj_start : Field := ⟨63, 63⟩
def timeAdj_mode : Field := ⟨62, 62⟩
def timeAdj_phase : Field := ⟨39, 0⟩
def timeUtc_flags : Field := ⟨18, 16⟩
def timeUtc_utcOffset : Field := ⟨15, 0⟩
def timeNowNs_nanoseconds : Field := ⟨37, 8⟩
def timeNowNs_fraction : Field := ⟨7, 0⟩
def timeFreq_steer : Field := ⟨31, 0⟩
def govBudget_budget : Field := ⟨63, 54⟩
def govBudget_base : Field := ⟨53, 44⟩
def govBudget_starveTime : Field := ⟨43, 32⟩
def govBudget_overTime : Field := ⟨31, 22⟩
def govBudget_paceEn : Field := ⟨21, 21⟩
def govClass_floor1 : Field := ⟨63, 53⟩
def govClass_floor2 : Field := ⟨52, 42⟩
def govClass_floor3 : Field := ⟨41, 31⟩
def govRail_slew : Field := ⟨63, 58⟩
def govRail_reserveF : Field := ⟨57, 52⟩
def govRail_reserveT : Field := ⟨51, 46⟩
def govPfw_targetF : Field := ⟨63, 55⟩
def govPfw_targetT : Field := ⟨54, 46⟩
def govPfw_pfwSlew : Field := ⟨45, 40⟩
def govPfw_releaseHold : Field := ⟨39, 30⟩
def govStatus_effective : Field := ⟨63, 54⟩
def govStatus_tier : Field := ⟨53, 51⟩
def govStatus_pfw : Field := ⟨50, 50⟩
def govStatus_pacing : Field := ⟨49, 48⟩
def govStatus_short : Field := ⟨47, 45⟩
def govStatus_bistRun : Field := ⟨44, 43⟩
def govStatus_debt : Field := ⟨31, 0⟩
def govSpend_spent0 : Field := ⟨63, 48⟩
def govSpend_grant1 : Field := ⟨47, 32⟩
def govSpend_grant2 : Field := ⟨31, 16⟩
def govSpend_grant3 : Field := ⟨15, 0⟩
def govRailStatus_iF : Field := ⟨63, 54⟩
def govRailStatus_envF : Field := ⟨53, 44⟩
def govRailStatus_balF : Field := ⟨43, 36⟩
def govRailStatus_iT : Field := ⟨35, 26⟩
def govRailStatus_envT : Field := ⟨25, 16⟩
def govRailStatus_balT : Field := ⟨15, 8⟩
def govThermCfg_t0 : Field := ⟨63, 56⟩
def govThermCfg_t1 : Field := ⟨55, 48⟩
def govThermCfg_t2 : Field := ⟨47, 40⟩
def govThermCfg_t3 : Field := ⟨39, 32⟩
def govThermCfg_hyst : Field := ⟨31, 28⟩
def govSensor_peak : Field := ⟨17, 10⟩
def govSensor_temp : Field := ⟨9, 2⟩
def govSensor_peakClr : Field := ⟨1, 1⟩
def govSensor_fault : Field := ⟨0, 0⟩
def fcpCfg_mac : Field := ⟨63, 16⟩
def fcpCfg_etype : Field := ⟨15, 0⟩
def fcpCtrl_rxRate : Field := ⟨63, 44⟩
def fcpCtrl_tc : Field := ⟨43, 41⟩
def fcpCtrl_keepalive : Field := ⟨40, 35⟩
def fcpCtrl_sessions : Field := ⟨3, 0⟩
def wdogCtrl_period : Field := ⟨63, 47⟩
def wdogCtrl_kick : Field := ⟨0, 0⟩
def boardHeartbeat_count : Field := ⟨31, 0⟩
def boardCfg_hbTimeout : Field := ⟨63, 58⟩
def fcpPortsLo_ports : Field := ⟨63, 0⟩
def fcpPortsHi_ports : Field := ⟨31, 0⟩
def fcpPeerWord_word : Field := ⟨63, 0⟩
def dumpCtrl_period : Field := ⟨63, 50⟩
def dumpCtrl_base : Field := ⟨49, 35⟩
def dumpCtrl_countBase : Field := ⟨34, 20⟩
def dumpStatus_seq : Field := ⟨63, 32⟩
def dumpStatus_slot : Field := ⟨31, 26⟩
def dumpStatus_walk : Field := ⟨25, 16⟩
def dumpStatus_writing : Field := ⟨0, 0⟩
def teleCtrl_enable : Field := ⟨63, 63⟩
def teleCtrl_rate : Field := ⟨62, 48⟩
def teleCtrl_mtu : Field := ⟨47, 34⟩
def teleCtrl_snapEvery : Field := ⟨33, 26⟩
def teleCtrl_srcUdp : Field := ⟨25, 10⟩
def teleCtrl_tc : Field := ⟨9, 7⟩
def cntAccess_obsVis : Field := ⟨63, 32⟩
def cntAccess_export : Field := ⟨31, 0⟩
def teleCollector_valid : Field := ⟨63, 63⟩
def teleCollector_ipv6 : Field := ⟨62, 62⟩
def teleCollector_kinds : Field := ⟨61, 55⟩
def teleCollector_port : Field := ⟨54, 48⟩
def teleCollector_dmac : Field := ⟨47, 0⟩
def cntFilter_valid : Field := ⟨63, 63⟩
def cntFilter_kind : Field := ⟨62, 60⟩
def cntFilter_priv : Field := ⟨59, 56⟩
def cntFilter_tc : Field := ⟨55, 48⟩
def cntFilter_masterValue : Field := ⟨47, 39⟩
def cntFilter_masterMask : Field := ⟨38, 30⟩
def cntFilter_pending : Field := ⟨0, 0⟩
def traceCfg_valid : Field := ⟨63, 63⟩
def traceCfg_n : Field := ⟨62, 39⟩
def traceCfg_flagValue : Field := ⟨38, 31⟩
def traceCfg_flagMask : Field := ⟨30, 23⟩
def teleSrcHi_addr : Field := ⟨63, 0⟩
def teleSrcLo_addr : Field := ⟨63, 0⟩
def teleCollectorUdp_udp : Field := ⟨63, 48⟩
def teleCollectorAddrHi_addr : Field := ⟨63, 0⟩
def teleCollectorAddrLo_addr : Field := ⟨63, 0⟩
def cntFilterLo_addr : Field := ⟨47, 0⟩
def cntFilterHi_addr : Field := ⟨47, 0⟩
def bistCtrl_startLevel : Field := ⟨63, 62⟩
def bistCtrl_drainWait : Field := ⟨61, 52⟩
def bistCtrl_queued : Field := ⟨51, 47⟩
def bistCtrl_running : Field := ⟨46, 45⟩
def bistSegStatus_state : Field := ⟨63, 61⟩
def bistSegStatus_result : Field := ⟨60, 58⟩
def bistSegStatus_level : Field := ⟨57, 56⟩
def bistSegStatus_failMask : Field := ⟨55, 48⟩
def bistSegStatus_time : Field := ⟨47, 32⟩
def bistSegStatus_code : Field := ⟨31, 24⟩
def bistSig_sig : Field := ⟨63, 0⟩
def bistGolden_golden : Field := ⟨63, 0⟩
end Fld

end Sys2Proof.Machine
end

