-- ==== Sys2Proof/Machine/Counters.lean ====
section
/-! DEFINITION. The named counters (R13, R414, R415): every counter the spec names, by the unit that has it. -/

namespace Sys2Proof.Machine

/-- The named counters, unit by unit in the order of Table 1.1, ASCII order within a unit; then those of every HBM controller (Table 11.6). -/
inductive Ctr where
  | lineSerdesRetrainWait
  | lineMacFaultSuppressed
  | lineMacFecCwBad
  | lineMacFecSymCorr
  | lineMacLinkDown
  | lineMacRxBytes
  | lineMacRxCdcOverrun
  | lineMacRxFcsErr
  | lineMacRxFecBad
  | lineMacRxFrames
  | lineMacRxMacctl
  | lineMacRxOversize
  | lineMacRxPortDown
  | lineMacRxRunt
  | lineMacRxStomped
  | lineMacRxTruncated
  | lineMacTxAbandoned
  | lineMacTxStomped
  | lineMacsecKeyRefused
  | lineMacsecRxAuthFail
  | lineMacsecRxBadTag
  | lineMacsecRxBypass
  | lineMacsecRxInvalid
  | lineMacsecRxLate
  | lineMacsecRxMacBad
  | lineMacsecRxNoKey
  | lineMacsecRxNoSa
  | lineMacsecRxNoSci
  | lineMacsecRxOk
  | lineMacsecRxTooLong
  | lineMacsecRxUntagged
  | lineMacsecRxUntaggedPass
  | lineMacsecTxBypass
  | lineMacsecTxClear
  | lineMacsecTxEncrypted
  | lineMacsecTxNoKey
  | lineMacsecTxNoSa
  | lineMacsecTxPnExhausted
  | lineMacsecTxProtected
  | lineMacsecTxTooLong
  | lineTspFlexeIgnored
  | lineTspTxRingFull
  | lookupSliceEngineDrop
  | lookupSliceEngineHoldFull
  | lookupSliceEngineSkip
  | lookupSliceEngineWait
  | lookupSliceEngineWaitExpired
  | lookupSlicePaceDrop
  | lookupSliceReloadDrop
  | lookupSliceTraceLost
  | lookupParserDrop
  | lookupParserErrCsum
  | lookupParserErrDepth
  | lookupParserErrForm
  | lookupParserErrLength
  | lookupParserErrNomatch
  | lookupParserErrSkip
  | lookupParserErrTruncated
  | lookupParserErrVisits
  | lookupParserErrWindow
  | lookupParserRecircFull
  | lookupParserRecircLimit
  | lookupClassifyDrop
  | lookupEgressEncapStale
  | lookupEgressOversize
  | lookupFragFollow
  | lookupFragHoldFull
  | lookupFragNoEntry
  | lookupFragOverflow
  | lookupFragPendingLost
  | lookupFragPolicyDrop
  | lookupFragPolicyL3
  | lookupFragPolicyPunt
  | lookupFragReplaced
  | lookupEmhashBankStall
  | lookupEmhashDup
  | lookupEmhashEccCorr
  | lookupEmhashEccUncorr
  | lookupEmhashInsertFull
  | lookupEmhashStashReturn
  | lookupFlowError
  | lookupDitBadChain
  | lookupDitBdMiss
  | lookupDitEccCorr
  | lookupDitEccDrop
  | lookupDitLabelMiss
  | lookupDitNhMiss
  | lookupDitNoDecision
  | lookupDitTtlExpired
  | lookupDitUnknownDrop
  | lookupDitUnknownPunt
  | lookupLearnConflict
  | lookupLearnDuplicate
  | lookupLearnFlap
  | lookupLearnHandoffFull
  | lookupLearnLearned
  | lookupLearnLimit
  | lookupLearnLogLost
  | lookupLearnMoved
  | lookupLearnQueueFull
  | lookupLearnTableFull
  | lookupPouncerLate
  | lookupSpreadBadGroup
  | lookupSpreadEmptySlot
  | lookupSpreadLagDead
  | lookupMeterDropRed
  | lookupMeterDropYellow
  | lookupSamplerRateDrop
  | lookupMirrorCopyDrop
  | lookupCompareMismatch
  | associativeArrayEccCorr
  | associativeArrayEccUncorr
  | associativeArrayMoves
  | associativeArrayParityErr
  | associativeArrayRepaired
  | associativeDispatchErrDrop
  | associativeDispatchErrPunt
  | associativeDispatchNoCover
  | associativeDispatchTimeout
  | engineClusterEccCorr
  | engineClusterFault
  | engineClusterPrograms
  | engineClusterSampleLost
  | engineClusterTimeout
  | engineClusterVerdictDrop
  | engineClusterVerdictPunt
  | engineClusterVerdictRedirect
  | enginePeCycles
  | trafficAdmitAdmitted
  | trafficAdmitBadDrop
  | trafficAdmitCtBadTail
  | trafficAdmitEgrLimit
  | trafficAdmitIngLimit
  | trafficAdmitPortDown
  | trafficAdmitQueueLimit
  | trafficPoolAllocFail
  | trafficPoolOwnerFault
  | trafficQueueCtUnderrun
  | trafficQueueFencedDrop
  | trafficQueueFlushBuffers
  | trafficQueueFlushDrop
  | trafficQueueReadErr
  | trafficQueueStuckFlush
  | trafficReplCtxFull
  | trafficReplListLong
  | trafficReplPruned
  | trafficReplReplicas
  | trafficReplWalkTimeout
  | trafficSchedDebtSat
  | trafficSchedPowerDefer
  | trafficGateBrimDefer
  | trafficGateOverrun
  | trafficGatePendWriteIgnored
  | fabricLinkAlignLost
  | fabricLinkCellBad
  | fabricLinkCellCrc
  | fabricLinkFrameErr
  | fabricLinkRxCdcOverrun
  | fabricReasmCellLost
  | fabricReasmCtxFull
  | fabricReasmEpochForeign
  | fabricReasmLate
  | fabricReasmRecDrop
  | fabricReasmStoreFull
  | fabricCreditStarved
  | controlCoreWarmRestart
  | controlCoreWdogExpired
  | controlLoaderBootlogLost
  | controlTimeAdjRefused
  | controlTimeCellIgnored
  | controlTimeFreqLimit
  | controlTimeMeasDiscard
  | controlTimeStep
  | controlTimeTodMismatch
  | controlTimeTodMissing
  | controlGovC1Short
  | controlGovC2Short
  | controlGovC3Short
  | controlGovForced
  | controlGovOver
  | controlGovSlewExceed
  | controlBistBusyRefused
  | controlBistPaused
  | controlBistReturnRefused
  | controlBistSkipped
  | controlCountAccSaturated
  | controlDumpSkipped
  | controlTelemetryLost
  | controlFcpAuthFail
  | controlFcpAuthRefused
  | controlFcpEventLost
  | controlFcpReplay
  | controlFcpRxRateDrop
  | controlMgmtRxOther
  | controlAgentBridgeTimeout
  | controlAgentEpochDrop
  | controlAgentRegTimeout
  | hbmctlActivates
  | hbmctlCaParity
  | hbmctlCmdTimeout
  | hbmctlEccCorr
  | hbmctlEccUncorr
  | hbmctlFreeze
  | hbmctlPoisoned
  | hbmctlRefreshAb
  | hbmctlRefreshPb
  | hbmctlReqRefused
  | hbmctlRetrain
  | hbmctlTrainFail
  | hbmctlWriteFwd
  | hbmctlWritesLost
  deriving DecidableEq, Repr

/-- A row of units of Table 1.1: complex code (Table 0.5), unit name, how many there are, and its counters in the order of R415. -/
structure UnitRow where
  complex : Nat
  name    : String
  count   : Nat
  ctrs    : List (Ctr × String)
  deriving DecidableEq, Repr

/-- Table 1.1 with the device's catalogue of counters (R415). -/
def unitRows : List UnitRow := [
  ⟨2, "line.serdes", 96, [(.lineSerdesRetrainWait, "line.serdes.retrain_wait")]⟩,
  ⟨2, "line.mac", 96, [(.lineMacFaultSuppressed, "line.mac.fault_suppressed"), (.lineMacFecCwBad, "line.mac.fec_cw_bad"), (.lineMacFecSymCorr, "line.mac.fec_sym_corr"), (.lineMacLinkDown, "line.mac.link_down"), (.lineMacRxBytes, "line.mac.rx_bytes"), (.lineMacRxCdcOverrun, "line.mac.rx_cdc_overrun"), (.lineMacRxFcsErr, "line.mac.rx_fcs_err"), (.lineMacRxFecBad, "line.mac.rx_fec_bad"), (.lineMacRxFrames, "line.mac.rx_frames"), (.lineMacRxMacctl, "line.mac.rx_macctl"), (.lineMacRxOversize, "line.mac.rx_oversize"), (.lineMacRxPortDown, "line.mac.rx_port_down"), (.lineMacRxRunt, "line.mac.rx_runt"), (.lineMacRxStomped, "line.mac.rx_stomped"), (.lineMacRxTruncated, "line.mac.rx_truncated"), (.lineMacTxAbandoned, "line.mac.tx_abandoned"), (.lineMacTxStomped, "line.mac.tx_stomped")]⟩,
  ⟨2, "line.flexe", 12, []⟩,
  ⟨2, "line.macsec", 96, [(.lineMacsecKeyRefused, "line.macsec.key_refused"), (.lineMacsecRxAuthFail, "line.macsec.rx_auth_fail"), (.lineMacsecRxBadTag, "line.macsec.rx_bad_tag"), (.lineMacsecRxBypass, "line.macsec.rx_bypass"), (.lineMacsecRxInvalid, "line.macsec.rx_invalid"), (.lineMacsecRxLate, "line.macsec.rx_late"), (.lineMacsecRxMacBad, "line.macsec.rx_mac_bad"), (.lineMacsecRxNoKey, "line.macsec.rx_no_key"), (.lineMacsecRxNoSa, "line.macsec.rx_no_sa"), (.lineMacsecRxNoSci, "line.macsec.rx_no_sci"), (.lineMacsecRxOk, "line.macsec.rx_ok"), (.lineMacsecRxTooLong, "line.macsec.rx_too_long"), (.lineMacsecRxUntagged, "line.macsec.rx_untagged"), (.lineMacsecRxUntaggedPass, "line.macsec.rx_untagged_pass"), (.lineMacsecTxBypass, "line.macsec.tx_bypass"), (.lineMacsecTxClear, "line.macsec.tx_clear"), (.lineMacsecTxEncrypted, "line.macsec.tx_encrypted"), (.lineMacsecTxNoKey, "line.macsec.tx_no_key"), (.lineMacsecTxNoSa, "line.macsec.tx_no_sa"), (.lineMacsecTxPnExhausted, "line.macsec.tx_pn_exhausted"), (.lineMacsecTxProtected, "line.macsec.tx_protected"), (.lineMacsecTxTooLong, "line.macsec.tx_too_long")]⟩,
  ⟨2, "line.tsp", 96, [(.lineTspFlexeIgnored, "line.tsp.flexe_ignored"), (.lineTspTxRingFull, "line.tsp.tx_ring_full")]⟩,
  ⟨3, "lookup.slice", 12, [(.lookupSliceEngineDrop, "lookup.slice.engine_drop"), (.lookupSliceEngineHoldFull, "lookup.slice.engine_hold_full"), (.lookupSliceEngineSkip, "lookup.slice.engine_skip"), (.lookupSliceEngineWait, "lookup.slice.engine_wait"), (.lookupSliceEngineWaitExpired, "lookup.slice.engine_wait_expired"), (.lookupSlicePaceDrop, "lookup.slice.pace_drop"), (.lookupSliceReloadDrop, "lookup.slice.reload_drop"), (.lookupSliceTraceLost, "lookup.slice.trace_lost")]⟩,
  ⟨3, "lookup.parser", 12, [(.lookupParserDrop, "lookup.parser.drop"), (.lookupParserErrCsum, "lookup.parser.err_csum"), (.lookupParserErrDepth, "lookup.parser.err_depth"), (.lookupParserErrForm, "lookup.parser.err_form"), (.lookupParserErrLength, "lookup.parser.err_length"), (.lookupParserErrNomatch, "lookup.parser.err_nomatch"), (.lookupParserErrSkip, "lookup.parser.err_skip"), (.lookupParserErrTruncated, "lookup.parser.err_truncated"), (.lookupParserErrVisits, "lookup.parser.err_visits"), (.lookupParserErrWindow, "lookup.parser.err_window"), (.lookupParserRecircFull, "lookup.parser.recirc_full"), (.lookupParserRecircLimit, "lookup.parser.recirc_limit")]⟩,
  ⟨3, "lookup.classify", 12, [(.lookupClassifyDrop, "lookup.classify.drop")]⟩,
  ⟨3, "lookup.range", 12, []⟩,
  ⟨3, "lookup.egress", 12, [(.lookupEgressEncapStale, "lookup.egress.encap_stale"), (.lookupEgressOversize, "lookup.egress.oversize")]⟩,
  ⟨3, "lookup.frag", 1, [(.lookupFragFollow, "lookup.frag.follow"), (.lookupFragHoldFull, "lookup.frag.hold_full"), (.lookupFragNoEntry, "lookup.frag.no_entry"), (.lookupFragOverflow, "lookup.frag.overflow"), (.lookupFragPendingLost, "lookup.frag.pending_lost"), (.lookupFragPolicyDrop, "lookup.frag.policy_drop"), (.lookupFragPolicyL3, "lookup.frag.policy_l3"), (.lookupFragPolicyPunt, "lookup.frag.policy_punt"), (.lookupFragReplaced, "lookup.frag.replaced")]⟩,
  ⟨3, "lookup.emhash", 1, [(.lookupEmhashBankStall, "lookup.emhash.bank_stall"), (.lookupEmhashDup, "lookup.emhash.dup"), (.lookupEmhashEccCorr, "lookup.emhash.ecc_corr"), (.lookupEmhashEccUncorr, "lookup.emhash.ecc_uncorr"), (.lookupEmhashInsertFull, "lookup.emhash.insert_full"), (.lookupEmhashStashReturn, "lookup.emhash.stash_return")]⟩,
  ⟨3, "lookup.flow", 1, [(.lookupFlowError, "lookup.flow.error")]⟩,
  ⟨3, "lookup.dit", 1, [(.lookupDitBadChain, "lookup.dit.bad_chain"), (.lookupDitBdMiss, "lookup.dit.bd_miss"), (.lookupDitEccCorr, "lookup.dit.ecc_corr"), (.lookupDitEccDrop, "lookup.dit.ecc_drop"), (.lookupDitLabelMiss, "lookup.dit.label_miss"), (.lookupDitNhMiss, "lookup.dit.nh_miss"), (.lookupDitNoDecision, "lookup.dit.no_decision"), (.lookupDitTtlExpired, "lookup.dit.ttl_expired"), (.lookupDitUnknownDrop, "lookup.dit.unknown_drop"), (.lookupDitUnknownPunt, "lookup.dit.unknown_punt")]⟩,
  ⟨3, "lookup.learn", 16, [(.lookupLearnConflict, "lookup.learn.conflict"), (.lookupLearnDuplicate, "lookup.learn.duplicate"), (.lookupLearnFlap, "lookup.learn.flap"), (.lookupLearnHandoffFull, "lookup.learn.handoff_full"), (.lookupLearnLearned, "lookup.learn.learned"), (.lookupLearnLimit, "lookup.learn.limit"), (.lookupLearnLogLost, "lookup.learn.log_lost"), (.lookupLearnMoved, "lookup.learn.moved"), (.lookupLearnQueueFull, "lookup.learn.queue_full"), (.lookupLearnTableFull, "lookup.learn.table_full")]⟩,
  ⟨3, "lookup.pouncer", 1, [(.lookupPouncerLate, "lookup.pouncer.late")]⟩,
  ⟨3, "lookup.spread", 1, [(.lookupSpreadBadGroup, "lookup.spread.bad_group"), (.lookupSpreadEmptySlot, "lookup.spread.empty_slot"), (.lookupSpreadLagDead, "lookup.spread.lag_dead")]⟩,
  ⟨3, "lookup.meter", 1, [(.lookupMeterDropRed, "lookup.meter.drop_red"), (.lookupMeterDropYellow, "lookup.meter.drop_yellow")]⟩,
  ⟨3, "lookup.sampler", 1, [(.lookupSamplerRateDrop, "lookup.sampler.rate_drop")]⟩,
  ⟨3, "lookup.mirror", 1, [(.lookupMirrorCopyDrop, "lookup.mirror.copy_drop")]⟩,
  ⟨3, "lookup.compare", 1, [(.lookupCompareMismatch, "lookup.compare.mismatch")]⟩,
  ⟨3, "lookup.hbmctl", 128, []⟩,
  ⟨3, "lookup.bridge", 1, []⟩,
  ⟨4, "associative.array", 128, [(.associativeArrayEccCorr, "associative.array.ecc_corr"), (.associativeArrayEccUncorr, "associative.array.ecc_uncorr"), (.associativeArrayMoves, "associative.array.moves"), (.associativeArrayParityErr, "associative.array.parity_err"), (.associativeArrayRepaired, "associative.array.repaired")]⟩,
  ⟨4, "associative.dispatch", 1, [(.associativeDispatchErrDrop, "associative.dispatch.err_drop"), (.associativeDispatchErrPunt, "associative.dispatch.err_punt"), (.associativeDispatchNoCover, "associative.dispatch.no_cover"), (.associativeDispatchTimeout, "associative.dispatch.timeout")]⟩,
  ⟨5, "engine.cluster", 8, [(.engineClusterEccCorr, "engine.cluster.ecc_corr"), (.engineClusterFault, "engine.cluster.fault"), (.engineClusterPrograms, "engine.cluster.programs"), (.engineClusterSampleLost, "engine.cluster.sample_lost"), (.engineClusterTimeout, "engine.cluster.timeout"), (.engineClusterVerdictDrop, "engine.cluster.verdict_drop"), (.engineClusterVerdictPunt, "engine.cluster.verdict_punt"), (.engineClusterVerdictRedirect, "engine.cluster.verdict_redirect")]⟩,
  ⟨5, "engine.pe", 256, [(.enginePeCycles, "engine.pe.cycles")]⟩,
  ⟨6, "traffic.bridge", 1, []⟩,
  ⟨6, "traffic.admit", 1, [(.trafficAdmitAdmitted, "traffic.admit.admitted"), (.trafficAdmitBadDrop, "traffic.admit.bad_drop"), (.trafficAdmitCtBadTail, "traffic.admit.ct_bad_tail"), (.trafficAdmitEgrLimit, "traffic.admit.egr_limit"), (.trafficAdmitIngLimit, "traffic.admit.ing_limit"), (.trafficAdmitPortDown, "traffic.admit.port_down"), (.trafficAdmitQueueLimit, "traffic.admit.queue_limit")]⟩,
  ⟨6, "traffic.pool", 1, [(.trafficPoolAllocFail, "traffic.pool.alloc_fail"), (.trafficPoolOwnerFault, "traffic.pool.owner_fault")]⟩,
  ⟨6, "traffic.queue", 1, [(.trafficQueueCtUnderrun, "traffic.queue.ct_underrun"), (.trafficQueueFencedDrop, "traffic.queue.fenced_drop"), (.trafficQueueFlushBuffers, "traffic.queue.flush_buffers"), (.trafficQueueFlushDrop, "traffic.queue.flush_drop"), (.trafficQueueReadErr, "traffic.queue.read_err"), (.trafficQueueStuckFlush, "traffic.queue.stuck_flush")]⟩,
  ⟨6, "traffic.repl", 1, [(.trafficReplCtxFull, "traffic.repl.ctx_full"), (.trafficReplListLong, "traffic.repl.list_long"), (.trafficReplPruned, "traffic.repl.pruned"), (.trafficReplReplicas, "traffic.repl.replicas"), (.trafficReplWalkTimeout, "traffic.repl.walk_timeout")]⟩,
  ⟨6, "traffic.sched", 1, [(.trafficSchedDebtSat, "traffic.sched.debt_sat"), (.trafficSchedPowerDefer, "traffic.sched.power_defer")]⟩,
  ⟨6, "traffic.gate", 1, [(.trafficGateBrimDefer, "traffic.gate.brim_defer"), (.trafficGateOverrun, "traffic.gate.overrun"), (.trafficGatePendWriteIgnored, "traffic.gate.pend_write_ignored")]⟩,
  ⟨6, "traffic.hbmctl", 384, []⟩,
  ⟨8, "fabric.serdes", 120, []⟩,
  ⟨8, "fabric.link", 60, [(.fabricLinkAlignLost, "fabric.link.align_lost"), (.fabricLinkCellBad, "fabric.link.cell_bad"), (.fabricLinkCellCrc, "fabric.link.cell_crc"), (.fabricLinkFrameErr, "fabric.link.frame_err"), (.fabricLinkRxCdcOverrun, "fabric.link.rx_cdc_overrun")]⟩,
  ⟨8, "fabric.seg", 1, []⟩,
  ⟨8, "fabric.reasm", 1, [(.fabricReasmCellLost, "fabric.reasm.cell_lost"), (.fabricReasmCtxFull, "fabric.reasm.ctx_full"), (.fabricReasmEpochForeign, "fabric.reasm.epoch_foreign"), (.fabricReasmLate, "fabric.reasm.late"), (.fabricReasmRecDrop, "fabric.reasm.rec_drop"), (.fabricReasmStoreFull, "fabric.reasm.store_full")]⟩,
  ⟨8, "fabric.credit", 1, [(.fabricCreditStarved, "fabric.credit.starved")]⟩,
  ⟨8, "fabric.timecell", 1, []⟩,
  ⟨1, "control.core", 4, [(.controlCoreWarmRestart, "control.core.warm_restart"), (.controlCoreWdogExpired, "control.core.wdog_expired")]⟩,
  ⟨1, "control.loader", 1, [(.controlLoaderBootlogLost, "control.loader.bootlog_lost")]⟩,
  ⟨1, "control.security", 1, []⟩,
  ⟨1, "control.time", 1, [(.controlTimeAdjRefused, "control.time.adj_refused"), (.controlTimeCellIgnored, "control.time.cell_ignored"), (.controlTimeFreqLimit, "control.time.freq_limit"), (.controlTimeMeasDiscard, "control.time.meas_discard"), (.controlTimeStep, "control.time.step"), (.controlTimeTodMismatch, "control.time.tod_mismatch"), (.controlTimeTodMissing, "control.time.tod_missing")]⟩,
  ⟨1, "control.gov", 1, [(.controlGovC1Short, "control.gov.c1_short"), (.controlGovC2Short, "control.gov.c2_short"), (.controlGovC3Short, "control.gov.c3_short"), (.controlGovForced, "control.gov.forced"), (.controlGovOver, "control.gov.over"), (.controlGovSlewExceed, "control.gov.slew_exceed")]⟩,
  ⟨1, "control.bist", 1, [(.controlBistBusyRefused, "control.bist.busy_refused"), (.controlBistPaused, "control.bist.paused"), (.controlBistReturnRefused, "control.bist.return_refused"), (.controlBistSkipped, "control.bist.skipped")]⟩,
  ⟨1, "control.count", 1, [(.controlCountAccSaturated, "control.count.acc_saturated")]⟩,
  ⟨1, "control.dump", 1, [(.controlDumpSkipped, "control.dump.skipped")]⟩,
  ⟨1, "control.telemetry", 1, [(.controlTelemetryLost, "control.telemetry.lost")]⟩,
  ⟨1, "control.fcp", 1, [(.controlFcpAuthFail, "control.fcp.auth_fail"), (.controlFcpAuthRefused, "control.fcp.auth_refused"), (.controlFcpEventLost, "control.fcp.event_lost"), (.controlFcpReplay, "control.fcp.replay"), (.controlFcpRxRateDrop, "control.fcp.rx_rate_drop")]⟩,
  ⟨1, "control.mgmt", 2, [(.controlMgmtRxOther, "control.mgmt.rx_other")]⟩,
  ⟨1, "control.agent", 4, [(.controlAgentBridgeTimeout, "control.agent.bridge_timeout"), (.controlAgentEpochDrop, "control.agent.epoch_drop"), (.controlAgentRegTimeout, "control.agent.reg_timeout")]⟩]

/-- The counters of an HBM controller (Table 11.6), in ASCII order of their names. -/
def hbmCtrs : List (Ctr × String) := [(.hbmctlActivates, "activates"), (.hbmctlCaParity, "ca_parity"), (.hbmctlCmdTimeout, "cmd_timeout"), (.hbmctlEccCorr, "ecc_corr"), (.hbmctlEccUncorr, "ecc_uncorr"), (.hbmctlFreeze, "freeze"), (.hbmctlPoisoned, "poisoned"), (.hbmctlRefreshAb, "refresh_ab"), (.hbmctlRefreshPb, "refresh_pb"), (.hbmctlReqRefused, "req_refused"), (.hbmctlRetrain, "retrain"), (.hbmctlTrainFail, "train_fail"), (.hbmctlWriteFwd, "write_fwd"), (.hbmctlWritesLost, "writes_lost")]

/-- Banks 0x09 to 0x0B hold the counters of control.time, control.gov and control.bist (R12, R415). -/
def bankRows (bank : Nat) : List UnitRow :=
  if bank = 9 then unitRows.filter (fun r => r.name = "control.time")
  else if bank = 10 then unitRows.filter (fun r => r.name = "control.gov")
  else if bank = 11 then unitRows.filter (fun r => r.name = "control.bist")
  else unitRows.filter (fun r => r.complex = bank)

/-- The unit row and the index within it that ordinal `o` of a list of rows names (R404). -/
def ordinalRow : List UnitRow → Nat → Option (UnitRow × Nat)
  | [], _ => none
  | r :: rs, o => if o < r.count then some (r, o) else ordinalRow rs (o - r.count)

end Sys2Proof.Machine
end

