-- ==== Sys2Proof/Machine/Store.lean ====
section
/-! DEFINITION. Sparse maps in one canonical form: a list of (key, value) pairs, keys strictly rising, and no entry equal to
what an unlisted key reads as. Registers, counters, table memory and every replicated unit of the FZ96 are held so. -/

namespace Sys2Proof.Machine

/-- A sparse map from numbers. -/
abbrev AMap (α : Type) := List (Nat × α)

/-- The value at key `k`; an unlisted key reads as `d k`. -/
def mget {α : Type} (d : Nat → α) : AMap α → Nat → α
  | [], k => d k
  | (j, v) :: m, k => if j = k then v else mget d m k

/-- The map without key `k`. -/
def mdrop {α : Type} (k : Nat) : AMap α → AMap α
  | [] => []
  | (j, w) :: m => if j = k then mdrop k m else (j, w) :: mdrop k m

/-- The map with (`k`, `v`) before the first key that is not below `k`. -/
def minsert {α : Type} (k : Nat) (v : α) : AMap α → AMap α
  | [] => [(k, v)]
  | (j, w) :: m => if j < k then (j, w) :: minsert k v m else (k, v) :: (j, w) :: m

/-- The map with `v` at key `k`, in canonical form. -/
def mput {α : Type} [DecidableEq α] (d : Nat → α) (m : AMap α) (k : Nat) (v : α) : AMap α :=
  if v = d k then mdrop k m else minsert k v (mdrop k m)

/-- Whether every key is above `lo` and the keys rise strictly. -/
def mrising {α : Type} : Nat → AMap α → Bool
  | _, [] => true
  | lo, (k, _) :: m => decide (lo ≤ k) && mrising (k + 1) m

/-- The canonical form: keys rise strictly and no entry equals what an unlisted key reads as. -/
def mwf {α : Type} [DecidableEq α] (d : Nat → α) (m : AMap α) : Bool :=
  mrising 0 m && m.all (fun p => decide (p.2 ≠ d p.1))

end Sys2Proof.Machine
end

