-- ==== Sys2Proof/Machine/State.lean ====
section
/-! DEFINITION. The state of the FZ96 (Machine/State): everything the spec gives the device, as plain data.
A status that a register shows lives in that register (`regs`); the structures below hold what no register shows. -/

namespace Sys2Proof.Machine

/-- Why a command of the block stops. No command of this model does: each has an effect, or is turned away with the state unchanged. -/
inductive Fault where
  /-- Raised by no meaning; the spec gives the FZ96 no fault that stops it. Safe. -/
  | none
  deriving DecidableEq, Repr

/-- Why the model gives a command no effect. -/
inductive Refusal where
  /-- Raised by the dispatcher for a command that has no meaning in this model yet. Safe. -/
  | notModelled (mnemonic : String)
  deriving DecidableEq, Repr

/-- The device-level pins and the causes that assert FAULT_N (Table 20.6). -/
structure Pins where
  ready          : Bool
  /-- Line and fabric transmitters at electrical idle (R35, R36). -/
  linkIdle       : Bool
  faultReset     : Bool
  faultRecovery  : Bool
  faultHalt      : Bool
  faultWarm      : Bool
  faultHeartbeat : Bool
  faultScan      : Bool
  pfwLow         : Bool
  thermtrip      : Bool
  ppsOut         : Bool
  /-- Clocks stopped by THERMTRIP (R389). -/
  clocksStopped  : Bool
  /-- The pins are taken by a boundary-scan instruction until cold reset (R413). -/
  scanMode       : Bool
  /-- The TAP instruction selected (Table 17.11), 0 BYPASS. -/
  tapInstr       : Nat
  /-- What the selected data register shifts out: the IDCODE, or the value MGMT read (Table 17.11). -/
  tapData        : Word
  deriving DecidableEq, Repr

/-- Where start-up stands (Table 2.8, R48). -/
inductive Stage where
  | coldReset | released | header | sectionTable | signature | body | fwStart | training | bist | fabric | statics | running | recovery | halted
  deriving DecidableEq, Repr

/-- The one-time-programmable fuses (Table 2.6) and the identity record. -/
structure Fuses where
  ownerHash   : AMap (BitVec 384)
  ownerRevoked : Nat
  provRevoked : Nat
  secFloor    : Nat
  jtag        : Nat
  identity    : Bool
  serial      : BitVec 128
  deriving DecidableEq, Repr

/-- A run of words to write (R42). -/
structure WordRun where
  addr : Nat
  words : List Word
  deriving DecidableEq, Repr

/-- An in-service image change under way (R355, R356): asked for, then, once the checks are done, the header and section table of the image, which are
in force from the switch on, and the firmware it brings (kind 5). -/
structure Staged where
  switchNow : Bool
  seconds   : Nat
  ns        : Nat
  checked   : Bool
  switched  : Bool
  hdr       : Bytes
  tbl       : Bytes
  keyHash   : BitVec 384
  firmware  : Option Bytes
  deriving DecidableEq, Repr

/-- Start-up, the image and warm restart (chapter 2). -/
structure Boot where
  stage     : Stage
  /-- Start-up stopped at its step by PFW_N (R57). -/
  stopped   : Bool
  /-- The slot in hand: 0 A, 1 B. -/
  slot      : Nat
  flashMiB  : Nat
  hdr       : Bytes
  tbl       : Bytes
  keyHash   : BitVec 384
  /-- Records of sections 0x0010 to 0x0012, applied at step 9. -/
  statics   : List WordRun
  /-- The image's records of the other sections, kept for the restore of R443 and for slice reload. -/
  records   : List WordRun
  firmware  : Bytes
  stagingBusy : Bool
  fwRunning : Bool
  /-- A warm restart is in progress. -/
  warm      : Bool
  /-- The step-free time at which the last warm restart began. -/
  warmAt    : Nat
  warmFails : Nat
  /-- The limit of R61 is reached: no more restarts. -/
  warmStopped : Bool
  /-- A cold reset is due 10 ms after a RESET reply. -/
  resetDue  : Bool
  /-- The step-free times at which the watchdog's period and the heartbeat's began (R409, R410). -/
  wdogAt    : Nat
  heartAt   : Nat
  staged    : Option Staged
  /-- Slices under reload (R357). -/
  reloading : List Nat
  /-- The step-free time at which READY was asserted (R430). -/
  readyAt   : Nat
  /-- Words of flash written by FLASH_WRITE, as (4,096-byte block, contents). -/
  flash     : AMap Bytes
  deriving DecidableEq, Repr

/-- An event record (Table 17.8) before it is laid out. -/
structure EventRec where
  code : Nat
  held : Nat
  seq  : Nat
  time : Bytes
  data : Bytes
  deriving DecidableEq, Repr

/-- A rate-limit window of R467. -/
structure RateWindow where
  code : Nat
  key  : Nat
  held : Nat
  data : Bytes
  deriving DecidableEq, Repr

/-- Events: the ring, the boot log and the rate-limit windows (R58, R404, R467). -/
structure Events where
  nextSeq : Nat
  ring    : List EventRec
  bootLog : List EventRec
  windows : List RateWindow
  deriving DecidableEq, Repr

/-- A counter's value and flags (R13, R419). -/
structure CtrVal where
  value : Nat
  ovf   : Bool
  inexact : Bool
  deriving DecidableEq, Repr

/-- A message the device sends on a session (Table 17.1): `seq` is its direction's sequence number, `reply` flag bit 1, `gap` flag bit 3. -/
structure FcpMsg where
  session : Nat
  type    : Nat
  seq     : Nat
  request : Nat
  status  : Nat
  reply   : Bool
  gap     : Bool
  payload : Bytes
  deriving DecidableEq, Repr

/-- A stored reply (R398). -/
structure Reply where
  request : Nat
  type    : Nat
  status  : Nat
  payload : Bytes
  deriving DecidableEq, Repr

/-- An FCP session (R395, R397). `auth` is set by AUTH_OK; `peer` numbers the key that opened it. -/
structure Session where
  id       : Nat
  port     : Nat
  version  : Nat
  keyHash  : BitVec 384
  peer     : Nat
  auth     : Bool
  priv     : Nat
  rxSeq    : Nat
  txSeq    : Nat
  replies  : List Reply
  ackSeq   : Nat
  sentSeq  : Nat
  lost     : Bool
  learnSent : Nat
  learnAcked : Nat
  deriving DecidableEq, Repr

/-- A batch that is being received or waits to be applied (R399, R400). -/
structure Batch where
  session : Nat
  request : Nat
  peer    : Nat
  number  : Nat
  kind    : Nat
  count   : Nat
  segments : List (Nat × List BatchOp)
  /-- How many segments BATCH_END announced, once it has arrived. -/
  ended    : Option Nat
  deriving DecidableEq, Repr

/-- An entry of the batch log (R401). -/
structure BatchLog where
  peer   : Nat
  number : Nat
  status : Nat
  reason : Nat
  firstBad : Nat
  deriving DecidableEq, Repr

/-- Control frames and sessions (chapter 17). -/
structure Fcp where
  sessions  : List Session
  sent      : List FcpMsg
  open_     : List Batch
  waiting   : List Batch
  log       : List BatchLog
  /-- The batch whose flip waits for its lookup boundary. -/
  flip      : Option Batch
  /-- The step-free time of the last boundary (R348). -/
  lastFlip  : Option Nat
  /-- The two-wire target (R411): its pointer, the bytes of latched fields, the first byte of a BUDGET write, what the last transfer read and how many
  of its written bytes were acknowledged. -/
  twiPointer : Nat
  twiLatch   : AMap Byte
  twiHigh    : Nat
  twiOut     : Bytes
  twiAcked   : Nat
  /-- Sessions closed by a warm restart, reported when the firmware runs (R397). -/
  closedByWarm : List Nat
  deriving DecidableEq, Repr

/-- A packet-memory accumulator waiting in a flush queue (R417): bank, index, amount. -/
structure Flush where
  bank   : Nat
  index  : Nat
  amount : Nat
  deriving DecidableEq, Repr

/-- A telemetry record that waits for export: kind (Table 18.8), the collectors it is for, contents. -/
structure TeleRec where
  kind  : Nat
  dest  : Nat
  body  : Bytes
  deriving DecidableEq, Repr

/-- A datagram the exporter sent (R427, R430): where it went, its addresses and ports, and its UDP payload. -/
structure TeleSent where
  collector : Nat
  kind  : Nat
  seq   : Nat
  gap   : Bool
  port  : Nat
  tc    : Nat
  dmac  : Nat
  smac  : Nat
  ipv6  : Bool
  src   : Nat
  dst   : Nat
  sport : Nat
  dport : Nat
  payload : Bytes
  deriving DecidableEq, Repr

/-- A counter filter in force (Table 18.4). -/
structure Filter where
  kind : Nat
  priv : Nat
  tc   : Nat
  mval : Nat
  mmask : Nat
  lo   : Nat
  hi   : Nat
  deriving DecidableEq, Repr

/-- Counters' accumulators, snapshots and telemetry (chapter 18). -/
structure Obs where
  /-- Amounts in on-die accumulators of banks 0x0100, 0x0102 and 0x0103, key bank × 2^32 + index. -/
  acc        : AMap Nat
  /-- Stored records in h0 and h1 of those banks, same key. -/
  stored0    : AMap CtrVal
  stored1    : AMap CtrVal
  flushF     : List Flush
  flushT     : List Flush
  /-- Filters in force (R423), by filter number. -/
  filters    : AMap Filter
  walking    : Bool
  walkSeq    : Nat
  walkInstant : Bytes
  walkEpoch  : Nat
  walkVals   : AMap CtrVal
  walkMissing : Bool
  skippedBefore : Bool
  /-- Table controllers whose counter records wait to be rewritten from the other stack's copy (R418). -/
  stale      : List Nat
  teleQ      : List TeleRec
  teleSeq    : AMap Nat
  teleGap    : AMap Bool
  sflowSeq   : AMap Nat
  teleSent   : List TeleSent
  deriving DecidableEq, Repr

/-- A queued or running self-test (chapter 19). -/
structure BistRun where
  seg   : Nat
  level : Nat
  deriving DecidableEq, Repr

/-- A run that has ended and whose units are being restored: its mismatching MISRs, the signature and time to record; `aborted` when it was aborted (R437). -/
structure BistEnd where
  run     : BistRun
  mask    : Nat
  sig     : Word
  ms      : Nat
  aborted : Bool
  deriving DecidableEq, Repr

/-- Built-in self-test. -/
structure Bist where
  queue    : List BistRun
  running  : List BistRun
  restoring : List BistEnd
  /-- Units barred from service by a failed in-service test. -/
  barred   : List Nat
  /-- Units that start-up BIST disabled. -/
  disabled : List Nat
  deriving DecidableEq, Repr

/-- A frame on its way from a port to the parser: what the MAC and MACsec attach to its bytes (R69, R86, R101). -/
structure RxPkt where
  bytes   : Bytes
  port    : Nat
  bad     : Bool
  /-- Ingress timestamp in ns of the time of day, and whether it is valid (R86, R87). -/
  ts      : Nat
  tsValid : Bool
  /-- MACsec status (Table 5.4): 0 bypass or no SecY, 1 unprotected, 2 invalid, 3 verified; and the receive channel (R101). -/
  msec    : Nat
  msecSc  : Nat
  deriving DecidableEq, Repr

/-- A frame handed to a port for transmission. `twoStep` asks for a departure timestamp with `tag` (R86); `counted` when its leaving lowers its epoch's
count (R343): not for mirror copies, replicas and the device's own frames. -/
structure TxPkt where
  bytes   : Bytes
  epoch   : Nat
  counted : Bool
  twoStep : Bool
  tag     : Nat
  stomp   : Bool
  /-- The port node it left by, the bytes it holds of that node's window (R296), its class (R307), and its number when it is a streamed packet. -/
  node    : Nat
  win     : Nat
  tc      : Nat
  stream  : Nat
  deriving DecidableEq, Repr

/-- A frame that left a port: its bytes and whether its FCS was stomped. -/
structure SentFrame where
  port  : Nat
  bytes : Bytes
  stomp : Bool
  deriving DecidableEq, Repr

/-- What no register shows of a line port. -/
structure LinePort where
  /-- A fault of causes 2 to 6 is present while the port is still up, and LINK_DOWN_HOLD runs. -/
  downHold : Bool
  /-- Every condition holds while the port is down, and LINK_UP_HOLD runs. -/
  upHold   : Bool
  /-- Evaluated windows in a row at or below DEG_THRESH / 2 (R75). -/
  goodWins : Nat
  /-- The threshold of the window that runs (a write applies from the next window). -/
  degWin   : Nat
  /-- Frames held whole for MACsec verification (R98). -/
  macRx    : List RxPkt
  /-- Frames that egress processing handed to MACsec or the MAC. -/
  macTx    : List TxPkt
  txQ      : List TxPkt
  deriving DecidableEq, Repr

/-- A FlexE PHY's lock counters (R80). -/
structure FlexePhy where
  ohGood : Nat
  ohBad  : Nat
  mfGood : Nat
  mfBad  : Nat
  mismatch : Bool
  deriving DecidableEq, Repr

/-- What no register shows of a FlexE group (R83). -/
structure FlexeGroup where
  /-- Our request for the other calendar is out. -/
  reqSent : Bool
  /-- A switch is acknowledged and waits for the multiframe boundary. -/
  acked   : Bool
  deriving DecidableEq, Repr

/-- A MACsec security association (R89, R94, R104). Keys and salts are numbers of 256 and 96 bits. -/
structure MacsecSa where
  key      : Nat
  salt     : Nat
  ssci     : Nat
  keyStage : Nat
  saltStage : Nat
  pnStage  : Option Nat
  /-- Not in state 0. -/
  present  : Bool
  /-- The alarm count at the last accepted INSTALL: the SA carries the alarm-erase mark while it differs from the count of alarms (R104). -/
  instGen  : Nat
  pnWarned : Bool
  deriving DecidableEq, Repr

/-- The line complex. -/
structure Line where
  ports    : AMap LinePort
  /-- Lanes without signal are 0 (absent), lanes with signal 1, lanes waiting for retrain credits 2, lanes retraining 3. -/
  lanes    : AMap Nat
  phys     : AMap FlexePhy
  groups   : AMap FlexeGroup
  sas      : AMap MacsecSa
  /-- How many alarms have erased the keys (R104). -/
  alarmGen : Nat
  /-- Alarm sources that are firing (Table 4.4). -/
  firing   : Nat
  /-- The transmit SA in force on each port, changed at a frame start (R97). -/
  txAn     : AMap Nat
  /-- Ports whose queues are to be closed (R263), whose state change is to be told (R264), whose learned entries are to be flushed (R205). -/
  closeDue : List Nat
  noticeDue : List (Nat × Bool)
  pouncerDue : List Nat
  /-- In-band control frames counted in the second in hand (R392): second, frames. -/
  fcpSecond : Nat
  fcpCount  : Nat
  sent     : List SentFrame
  deriving DecidableEq, Repr

/-- A channel direction of the Zynval bridge (R22): consecutive failed replays of the beat in hand, whether it retrains, whether it is fenced. -/
structure BridgeChan where
  failed  : Nat
  retrain : Bool
  fenced  : Bool
  deriving DecidableEq, Repr

/-- The stamped result of Table 8.8. DKIND 0 port, 1 replication group, 2 punt, 3 drop; LABEL_OP 0 none, 1 swap, 2 pop, 3 pop and swap. -/
structure Stamp where
  dkind   : Nat
  dest    : Nat
  encap   : Nat
  gen     : Nat
  labelOp : Nat
  newLabel : Nat
  ttlDec  : Bool
  tc      : Nat
  colour  : Nat
  vrf     : Nat
  nh      : Nat
  spread  : Nat
  deriving DecidableEq, Repr

/-- The merged result of a pass (R133): a field is set when a result has set it. -/
structure Merged where
  op      : Nat
  arg     : Nat
  profile : Nat
  vrf     : Nat
  tc      : Nat
  colour  : Nat
  meter   : Option Nat
  mirror  : Nat
  sampler : Nat
  program : Nat
  deriving DecidableEq, Repr

/-- A search of a pass (R166): 0 not made, 1 its key waits at the slice, 2 queued at its units, 3 done. `hit` and `err` are for the trace. -/
structure Search where
  phase  : Nat
  table  : Nat
  key    : Nat
  units  : List Nat
  queued : List Nat
  result : Nat
  hit    : Bool
  err    : Bool
  deriving DecidableEq, Repr

/-- What a stage did, for the trace (Table 18.9). -/
structure StageTrace where
  stage  : Nat
  type   : Nat
  hit    : Bool
  result : Nat
  deriving DecidableEq, Repr

/-- A pass of a packet through a slice, from its header slot on: what the parser made (R107 to R131) and what its lookups have merged. -/
structure Pass where
  pid     : Nat
  slice   : Nat
  bytes   : Bytes
  port    : Nat
  bad     : Bool
  ts      : Nat
  tsValid : Bool
  msec    : Nat
  msecSc  : Nat
  passNo  : Nat
  epoch   : Nat
  vrfTag  : Nat
  batt    : Bytes
  fragClass : Nat
  /-- The fragment follow entry this first fragment reserved: shared table or private, index. -/
  fragSlot : Option (Bool × Nat)
  /-- The result this later fragment follows (R128), or a result the parser decided by itself. -/
  follow  : Option Stamp
  /-- Entry form, strip count and data of a recirculation (R119). -/
  form    : Nat
  recData : Nat
  payload : Nat
  m       : Merged
  /-- The stage the chain stands at; 15 when it has ended. -/
  stage   : Nat
  range   : AMap Nat
  stages  : List StageTrace
  searches : List Search
  parsedAt : Nat
  /-- Recirculation has taken bytes off its front, the received Ethernet header among them. -/
  stripped : Bool
  /-- The buffers its bytes beyond the header window are parked in (R255). -/
  park     : List Nat
  /-- The memory errors the environment gives the pass's reads. -/
  errs    : EccErrs
  deriving DecidableEq, Repr

/-- A fragment follow entry (R125 to R129). -/
structure FragEntry where
  key     : List Nat
  used    : Bool
  pending : Bool
  stamp   : Stamp
  /-- The meter the result names (R128, R149). -/
  meter   : Option Nat
  epoch   : Nat
  deriving DecidableEq, Repr

/-- A later fragment that waits on a pending entry (R128). -/
structure Held where
  pass   : Pass
  shared : Bool
  slot   : Nat
  deriving DecidableEq, Repr

/-- The 32-byte descriptor's contents (R21) and the packet it stands for, with what an engine dispatch takes (R215). `copy` is a mirror copy (R155). -/
structure Desc where
  stamp   : Stamp
  bytes   : Bytes
  port    : Nat
  slice   : Nat
  epoch   : Nat
  bad     : Bool
  ts      : Nat
  tsValid : Bool
  fragClass : Nat
  batt    : Bytes
  payload : Nat
  /-- The engine program a merged profile named (R214); 255 for none. -/
  program : Nat
  /-- The inspection status (R229). -/
  inspect : Nat
  /-- The fragment follow entry this packet completes, and the meter its result names (R127). -/
  fragSlot : Option (Bool × Nat)
  meter   : Option Nat
  stripped : Bool
  park    : List Nat
  /-- The number of a streamed packet (R251), 0 of a whole one; and the ingress port's rate in Mb/s (R259). -/
  stream  : Nat
  rate    : Nat
  /-- It crossed streamed (R251). -/
  streamed : Bool
  /-- The port node it left by, and the bytes it holds of that node's window (R296). -/
  node    : Nat
  win     : Nat
  /-- A replica: its context, not its frame, leaves the epoch's count (R343). -/
  replica : Bool
  copy    : Bool
  /-- Of a mirror copy: destination port, or 127 for ip_mirror (R154). -/
  copyDest : Nat
  deriving DecidableEq, Repr

/-- A learn request (R202). -/
structure LearnReq where
  slice : Nat
  port  : Nat
  table : Nat
  bd    : Nat
  mac   : Nat
  nh    : Nat
  deriving DecidableEq, Repr

/-- A sampler's counters (R156). -/
structure Sampler where
  count : Nat
  pool  : Nat
  drops : Nat
  seq   : Nat
  deriving DecidableEq, Repr

/-- A row move in hand (R178 to R180): rows still to move, the direction, and a cross-unit row whose source waits to be cleared. -/
structure RowMove where
  src   : Nat
  dst   : Nat
  dstArray : Nat
  left  : Nat
  down  : Bool
  toClear : Option Nat
  deriving DecidableEq, Repr

/-- A difference found by the shadow walk that waits for its second read (R212). -/
structure Mismatch where
  addr : Nat
  table : Nat
  /-- Learn records not drained yet at the first read. -/
  logLeft : Nat
  deriving DecidableEq, Repr

/-- The lookup complex. -/
structure Lookup where
  recQ     : AMap (List Pass)
  lookQ    : AMap (List Pass)
  flowWait : List Pass
  assocWait : List Pass
  fragPriv : AMap FragEntry
  fragShared : AMap FragEntry
  fragHold : AMap (List Held)
  /-- Packets selected for inspection that wait for dispatch (R215). -/
  engQ     : AMap (List Desc)
  bridgeQ  : AMap (List Desc)
  egrQ     : AMap (List Desc)
  learnQ   : AMap (List LearnReq)
  /-- Ports for which an arbiter has met LEARN_LIMIT (Table 8.10): LIMIT_ACT decides their later frames. -/
  limitSeen : List Nat
  handoff  : List LearnReq
  samplers : AMap Sampler
  sampSecond : Nat
  sampCount  : Nat
  /-- Samplers that lost a sample in that second. -/
  sampHit : List Nat
  traceLeft : AMap Nat
  traceRing : AMap (List Bytes)
  /-- The replica of each set a key was last sent to (R167). -/
  replicaRot : AMap Nat
  moves    : AMap RowMove
  /-- The firmware's shadow of the tables (R212), byte by byte as `mem`. -/
  shadow   : List Host.Cell
  mismatches : List Mismatch
  /-- Encapsulation entries deleted and still readable (R195). -/
  encapHold : List Nat
  /-- Associated words with an error that waits for repair: array, row. -/
  rowRepair : List (Nat × Nat)
  /-- Ports of other devices for which a down notice is applied (R147, R265), by system port. -/
  remoteDown : AMap Nat
  /-- The number of the next pass. -/
  nextPid  : Nat
  deriving DecidableEq, Repr

/-- A packet dispatched to a cluster and not returned yet (R217, R218): `seq` is its per-slice dispatch sequence; `ended` when its program has ended. -/
structure Dispatched where
  seq     : Nat
  cluster : Nat
  d       : Desc
  ended   : Bool
  deriving DecidableEq, Repr

/-- A pattern search in hand (R231, R232): it waits for a scanner, or scans with the result it will give. -/
structure Scan where
  rd      : Nat
  start   : Nat
  len     : Nat
  set     : Nat
  scanning : Bool
  result  : Word
  addr    : Nat
  deriving DecidableEq, Repr

/-- An engine (R221): what it runs and its registers. `cycles` is the number of cycles its issued instructions have taken; `act` 0 keep. -/
structure Engine where
  run     : Bool
  slice   : Nat
  seq     : Nat
  d       : Desc
  program : Nat
  regs    : List Word
  pc      : Nat
  stack   : List Nat
  scratch : AMap Byte
  act     : Nat
  value   : Nat
  colourSet : Bool
  colour  : Nat
  cycles  : Nat
  scan    : Option Scan
  deriving DecidableEq, Repr

/-- The engine complex: what no register shows. -/
structure EngineSt where
  engines : AMap Engine
  /-- Dispatched packets of each slice, in dispatch order. -/
  out     : AMap (List Dispatched)
  /-- Packets in each slice's engine hold, in arrival order. -/
  hold    : AMap (List Desc)
  /-- Requests waiting in each cluster: slice and sequence. -/
  queue   : AMap (List (Nat × Nat))
  /-- Engines of each cluster that wait for a scanner, in arrival order. -/
  scanQ   : AMap (List Nat)
  seqNext : AMap Nat
  lastCluster : Nat
  /-- Instructions left to the next random sample of a cluster (R237); 0 not drawn. -/
  sampLeft : AMap Nat
  deriving DecidableEq, Repr

/-- An allocated buffer (R240, Table 10.1): its owner (kind 0 queue, 1 replication context, 2 recirculation park), the requester it counts against, and
the replica records it holds. -/
structure Buf where
  ownerKind : Nat
  owner     : Nat
  req       : Nat
  replicas  : Nat
  deriving DecidableEq, Repr

/-- A record of a queue (R241, R254): the packet, its record bytes, the context when it is a replica record, the buffers its bytes in the queue's chain
lie in, where it starts, and whether it is a chain of its own. -/
structure Rec where
  d     : Desc
  size  : Nat
  ctx   : Option Nat
  bufs  : List Nat
  start : Nat × Nat
  deriving DecidableEq, Repr

/-- A queue (Table 12.1) beside what its window words say: `open_` is the open buffer with its next free byte, `wait` the port for which it waits for
the flush list (R266); the rest is a virtual output queue's credit (R329, R330): credit in bytes, credit to surrender in 256-byte units, and whether it was flushed
since its last request. -/
structure Queue where
  recs    : List Rec
  open_   : Option (Nat × Nat)
  deficit : Int
  headMs  : Nat
  wait    : Option Nat
  credit  : Int
  surrender : Nat
  flushed : Bool
  deriving DecidableEq, Repr

/-- A streamed packet whose tail has not crossed (R251): `q` its queue (none for a multicast packet), `chain` its first buffers, `cut` when it is cut through. -/
structure Stream where
  id    : Nat
  d     : Desc
  q     : Option Nat
  req   : Nat
  chain : List Nat
  cut   : Bool
  deriving DecidableEq, Repr

/-- A chain on the flush list (R266): the queue it was, its port for 0x0607 (none for a stuck queue or another device's port), its records and its buffers. -/
structure FlushChain where
  q     : Nat
  port  : Option Nat
  recs  : List Rec
  bufs  : List Nat
  deriving DecidableEq, Repr

/-- A replication context (Table 12.11): the packet, its chain, and where its walk stands (R310): the next element and whether it is in the port list. -/
structure ReplCtx where
  d         : Desc
  size      : Nat
  req       : Nat
  chain     : List Nat
  remaining : Nat
  walking   : Bool
  stage     : Nat
  onPorts   : Bool
  next      : Nat
  seen      : Nat
  deriving DecidableEq, Repr

/-- A shaper state (Table 12.4): buckets in 1/4,096 byte. -/
structure Shaper where
  cb      : Int
  pb      : Int
  last    : Nat
  profile : Nat
  deficit : Int
  deriving DecidableEq, Repr

/-- A sweep under R304: a profile whose old words stay in force until the visit, or an assignment (kind, index, new profile). -/
inductive Sweep where
  | profile (i : Nat) (oldHi oldLo : Word)
  | assign (kind index profile : Nat)
  deriving DecidableEq, Repr

/-- The traffic complex: what no register shows. -/
structure Traffic where
  bufs     : AMap Buf
  hbmPtr   : Nat
  queues   : AMap Queue
  streams  : AMap (List Stream)
  nextStream : Nat
  flush    : List FlushChain
  flushWait : List Nat
  /-- Buffers freed so far of the chains of a port that goes down. -/
  flushFreed : AMap Nat
  ctxs     : AMap ReplCtx
  shapers  : AMap Shaper
  /-- Rotation pointers of port nodes (by node) and groups (512 + group). -/
  ptrs     : AMap Nat
  /-- Bytes dequeued and not yet transmitted, by port node. -/
  inflight : AMap Nat
  /-- Records dequeued whose bytes are not read yet, with their queue, by port node. -/
  departing : AMap (List (Nat × Rec))
  sweep    : Option Sweep
  /-- First words of shaper profiles written and not yet followed by the second (Table 12.5). -/
  profStage : AMap (Option Word)
  /-- The instant of a pending hatband takeover, by port. -/
  takeAt   : AMap Nat
  /-- Taint maps in use: tainted buffers of a buffer controller (R286). -/
  taints   : AMap (List Nat)
  ingUse   : AMap Nat
  egrUse   : AMap Nat
  /-- Packets delivered to ip_punt, and copies delivered to ip_mirror. -/
  punted   : List Desc
  mirrored : List Desc
  deriving DecidableEq, Repr

/-- A request that waits at an HBM controller (R271), with its arrival in ns of the step-free time. -/
structure HbmWait where
  r  : HbmReq
  at_ : Nat
  deriving DecidableEq, Repr

/-- A controller's answer (R273). -/
structure HbmAnswer where
  x      : Nat
  tag    : Nat
  status : Nat
  data   : Bytes
  deriving DecidableEq, Repr

/-- An HBM controller: what no register shows. Open rows by bank, owed refreshes by bank, the last 256 commands, the freezes of the last 10 s, the lost writes
since the freeze, failed retrains of a return, and whether an FZ24 write drain runs (R275). -/
structure HbmCtl where
  queue   : List HbmWait
  open_   : AMap Nat
  owed    : AMap Nat
  cmds    : List (Nat × Nat)
  cmdPos  : Nat
  freezes : List Nat
  lost    : Nat
  fails   : Nat
  drain   : Bool
  deriving DecidableEq, Repr

/-- A stack's periodic pass (R279): the next pseudo-channel, and whether another pass is due. -/
structure HbmPass where
  next : Nat
  due  : Bool
  deriving DecidableEq, Repr

/-- The HBM controllers. -/
structure Hbm where
  ctls  : AMap HbmCtl
  pass  : AMap HbmPass
  answers : List HbmAnswer
  deriving DecidableEq, Repr

/-- A fabric lane's receiver and sender (R319 to R327): the last frame counter, what the partner sent, why the lane is held out (Table 13.8: 1 version, 2 identity, 3 skew; 0 not),
the partner's BUFFER, the quarters sent and returned since alignment, the last CREDIT_RET, the arrival of the last frame, and the delay average. -/
structure FabLane where
  cnt     : Nat
  sel     : Nat
  ident   : Nat
  partnerReady : Bool
  partnerAligned : Bool
  held    : Nat
  buffer  : Nat
  sent    : Nat
  back    : Nat
  ret     : Nat
  arrival : Nat
  delaySum : Nat
  delayN  : Nat
  deriving DecidableEq, Repr

/-- A reassembly context (R328): the next expected SEQ, the cells held by SEQ, the record in hand (descriptor, descriptor bytes had, frame bytes had), and whether
bytes are discarded up to the next RSTART. -/
structure Reasm where
  expected : Nat
  held     : AMap Cell
  cur      : Option (FabDesc × Nat × Bytes)
  skip     : Bool
  deriving DecidableEq, Repr

/-- A stream being cut into cells (R326): what is left of the record in hand, whether its end is bad, the records whose bytes are all in closed cells and the next SEQ. -/
structure Seg where
  left : List Piece
  cur  : Option Rec
  seq  : Nat
  deriving DecidableEq, Repr

/-- A notice of one of this device's ports (R333): its state and number, the devices that have not acknowledged it, and since when it is out. -/
structure NoticeOut where
  up    : Bool
  seq   : Nat
  wait  : List Nat
  since : Nat
  late  : Bool
  deriving DecidableEq, Repr

/-- A destination's view of a requesting queue (R329). -/
structure CreditWant where
  dev    : Nat
  voq    : Nat
  wanted : Nat
  deriving DecidableEq, Repr

/-- The fabric complex: what no register shows. The lists whose names begin with `sent` are what it put on the link. -/
structure Fabric where
  lanes   : AMap FabLane
  ctxs    : AMap Reasm
  /-- Cells held in the store. -/
  store   : Nat
  /-- Records that fabric.reasm has delivered and traffic.admit has not judged. -/
  inQ     : List Desc
  seg     : AMap Seg
  rot     : Nat
  wants   : AMap (List CreditWant)
  /-- O of R329, by 8 × port + class. -/
  owed    : AMap Int
  notices : AMap NoticeOut
  /-- The last notice applied of a port of another device, plus 1. -/
  applied : AMap Nat
  /-- Version-2 devices whose heartbeats stopped (R334). -/
  dead    : List Nat
  closeVoq : List (Nat × Nat)
  hbSeq   : Nat
  timeSeq : Nat
  quietDone : Bool
  sent    : List (Nat × Cell)
  sentReq : List CreditReq
  sentGrant : List (Nat × Nat × Nat)
  sentNotice : List Notice
  sentAck : List (Nat × Nat × Nat)
  sentTime : List (Nat × TimeCell)
  deriving DecidableEq, Repr


/-- Time reference (chapter 15): what no register shows. -/
structure TimeSt where
  /-- Step-free time in ns since start-up step 3 (R364). -/
  stepFree : Nat
  /-- What steps have added to the time of day, in ns. -/
  stepNet  : Int
  /-- The sources that are qualified (Table 15.1). -/
  qualified : List Nat
  /-- The first measurement of an acquisition is due: 1 entered from FREERUN, 2 otherwise (R363); 0 none due. -/
  acq      : Nat
  /-- Consecutive measurements within LOCK_THRESH. -/
  lockRun  : Nat
  /-- A step has fallen in the measurement interval that runs. -/
  stepped  : Bool
  /-- What the slew in progress is to add, in ns. -/
  slewLeft : Int
  /-- The last TIME_FREQ value accepted (R366). -/
  softSteer : Int
  /-- The sequence number of the last time cell accepted. -/
  lastSeq  : Option Nat
  /-- Consecutive TOD_IN messages that disagree (R368). -/
  todRun   : Nat
  todSeq   : Nat
  todSent  : List Bytes
  /-- The servo's steering is held at its limit, and the second last counted (R371). -/
  limited  : Bool
  limSecond : Nat
  deriving DecidableEq, Repr
/-- The governor: what no register shows (chapter 16). Energies in pJ, times in ns. -/
structure Gov where
  purse1  : Nat
  purse2  : Nat
  purse3  : Nat
  /-- Class 1 was granted less than its want in the last epoch (R385). -/
  short1  : Bool
  /-- Class 0's spend in the last complete epoch, set aside for it (R382). -/
  aside   : Nat
  debt    : Nat
  starved1 : Nat
  starved3 : Nat
  overNs  : Nat
  emptyNs : Nat
  /-- Bit c: the purse of class c is frozen for this epoch (R375). -/
  frozen  : Nat
  /-- The envelopes in 0.1 A units (R374), and how many of the steps of R375 a rail has taken. -/
  envF    : Nat
  envT    : Nat
  levelF  : Nat
  levelT  : Nat
  /-- Budget pacing is in force (R383). -/
  paced   : Bool
  /-- PFW_N has risen and RELEASE_HOLD runs. -/
  releasing : Bool
  /-- Consecutive readings of a sensor that differ from its neighbours (R388). -/
  badRuns : AMap Nat
  /-- Sensors that have been read. -/
  seen    : List Nat
  regionsF : List Nat
  regionsT : List Nat
  /-- When the next region may be switched on, on each rail (R373). -/
  nextF   : Nat
  nextT   : Nat
  /-- BUDGET as the board controller wrote it in this epoch: it is applied last (R411). -/
  twiBudget : Option Nat
  deriving DecidableEq, Repr

/-- The state of the FZ96. -/
structure State where
  /-- Registers by byte address; an unlisted address reads as its value after cold reset. -/
  regs    : AMap Word
  /-- Table windows and table HBM, byte by byte; an unlisted address reads as zero. -/
  mem     : List Host.Cell
  /-- The odd-epoch copies of the epoch-banked words (R340), by register address; the even copies stand in `regs`. -/
  bankOdd : AMap Word
  /-- Named and filtered counters. -/
  ctrs    : AMap CtrVal
  pins    : Pins
  fuses   : Fuses
  boot    : Boot
  ev      : Events
  fcp     : Fcp
  obs     : Obs
  bist    : Bist
  line    : Line
  /-- What waits at the parser of each slice. -/
  hdrQ    : AMap (List RxPkt)
  lookup  : Lookup
  engine  : EngineSt
  traffic : Traffic
  hbm     : Hbm
  fabric  : Fabric
  gov     : Gov
  bridge  : AMap BridgeChan
  time    : TimeSt
  /-- How many free values have been drawn (the model's own field): the free values of Config are applied to it. -/
  freeCtr : Nat
  /-- The commands that wait, first in first out. -/
  pending : List Instr
  deriving DecidableEq, Repr

/-- Pins while the device is held in cold reset (Table 20.6). -/
def Pins.cold : Pins :=
  { ready := false, linkIdle := true, faultReset := true, faultRecovery := false, faultHalt := false, faultWarm := false,
    faultHeartbeat := false, faultScan := false, pfwLow := false, thermtrip := false, ppsOut := false, clocksStopped := false,
    scanMode := false, tapInstr := 0, tapData := 0 }

/-- An unprogrammed fuse array (log 5). -/
def Fuses.blank : Fuses :=
  { ownerHash := [], ownerRevoked := 0, provRevoked := 0, secFloor := 0, jtag := 0, identity := true, serial := 0 }

/-- Start-up before its first step. -/
def Boot.cold : Boot :=
  { stage := .coldReset, stopped := false, slot := 0, flashMiB := 0, hdr := [], tbl := [], keyHash := 0, statics := [], records := [],
    firmware := [], stagingBusy := false, fwRunning := false, warm := false, warmAt := 0, warmFails := 0, warmStopped := false,
    resetDue := false, wdogAt := 0, heartAt := 0, staged := none, reloading := [], readyAt := 0, flash := [] }

/-- Events before any is raised (R404). -/
def Events.cold : Events := { nextSeq := 1, ring := [], bootLog := [], windows := [] }

/-- No session, no batch. -/
def Fcp.cold : Fcp :=
  { sessions := [], sent := [], open_ := [], waiting := [], log := [], flip := none, lastFlip := none, twiPointer := 0, twiLatch := [], twiHigh := 0, twiOut := [], twiAcked := 0, closedByWarm := [] }

/-- Observability at cold reset: counters at zero (R416), no snapshot. -/
def Obs.cold : Obs :=
  { acc := [], stored0 := [], stored1 := [], flushF := [], flushT := [], filters := [], walking := false, walkSeq := 0, walkInstant := [],
    walkEpoch := 0, walkVals := [], walkMissing := false, skippedBefore := false, stale := [], teleQ := [], teleSeq := [], teleGap := [], sflowSeq := [],
    teleSent := [] }

/-- Self-test at cold reset. -/
def Bist.cold : Bist := { queue := [], running := [], restoring := [], barred := [], disabled := [] }

/-- The line complex at cold reset. -/
def Line.cold : Line :=
  { ports := [], lanes := [], phys := [], groups := [], sas := [], alarmGen := 0, firing := 0, txAn := [], closeDue := [], noticeDue := [], pouncerDue := [],
    fcpSecond := 0, fcpCount := 0, sent := [] }

/-- The lookup complex at cold reset. -/
def Lookup.cold : Lookup :=
  { recQ := [], lookQ := [], flowWait := [], assocWait := [], fragPriv := [], fragShared := [], fragHold := [], engQ := [], bridgeQ := [], egrQ := [],
    learnQ := [], limitSeen := [], handoff := [], samplers := [], sampSecond := 0, sampCount := 0, sampHit := [], traceLeft := [], traceRing := [], replicaRot := [],
    moves := [], shadow := [], mismatches := [], encapHold := [], rowRepair := [], remoteDown := [], nextPid := 1 }

/-- Idle engines. -/
def EngineSt.cold : EngineSt :=
  { engines := [], out := [], hold := [], queue := [], scanQ := [], seqNext := [], lastCluster := 7, sampLeft := [] }

/-- The traffic complex at cold reset: no buffer allocated, no queue filled. -/
def Traffic.cold : Traffic :=
  { bufs := [], hbmPtr := 0, queues := [], streams := [], nextStream := 1, flush := [], flushWait := [], flushFreed := [], ctxs := [], shapers := [], ptrs := [],
    inflight := [], departing := [], sweep := none, profStage := [], takeAt := [], taints := [], ingUse := [], egrUse := [], punted := [], mirrored := [] }

/-- The fabric complex at cold reset: every lane hunts, no stream, the quiet period to come (R335). -/
def Fabric.cold : Fabric :=
  { lanes := [], ctxs := [], store := 0, inQ := [], seg := [], rot := 0, wants := [], owed := [], notices := [], applied := [], dead := [], closeVoq := [], hbSeq := 0, timeSeq := 0,
    quietDone := false, sent := [], sentReq := [], sentGrant := [], sentNotice := [], sentAck := [], sentTime := [] }

/-- The time unit at cold reset (R358). -/
def TimeSt.cold : TimeSt :=
  { stepFree := 0, stepNet := 0, qualified := [], acq := 0, lockRun := 0, stepped := false, slewLeft := 0, softSteer := 0, lastSeq := none, todRun := 0, todSeq := 0,
    todSent := [], limited := false, limSecond := 0 }

/-- The governor before its first epoch. -/
def Gov.cold : Gov :=
  { purse1 := 0, purse2 := 0, purse3 := 0, short1 := false, aside := 0, debt := 0, starved1 := 0, starved3 := 0, overNs := 0, emptyNs := 0, frozen := 0, envF := 0, envT := 0, levelF := 0, levelT := 0, paced := false,
    releasing := false, badRuns := [], seen := [], regionsF := [], regionsT := [], nextF := 0, nextT := 0, twiBudget := none }

/-- The device held in cold reset, with the fuses `f` and the flash `fl`, which no reset changes (R44, R56, R372). -/
def State.cold (f : Fuses) (fl : AMap Bytes) (q : List Instr) : State :=
  { regs := [], bankOdd := [], mem := [], ctrs := [], pins := Pins.cold, fuses := f, boot := { Boot.cold with flash := fl }, ev := Events.cold, fcp := Fcp.cold,
    obs := Obs.cold, bist := Bist.cold, line := Line.cold, hdrQ := [], lookup := Lookup.cold, engine := EngineSt.cold, traffic := Traffic.cold, hbm := { ctls := [], pass := [], answers := [] }, fabric := Fabric.cold, gov := Gov.cold, bridge := [], time := TimeSt.cold, freeCtr := 0, pending := q }

/-- The machine right after reset: held in cold reset, nothing listed, no command waiting. -/
def State.reset : State := State.cold Fuses.blank [] []

end Sys2Proof.Machine
end

