-- ==== Sys2Proof/Machine/Ops.lean ====
section
/-! DEFINITION. The shared operations over the state: registers and their fields, table memory, counters, events, messages and telemetry records. -/

namespace Sys2Proof.Machine

/-- What a command answers. -/
abbrev Out := Host.Outcome State Fault Refusal

/-- Whether the device's clocks run: not in cold reset, with the clocks stopped by THERMTRIP_N (R389), or with the pins taken by a boundary scan (R413). -/
def State.clocked (s : State) : Bool := s.boot.stage != .coldReset && !s.pins.clocksStopped && !s.pins.scanMode

/-- What a command of the clocked device answers: state `t`, or nothing changed while no clock runs. -/
def State.act (s t : State) : Out := .next (if s.clocked then t else s)

/-- The word of the register at address `a` (R5, R11). -/
def State.reg (s : State) (a : Nat) : Word := mget resetOf s.regs a

/-- The state with word `w` in the register at `a`. -/
def State.setReg (s : State) (a : Nat) (w : Word) : State := { s with regs := mput resetOf s.regs a w }

/-- The value of field `f` of the register at `a`. -/
def State.fld (s : State) (a : Nat) (f : Field) : Nat := getField f (s.reg a)

/-- The state with field `f` of the register at `a` set to `v`. -/
def State.setFld (s : State) (a : Nat) (f : Field) (v : Nat) : State := s.setReg a (putField f v (s.reg a))

/-- Whether a one-bit field reads 1. -/
def State.flag (s : State) (a : Nat) (f : Field) : Bool := s.fld a f == 1

/-- A one-bit field set from a Bool. -/
def State.setFlag (s : State) (a : Nat) (f : Field) (b : Bool) : State := s.setFld a f (b2n b)

/-- A byte of table memory; what nothing has written reads as zero (log 4). -/
def State.memByte (s : State) (a : Nat) : Byte := mget (fun _ => 0) s.mem a

/-- The 8-byte word at byte address `a` of table memory, most significant byte first (R5). -/
def State.memWord (s : State) (a : Nat) : Word :=
  BitVec.ofNat 64 (beNat ((List.range 8).map (fun i => s.memByte (a + i))))

/-- Table memory with the bytes `bs` from address `a` on. -/
def memPut (m : List Host.Cell) : Nat → Bytes → List Host.Cell
  | _, [] => m
  | a, b :: bs => memPut (mput (fun _ => (0 : Byte)) m a b) (a + 1) bs

/-- The state with word `w` at byte address `a` of table memory. -/
def State.setMemWord (s : State) (a : Nat) (w : Word) : State := { s with mem := memPut s.mem a (natBe 8 w.toNat) }

/-- `n` words of table memory from byte address `a`. -/
def State.memWords (s : State) (a n : Nat) : List Word := (List.range n).map (fun i => s.memWord (a + 8 * i))

/-- Writes words at consecutive 8-byte addresses (R42). -/
def State.setMemWords (s : State) : Nat → List Word → State
  | _, [] => s
  | a, w :: ws => State.setMemWords (s.setMemWord a w) (a + 8) ws

/-- The next free value's index: the counter is advanced and the old value used (log 2). -/
def State.draw (s : State) : Nat × State := (s.freeCtr, { s with freeCtr := s.freeCtr + 1 })

/-! ### Time of day -/

/-- The time of day in ns since the time origin (R364). -/
def State.tod (s : State) : Nat := ((s.time.stepFree : Int) + s.time.stepNet).toNat

/-- A time of day laid out as bytes 224 to 235 of Table 2.9. -/
def todBytes (ns : Nat) : Bytes := natBe 6 (ns / 1000000000) ++ natBe 4 (ns % 1000000000) ++ [0, 0]

/-! ### Counters -/

/-- The key of a named counter of unit index `i`. -/
def ctrKey (c : Ctr) (i : Nat) : Nat := 1048576 * c.ctorIdx + i

/-- A counter at zero. -/
def CtrVal.zero : CtrVal := { value := 0, ovf := false, inexact := false }

/-- A counter after an increment of `n`: the value is kept modulo 2^64 and a carry sets the overflow flag (R416). -/
def CtrVal.bump (v : CtrVal) (n : Nat) : CtrVal :=
  { v with value := (v.value + n) % 2 ^ 64, ovf := v.ovf || decide (2 ^ 64 ≤ v.value + n) }

/-- The counter at `k`. -/
def State.ctr (s : State) (k : Nat) : CtrVal := mget (fun _ => CtrVal.zero) s.ctrs k

/-- Adds `n` to the counter at `k`. -/
def State.bumpKey (s : State) (k n : Nat) : State :=
  { s with ctrs := mput (fun _ => CtrVal.zero) s.ctrs k ((s.ctr k).bump n) }

/-- Counts `n` occurrences of counter `c` of unit `i` (R13). -/
def State.countN (s : State) (c : Ctr) (i n : Nat) : State := s.bumpKey (ctrKey c i) n

/-- Counts one occurrence. -/
def State.count (s : State) (c : Ctr) (i : Nat := 0) : State := s.countN c i 1

/-- The key of counter `index` of a numbered bank (R414). -/
def bankKey (bank index : Nat) : Nat := 2 ^ 32 * (bank + 0x1000) + index

/-- The filtered counters whose filter matches an occurrence (R422): kind, privilege bit, master, address (none where any matches), class bit. -/
def filterHits (fs : AMap Filter) (kind priv master : Nat) (addr tc : Option Nat) : List Nat :=
  (fs.filter (fun p => p.2.kind == kind && (kind != 1 || p.2.priv == 0 || bit p.2.priv priv)
    && ((p.2.mval &&& p.2.mmask) == (master &&& p.2.mmask)) && (match addr with | none => true | some a => decide (p.2.lo ≤ a) && decide (a ≤ p.2.hi))
    && (match tc with | none => true | some c => p.2.tc == 0 || bit p.2.tc c))).map (fun p => p.1)

/-- Counts an occurrence in every filtered counter it matches (R422). -/
def State.filterCount (s : State) (kind priv master : Nat) (addr tc : Option Nat) : State :=
  (filterHits s.obs.filters kind priv master addr tc).foldl (fun s f => s.bumpKey (bankKey 0x200 f) 1) s

/-! ### Table counters in accumulators -/

/-- The table controller that serves table-HBM offset `a` (R269). -/
def tableCtl (a : Nat) : Nat := 64 * (a / 2 ^ 34 % 2) + (bits a 14 9 ^^^ bits a 20 15)

/-- Whether a controller serves requests (Table 11.4). -/
def State.hbmServes (s : State) (x : Nat) : Bool :=
  s.fld (Reg.hbmStatus x) Fld.hbmStatus_state == 1 || s.fld (Reg.hbmStatus x) Fld.hbmStatus_state == 2

/-- The place of counter `index` of bank 0x0100, 0x0102 or 0x0103 among the stored records: the banks one after the other, each in index order (log 19). -/
def recordPos (bank index : Nat) : Nat := (if bank = 0x100 then 0 else if bank = 0x102 then 2097152 else 5242880) + index

/-- The pseudo-channel of h0 that holds a counter's first copy (R418); the second lies in the same one of h1. -/
def State.recordPc (s : State) (bank index : Nat) : Nat :=
  tableCtl ((1048576 * s.fld Reg.dumpCtrl Fld.dumpCtrl_countBase + 16 * recordPos bank index) % 2 ^ 34)

/-- Whether the copy of pseudo-channel `x` may be read: its controller serves, and its records do not wait to be rewritten (R418). -/
def State.copyGood (s : State) (x : Nat) : Bool := s.hbmServes x && !s.obs.stale.contains x

/-- The accumulator width of counter `index` of banks 0x0100, 0x0102 and 0x0103 (Table 18.2). -/
def accBits (bank index : Nat) : Nat :=
  if bank = 0x102 then 10 else if index % 2 = 0 then 12 else 20

/-- Counts `n` in an accumulator (R417, R419): once its top bit sets it is emptied into the flush queue of its complex,
and when that queue of 4,096 is full, or both copies are fenced, it goes on counting and holds at its maximum, the excess counted. -/
def State.accCount (s : State) (bank index n : Nat) : State :=
  let w := accBits bank index
  let k := bankKey bank index
  let v := mget (fun _ => 0) s.obs.acc k + n
  let onT := bank == 0x100
  let q := if onT then s.obs.flushT else s.obs.flushF
  if v < 2 ^ (w - 1) then { s with obs := { s.obs with acc := mput (fun _ => 0) s.obs.acc k v } }
  else if q.length < 4096 && (s.hbmServes (s.recordPc bank index) || s.hbmServes (64 + s.recordPc bank index)) then
    let e : Flush := { bank := bank, index := index, amount := v }
    let o := { s.obs with acc := mput (fun _ => 0) s.obs.acc k 0 }
    { s with obs := if onT then { o with flushT := o.flushT ++ [e] } else { o with flushF := o.flushF ++ [e] } }
  else if v < 2 ^ w then { s with obs := { s.obs with acc := mput (fun _ => 0) s.obs.acc k v } }
  else
    let inexact (m : AMap CtrVal) := mput (fun _ => CtrVal.zero) m k { mget (fun _ => CtrVal.zero) m k with inexact := true }
    let o := { s.obs with acc := mput (fun _ => 0) s.obs.acc k (2 ^ w - 1), stored0 := inexact s.obs.stored0, stored1 := inexact s.obs.stored1 }
    State.countN { s with obs := o } .controlCountAccSaturated 0 (v - (2 ^ w - 1))

/-- A packet of `bytes` frame bytes in counters `k` (packets) and `k` + 1 (bytes) of queue `q` (bank 0x0100). -/
def State.queueCount (s : State) (q k bytes : Nat) : State := (s.accCount 0x100 (4 * q + k) 1).accCount 0x100 (4 * q + k + 1) bytes

/-- A packet in counters `k` and `k` + 1 of accounting port `p` and class `c` (bank 0x0101), which are whole on-die. -/
def State.portCount (s : State) (p c k bytes : Nat) : State :=
  (s.bumpKey (bankKey 0x101 (4 * (8 * p + c) + k)) 1).bumpKey (bankKey 0x101 (4 * (8 * p + c) + k + 1)) bytes

/-! ### Messages -/

/-- A session by number. -/
def State.session (s : State) (id : Nat) : Option Session := s.fcp.sessions.find? (fun x => x.id == id)

/-- The sessions with the one of the same number replaced. -/
def putSession (l : List Session) (x : Session) : List Session := l.map (fun y => if y.id == x.id then x else y)

/-- Sends a message on a session; the sequence number of its direction rises by one (R394). -/
def State.send (s : State) (sid type request status : Nat) (reply gap : Bool) (payload : Bytes) : State :=
  match s.session sid with
  | none => s
  | some x =>
    { s with fcp := { s.fcp with
        sessions := putSession s.fcp.sessions { x with txSeq := x.txSeq + 1 },
        sent := s.fcp.sent ++ [{ session := sid, type := type, seq := x.txSeq + 1, request := request, status := status, reply := reply, gap := gap, payload := payload }] } }

/-! ### Telemetry records -/

/-- The collectors that take a record of KINDS bit `b` (Table 18.8); one with bit 6 takes sFlow samples only (R430). -/
def State.collectorsFor (s : State) (b : Nat) : List Nat :=
  (List.range 4).filter (fun i =>
    let k := s.fld (Reg.teleCollector i) Fld.teleCollector_kinds
    s.flag (Reg.teleCollector i) Fld.teleCollector_valid && bit k b && (b == 6 || !bit k 6))

/-- The bytes of the 16 MiB export store in use (R429); snapshot records lie in the dump ring. -/
def State.storeUsed (s : State) : Nat := ((s.obs.teleQ.filter (fun r => r.kind != 1)).map (fun r => r.body.length)).sum

/-- A record for collector `i` is discarded: it is counted, and the collector's next datagram carries the gap flag (R429). -/
def State.teleLose (s : State) (i : Nat) : State :=
  State.count { s with obs := { s.obs with teleGap := mput (fun _ => false) s.obs.teleGap i true } } .controlTelemetryLost

/-- A record queued for collector `i`; with no room in the store it is lost, and the collector is noted. -/
def teleOne (kind : Nat) (body : Bytes) (r : State × List Nat) (i : Nat) : State × List Nat :=
  if kind ≠ 1 ∧ 16777216 < r.1.storeUsed + body.length then (r.1.teleLose i, r.2 ++ [i])
  else ({ r.1 with obs := { r.1.obs with teleQ := r.1.obs.teleQ ++ [{ kind := kind, dest := i, body := body }] } }, r.2)

/-- Queues a record for the collectors that take its kind, while export runs (R427, R429); answers the collectors for which the store had no room. -/
def State.telePut (s : State) (kind b : Nat) (body : Bytes) : State × List Nat :=
  if s.boot.fwRunning && s.flag Reg.teleCtrl Fld.teleCtrl_enable then (s.collectorsFor b).foldl (teleOne kind body) (s, []) else (s, [])

/-! ### Events -/

/-- The 32 bytes of an event record (Table 17.8). -/
def EventRec.bytes (r : EventRec) : Bytes :=
  natBe 2 r.code ++ natBe 2 (min r.held 65535) ++ natBe 4 r.seq ++ r.time ++ (r.data ++ List.replicate 12 0).take 12

/-- Sends an event record to every open session in an EVENT message (R407); the gap flag tells that a record was lost. -/
def State.sendEvent (s : State) (r : EventRec) : State :=
  (s.fcp.sessions.filter (fun x => x.auth)).foldl (fun s x =>
    let s := s.send x.id 0x28 0 0 false x.lost r.bytes
    match s.session x.id with
    | none => s
    | some y => { s with fcp := { s.fcp with sessions := putSession s.fcp.sessions { y with lost := false, sentSeq := r.seq } } }) s

/-- Puts a record in the ring of 65,536 with the next SEQ (R404, R405): after 4,294,967,295 SEQ goes on at 1, and a record that
overwrites one not acknowledged by an open session counts a loss and marks the session. -/
def State.ringPut (s : State) (code held : Nat) (time data : Bytes) : State × EventRec :=
  let r : EventRec := { code := code, held := held, seq := s.ev.nextSeq, time := time, data := data }
  let nxt := if s.ev.nextSeq = 4294967295 then 1 else s.ev.nextSeq + 1
  let full := decide (65536 ≤ s.ev.ring.length)
  let oldSeq := ((s.ev.ring.head?).map (fun e => e.seq)).getD 0
  let hit (x : Session) : Bool := full && x.auth && decide (x.ackSeq < oldSeq)
  let lost := s.fcp.sessions.any hit
  let s := { s with
    ev := { s.ev with nextSeq := nxt, ring := (if full then s.ev.ring.drop 1 else s.ev.ring) ++ [r] },
    fcp := { s.fcp with sessions := s.fcp.sessions.map (fun x => if hit x then { x with lost := true } else x) } }
  (if lost then s.count .controlFcpEventLost else s, r)

/-- Records an event: in the ring, to the sessions and the collectors while the firmware runs or in the recovery state (log 23); before that in the boot log
of 64 (R58, R405).
Answers the collectors for which it was lost. -/
def State.recordCore (s : State) (code held : Nat) (data : Bytes) : State × List Nat :=
  let time := todBytes s.tod
  let s := s.filterCount 5 0 (code / 256) (some code) none
  if s.boot.fwRunning || s.boot.stage == .recovery then
    let (s, r) := s.ringPut code held time data
    (s.sendEvent r).telePut 3 2 r.bytes
  else if s.ev.bootLog.length < 64 then
    ({ s with ev := { s.ev with bootLog := s.ev.bootLog ++ [{ code := code, held := held, seq := 0, time := time, data := data }] } }, [])
  else
    (State.count { s with ev := { s.ev with bootLog := s.ev.bootLog.drop 1 ++ [{ code := code, held := held, seq := 0, time := time, data := data }] } } .controlLoaderBootlogLost, [])

/-- 0x0142, at most once per 1 s per collector (R429): a record of `kind` for collector `i` was lost. -/
def State.lostEvent (s : State) (i kind : Nat) : State :=
  let data := natBe 1 i ++ natBe 1 kind
  if s.ev.windows.any (fun w => w.code == 0x142 && w.key == i) then
    { s with ev := { s.ev with windows := s.ev.windows.map (fun w => if w.code == 0x142 && w.key == i then { w with held := w.held + 1, data := data } else w) } }
  else (State.recordCore { s with ev := { s.ev with windows := s.ev.windows ++ [{ code := 0x142, key := i, held := 0, data := [] }] } } 0x142 0 data).1

/-- Records an event. -/
def State.record (s : State) (code held : Nat) (data : Bytes) : State :=
  let r := s.recordCore code held data
  r.2.foldl (fun s i => s.lostEvent i 3) r.1

/-- Queues a telemetry record of `kind` for the collectors of KINDS bit `b`. -/
def State.tele (s : State) (kind b : Nat) (body : Bytes) : State :=
  let r := s.telePut kind b body
  r.2.foldl (fun s i => s.lostEvent i kind) r.1

/-- Raises an event that no rate limits. -/
def State.raise (s : State) (code : Nat) (data : Bytes := []) : State := s.record code 0 data

/-- Raises an event whose rule limits it to one per interval and key (R467): with no window open it is recorded and a window opens,
with a window open it is held and its data replaces an earlier held raise's. -/
def State.raiseLimited (s : State) (code key : Nat) (data : Bytes) : State :=
  if s.ev.windows.any (fun w => w.code == code && w.key == key) then
    { s with ev := { s.ev with windows := s.ev.windows.map (fun w => if w.code == code && w.key == key then { w with held := w.held + 1, data := data } else w) } }
  else
    State.record { s with ev := { s.ev with windows := s.ev.windows ++ [{ code := code, key := key, held := 0, data := [] }] } } code 0 data

/-- A unit as event data: complex code, then ordinal in its row of Table 1.1 (R404). -/
def unitBytes (complex ordinal : Nat) : Bytes := natBe 1 complex ++ natBe 2 ordinal

/-- The index of a pseudo-channel hN.pcM as event data, two bytes: N, M. -/
def pcBytes (x : Nat) : Bytes := natBe 1 (x / 64) ++ natBe 1 (x % 64)

/-! ### Epochs -/

/-- The current epoch (R338). -/
def State.epoch (s : State) : Nat := s.fld Reg.epochState Fld.epochState_current

/-- The other epoch, valid in phases 1 to 3. -/
def State.epochOther (s : State) : Nat := s.fld Reg.epochState Fld.epochState_other

/-- The phase of the epoch unit (Table 14.2). -/
def State.epochPhase (s : State) : Nat := s.fld Reg.epochState Fld.epochState_phase

/-- Whether another epoch than the current one is live (Table 14.2). -/
def State.otherLive (s : State) : Bool := decide (1 ≤ s.epochPhase) && decide (s.epochPhase ≤ 3)

/-- Whether the lookup boundary of the batch in hand has come (R348): boundaries are BATCH_GAP apart. -/
def State.boundaryDue (s : State) : Bool :=
  s.fcp.flip.isSome && (match s.fcp.lastFlip with | none => true | some t => decide (t + 100 * s.fld Reg.epochCtrl Fld.epochCtrl_batchGap ≤ s.time.stepFree))

/-- Whether epoch `e` is live (R338). -/
def State.epochLive (s : State) (e : Nat) : Bool := e == s.epoch || (s.otherLive && e == s.epochOther)

/-- One packet more of epoch `e` on the device (R343); the counts saturate. -/
def State.epochEnter (s : State) (e : Nat) : State :=
  if e = s.epoch then
    s.setFld Reg.epochInflight Fld.epochInflight_current (min (s.fld Reg.epochInflight Fld.epochInflight_current + 1) 4294967295)
  else if s.otherLive && e == s.epochOther then
    s.setFld Reg.epochInflight Fld.epochInflight_other (min (s.fld Reg.epochInflight Fld.epochInflight_other + 1) 4294967295)
  else s

/-- The retiring epoch is retired (R344): the phase becomes SWEEP and 0x0122 is raised. -/
def State.epochRetire (s : State) : State :=
  (s.setFld Reg.epochState Fld.epochState_phase 4).raise 0x0122 (natBe 2 s.epochOther)

/-- One packet of epoch `e` has left the device (R343); a retiring epoch whose count reaches zero is retired (R344). -/
def State.epochLeave (s : State) (e : Nat) : State :=
  if e = s.epoch then
    s.setFld Reg.epochInflight Fld.epochInflight_current (s.fld Reg.epochInflight Fld.epochInflight_current - 1)
  else if s.otherLive && e == s.epochOther then
    let n := s.fld Reg.epochInflight Fld.epochInflight_other - 1
    let t := s.setFld Reg.epochInflight Fld.epochInflight_other n
    if s.epochPhase = 3 ∧ n = 0 then t.epochRetire else t
  else s

/-- A frame handed to a port leaves, or is dropped on its way out: its bytes leave the window of its port node (R296), and it leaves its epoch's count (R343). -/
def State.txLeave (s : State) (f : TxPkt) : State :=
  let s := { s with traffic := { s.traffic with inflight := mput (fun _ => 0) s.traffic.inflight f.node (mget (fun _ => 0) s.traffic.inflight f.node - f.win) } }
  if f.counted then s.epochLeave f.epoch else s

/-- The lowest epoch-banked bit of the register at `a`, for the words of Table 14.1. -/
def bankedLow (a : Nat) : Option Nat :=
  if a = Reg.epochBankSel then some 0
  else if a < 0x20000000 || 0x20c00000 ≤ a then none
  else
    let o := a % 0x100000
    if 0x100 ≤ o && o < 0x180 && o % 16 == 0 then some 18
    else if 0x21000 ≤ o && o < 0x21080 && o % 16 == 0 then some 53
    else if 0x20000 ≤ o && o < 0x20100 && o % 8 == 0 then some 0
    else if 0x40000 ≤ o && o < 0x40080 && o % 8 == 0 then some 0
    else none

/-- The odd copy of a banked word. -/
def State.oddCopy (s : State) (a : Nat) : Word := mget resetOf s.bankOdd a

/-- The word of register `a` that a pass of epoch parity `odd` reads (R340). -/
def State.regPar (s : State) (odd : Bool) (a : Nat) : Word :=
  match bankedLow a, odd with
  | some lo, true => BitVec.ofNat 64 ((s.reg a).toNat % 2 ^ lo + 2 ^ lo * ((s.oddCopy a).toNat / 2 ^ lo))
  | _, _ => s.reg a

/-- Writes the banked bits of the copy of parity `odd`, and the other bits of the register. -/
def State.setRegPar (s : State) (odd : Bool) (a : Nat) (w : Word) : State :=
  match bankedLow a, odd with
  | some lo, true =>
    State.setReg { s with bankOdd := mput resetOf s.bankOdd a w } a (BitVec.ofNat 64 (w.toNat % 2 ^ lo + 2 ^ lo * ((s.reg a).toNat / 2 ^ lo)))
  | _, _ => s.setReg a w

/-- Whether the current epoch is odd. -/
def State.curOdd (s : State) : Bool := s.epoch % 2 == 1

/-- A field as a pass of epoch `e` reads it. -/
def State.fldEp (s : State) (e a : Nat) (f : Field) : Nat := getField f (s.regPar (e % 2 == 1) a)

/-! ### Units -/

/-- What no register shows of a line port that has carried nothing. -/
def LinePort.idle : LinePort := { downHold := false, upHold := false, goodWins := 0, degWin := 0, macRx := [], macTx := [], txQ := [] }

/-- A line port. -/
def State.port (s : State) (p : Nat) : LinePort := mget (fun _ => LinePort.idle) s.line.ports p

/-- The state with line port `p` replaced. -/
def State.setPort (s : State) (p : Nat) (x : LinePort) : State :=
  { s with line := { s.line with ports := mput (fun _ => LinePort.idle) s.line.ports p x } }

/-- The lanes a port mode takes (Table 3.1). -/
def modeLanes (m : Nat) : Nat :=
  if m = 0 then 0 else if m ≤ 5 then 1 else if m ≤ 7 then 2 else if m ≤ 9 then 4 else if m ≤ 11 then 8 else 0

/-- The mode of port `p` (R64). -/
def State.portMode (s : State) (p : Nat) : Nat := s.fld (Reg.linePortCfg p) Fld.linePortCfg_mode

/-- The ports that exist (R63). -/
def State.portList (s : State) : List Nat := (List.range 96).filter (fun p => s.portMode p != 0)

/-- The port that owns lane `l`. -/
def State.laneOwner (s : State) (l : Nat) : Option Nat :=
  (List.range 8).findSome? (fun d => if d ≤ l % 8 ∧ d < modeLanes (s.portMode (l - d)) then some (l - d) else none)

/-- Whether port `p` is up. -/
def State.portUp (s : State) (p : Nat) : Bool := s.flag (Reg.linePortStatus p) Fld.linePortStatus_up

/-- Bridge channels: index 2 × slice, plus 1 for the F-to-T direction (R22). -/
def BridgeChan.idle : BridgeChan := { failed := 0, retrain := false, fenced := false }

/-- A bridge channel direction. -/
def State.chan (s : State) (k : Nat) (toF : Bool) : BridgeChan := mget (fun _ => BridgeChan.idle) s.bridge (2 * k + b2n (!toF))

/-- The state with a bridge channel direction replaced. -/
def State.setChan (s : State) (k : Nat) (toF : Bool) (c : BridgeChan) : State :=
  { s with bridge := mput (fun _ => BridgeChan.idle) s.bridge (2 * k + b2n (!toF)) c }

/-! ### Energy purses (R381) -/

/-- The purse of class 1, 2 or 3. -/
def State.purse (s : State) (c : Nat) : Nat := if c = 1 then s.gov.purse1 else if c = 2 then s.gov.purse2 else s.gov.purse3

/-- The state with the purse of a class replaced. -/
def State.setPurse (s : State) (c v : Nat) : State :=
  { s with gov := if c = 1 then { s.gov with purse1 := v } else if c = 2 then { s.gov with purse2 := v } else { s.gov with purse3 := v } }

/-- Whether an action of class `c` may start: its purse is not frozen and holds the cost; class 0 is never refused. -/
def State.canSpend (s : State) (c cost : Nat) : Bool := c == 0 || (!bit s.gov.frozen c && decide (cost ≤ s.purse c))

/-- The cost of an action taken from its purse; class 0 has none (its spend is what CREDIT_EPOCH reports). -/
def State.spend (s : State) (c cost : Nat) : State := if c = 0 then s else s.setPurse c (s.purse c - cost)

/-! ### Faults on pins -/

/-- FAULT_N is asserted while any cause holds (Table 20.6). -/
def Pins.fault (p : Pins) : Bool :=
  p.faultReset || p.faultRecovery || p.faultHalt || p.faultWarm || p.faultHeartbeat || p.faultScan

end Sys2Proof.Machine
end

