-- ==== Sys2Proof/Machine/Access.lean ====
section
/-! DEFINITION. What a write does to a register's word by the access codes of Table 0.4, the ranges of R7 and the reserved bits of R10. -/

namespace Sys2Proof.Machine

/-- The field of a descriptor. -/
def FieldDesc.field (f : FieldDesc) : Field := { hi := f.hi, lo := f.lo }

/-- Whether a value lies in a field's range (R7). -/
def FieldDesc.ok (f : FieldDesc) (v : Nat) : Bool :=
  let i : Int := if f.signed then toSigned f.field.width v else v
  decide (f.min ≤ i) && decide (i ≤ f.max)

/-- Whether a write may set the field (RW, WO, W1C, W1S, SC). -/
def FieldDesc.writable (f : FieldDesc) : Bool :=
  match f.acc with
  | .rw | .wo | .w1c | .w1s | .sc => true
  | .ro | .img | .snap => false

/-- What the field holds after a write of `v` over `old` (Table 0.4): SC starts an action and is not kept here. -/
def FieldDesc.apply (f : FieldDesc) (old v : Nat) : Nat :=
  match f.acc with
  | .rw | .wo => v
  | .w1c => old &&& (2 ^ f.field.width - 1 - v)
  | .w1s => old ||| v
  | .sc | .ro | .img | .snap => old

/-- Whether every RW, WO or SC field of a word written is in its range. -/
def RegDesc.legal (d : RegDesc) (w : Word) : Bool := d.fields.all (fun f => !f.writable || f.acc == .w1c || f.acc == .w1s || f.ok (getField f.field w))

/-- Whether every field of a word is in its range, as the image loader and batches check it. -/
def RegDesc.legalAll (d : RegDesc) (w : Word) : Bool := d.fields.all (fun f => f.ok (getField f.field w))

/-- The word after a write of `w` over `old`: reserved bits stay zero. -/
def RegDesc.written (d : RegDesc) (old w : Word) : Word :=
  d.fields.foldl (fun acc f => putField f.field (f.apply (getField f.field old) (getField f.field w)) acc) 0

/-- A whole-word write by the management side (R7, R8, R10): refused whole, with the state unchanged, when a value lies outside its range. -/
def State.hostWrite (s : State) (a : Nat) (w : Word) : Option State :=
  match findReg a with
  | none => none
  | some d => if d.legal w then some (s.setReg a (d.written (s.reg a) w)) else none

end Sys2Proof.Machine
end

