-- ==== Sys2Proof/Machine/Line.lean ====
section
/-! DEFINITION. Line interface and FlexE (chapter 3): receive checks, port state and holds, FEC degrade, FlexE groups, timestamps. -/

namespace Sys2Proof.Machine

/-! ### Frame check sequence -/

/-- One bit of the Ethernet CRC-32, reflected. -/
def crc32Bit (c : BitVec 32) : BitVec 32 := if c.getLsbD 0 then (c >>> 1) ^^^ 0xEDB88320#32 else c >>> 1

/-- One byte of the Ethernet CRC-32. -/
def crc32Byte (c : BitVec 32) (b : Byte) : BitVec 32 :=
  crc32Bit (crc32Bit (crc32Bit (crc32Bit (crc32Bit (crc32Bit (crc32Bit (crc32Bit (c ^^^ b.setWidth 32))))))))

/-- The four FCS bytes of a frame's bytes (IEEE 802.3, R66). -/
def fcsOf (bs : Bytes) : Bytes :=
  let c := (~~~ (bs.foldl crc32Byte 0xFFFFFFFF#32)).toNat
  [BitVec.ofNat 8 c, BitVec.ofNat 8 (c / 256), BitVec.ofNat 8 (c / 65536), BitVec.ofNat 8 (c / 16777216)]

/-- The FCS a stomped frame carries: the inverse of the computed one (R69). -/
def stompedFcs (bs : Bytes) : Bytes := (fcsOf bs).map (fun b => ~~~ b)

/-- The outcome of the receive checks of Table 3.2. -/
inductive RxResult where
  | discard (c : Ctr)
  | bad (c : Ctr) (bytes : Bytes)
  | good
  deriving DecidableEq, Repr

/-- Table 3.2, in order (R68, R69). `frame` runs to the FCS, or to the last byte before the link went down. -/
def rxCheck (up : Bool) (maxFrame : Nat) (frame : Bytes) (m : RxMarks) : RxResult :=
  let n := frame.length
  let body := frame.take (n - 4)
  let fcs := frame.drop (n - 4)
  if !up then .discard .lineMacRxPortDown
  else if n < 64 then .discard .lineMacRxRunt
  else if m.cutByLinkDown then .bad .lineMacRxTruncated frame
  else if m.cdcOverrun then .bad .lineMacRxCdcOverrun frame
  else if m.fecBad then .bad .lineMacRxFecBad frame
  else if maxFrame < n then .bad .lineMacRxOversize (frame.take (maxFrame + 1))
  else if fcs = stompedFcs body then .bad .lineMacRxStomped frame
  else if fcs ≠ fcsOf body then .bad .lineMacRxFcsErr frame
  else if beAt frame 12 2 = 0x8808 then .discard .lineMacRxMacctl
  else .good

/-! ### Into the slice -/

/-- The header queue of slice `k`. -/
def State.hdrOf (s : State) (k : Nat) : List RxPkt := mget (fun _ => []) s.hdrQ k

/-- The MAC address and EtherType of control frames (R391, R393): until FCP_CFG is loaded, 02 and the low 40 bits of the serial, and 0x88B5. -/
def State.fcpMac (s : State) : Nat :=
  let m := s.fld Reg.fcpCfg Fld.fcpCfg_mac
  if m = 0 then 2 * 2 ^ 40 + s.fuses.serial.toNat % 2 ^ 40 else m

/-- The EtherType of control frames. -/
def State.fcpEtype (s : State) : Nat :=
  if s.fld Reg.fcpCfg Fld.fcpCfg_mac = 0 then 0x88B5 else s.fld Reg.fcpCfg Fld.fcpCfg_etype

/-- Whether a frame is a control frame: addressed to the device, its EtherType after at most one 802.1Q tag (R391). -/
def State.isControl (s : State) (bs : Bytes) : Bool :=
  beAt bs 0 6 == s.fcpMac &&
    (beAt bs 12 2 == s.fcpEtype || (beAt bs 12 2 == 0x8100 && beAt bs 16 2 == s.fcpEtype))

/-- Whether control frames are taken on line port `p` (R392). -/
def State.fcpPort (s : State) (p : Nat) : Bool :=
  if p < 64 then bit (s.reg Reg.fcpPortsLo).toNat p else bit (s.reg Reg.fcpPortsHi).toNat (p - 64)

/-- A received frame enters its slice (R98, R107). A control frame on a port of FCP_PORTS is diverted before classification;
beyond RX_RATE in a second it is discarded and counted (R392), else its message is the control command that follows (log 6). -/
def State.toSlice (s : State) (x : RxPkt) : State :=
  if s.pins.ready && s.fcpPort x.port && !x.bad && s.isControl x.bytes then
    let sec := s.time.stepFree / 1000000000
    let n := if sec = s.line.fcpSecond then s.line.fcpCount else 0
    if n < s.fld Reg.fcpCtrl Fld.fcpCtrl_rxRate then
      { s with line := { s.line with fcpSecond := sec, fcpCount := n + 1 } }
    else s.count .controlFcpRxRateDrop
  else
    { s with hdrQ := mput (fun _ => []) s.hdrQ (x.port / 8) (s.hdrOf (x.port / 8) ++ [x]) }

/-- Whether a port carries FlexE (R78). -/
def State.flexePort (s : State) (p : Nat) : Bool := s.flag (Reg.linePortCfg p) Fld.linePortCfg_flexePhy

/-- A time of day in units of 1/256 ns with a signed correction (R85). -/
def State.stamp (s : State) (adj : Nat) : Nat := ((s.tod * 256 : Nat) + toSigned 16 adj).toNat

/-- What the slice receives of a frame that passed the MAC: timestamped, unless the port carries FlexE (R86, R87). -/
def State.rxPkt (s : State) (p : Nat) (bytes : Bytes) (bad : Bool) : RxPkt :=
  { bytes := bytes, port := p, bad := bad, ts := s.stamp (s.fld (Reg.lineTspAdj p) Fld.lineTspAdj_rxAdj), tsValid := !s.flexePort p, msec := 0, msecSc := 0 }

/-- A frame the MAC passes: held whole for verification on a port with a SecY (R88, R98), else into the slice. -/
def State.macPass (s : State) (p : Nat) (bytes : Bytes) (bad : Bool) : State :=
  let x := s.rxPkt p bytes bad
  if s.flag (Reg.macsecSecyCfg p) Fld.macsecSecyCfg_enable then
    let q := s.port p
    s.setPort p { q with macRx := q.macRx ++ [x] }
  else s.toSlice x

/-- RX_FRAME (R69). -/
def rxFrame (p : Nat) (frame : Bytes) (m : RxMarks) (s : State) : State :=
  match rxCheck (s.portUp p) (s.fld (Reg.linePortCfg p) Fld.linePortCfg_maxFrame) frame m with
  | .discard c => s.count c p
  | .bad c bs => (s.count c p).macPass p bs true
  | .good => ((s.count .lineMacRxFrames p).countN .lineMacRxBytes p frame.length).macPass p frame false

/-! ### FlexE groups -/

/-- A FlexE PHY with no lock. -/
def FlexePhy.idle : FlexePhy := { ohGood := 0, ohBad := 0, mfGood := 0, mfBad := 0, mismatch := false }

/-- A FlexE group with no request in hand. -/
def FlexeGroup.idle : FlexeGroup := { reqSent := false, acked := false }

/-- The PHY at lane `j` of slice `k`. -/
def State.phy (s : State) (k j : Nat) : FlexePhy := mget (fun _ => FlexePhy.idle) s.line.phys (8 * k + j)

/-- The group of slice `k`. -/
def State.group (s : State) (k : Nat) : FlexeGroup := mget (fun _ => FlexeGroup.idle) s.line.groups k

/-- The lanes of slice `k` at which a PHY of the group starts (LINE_FLEXE_CFG.PHY_MAP). -/
def State.phyLanes (s : State) (k : Nat) : List Nat :=
  (List.range 8).filter (fun j => bit (s.fld (Reg.lineFlexeCfg k) Fld.lineFlexeCfg_phyMap) j)

/-! ### Port state -/

/-- The state of line lane `l`: 0 no signal, 1 signal, 2 waiting for retrain credits, 3 retraining. -/
def State.lane (s : State) (l : Nat) : Nat := mget (fun _ => 0) s.line.lanes l

/-- The state with line lane `l` in state `v`. -/
def State.setLane (s : State) (l v : Nat) : State :=
  { s with line := { s.line with lanes := mput (fun _ => 0) s.line.lanes l v } }

/-- The lanes of port `p`. -/
def State.portLanes (s : State) (p : Nat) : List Nat := (List.range (modeLanes (s.portMode p))).map (fun j => p + j)

/-- The conditions of R71 that fail on port `p`, apart from its FlexE group, in the order in which DOWN_CAUSE shows them. -/
def State.portFaults (s : State) (p : Nat) : List Nat :=
  let st := Reg.linePortStatus p
  let ls := s.portLanes p
  (if s.flag (Reg.linePortCtrl p) Fld.linePortCtrl_adminUp then [] else [1])
  ++ (if s.pins.ready then [] else [10])
  ++ (if bit (s.fld Reg.bridgeCtrl Fld.bridgeCtrl_fenced) (p / 8) then [8] else [])
  ++ (if ls.any (fun l => s.lane l == 0) then [2] else [])
  ++ (if ls.any (fun l => s.lane l == 2) then [9] else [])
  ++ (if (List.range ls.length).all (fun j => bit (s.fld st Fld.linePortStatus_blockLock) j) && ls.all (fun l => s.lane l != 3) then [] else [3])
  ++ (if s.flag st Fld.linePortStatus_amLock && !s.flag st Fld.linePortStatus_localFault then [] else [4])
  ++ (if s.flag st Fld.linePortStatus_remoteFault then [5] else [])
  ++ (if s.flag st Fld.linePortStatus_fecDegrade && s.flag (Reg.linePortCfg p) Fld.linePortCfg_degAction then [6] else [])

/-- Whether the group of slice `k` is up (R82): every PHY up but for the group itself, locked without mismatch, and the skew within 800 ns. -/
def State.groupUp (s : State) (k : Nat) : Bool :=
  let st := Reg.lineFlexeStatus k
  !(s.phyLanes k).isEmpty && (s.phyLanes k).all (fun j =>
    (s.portFaults (8 * k + j)).isEmpty && bit (s.fld st Fld.lineFlexeStatus_ohLock) j && bit (s.fld st Fld.lineFlexeStatus_mfLock) j
    && !(s.phy k j).mismatch) && decide (s.fld st Fld.lineFlexeStatus_skew ≤ 800)

/-- The first failing condition of port `p` in the order 1, 10, 8, 7, 2, 9, 3, 4, 5, 6; 0 when all hold (R71). -/
def State.portCause (s : State) (p : Nat) : Nat :=
  let fs := s.portFaults p ++ (if s.flexePort p && !s.flag (Reg.lineFlexeStatus (p / 8)) Fld.lineFlexeStatus_up then [7] else [])
  ([1, 10, 8, 7, 2, 9, 3, 4, 5, 6].find? (fun c => fs.contains c)).getD 0

/-- Whether a failing condition takes the port down without hold: causes 1, 7, 8, 9 and 10 (R72). -/
def State.portImmediate (s : State) (p : Nat) : Bool :=
  let fs := s.portFaults p
  fs.any (fun c => c == 1 || c == 8 || c == 9 || c == 10)
    || (s.flexePort p && !s.flag (Reg.lineFlexeStatus (p / 8)) Fld.lineFlexeStatus_up)

/-- PORT_DOWN (R74): 0x0202 with port and cause, `link_down` counted, a frame being sent abandoned (R69), and the traffic complex told. -/
def State.portDown (s : State) (p cause : Nat) : State :=
  let st := Reg.linePortStatus p
  let q := s.port p
  let s := ((s.setFld st Fld.linePortStatus_up 0).setFld st Fld.linePortStatus_downCause cause).setFld st Fld.linePortStatus_hold 0
  let s := if q.txQ.isEmpty then s else s.count .lineMacTxAbandoned p
  let s := match q.txQ with | [] => s | f :: _ => s.txLeave f
  let s := s.setPort p { q with downHold := false, upHold := false, txQ := q.txQ.drop 1 }
  let s := { s with line := { s.line with closeDue := s.line.closeDue ++ [p], noticeDue := s.line.noticeDue ++ [(p, false)], pouncerDue := s.line.pouncerDue ++ [p] } }
  (s.count .lineMacLinkDown p).raise 0x0202 (natBe 1 p ++ natBe 1 cause)

/-- A port comes up (R74, R263): 0x0201, its queues reopen at once, and the devices are told. -/
def State.portComesUp (s : State) (p : Nat) : State :=
  let st := Reg.linePortStatus p
  let s := ((s.setFld st Fld.linePortStatus_up 1).setFld st Fld.linePortStatus_downCause 0).setFld st Fld.linePortStatus_hold 0
  let s := s.setPort p { s.port p with downHold := false, upHold := false }
  let s := s.setFld (Reg.trafficPortCfg p) Fld.trafficPortCfg_closed 0
  let s := { s with line := { s.line with closeDue := s.line.closeDue.filter (fun x => x != p), noticeDue := s.line.noticeDue ++ [(p, true)] } }
  s.raise 0x0201 (natBe 1 p)

/-- The conditions of port `p` are taken anew (R71, R72): a fault of causes 2 to 6 starts LINK_DOWN_HOLD, the others act at once;
when all hold on a down port LINK_UP_HOLD runs. -/
def State.portEval (s : State) (p : Nat) : State :=
  let st := Reg.linePortStatus p
  let q := s.port p
  let cause := s.portCause p
  if s.portUp p then
    if cause = 0 then
      if q.downHold then
        ((s.setPort p { q with downHold := false }).setFld st Fld.linePortStatus_hold 0).count .lineMacFaultSuppressed p
      else s
    else if s.portImmediate p || s.fld (Reg.linePortCfg p) Fld.linePortCfg_linkDownHold == 0 then s.portDown p cause
    else (s.setPort p { q with downHold := true }).setFld st Fld.linePortStatus_hold 1
  else if cause = 0 then
    if s.fld (Reg.linePortCfg p) Fld.linePortCfg_linkUpHold = 0 then s.portComesUp p
    else (s.setPort p { q with upHold := true }).setFld st Fld.linePortStatus_hold 1
  else
    ((s.setPort p { q with upHold := false }).setFld st Fld.linePortStatus_hold 0).setFld st Fld.linePortStatus_downCause cause

/-- The group of slice `k` is taken anew (R82): it goes down at once with 0x0205 naming the failing PHY, or comes up with 0x0209. -/
def State.groupEval (s : State) (k : Nat) : State :=
  let st := Reg.lineFlexeStatus k
  let up := s.groupUp k
  if up == s.flag st Fld.lineFlexeStatus_up then s
  else if up then
    (s.setFld st Fld.lineFlexeStatus_up 1).raise 0x0209 (natBe 1 k ++ natBe 1 (s.fld st Fld.lineFlexeStatus_activeCal))
  else
    let bad := ((s.phyLanes k).find? (fun j => !((s.portFaults (8 * k + j)).isEmpty && bit (s.fld st Fld.lineFlexeStatus_ohLock) j
      && bit (s.fld st Fld.lineFlexeStatus_mfLock) j && !(s.phy k j).mismatch))).getD 0
    (s.setFld st Fld.lineFlexeStatus_up 0).raise 0x0205 (natBe 1 k ++ natBe 1 bad)

/-- Port `p` and, where it is a PHY, its group and the group's other ports are taken anew. -/
def State.portChange (s : State) (p : Nat) : State :=
  if s.flexePort p then
    let s := s.groupEval (p / 8)
    (s.phyLanes (p / 8)).foldl (fun s j => s.portEval (8 * (p / 8) + j)) s
  else s.portEval p

/-- Every port that exists is taken anew (READY rises, a bridge channel is fenced or returns). -/
def State.portsEval (s : State) : State := s.portList.foldl (fun s p => s.portChange p) s

/-- What a port sends (R73, R35, R36). -/
inductive LineSend where
  | electricalIdle | remoteFault | idle | flexe | frames
  deriving DecidableEq, Repr

/-- What port `p` sends, by the DOWN_CAUSE it shows (R73). -/
def State.portSends (s : State) (p : Nat) : LineSend :=
  let c := s.fld (Reg.linePortStatus p) Fld.linePortStatus_downCause
  if s.pins.linkIdle then .electricalIdle
  else if s.portUp p then .frames
  else if (s.port p).upHold then .remoteFault
  else if c = 1 then (if s.flag (Reg.linePortCtrl p) Fld.linePortCtrl_downMode then .remoteFault else .electricalIdle)
  else if c = 5 then .idle
  else if c = 7 then .flexe
  else .remoteFault

/-! ### Lanes -/

/-- LINE_PORT_STATUS.SIGNAL of the port that owns lane `l`, after a lane change. -/
def State.laneChange (s : State) (l : Nat) : State :=
  match s.laneOwner l with
  | none => s
  | some p =>
    (s.setFlag (Reg.linePortStatus p) Fld.linePortStatus_signal ((s.portLanes p).all (fun x => s.lane x != 0))).portChange p

/-- LINE_LANE_SIGNAL_LOSS (R71, R76). -/
def lineLaneSignalLoss (l : Nat) (s : State) : State := (s.setLane l 0).laneChange l

/-- The cost of a lane retrain in pJ (Table 16.2). -/
def retrainCost : Nat := 4000000

/-- LINE_LANE_SIGNAL_RETURN (R76): the lane retrains when the class-3 purse pays, and else waits for credits, which is counted. -/
def lineLaneSignalReturn (l : Nat) (s : State) : State :=
  if s.lane l ≠ 0 then s
  else if s.canSpend 3 retrainCost then ((s.spend 3 retrainCost).setLane l 3).laneChange l
  else ((s.setLane l 2).count .lineSerdesRetrainWait l).laneChange l

/-- LANE_RETRAIN_DONE (R76). -/
def laneRetrainDone (l : Nat) (s : State) : State := if s.lane l = 3 then (s.setLane l 1).laneChange l else s

/-- Lanes that wait for credits start to retrain while the purse pays (R76, R381). -/
def State.retrainWaiting (s : State) : State :=
  (List.range 96).foldl (fun s l => if s.lane l = 2 ∧ s.canSpend 3 retrainCost then (s.spend 3 retrainCost).setLane l 3 else s) s

/-- LINK_FAULT_CHANGE (R71, R72): a reported condition of the port changes. -/
def linkFaultChange (p : Nat) (c : LinkCond) (s : State) : State :=
  let st := Reg.linePortStatus p
  match c with
  | .blockLock j ok =>
    let v := s.fld st Fld.linePortStatus_blockLock
    (s.setFld st Fld.linePortStatus_blockLock (setBits v j 1 (b2n ok))).portChange p
  | .amLock ok => (s.setFlag st Fld.linePortStatus_amLock ok).portChange p
  | .localFault on => (s.setFlag st Fld.linePortStatus_localFault on).portChange p
  | .remoteFault on => (s.setFlag st Fld.linePortStatus_remoteFault on).portChange p

/-- LINK_DOWN_HOLD_EXPIRY (R72). -/
def linkDownHoldExpiry (p : Nat) (s : State) : State :=
  if s.portUp p && (s.port p).downHold && s.portCause p != 0 then s.portDown p (s.portCause p) else s

/-- LINK_UP_HOLD_EXPIRY (R71). -/
def linkUpHoldExpiry (p : Nat) (s : State) : State :=
  if !s.portUp p && (s.port p).upHold && s.portCause p == 0 then s.portComesUp p else s

/-- ADMIN_UP_WRITE (R71, R72). -/
def adminUpWrite (p : Nat) (up : Bool) (s : State) : State :=
  if s.portMode p = 0 then s
  else (s.setFlag (Reg.linePortCtrl p) Fld.linePortCtrl_adminUp up).portChange p

/-! ### FEC degrade -/

/-- Degrade clears (R75): 0x0204. -/
def State.degradeClear (s : State) (p : Nat) : State :=
  (((s.setFld (Reg.linePortStatus p) Fld.linePortStatus_fecDegrade 0).setPort p { s.port p with goodWins := 0 }).raise 0x0204 (natBe 1 p)).portChange p

/-- DEG_THRESH_WRITE (R75): 0 clears a set degrade at once; the value applies from the next window. -/
def degThreshWrite (p v : Nat) (s : State) : State :=
  if s.portMode p = 0 ∨ 16777215 < v then s
  else
    let s := s.setFld (Reg.linePortCtrl p) Fld.linePortCtrl_degThresh v
    if v = 0 ∧ s.flag (Reg.linePortStatus p) Fld.linePortStatus_fecDegrade then s.degradeClear p else s

/-- FEC_WINDOW_END (R75): the counts are taken; an evaluated window sets degrade above the threshold, and clears it after ten
evaluated windows in a row at or below half of it. -/
def fecWindowEnd (p corrected uncorrectable : Nat) (evaluated : Bool) (s : State) : State :=
  let s := (s.countN .lineMacFecSymCorr p corrected).countN .lineMacFecCwBad p uncorrectable
  let q := s.port p
  let thr := q.degWin
  let set := s.flag (Reg.linePortStatus p) Fld.linePortStatus_fecDegrade
  let next := s.fld (Reg.linePortCtrl p) Fld.linePortCtrl_degThresh
  if !evaluated then s.setPort p { q with degWin := next }
  else if set then
    let n := if corrected ≤ thr / 2 then q.goodWins + 1 else 0
    let s := s.setPort p { q with degWin := next, goodWins := n }
    if 10 ≤ n then s.degradeClear p else s
  else if thr ≠ 0 ∧ thr < corrected then
    (((s.setPort p { q with degWin := next, goodWins := 0 }).setFld (Reg.linePortStatus p) Fld.linePortStatus_fecDegrade 1).raise 0x0203 (natBe 1 p)).portChange p
  else s.setPort p { q with degWin := next }

/-! ### Transmission and timestamps -/

/-- Records a departure time with its tag in the port's ring (R86, R87); a full ring discards it. -/
def State.tspRing (s : State) (p tag : Nat) : State :=
  let a := Reg.lineTspRingPtr p
  let wr := s.fld a Fld.lineTspRingPtr_wr
  let t := s.stamp (s.fld (Reg.lineTspAdj p) Fld.lineTspAdj_txAdj)
  if (wr + 1) % 64 = s.fld a Fld.lineTspRingPtr_rd then
    (s.count .lineTspTxRingFull p).raiseLimited 0x0208 p (natBe 1 p)
  else
    let ns := t / 256
    let s := s.setReg (Reg.lineTspRingWord p (2 * wr)) (BitVec.ofNat 64 (65536 * (ns / 1000000000) + tag % 65536))
    let s := s.setReg (Reg.lineTspRingWord p (2 * wr + 1)) (BitVec.ofNat 64 (ns % 1000000000 * 256 + t % 256))
    s.setFld a Fld.lineTspRingPtr_wr ((wr + 1) % 64)

/-- TX_FRAME_END (R86): the frame at the front of the port's transmitter has left; a two-step timestamp is recorded and the epoch's count falls. -/
def txFrameEnd (p : Nat) (s : State) : State :=
  let q := s.port p
  match q.txQ, s.portUp p with
  | f :: rest, true =>
    let s := s.setPort p { q with txQ := rest }
    let s := { s with line := { s.line with sent := s.line.sent ++ [SentFrame.mk p (if f.stomp then f.bytes.take (f.bytes.length - 4) ++ stompedFcs (f.bytes.take (f.bytes.length - 4)) else f.bytes) f.stomp] } }
    let s := if f.stomp then s.count .lineMacTxStomped p else s
    let s := if f.twoStep then s.tspRing p f.tag else s
    let s := s.portCount p f.tc 2 f.bytes.length
    s.txLeave f
  | _, _ => s

/-! ### FlexE overhead and calendars -/

/-- The PHY number expected at lane `j` of slice `k`: PHY_BASE for the lowest, the others in lane order. -/
def State.phyNumber (s : State) (k j : Nat) : Nat :=
  s.fld (Reg.lineFlexeCfg k) Fld.lineFlexeCfg_phyBase + ((s.phyLanes k).filter (fun x => decide (x < j))).length

/-- Lock counting of R80: gained after two good in a row, lost after `m` bad in a row. -/
def lockCount (good bad : Nat) (locked ok : Bool) (m : Nat) : Nat × Nat × Bool :=
  if ok then (good + 1, 0, locked || decide (2 ≤ good + 1)) else (0, bad + 1, locked && decide (bad + 1 < m))

/-- FLEXE_OVERHEAD_BLOCK (R80, R81, R82). -/
def flexeOverheadBlock (k j : Nat) (ohGood mfGood : Bool) (grp phyNo cal skewNs : Nat) (s : State) : State :=
  let cfg := Reg.lineFlexeCfg k
  let st := Reg.lineFlexeStatus k
  if !bit (s.fld cfg Fld.lineFlexeCfg_phyMap) j then s
  else
    let y := s.phy k j
    let ohL := s.fld st Fld.lineFlexeStatus_ohLock
    let mfL := s.fld st Fld.lineFlexeStatus_mfLock
    let (g, b, oh) := lockCount y.ohGood y.ohBad (bit ohL j) ohGood 5
    let (mg, mb, mf) := lockCount y.mfGood y.mfBad (bit mfL j) mfGood 3
    let mis := ohGood && (grp != s.fld cfg Fld.lineFlexeCfg_groupNum || phyNo != s.phyNumber k j || cal != s.fld st Fld.lineFlexeStatus_activeCal)
    let mis := if ohGood then mis else y.mismatch
    let y' : FlexePhy := { ohGood := g, ohBad := b, mfGood := if oh then mg else 0, mfBad := if oh then mb else 0, mismatch := mis }
    let s := { s with line := { s.line with phys := mput (fun _ => FlexePhy.idle) s.line.phys (8 * k + j) y' } }
    let s := s.setFld st Fld.lineFlexeStatus_ohLock (setBits ohL j 1 (b2n oh))
    let s := s.setFld st Fld.lineFlexeStatus_mfLock (setBits mfL j 1 (b2n (mf && oh)))
    let s := s.setFlag st Fld.lineFlexeStatus_mismatch ((s.phyLanes k).any (fun x => (s.phy k x).mismatch))
    let old := s.fld st Fld.lineFlexeStatus_skew
    let s := s.setFld st Fld.lineFlexeStatus_skew (min skewNs 1023)
    let s := if mis && !y.mismatch then s.raise 0x0206 (natBe 1 k ++ natBe 1 j) else s
    let s := if 800 < skewNs ∧ old ≤ 800 then s.raise 0x0207 (natBe 1 k ++ natBe 2 (min skewNs 1023)) else s
    s.portChange (8 * k + j)

/-- FLEXE_CALENDAR_REQUEST (R83): a request for the image's other calendar is acknowledged, any other raises 0x0206. -/
def flexeCalendarRequest (k cal : Nat) (s : State) : State :=
  if cal < 2 ∧ cal ≠ s.fld (Reg.lineFlexeStatus k) Fld.lineFlexeStatus_activeCal then
    { s with line := { s.line with groups := mput (fun _ => FlexeGroup.idle) s.line.groups k { s.group k with acked := true } } }
  else s.raise 0x0206 (natBe 1 k ++ natBe 1 0)

/-- FLEXE_SWITCH_WRITE (R83): a request for the other calendar goes out, and SWITCH reads 1. -/
def flexeSwitchWrite (k : Nat) (s : State) : State :=
  (State.setFld { s with line := { s.line with groups := mput (fun _ => FlexeGroup.idle) s.line.groups k { s.group k with reqSent := true } } }
    (Reg.lineFlexeCtrl k) Fld.lineFlexeCtrl_switch 1)

/-- FLEXE_CALENDAR_SWITCH (R83): at the multiframe boundary after acknowledgement (of our request by the peer, or of the peer's by us) the other calendar takes force. -/
def flexeCalendarSwitch (k : Nat) (s : State) : State :=
  let g := s.group k
  if g.reqSent || g.acked then
    let st := Reg.lineFlexeStatus k
    let s := { s with line := { s.line with groups := mput (fun _ => FlexeGroup.idle) s.line.groups k FlexeGroup.idle } }
    let s := s.setFld st Fld.lineFlexeStatus_activeCal (1 - s.fld st Fld.lineFlexeStatus_activeCal)
    s.setFld (Reg.lineFlexeCtrl k) Fld.lineFlexeCtrl_switch 0
  else s

/-- FLEXE_SWITCH_ABANDON (R83). -/
def flexeSwitchAbandon (k : Nat) (s : State) : State :=
  State.setFld { s with line := { s.line with groups := mput (fun _ => FlexeGroup.idle) s.line.groups k { s.group k with reqSent := false } } }
    (Reg.lineFlexeCtrl k) Fld.lineFlexeCtrl_switch 0

/-! ### Commands -/

def execRxFrame (p : Nat) (f : Bytes) (m : RxMarks) (s : State) : Out := s.act (rxFrame p f m s)
def execLineLaneSignalLoss (l : Nat) (s : State) : Out := s.act (lineLaneSignalLoss l s)
def execLineLaneSignalReturn (l : Nat) (s : State) : Out := s.act (lineLaneSignalReturn l s)
def execLaneRetrainDone (l : Nat) (s : State) : Out := s.act (laneRetrainDone l s)
def execLinkFaultChange (p : Nat) (c : LinkCond) (s : State) : Out := s.act (linkFaultChange p c s)
def execLinkDownHoldExpiry (p : Nat) (s : State) : Out := s.act (linkDownHoldExpiry p s)
def execLinkUpHoldExpiry (p : Nat) (s : State) : Out := s.act (linkUpHoldExpiry p s)
def execAdminUpWrite (p : Nat) (up : Bool) (s : State) : Out := s.act (adminUpWrite p up s)
def execDegThreshWrite (p v : Nat) (s : State) : Out := s.act (degThreshWrite p v s)
def execFecWindowEnd (p c u : Nat) (ev : Bool) (s : State) : Out := s.act (fecWindowEnd p c u ev s)
def execTxFrameEnd (p : Nat) (s : State) : Out := s.act (txFrameEnd p s)
def execFlexeOverheadBlock (k j : Nat) (og mg : Bool) (g ph c sk : Nat) (s : State) : Out := s.act (flexeOverheadBlock k j og mg g ph c sk s)
def execFlexeCalendarRequest (k c : Nat) (s : State) : Out := s.act (flexeCalendarRequest k c s)
def execFlexeSwitchWrite (k : Nat) (s : State) : Out := s.act (flexeSwitchWrite k s)
def execFlexeCalendarSwitch (k : Nat) (s : State) : Out := s.act (flexeCalendarSwitch k s)
def execFlexeSwitchAbandon (k : Nat) (s : State) : Out := s.act (flexeSwitchAbandon k s)

end Sys2Proof.Machine
end

