-- ==== Sys2Proof/Machine/Bridge.lean ====
section
/-! DEFINITION. The Zynval bridge (R22): replays, retraining and fencing of a slice's channels. -/

namespace Sys2Proof.Machine

/-- The SC and status bits of BRIDGE_CTRL follow the channels of slice `k`: FENCED while either direction is fenced, RETRAIN while either retrains. -/
def State.bridgeBits (s : State) (k : Nat) : State :=
  let f := (s.chan k true).fenced || (s.chan k false).fenced
  let t := (s.chan k true).retrain || (s.chan k false).retrain
  let s := s.setFld Reg.bridgeCtrl Fld.bridgeCtrl_fenced (setBits (s.fld Reg.bridgeCtrl Fld.bridgeCtrl_fenced) k 1 (b2n f))
  if t then s else s.setFld Reg.bridgeCtrl Fld.bridgeCtrl_retrain (setBits (s.fld Reg.bridgeCtrl Fld.bridgeCtrl_retrain) k 1 0)

/-- Whether the channel of slice `k` carries beats in a direction: neither retraining nor fenced. -/
def State.bridgeCarries (s : State) (k : Nat) (toF : Bool) : Bool := !(s.chan k toF).retrain && !(s.chan k toF).fenced

/-- The ports of slice `k` are taken anew. -/
def State.slicePortsEval (s : State) (k : Nat) : State := (s.portList.filter (fun p => p / 8 == k)).foldl (fun s p => s.portChange p) s

/-- BRIDGE_BEAT_ERROR (R22): a replay that succeeds ends the beat's failures; after RETRY_LIMIT failed replays in a row the channel retrains. -/
def bridgeBeatError (k : Nat) (toF replayOk : Bool) (s : State) : State :=
  let c := s.chan k toF
  if c.retrain || c.fenced then s
  else if replayOk then s.setChan k toF { c with failed := 0 }
  else if s.fld Reg.bridgeCtrl Fld.bridgeCtrl_retryLimit ≤ c.failed + 1 then s.setChan k toF { c with failed := 0, retrain := true }
  else s.setChan k toF { c with failed := c.failed + 1 }

/-- BRIDGE_RETRAIN_DONE (R22): success returns the channel to service and raises 0x03F0 (T-to-F) or 0x06F0 (F-to-T);
failure fences it, raises 0x03F1 or 0x06F1 and takes the slice's ports down. -/
def bridgeRetrainDone (k : Nat) (toF ok : Bool) (s : State) : State :=
  let c := s.chan k toF
  if !c.retrain then s
  else
    let s := (s.setChan k toF { c with retrain := false, fenced := !ok }).bridgeBits k
    let s := s.raise ((if toF then 0x03F0 else 0x06F0) + b2n (!ok))
    s.slicePortsEval k

/-- BRIDGE_RETRAIN_WRITE (R22): both directions of each channel named retrain. -/
def bridgeRetrainWrite (mask : Nat) (s : State) : State :=
  (List.range 12).foldl (fun s k =>
    if bit mask k then
      let s := s.setFld Reg.bridgeCtrl Fld.bridgeCtrl_retrain (setBits (s.fld Reg.bridgeCtrl Fld.bridgeCtrl_retrain) k 1 1)
      (s.setChan k true { s.chan k true with failed := 0, retrain := true }).setChan k false { s.chan k false with failed := 0, retrain := true }
    else s) s

def execBridgeBeatError (k : Nat) (toF ok : Bool) (s : State) : Out := s.act (bridgeBeatError k toF ok s)
def execBridgeRetrainDone (k : Nat) (toF ok : Bool) (s : State) : Out := s.act (bridgeRetrainDone k toF ok s)
def execBridgeRetrainWrite (m : Nat) (s : State) : Out := s.act (bridgeRetrainWrite m s)

end Sys2Proof.Machine
end

