-- ==== Sys2Proof/Config.lean ====
section
/-! DEFINITION. What the spec leaves open or to a standard it does not state: free values, each an opaque constant without a body,
so that no proof can see what it is. -/

namespace Sys2Proof.Config

/-- Byte `i` of what GCM-AES makes of a frame under `keys` = [key, salt, SSCI, SCI, packet number] (R90, R92); bytes from the length of the user data on are the ICV (log 7). -/
opaque gcmByte : (keys : List Nat) → (aad : Bytes) → (plain : Bytes) → (i : Nat) → Byte

/-- A free 64-bit value, by draw (log 2). -/
opaque freeWord : Nat → Word

/-- A free byte, by draw (log 2). -/
opaque freeByte : Nat → Byte

/-- A free natural number, by draw (log 2). -/
opaque freeNat : Nat → Nat

/-- SHA-384 of a byte string, as a number (log 7). -/
opaque sha384 : Bytes → BitVec 384

/-- Byte `i` of an ECDSA P-384 signature by the identity key over a byte string (R50, R51; log 7). -/
opaque signByte : Bytes → (i : Nat) → Byte

/-- The identity certificate of the identity record (R50; log 7). -/
opaque identityCert : Bytes

/-- The hash of Brixwin provisioning key 0x80 + `j` in the boot ROM (R45; log 7). -/
opaque provHash : (j : Nat) → BitVec 384

/-- The nonce and ephemeral key of a HELLO_REPLY, by draw (R395; log 7). -/
opaque helloKeys : Nat → Bytes

/-- The ifIndex of a line port (Table 6.11), which the spec takes from a port table it does not lay out (log 20). -/
opaque ifIndex : (port : Nat) → Nat

/-- The parity bits of an associative row (Table 7.1), of which the spec gives no formula, by its other words (log 21). -/
opaque rowParity : (words : List Nat) → Nat

/-- The set a fragment key selects in a fragment follow table (R125; log 8). -/
opaque fragSet : (key : List Nat) → Nat

end Sys2Proof.Config
end

