-- ==== Sys2Proof/Machine/Macsec.lean ====
section
/-! DEFINITION. The MACsec cipher engine (chapter 4): receive and transmit checks, the life of an association, alarms and key erase. -/

namespace Sys2Proof.Machine

/-- An association with nothing installed or staged. -/
def MacsecSa.idle : MacsecSa :=
  { key := 0, salt := 0, ssci := 0, keyStage := 0, saltStage := 0, pnStage := none, present := false, instGen := 0, pnWarned := false }

/-- The number of association `a` of channel `c` of port `p`. -/
def saIdx (p c a : Nat) : Nat := (p * 64 + c) * 4 + a

/-- An association. -/
def State.sa (s : State) (p c a : Nat) : MacsecSa := mget (fun _ => MacsecSa.idle) s.line.sas (saIdx p c a)

/-- The state with an association replaced. -/
def State.setSa (s : State) (p c a : Nat) (x : MacsecSa) : State :=
  { s with line := { s.line with sas := mput (fun _ => MacsecSa.idle) s.line.sas (saIdx p c a) x } }

/-- MACSEC_SA_CTRL.STATE (Table 4.1). -/
def State.saState (s : State) (p c a : Nat) : Nat := s.fld (Reg.macsecSaCtrl p c a) Fld.macsecSaCtrl_state

/-- Sets MACSEC_SA_CTRL.STATE. -/
def State.setSaState (s : State) (p c a v : Nat) : State :=
  (s.setSa p c a { s.sa p c a with present := v != 0 }).setFld (Reg.macsecSaCtrl p c a) Fld.macsecSaCtrl_state v

/-- The packet number an association shows: next to send, or lowest acceptable (MACSEC_SA_PN). -/
def State.saPn (s : State) (p c a : Nat) : Nat := (s.reg (Reg.macsecSaPn p c a)).toNat

/-- Whether the association carries the alarm-erase mark (R104). -/
def State.saMarked (s : State) (p c a : Nat) : Bool := (s.sa p c a).instGen != s.line.alarmGen

/-- Whether the SecY of port `p` runs an XPN suite (R90). -/
def State.xpn (s : State) (p : Nat) : Bool := decide (2 ≤ s.fld (Reg.macsecSecyCfg p) Fld.macsecSecyCfg_cipher)

/-! ### Keys -/

/-- The reason for which INSTALL is refused, 0 when it is accepted (R95). -/
def State.installReason (s : State) (p c a : Nat) : Nat :=
  let pn := ((s.sa p c a).pnStage).getD (s.saPn p c a)
  if s.saState p c a ≠ 0 then 1
  else if s.fld Reg.macsecAlarm Fld.macsecAlarm_source ≠ 0 then 2
  else if pn = 0 ∨ (!s.xpn p && decide (2 ^ 32 ≤ pn)) then 3
  else 0

/-- INSTALL (R94, R95): staged key, salt, SSCI and PN are committed together, or refused; either way the staging registers are cleared. -/
def install (p c a : Nat) (s : State) : State :=
  let x := s.sa p c a
  let r := s.installReason p c a
  let ctl := Reg.macsecSaCtrl p c a
  if r = 0 then
    let pn := x.pnStage.getD (s.saPn p c a)
    let s := s.setSa p c a { MacsecSa.idle with key := x.keyStage, salt := x.saltStage, ssci := s.fld ctl Fld.macsecSaCtrl_ssci, instGen := s.line.alarmGen }
    let s := s.setReg (Reg.macsecSaPn p c a) (BitVec.ofNat 64 pn)
    let s := s.setFld ctl Fld.macsecSaCtrl_ssci 0
    s.setSaState p c a 1
  else
    let s := s.setSa p c a { x with keyStage := 0, saltStage := 0, pnStage := none }
    let s := s.setFld ctl Fld.macsecSaCtrl_ssci 0
    (s.raise 0x0213 (natBe 1 p ++ natBe 1 c ++ natBe 1 a ++ natBe 1 r)).count .lineMacsecKeyRefused p

/-- RETIRE (R96). -/
def retire (p c a : Nat) (s : State) : State := s.setSaState p c a 3

/-- SA_RETIRE_DONE (R96): key, salt and hash subkey are zeroed and the SA enters state 0; an alarm-erase mark stays (R104). -/
def saRetireDone (p c a : Nat) (s : State) : State :=
  if s.saState p c a = 3 then
    (s.setSa p c a { s.sa p c a with key := 0, salt := 0, ssci := 0, pnWarned := false }).setSaState p c a 0
  else s

/-- TX_AN_WRITE (R97): the change takes effect at the next frame start. -/
def txAnWrite (p an : Nat) (s : State) : State := s.setFld (Reg.macsecSecyCtrl p) Fld.macsecSecyCtrl_txAn an

/-- The transmit SA in force on port `p`. -/
def State.txAnNow (s : State) (p : Nat) : Nat := mget (fun _ => 0) s.line.txAn p

/-- At a frame start the SA named by TX_AN comes into force: an installed one enters state 2, and the one before it returns to state 1 with its key (R97). -/
def State.txSwitch (s : State) (p : Nat) : State :=
  let an := s.fld (Reg.macsecSecyCtrl p) Fld.macsecSecyCtrl_txAn
  let old := s.txAnNow p
  let s := if old ≠ an ∧ s.saState p 0 old = 2 then s.setSaState p 0 old 1 else s
  let s := if s.saState p 0 an = 1 then s.setSaState p 0 an 2 else s
  { s with line := { s.line with txAn := mput (fun _ => 0) s.line.txAn p an } }

/-! ### Alarms -/

/-- The bit of an alarm source (Table 4.4). -/
def alarmBit : AlarmSource → Nat
  | .voltage => 0 | .clock => 1 | .temperature => 2 | .fault => 3 | .watchdog => 4

/-- An association after an alarm: no key, salt or SSCI, installed or staged, and the alarm-erase mark (an installation of no alarm generation). -/
def MacsecSa.erased (x : MacsecSa) : MacsecSa := { MacsecSa.idle with ssci := x.ssci, pnStage := x.pnStage }

/-- Every association loses its key, salt and subkey and enters state 0 (R104). -/
def State.eraseKeys (s : State) : State :=
  let s := s.line.sas.foldl (fun s (e : Nat × MacsecSa) =>
    if e.2.present then s.setFld (Reg.macsecSaCtrl (e.1 / 256) (e.1 / 4 % 64) (e.1 % 4)) Fld.macsecSaCtrl_state 0 else s) s
  { s with line := { s.line with sas := (s.line.sas.map (fun e => (e.1, e.2.erased))).filter (fun e => e.2 != MacsecSa.idle) } }

/-- A frame that is being sent protected when its key is erased ends with a stomped FCS, counted as without key (R102, Table 4.3 row 2). -/
def State.stompProtected (s : State) : State :=
  s.portList.foldl (fun s p =>
    if s.flag (Reg.macsecSecyCfg p) Fld.macsecSecyCfg_enable && s.flag (Reg.macsecSecyCfg p) Fld.macsecSecyCfg_protect then
      match (s.port p).txQ with
      | [] => s
      | f :: rest => if beAt f.bytes 12 2 = 0x88E5 ∧ f.stomp = false then
          (s.setPort p { s.port p with txQ := { f with stomp := true } :: rest }).count .lineMacsecTxNoKey p else s
    else s) s

/-- An alarm source fires (R104): keys erased, every SA marked, the source's bit set, 0x0210 raised. -/
def State.fireAlarm (s : State) (src : AlarmSource) : State :=
  let b := alarmBit src
  let s := s.stompProtected.eraseKeys
  let bits' := setBits (s.fld Reg.macsecAlarm Fld.macsecAlarm_source) b 1 1
  let s := { s with line := { s.line with alarmGen := s.line.alarmGen + 1, firing := setBits s.line.firing b 1 1 } }
  (s.setFld Reg.macsecAlarm Fld.macsecAlarm_source bits').raise 0x0210 (natBe 1 bits')

/-- MACSEC_ALARM_FIRE (R104). -/
def macsecAlarmFire (src : AlarmSource) (s : State) : State := s.fireAlarm src

/-- VOLTAGE_EXCURSION (R448): more than 200 ns outside the range fires the voltage alarm, armed from step 3 of start-up. -/
def voltageExcursion (ns : Nat) (s : State) : State :=
  if 200 < ns ∧ 3 ≤ s.fld Reg.bootStatus Fld.bootStatus_step then s.fireAlarm .voltage else s

/-- FAULT_INJECTION_DETECT (R104). -/
def faultInjectionDetect (s : State) : State := s.fireAlarm .fault

/-- PLL_OUTPUT_DEPARTS (R104). -/
def pllOutputDeparts (s : State) : State := s.fireAlarm .clock

/-- ALARM_SOURCE_STOPS_FIRING (R105). -/
def alarmSourceStopsFiring (src : AlarmSource) (s : State) : State :=
  { s with line := { s.line with firing := setBits s.line.firing (alarmBit src) 1 0 } }

/-- MACSEC_ALARM_CLEAR (R105, R9): a bit whose source still fires stays set; when the last clears, 0x0214 is raised. -/
def macsecAlarmClear (mask : Nat) (s : State) : State :=
  let old := s.fld Reg.macsecAlarm Fld.macsecAlarm_source
  let new := (List.range 5).foldl (fun v i => if bit old i && !(bit mask i && !bit s.line.firing i) then v + 2 ^ i else v) 0
  let s := s.setFld Reg.macsecAlarm Fld.macsecAlarm_source new
  if old ≠ 0 ∧ new = 0 then s.raise 0x0214 else s

/-! ### Receive -/

/-- The SecTAG of a frame: its parts (R92). -/
structure SecTag where
  v : Bool
  es : Bool
  sc : Bool
  e : Bool
  c : Bool
  an : Nat
  sl : Nat
  pn : Nat
  sci : Nat
  len : Nat
  deriving DecidableEq, Repr

/-- The SecTAG that follows the source address. With SC = 0 the SCI is the source address and port identifier 1 (Table 4.2). -/
def secTagOf (bs : Bytes) : SecTag :=
  let t := beAt bs 14 1
  let sc := bit t 5
  { v := bit t 7, es := bit t 6, sc := sc, e := bit t 3, c := bit t 2, an := t % 4, sl := beAt bs 15 1 % 64, pn := beAt bs 16 4,
    sci := if sc then beAt bs 20 8 else 65536 * beAt bs 6 6 + 1, len := if sc then 16 else 8 }

/-- The user-data length of a protected frame: less addresses, SecTAG, ICV and FCS. -/
def userLen (bs : Bytes) (t : SecTag) : Int := (bs.length : Int) - 12 - t.len - 16 - 4

/-- Table 4.2 row 5. -/
def badTag (bs : Bytes) (t : SecTag) : Bool :=
  t.v || (t.es && t.sc) || decide (userLen bs t < 0) || (t.sl != 0 && decide ((t.sl : Int) ≠ userLen bs t))

/-- Whether a frame passes without a SecTAG for its EtherType (R93). -/
def State.macBypass (s : State) (p : Nat) (bs : Bytes) : Bool :=
  let et := beAt bs 12 2
  let by' := s.fld (Reg.macsecSecyCfg p) Fld.macsecSecyCfg_bypassEtype
  et == 0x888E || (by' != 0 && et == by')

/-- The valid receive channel that has an SCI (R89). -/
def State.scOf (s : State) (p sci : Nat) : Option Nat :=
  (List.range 64).find? (fun c => c != 0 && s.flag (Reg.macsecScCtrl p c) Fld.macsecScCtrl_valid && (s.reg (Reg.macsecScCfg p c)).toNat == sci)

/-- A frame's whole packet number: under XPN the 32 high bits are those of the lowest acceptable PN, one more when the low half has wrapped (log 9). -/
def recoverPn (xpn : Bool) (lowest pn32 : Nat) : Nat :=
  if !xpn then pn32
  else
    let hi := lowest / 2 ^ 32
    if 2 ^ 31 ≤ lowest % 2 ^ 32 ∧ pn32 < 2 ^ 31 then 2 ^ 32 * (hi + 1) + pn32 else 2 ^ 32 * hi + pn32

/-- What Table 4.2 does with a received frame: its row. -/
inductive MacRx where
  | drop (c : Ctr)
  | pass (c : Ctr) (status sc : Nat) (verified : Bool)
  deriving DecidableEq, Repr

/-- Table 4.2, in order (R98). -/
def State.macRxCheck (s : State) (p : Nat) (x : RxPkt) (icvOk : Bool) : MacRx :=
  let cfg := Reg.macsecSecyCfg p
  let bs := x.bytes
  let tagged := beAt bs 12 2 == 0x88E5
  let t := secTagOf bs
  let strict := !s.flag cfg Fld.macsecSecyCfg_validate
  if x.bad then .drop .lineMacsecRxMacBad
  else if !tagged && s.macBypass p bs then .pass .lineMacsecRxBypass 0 0 false
  else if !tagged && strict then .drop .lineMacsecRxUntagged
  else if !tagged then .pass .lineMacsecRxUntaggedPass 1 0 false
  else if badTag bs t then .drop .lineMacsecRxBadTag
  else if s.fld cfg Fld.macsecSecyCfg_maxFrame < bs.length then .drop .lineMacsecRxTooLong
  else match s.scOf p t.sci with
    | none => .drop .lineMacsecRxNoSci
    | some c =>
      let st := s.saState p c t.an
      if s.saMarked p c t.an then .drop .lineMacsecRxNoKey
      else if st = 0 ∨ st = 3 ∨ st = 4 then .drop .lineMacsecRxNoSa
      else if s.flag (Reg.macsecSecyCtrl p) Fld.macsecSecyCtrl_replayProtect
          && decide (recoverPn (s.xpn p) (s.saPn p c t.an) t.pn < s.saPn p c t.an) then .drop .lineMacsecRxLate
      else if !icvOk && (t.e || strict) then .drop .lineMacsecRxAuthFail
      else if !icvOk then .pass .lineMacsecRxInvalid 2 c false
      else .pass .lineMacsecRxOk 3 c true

/-- A frame with SecTAG and ICV removed: addresses, user data, a fresh FCS (Table 4.2 row 13). User data that was encrypted is what the engine's decryption gives (`plain`, log 7). -/
def macStrip (bs : Bytes) (t : SecTag) (plain : Bytes) : Bytes :=
  let n := (userLen bs t).toNat
  let clear := ((bs.drop (12 + t.len)).take n)
  let body := bs.take 12 ++ (if t.e then (plain ++ List.replicate n 0).take n else clear)
  body ++ fcsOf body

/-- After a valid frame the lowest acceptable PN is the greater of its value and the frame's PN + 1 − REPLAY_WINDOW (R100); the SA's first
verified frame takes it to state 2 with 0x0215 (R97). -/
def State.macVerified (s : State) (p c an pn : Nat) : State :=
  let low := max (s.saPn p c an) (pn + 1 - s.fld (Reg.macsecSecyCtrl p) Fld.macsecSecyCtrl_replayWindow)
  let s := s.setReg (Reg.macsecSaPn p c an) (BitVec.ofNat 64 low)
  if s.saState p c an = 1 then (s.setSaState p c an 2).raise 0x0215 (natBe 1 p ++ natBe 1 c ++ natBe 1 an) else s

/-- MACSEC_RX_FRAME (R98): the frame held at the front is checked; the bytes of one that fails never leave the engine (R99). -/
def macsecRxFrame (p : Nat) (icvOk : Bool) (plain : Bytes) (s : State) : State :=
  let q := s.port p
  match q.macRx with
  | [] => s
  | x :: rest =>
    let s := s.setPort p { q with macRx := rest }
    match s.macRxCheck p x icvOk with
    | .drop c => s.count c p
    | .pass c status sc verified =>
      let s := s.count c p
      let t := secTagOf x.bytes
      if verified then
        let pn := recoverPn (s.xpn p) (s.saPn p sc t.an) t.pn
        (s.macVerified p sc t.an pn).toSlice { x with bytes := macStrip x.bytes t plain, msec := status, msecSc := sc }
      else s.toSlice { x with msec := status, msecSc := sc }

/-! ### Transmit -/

/-- A protected frame (R92): addresses, SecTAG, user data, ICV and FCS. -/
def State.protect (s : State) (p an : Nat) (bs : Bytes) : Bytes :=
  let cfg := Reg.macsecSecyCfg p
  let sa := s.sa p 0 an
  let pn := s.saPn p 0 an
  let sci := (s.reg (Reg.macsecScCfg p 0)).toNat
  let conf := s.flag cfg Fld.macsecSecyCfg_confidential
  let incl := s.flag cfg Fld.macsecSecyCfg_includeSci
  let user := (bs.drop 12).take (bs.length - 16)
  let sl := if user.length < 48 then user.length else 0
  let off := [0, 30, 50].getD (s.fld cfg Fld.macsecSecyCfg_confOffset) 0
  let tag := natBe 2 0x88E5 ++ natBe 1 (b2n incl * 32 + b2n conf * 12 + an) ++ natBe 1 sl ++ natBe 4 pn ++ (if incl then natBe 8 sci else [])
  let aad := bs.take 12 ++ tag
  let g (i : Nat) := Config.gcmByte [sa.key, sa.salt, sa.ssci, sci, pn] aad user i
  let data := if conf then user.take off ++ (List.range (user.length - off)).map (fun i => g (off + i)) else user
  let body := aad ++ data ++ (List.range 16).map (fun i => g (user.length + i))
  body ++ fcsOf body

/-- The last packet number of the suite (R103). -/
def State.pnMax (s : State) (p : Nat) : Nat := if s.xpn p then 2 ^ 64 - 1 else 2 ^ 32 - 1

/-- The transmit PN advances by one; with no more than PN_WARN × 2^20 numbers left 0x0211 is raised once, and after the last the SA is exhausted with 0x0212 (R102, R103). -/
def State.pnAdvance (s : State) (p an : Nat) : State :=
  let pn := s.saPn p 0 an
  let last := s.pnMax p
  if pn = last then
    (s.setSaState p 0 an 4).raise 0x0212 (natBe 1 p ++ natBe 1 an)
  else
    let s := s.setReg (Reg.macsecSaPn p 0 an) (BitVec.ofNat 64 (pn + 1))
    if last - pn ≤ 2 ^ 20 * s.fld (Reg.macsecSecyCtrl p) Fld.macsecSecyCtrl_pnWarn ∧ (s.sa p 0 an).pnWarned = false then
      (s.setSa p 0 an { s.sa p 0 an with pnWarned := true }).raise 0x0211 (natBe 1 p ++ natBe 1 an)
    else s

/-- Hands a frame to the MAC. -/
def State.toMac (s : State) (p : Nat) (f : TxPkt) : State :=
  let q := s.port p
  s.setPort p { q with txQ := q.txQ ++ [f] }

/-- MACSEC_TX_FRAME (R97, R102, R103, Table 4.3): the frame that waits at the front is protected, passed in clear or dropped. -/
def macsecTxFrame (p : Nat) (s : State) : State :=
  let q := s.port p
  match q.macTx with
  | [] => s
  | f :: rest =>
    let cfg := Reg.macsecSecyCfg p
    let s := (s.setPort p { q with macTx := rest }).txSwitch p
    let an := s.txAnNow p
    let st := s.saState p 0 an
    let len := f.bytes.length + (if s.flag cfg Fld.macsecSecyCfg_includeSci then 32 else 24)
    if s.macBypass p f.bytes then (s.count .lineMacsecTxBypass p).toMac p f
    else if !s.flag cfg Fld.macsecSecyCfg_protect then (s.count .lineMacsecTxClear p).toMac p f
    else if s.saMarked p 0 an then (s.count .lineMacsecTxNoKey p).txLeave f
    else if st = 4 then (s.count .lineMacsecTxPnExhausted p).txLeave f
    else if st = 0 ∨ st = 3 then (s.count .lineMacsecTxNoSa p).txLeave f
    else if s.fld cfg Fld.macsecSecyCfg_maxFrame < len then (s.count .lineMacsecTxTooLong p).txLeave f
    else
      let s1 := s.count .lineMacsecTxProtected p
      let s1 := if s.flag cfg Fld.macsecSecyCfg_confidential then s1.count .lineMacsecTxEncrypted p else s1
      (s1.pnAdvance p an).toMac p { f with bytes := s.protect p an f.bytes }

/-! ### Commands -/

def execMacsecRxFrame (p : Nat) (icvOk : Bool) (plain : Bytes) (s : State) : Out := s.act (macsecRxFrame p icvOk plain s)
def execMacsecTxFrame (p : Nat) (s : State) : Out := s.act (macsecTxFrame p s)
def execInstall (p c a : Nat) (s : State) : Out := s.act (install p c a s)
def execRetire (p c a : Nat) (s : State) : Out := s.act (retire p c a s)
def execSaRetireDone (p c a : Nat) (s : State) : Out := s.act (saRetireDone p c a s)
def execTxAnWrite (p an : Nat) (s : State) : Out := s.act (txAnWrite p an s)
def execMacsecAlarmFire (src : AlarmSource) (s : State) : Out := s.act (macsecAlarmFire src s)
def execMacsecAlarmClear (m : Nat) (s : State) : Out := s.act (macsecAlarmClear m s)
def execVoltageExcursion (ns : Nat) (s : State) : Out := s.act (voltageExcursion ns s)
def execFaultInjectionDetect (s : State) : Out := s.act (faultInjectionDetect s)
def execPllOutputDeparts (s : State) : Out := s.act (pllOutputDeparts s)
def execAlarmSourceStopsFiring (src : AlarmSource) (s : State) : Out := s.act (alarmSourceStopsFiring src s)

end Sys2Proof.Machine
end

