-- ==== Sys2Proof/Machine/Pool.lean ====
section
/-! DEFINITION. The buffer pools (R240 to R250): granting, freeing, the rotation over the buffer pseudo-channels, fencing and taint. -/

namespace Sys2Proof.Machine

/-- What the map of allocated buffers reads as for a free buffer. -/
def Buf.free : Buf := { ownerKind := 3, owner := 0, req := 0, replicas := 0 }

/-- The buffer of handle `h`. -/
def State.buf (s : State) (h : Nat) : Buf := mget (fun _ => Buf.free) s.traffic.bufs h

/-- Replaces a buffer's tail. -/
def State.setBuf (s : State) (h : Nat) (b : Buf) : State := { s with traffic := { s.traffic with bufs := mput (fun _ => Buf.free) s.traffic.bufs h b } }

/-- The lowest number from `c` to `hi` - 1 that is no key of a map (find-first-free, R246). -/
def firstFree {α : Type} : AMap α → Nat → Nat → Option Nat
  | [], c, hi => if c < hi then some c else none
  | (k, _) :: m, c, hi => if k < c then firstFree m c hi else if k = c then firstFree m (c + 1) hi else if c < hi then some c else none

/-- The handles of the buffers of traffic.hbmctl[c] (R240). -/
def pcBase (c : Nat) : Nat := 131072 * c

/-- The controller at position `i` of the rotation: pseudo-channel h(2 + i mod 6).pc(i / 6) (R247). -/
def rotCtl (i : Nat) : Nat := 64 * (i % 6) + i / 6

/-- The state of HBM controller `x` (Table 11.4). -/
def State.hbmState (s : State) (x : Nat) : Nat := s.fld (Reg.hbmStatus x) Fld.hbmStatus_state

/-- What self-test does with segment `g` (BIST_SEG_STATUS.STATE): 0 idle, 1 queued, 2 emptying, 3 running, 4 held, 5 restoring. -/
def State.segState (s : State) (g : Nat) : Nat := s.fld (Reg.bistSegStatus g) Fld.bistSegStatus_state

/-- Whether segment `g` is under test (R441): running, held or restoring. -/
def State.segTested (s : State) (g : Nat) : Bool := decide (3 ≤ s.segState g)

/-- The test segment of HBM controller `x` (Table 19.1). -/
def ctlSeg (x : Nat) : Nat := if x < 128 then 60 + x / 8 else 76 + (x - 128) / 8

/-- How `bist.barred` and `bist.disabled` name HBM controller `x` (associative array `n` is `n`, engine cluster `c` is 500 + `c`). -/
def ctlUnit (x : Nat) : Nat := 1000 + x

/-- Whether traffic.pool holds buffer controller `c` fenced (R250, R278, R286, R444): it is not serving, awaits a taint map,
or failed a self-test in service. -/
def State.poolFenced (s : State) (c : Nat) : Bool :=
  !(s.hbmState (128 + c) == 1 || s.hbmState (128 + c) == 2) || s.flag (Reg.hbmStatus (128 + c)) Fld.hbmStatus_waitMap
    || s.bist.barred.contains (ctlUnit (128 + c))

/-- Whether the rotation may take a buffer of `c`: not fenced, not in a training pause (R279), and its
block neither being emptied for a test nor under test (R440, R441). -/
def State.poolOffers (s : State) (c : Nat) : Bool := !s.poolFenced c && s.hbmState (128 + c) == 1 && decide (s.segState (ctlSeg (128 + c)) < 2)

/-- Free buffers of controller `c`. -/
def State.pcFree (s : State) (c : Nat) : Nat :=
  131072 - (s.traffic.bufs.filter (fun p => decide (pcBase c ≤ p.1) && decide (p.1 < pcBase (c + 1)))).length

/-- Adds to a field that stays within its width. -/
def State.addFld (s : State) (a : Nat) (f : Field) (d : Int) : State := s.setFld a f ((s.fld a f : Int) + d).toNat

/-- Whether a request of `r` may be granted from the on-die pool (R244). -/
def State.ondieOk (s : State) (r : Nat) : Bool :=
  decide (s.fld (Reg.trafficQuotaUsed r) Fld.trafficQuotaUsed_ondieUsed < s.fld (Reg.trafficQuota r) Fld.trafficQuota_ondieQuota)
  && decide (0 < s.fld Reg.trafficPoolStatus Fld.trafficPoolStatus_ondieFree)

/-- Whether it may be granted from the HBM pool by quota. -/
def State.hbmOk (s : State) (r : Nat) : Bool :=
  decide (s.fld (Reg.trafficQuotaUsed r) Fld.trafficQuotaUsed_hbmUsed < s.fld (Reg.trafficQuota r) Fld.trafficQuota_hbmQuota)

/-- The first position at or after the rotating pointer with a free buffer (R247), and its lowest free slot. -/
def State.hbmPick (s : State) : Option (Nat × Nat) :=
  (List.range 384).findSome? (fun j =>
    let i := (s.traffic.hbmPtr + j) % 384
    if s.poolOffers (rotCtl i) then (firstFree s.traffic.bufs (pcBase (rotCtl i)) (pcBase (rotCtl i + 1))).map (fun h => (i, h)) else none)

/-- A buffer for requester `r` under pool choice `pool` (R243, R244), owned as given. -/
def State.poolGrant (s : State) (r pool kind owner : Nat) : State × Option Nat :=
  let b : Buf := { ownerKind := kind, owner := owner, req := r, replicas := 0 }
  let used := Reg.trafficQuotaUsed r
  let die := if pool = 0 ∧ s.ondieOk r then firstFree s.traffic.bufs 67108864 (67108864 + 32768) else none
  match die with
  | some h => (((s.setBuf h b).addFld used Fld.trafficQuotaUsed_ondieUsed 1).addFld Reg.trafficPoolStatus Fld.trafficPoolStatus_ondieFree (-1), some h)
  | none =>
    match if s.hbmOk r then s.hbmPick else none with
    | none => (s, none)
    | some (i, h) =>
      let s := { s with traffic := { s.traffic with hbmPtr := (i + 1) % 384 } }
      (((s.setBuf h b).addFld used Fld.trafficQuotaUsed_hbmUsed 1).addFld Reg.trafficPoolStatus Fld.trafficPoolStatus_hbmFree (-1), some h)

/-- Whether handle `h` names an on-die buffer. -/
def onDie (h : Nat) : Bool := decide (67108864 ≤ h)

/-- The controller of an HBM buffer. -/
def bufCtl (h : Nat) : Nat := h / 131072

/-- OVER clears once use is below the quota (R245). -/
def State.overClear (s : State) (r : Nat) : State :=
  let u := Reg.trafficQuotaUsed r
  let s := if s.fld u Fld.trafficQuotaUsed_ondieUsed < s.fld (Reg.trafficQuota r) Fld.trafficQuota_ondieQuota then s.setFld u Fld.trafficQuotaUsed_overOndie 0 else s
  if s.fld u Fld.trafficQuotaUsed_hbmUsed < s.fld (Reg.trafficQuota r) Fld.trafficQuota_hbmQuota then s.setFld u Fld.trafficQuotaUsed_overHbm 0 else s

/-- A buffer pseudo-channel rejoins the rotation (R250): its free buffers count again and 0x0605 is raised. -/
def State.poolRejoin (s : State) (c : Nat) : State :=
  let s := s.addFld Reg.trafficPoolStatus Fld.trafficPoolStatus_fenced (-1)
  let s := s.addFld Reg.trafficPoolStatus Fld.trafficPoolStatus_hbmFree (s.pcFree c)
  s.raise 0x0605 (pcBytes (c + 128))

/-- The taint map of controller `c`. -/
def State.taint (s : State) (c : Nat) : List Nat := mget (fun _ => []) s.traffic.taints c

/-- Replaces a taint map; HBM_STATUS.TAINT follows. -/
def State.setTaint (s : State) (c : Nat) (l : List Nat) : State :=
  State.setFlag { s with traffic := { s.traffic with taints := mput (fun _ => []) s.traffic.taints c l } } (Reg.hbmStatus (128 + c)) Fld.hbmStatus_taint (!l.isEmpty)

/-- A returned buffer controller takes a taint map of the buffers allocated in it and rejoins, or waits for one (R286). -/
def State.taintTake (s : State) (c : Nat) : State :=
  let held := (s.traffic.bufs.filter (fun p => decide (pcBase c ≤ p.1) && decide (p.1 < pcBase (c + 1)))).map (fun p => p.1)
  if held.isEmpty then s.poolRejoin c
  else if s.traffic.taints.length < 4 then (s.setTaint c held).poolRejoin c
  else (s.setFld (Reg.hbmStatus (128 + c)) Fld.hbmStatus_waitMap 1).raise 0x0706 (natBe 2 (128 + c))

/-- A taint map was released: the first pseudo-channel that waits for one takes it. -/
def State.taintNext (s : State) : State :=
  match (List.range 384).find? (fun c => s.flag (Reg.hbmStatus (128 + c)) Fld.hbmStatus_waitMap) with
  | none => s
  | some c => (s.setFld (Reg.hbmStatus (128 + c)) Fld.hbmStatus_waitMap 0).taintTake c

/-- A tainted buffer that is freed leaves its map; the map is released with its last (R286). -/
def State.taintFree (s : State) (h : Nat) : State :=
  let l := s.taint (bufCtl h)
  if onDie h || !l.contains h then s
  else
    let l' := l.filter (fun x => x != h)
    let s := s.setTaint (bufCtl h) l'
    if l'.isEmpty then s.taintNext else s

/-- BUFFER_FREE (R249): the owner is compared with the tail, and a buffer that is free already is refused; a refusal is an ownership fault.
`unit` is the freeing unit's ordinal in the traffic row of Table 1.1. -/
def State.poolFree (s : State) (kind owner unit h : Nat) : State :=
  let b := s.buf h
  if b.ownerKind = kind ∧ b.owner = owner ∧ b ≠ Buf.free then
    let s := s.setBuf h Buf.free
    let u := Reg.trafficQuotaUsed b.req
    let s :=
      if onDie h then
        (s.addFld u Fld.trafficQuotaUsed_ondieUsed (-1)).addFld Reg.trafficPoolStatus Fld.trafficPoolStatus_ondieFree 1
      else
        let s := s.addFld u Fld.trafficQuotaUsed_hbmUsed (-1)
        if s.poolFenced (bufCtl h) then s else s.addFld Reg.trafficPoolStatus Fld.trafficPoolStatus_hbmFree 1
    (s.overClear b.req).taintFree h
  else (s.count .trafficPoolOwnerFault).raise 0x0602 (natBe 4 h ++ unitBytes 6 unit)

/-- Frees a list of buffers of one owner. -/
def State.poolFreeAll (s : State) (kind owner unit : Nat) (l : List Nat) : State := l.foldl (fun s h => s.poolFree kind owner unit h) s

/-- `n` buffers for a chain of requester `r`; when one is refused those granted are given back. -/
def State.poolChain (s : State) (r pool kind owner : Nat) : Nat → State × Option (List Nat)
  | 0 => (s, some [])
  | n + 1 =>
    match s.poolGrant r pool kind owner with
    | (s, none) => (s, none)
    | (s, some h) =>
      match State.poolChain s r pool kind owner n with
      | (s, none) => (s.poolFree kind owner 2 h, none)
      | (s, some l) => (s, some (h :: l))

/-- An allocation refused (R244, R255, R256). -/
def State.allocFail (s : State) : State := s.count .trafficPoolAllocFail

/-- Frees the park of a recirculated packet of slice `k` (R255). -/
def State.unpark (s : State) (k : Nat) (l : List Nat) : State := s.poolFreeAll 2 k 2 l

/-- Whether a record cannot be read (R250, R286): one of its buffers lies in a fenced pseudo-channel or is tainted. -/
def State.unreadable (s : State) (l : List Nat) : Bool := l.any (fun h => !onDie h && (s.poolFenced (bufCtl h) || (s.taint (bufCtl h)).contains h))

/-- The pool fences a buffer pseudo-channel that was in service (R250). -/
def State.poolFence (s : State) (c : Nat) : State :=
  let s := s.addFld Reg.trafficPoolStatus Fld.trafficPoolStatus_fenced 1
  let s := s.addFld Reg.trafficPoolStatus Fld.trafficPoolStatus_hbmFree (-(s.pcFree c : Int))
  s.raise 0x0604 (pcBytes (c + 128))

end Sys2Proof.Machine
end

