-- ==== Sys2Proof/Machine/Parser.lean ====
section
/-! DEFINITION. Carding (chapter 5): the form walk, the batt, parse errors, recirculation and fragment follow. -/

namespace Sys2Proof.Machine

/-! ### The form walk -/

/-- What the walk reads of a form descriptor (Table 5.1): word `w` of form `f`. -/
abbrev FormStore := Nat → Nat → Nat

/-- How far a walk has come. -/
structure Walk where
  pos    : Nat
  batt   : Bytes
  visits : Nat
  vlan   : Nat
  mpls   : Nat
  ext    : Nat
  tunnel : Nat
  flags  : Nat
  l3     : Option Nat
  l4     : Option Nat
  /-- Start of the last form that carried the L3 mark (R124). -/
  ip     : Nat
  /-- VLAN ID of the first VLAN tag (R131). -/
  vid    : Nat
  /-- Fragment class 0, 1 (first) or 2 (later), and the key parts (R123, R124). -/
  frag   : Nat
  fragKey : List Nat
  err    : Nat
  deriving DecidableEq, Repr

/-- Byte `i` of the header window: zero beyond byte 255 and beyond the end of the frame (R107). -/
def winByte (fr : Bytes) (i : Nat) : Nat := if i < 256 then ((fr[i]?).getD 0).toNat else 0

/-- `n` bytes of the window from `i`, most significant first. -/
def winNat (fr : Bytes) (i n : Nat) : Nat := (List.range n).foldl (fun a j => a * 256 + winByte fr (i + j)) 0

/-- How many forms of a repetition class a parse may visit (R115); class 0 is bounded by the total alone. -/
def repBound : Nat → Nat
  | 1 => 4 | 2 => 12 | 3 => 6 | 4 => 3 | _ => 33

/-- Forms of class `c` visited so far. -/
def Walk.count (w : Walk) (c : Nat) : Nat :=
  if c = 1 then w.vlan else if c = 2 then w.mpls else if c = 3 then w.ext else if c = 4 then w.tunnel else 0

/-- Writes bytes into the batt from byte `d`. -/
def battPut : Bytes → Nat → Bytes → Bytes
  | b, _, [] => b
  | b, d, x :: xs => battPut (b.set d x) (d + 1) xs

/-- One extraction command (Table 5.2, R112) of a form that starts at `start`, at its `occ`-th occurrence. -/
def extract (fr : Bytes) (start occ cmd : Nat) (b : Bytes) : Bytes :=
  if !bit cmd 31 then b
  else
    let mode := bits cmd 30 29
    let cap := bits cmd 28 26
    let sh := bits cmd 25 23
    let src := bits cmd 22 17
    let len := bits cmd 16 13 + 1
    let dst := bits cmd 12 6
    let v := if sh = 0 then winNat fr (start + src) len else winNat fr (start + src) (len + 1) / 2 ^ (8 - sh) % 256 ^ len
    if mode = 0 then battPut b dst (natBe len v)
    else if mode = 1 then (if occ = 0 then battPut b dst (natBe len v) else b)
    else if mode = 2 then (if occ < cap then battPut b (dst + occ * len) (natBe len v) else b)
    else b

/-- The eight extraction commands of a form, in order: command 2i in the high half of word 2 + i. -/
def extractAll (fs : FormStore) (f : Nat) (fr : Bytes) (start occ : Nat) (b : Bytes) : Bytes :=
  (List.range 8).foldl (fun b i =>
    extract fr start occ (if i % 2 = 0 then fs f (2 + i / 2) / 2 ^ 32 else fs f (2 + i / 2) % 2 ^ 32) b) b

/-- The next form (R113, Table 5.3): the first valid candidate that matches the selector, none when none does. -/
def nextForm (fs : FormStore) (f : Nat) (sel : Nat) : Option Nat :=
  ((List.range 8).find? (fun i =>
    let c := fs f (6 + i)
    bit c 63 && ((sel &&& bits c 31 8) == (bits c 55 32 &&& bits c 31 8)))).map (fun i => fs f (6 + i) % 256)

/-- The IPv4 header checksum over `n` bytes from `start` is right when the ones' complement sum is all ones (Table 5.1, CHECK). -/
def checksumOk (fr : Bytes) (start n : Nat) : Bool :=
  let t := (List.range (n / 2)).foldl (fun a j => a + winNat fr (start + 2 * j) 2) 0
  let t := t % 65536 + t / 65536
  (t % 65536 + t / 65536) == 65535

/-- The skip of a form (R111), an integer. -/
def skipOf (fs : FormStore) (f : Nat) (fr : Bytes) (start : Nat) : Int :=
  let w := fs f 1
  if bit w 63 then
    (((winByte fr (start + bits w 62 57) &&& bits w 56 49) / 2 ^ bits w 48 46 * bits w 45 42 : Nat) : Int) - bits w 41 34
  else 0

/-- The error a form meets (R117, Table 5.7) in the order of its tests; 0 when it may be visited. -/
def formError (fs : FormStore) (f : Nat) (fr : Bytes) (w : Walk) : Nat :=
  let d := fs f 0
  let len := bits d 62 56
  let cls := bits d 55 53
  let sk := skipOf fs f fr w.pos
  let tot := len + sk.toNat
  if !bit d 63 then 9
  else if 32 ≤ w.visits then 2
  else if cls ≠ 0 ∧ repBound cls ≤ w.count cls then 1
  else if fr.length < w.pos + len then 4
  else if 256 < w.pos + len then 3
  else if sk < 0 ∨ (bits (fs f 1) 33 26 : Int) < sk then 5
  else if fr.length < w.pos + tot then 4
  else if 256 < w.pos + tot then 3
  else if bit d 49 && !checksumOk fr w.pos tot then 6
  else if bit d 50 && decide (fr.length - w.pos < winNat fr (w.pos + 2) 2) then 7
  else 0

/-- The fragment class and key parts a form gives (R123, R124): class 0 when it finds no fragment. -/
def fragOf (kind : Nat) (fr : Bytes) (start ip : Nat) : Nat × List Nat :=
  if kind = 1 then
    let off := winNat fr (start + 6) 2 % 0x2000
    let more := bit (winByte fr (start + 6)) 5
    let key := [winNat fr (start + 12) 4, winNat fr (start + 16) 4, winByte fr (start + 9), winNat fr (start + 4) 2, 0]
    if off ≠ 0 then (2, key) else if more then (1, key) else (0, [])
  else if kind = 2 then
    let off := winNat fr (start + 2) 2 / 8
    let more := bit (winByte fr (start + 3)) 0
    let key := [winNat fr (ip + 8) 16, winNat fr (ip + 24) 16, winByte fr start, winNat fr (start + 4) 4, 1]
    if off ≠ 0 then (2, key) else if more then (1, key) else (0, [])
  else (0, [])

/-- A visit of form `f` that has passed its tests: counts, flags, marks, fragment information, extractions; then on past the form and its skip. -/
def visit (fs : FormStore) (f : Nat) (fr : Bytes) (w : Walk) : Walk :=
  let d := fs f 0
  let cls := bits d 55 53
  let tot := bits d 62 56 + (skipOf fs f fr w.pos).toNat
  let mark := bits d 48 46
  let ip := if mark = 1 then w.pos else w.ip
  let (fc, fk) := if w.frag = 0 then fragOf (bits d 52 51) fr w.pos ip else (w.frag, w.fragKey)
  { w with
    pos := w.pos + tot
    batt := extractAll fs f fr w.pos (w.count cls) w.batt
    visits := w.visits + 1
    vlan := w.vlan + b2n (cls == 1)
    mpls := w.mpls + b2n (cls == 2)
    ext := w.ext + b2n (cls == 3)
    tunnel := w.tunnel + b2n (cls == 4)
    flags := w.flags ||| bits d 44 37
    l3 := if mark = 1 ∧ w.l3 = none then some w.pos else w.l3
    l4 := if mark = 2 ∧ w.l4 = none then some w.pos else w.l4
    ip := ip
    vid := if cls = 1 ∧ w.vlan = 0 then winNat fr w.pos 2 % 4096 else w.vid
    frag := fc
    fragKey := fk }

/-- The walk from form `f` on (R110 to R117): it ends at form 255, at an error, or after the form that finds a later fragment (R123). -/
def walk (fs : FormStore) (fr : Bytes) : Nat → Nat → Walk → Walk
  | 0, _, w => w
  | n + 1, f, w =>
    if f = 255 then w
    else
      let e := formError fs f fr w
      if e ≠ 0 then { w with err := e }
      else
        let v := visit fs f fr w
        if v.frag = 2 then v
        else
          match nextForm fs f (winNat fr (w.pos + bits (fs f 1) 25 20) 3) with
          | some g => walk fs fr n g v
          | none => if bit (fs f 0) 45 then { w with err := 8 } else walk fs fr n (bits (fs f 0) 36 29) v

/-- A walk before its first form. -/
def Walk.start : Walk :=
  { pos := 0, batt := List.replicate 128 0, visits := 0, vlan := 0, mpls := 0, ext := 0, tunnel := 0, flags := 0, l3 := none, l4 := none,
    ip := 0, vid := 0, frag := 0, fragKey := [], err := 0 }

/-- The parse of a frame (FCS left off) from entry form `f`: at most 32 visits, so 34 rounds end every walk. -/
def parseFrame (fs : FormStore) (f : Nat) (fr : Bytes) : Walk := walk fs fr 34 f Walk.start

/-- The metadata area of the batt (Table 5.4). -/
def metaBytes (port passNo msec err sc frag flags epoch vrf : Nat) (w : Walk) (data : Nat) : Bytes :=
  natBe 1 port ++ natBe 1 ((passNo - 1) % 4 * 64 + msec % 4 * 16 + err % 16) ++ natBe 1 (sc % 64 * 4 + frag % 4) ++ natBe 1 flags
  ++ natBe 2 epoch ++ natBe 2 vrf ++ natBe 1 (w.vlan * 32 + w.mpls * 2) ++ natBe 1 (w.ext * 32 + w.tunnel * 8)
  ++ natBe 4 ((2 ^ 18 * w.l3.getD 511 + 2 ^ 9 * w.l4.getD 511 + min w.pos 511) * 32) ++ natBe 2 data

/-- A byte field of a pass's batt. -/
def Pass.battByte (x : Pass) (i : Nat) : Nat := ((x.batt[i]?).getD 0).toNat

/-- The pass with its fragment class written to the batt (Table 5.4). -/
def Pass.setFrag (x : Pass) (c : Nat) : Pass :=
  { x with fragClass := c, batt := x.batt.set 2 (BitVec.ofNat 8 (x.battByte 2 / 4 * 4 + c)) }

/-! ### Results the parser gives itself -/

/-- A result that names nothing. -/
def Stamp.none : Stamp :=
  { dkind := 0, dest := 0, encap := 0, gen := 0, labelOp := 0, newLabel := 0, ttlDec := false, tc := 0, colour := 0, vrf := 0, nh := 0, spread := 0 }

/-- A merged result before any lookup. -/
def Merged.none : Merged :=
  { op := 0, arg := 0, profile := 0, vrf := 0, tc := 0, colour := 0, meter := Option.none, mirror := 0, sampler := 0, program := 255 }

/-- The form store of slice `k` (R110). -/
def State.formStore (s : State) (k : Nat) : FormStore := fun f w => (s.reg (Reg.parserFormWord k f w)).toNat

/-- The queue of parsed passes of slice `k`. -/
def State.lookOf (s : State) (k : Nat) : List Pass := mget (fun _ => []) s.lookup.lookQ k

/-- A parsed pass waits for its lookups. -/
def State.toLook (s : State) (x : Pass) : State :=
  { s with lookup := { s.lookup with lookQ := mput (fun _ => []) s.lookup.lookQ x.slice (s.lookOf x.slice ++ [x]) } }

/-- A packet of a retired epoch is dropped with reason 0xFF0B (R344); `agent` is the control agent that counts it. -/
def State.epochDrop (s : State) (agent : Nat) : State := s.count .controlAgentEpochDrop agent

/-! ### Fragment follow -/

/-- An entry not in use. -/
def FragEntry.free : FragEntry := { key := [], used := false, pending := false, stamp := Stamp.none, meter := none, epoch := 0 }

/-- Entry `i` of the shared table, or of the private table of slice `k`. -/
def State.frag (s : State) (shared : Bool) (k i : Nat) : FragEntry :=
  if shared then mget (fun _ => FragEntry.free) s.lookup.fragShared i else mget (fun _ => FragEntry.free) s.lookup.fragPriv (1024 * k + i)

/-- The entries in use of a table, as its status register shows (PARSER_SLICE_STATUS, FRAG_STATUS). -/
def State.fragUsedAdd (s : State) (shared : Bool) (k : Nat) (d : Int) : State :=
  if shared then s.setFld Reg.fragStatus Fld.fragStatus_sharedUsed ((s.fld Reg.fragStatus Fld.fragStatus_sharedUsed : Int) + d).toNat
  else s.setFld (Reg.parserSliceStatus k) Fld.parserSliceStatus_fragUsed ((s.fld (Reg.parserSliceStatus k) Fld.parserSliceStatus_fragUsed : Int) + d).toNat

/-- Writes an entry. -/
def State.setFrag (s : State) (shared : Bool) (k i : Nat) (e : FragEntry) : State :=
  let d : Int := (b2n e.used : Int) - b2n (s.frag shared k i).used
  let s := if d = 0 then s else s.fragUsedAdd shared k d
  if shared then { s with lookup := { s.lookup with fragShared := mput (fun _ => FragEntry.free) s.lookup.fragShared i e } }
  else { s with lookup := { s.lookup with fragPriv := mput (fun _ => FragEntry.free) s.lookup.fragPriv (1024 * k + i) e } }

/-- The four ways of the set a key selects (R125): 256 sets in a private table, 1,024 in the shared one. -/
def fragWays (shared : Bool) (key : List Nat) : List Nat :=
  (List.range 4).map (fun w => 4 * (Config.fragSet key % (if shared then 1024 else 256)) + w)

/-- The entry with a key, in one table. -/
def State.fragIn (s : State) (shared : Bool) (k : Nat) (key : List Nat) : Option Nat :=
  (fragWays shared key).find? (fun i => (s.frag shared k i).used && (s.frag shared k i).key == key)

/-- The entry with a key in the tables that a port's FRAG_SCOPE searches (R125): private then shared, or shared alone. -/
def State.fragFind (s : State) (scope k : Nat) (key : List Nat) : Option (Bool × Nat) :=
  match (if scope = 0 then s.fragIn false k key else none) with
  | some i => some (false, i)
  | none => (s.fragIn true k key).map (fun i => (true, i))

/-- A free way for a key in the tables that FRAG_SCOPE allows. -/
def State.fragFree (s : State) (scope k : Nat) (key : List Nat) : Option (Bool × Nat) :=
  match (if scope = 0 then (fragWays false key).find? (fun i => !(s.frag false k i).used) else none) with
  | some i => some (false, i)
  | none => ((fragWays true key).find? (fun i => !(s.frag true k i).used)).map (fun i => (true, i))

/-- FRAG_ENTRY_RESERVE (R126): a first fragment reserves a pending entry, replacing one with its key; without a free way none is made. -/
def State.fragReserve (s : State) (scope k epoch : Nat) (key : List Nat) : State × Option (Bool × Nat) :=
  let e : FragEntry := { FragEntry.free with key := key, used := true, pending := true, epoch := epoch }
  match s.fragFind scope k key with
  | some (sh, i) => ((s.setFrag sh k i e).count .lookupFragReplaced, some (sh, i))
  | none =>
    match s.fragFree scope k key with
    | some (sh, i) => (s.setFrag sh k i e, some (sh, i))
    | none => ((s.count .lookupFragOverflow).raiseLimited 0x0301 k (natBe 1 k), none)

/-- The held fragments of slice `k`. -/
def State.holdOf (s : State) (k : Nat) : List Held := mget (fun _ => []) s.lookup.fragHold k

/-- Replaces the held fragments of slice `k`; HOLD_USED follows. -/
def State.setHold (s : State) (k : Nat) (l : List Held) : State :=
  State.setFld { s with lookup := { s.lookup with fragHold := mput (fun _ => []) s.lookup.fragHold k l } }
    (Reg.parserSliceStatus k) Fld.parserSliceStatus_holdUsed l.length

/-- A pass that takes a fragment's result (R128): class 3, metered on the meter the result names. -/
def Pass.following (x : Pass) (e : FragEntry) : Pass :=
  { x.setFrag 3 with follow := some { e.stamp with }, m := { x.m with meter := e.meter } }

/-- A decided pass: dropped or punted with a reason (DKIND 3 or 2). -/
def Pass.decided (x : Pass) (dkind reason : Nat) : Pass :=
  { x with follow := some { Stamp.none with dkind := dkind, dest := reason, tc := x.m.tc, vrf := x.m.vrf } }

/-- The no-entry path of R130: FRAG_POLICY 0 drops, 1 goes on by L3 alone, 2 punts. The reason of the drop or punt is a free value (log 10). -/
def State.fragNoEntry (s : State) (x : Pass) : State :=
  let pol := s.fldEp x.epoch (Reg.parserPortCfg x.slice (x.port % 8)) Fld.parserPortCfg_fragPolicy
  let x := x.setFrag 2
  let s := s.count .lookupFragNoEntry
  let (d, s) := s.draw
  if pol = 0 then (s.count .lookupFragPolicyDrop).toLook (x.decided 3 (Config.freeNat d % 65536))
  else if pol = 2 then (s.count .lookupFragPolicyPunt).toLook (x.decided 2 (Config.freeNat d % 65536))
  else (s.count .lookupFragPolicyL3).toLook x

/-- A later fragment consults its table (R128 to R130): a complete entry gives its result, a pending one holds the fragment,
an entry of an epoch that is not live is removed and treated as absent. -/
def State.fragLater (s : State) (x : Pass) (scope : Nat) (key : List Nat) : State :=
  match s.fragFind scope x.slice key with
  | none => s.fragNoEntry x
  | some (sh, i) =>
    let e := s.frag sh x.slice i
    if !s.epochLive e.epoch then (s.setFrag sh x.slice i FragEntry.free).fragNoEntry x
    else if e.pending then
      if (s.holdOf x.slice).length < 32 then s.setHold x.slice (s.holdOf x.slice ++ [{ pass := x, shared := sh, slot := i }])
      else (s.count .lookupFragHoldFull).fragNoEntry x
    else (s.count .lookupFragFollow).toLook (x.following e)

/-- FRAG_ENTRY_COMPLETE (R127): the entry takes the first fragment's result, and the fragments that waited on it follow;
one whose epoch has been retired meanwhile is dropped (R344). -/
def State.fragComplete (s : State) (k : Nat) (slot : Option (Bool × Nat)) (st : Stamp) (meter : Option Nat) : State :=
  match slot with
  | none => s
  | some (sh, i) =>
    let e := s.frag sh k i
    if !(e.used && e.pending) then s
    else
      let e := { e with pending := false, stamp := st, meter := meter }
      let s := s.setFrag sh k i e
      (List.range 12).foldl (fun s j =>
        if !sh && j != k then s
        else
          let (go, stay) := (s.holdOf j).partition (fun h => h.shared == sh && h.slot == i)
          if go.isEmpty then s
          else go.foldl (fun s h =>
            if s.epochLive h.pass.epoch then (s.count .lookupFragFollow).toLook (h.pass.following e) else s.epochDrop 1) (s.setHold j stay)) s

/-! ### The header slot -/

/-- The number of the next pass. -/
def State.newPid (s : State) : Nat × State := (s.lookup.nextPid, { s with lookup := { s.lookup with nextPid := s.lookup.nextPid + 1 } })

/-- The recirculation queue of slice `k`. -/
def State.recOf (s : State) (k : Nat) : List Pass := mget (fun _ => []) s.lookup.recQ k

/-- Replaces the recirculation queue; RECIRC_USED follows. -/
def State.setRec (s : State) (k : Nat) (l : List Pass) : State :=
  State.setFld { s with lookup := { s.lookup with recQ := mput (fun _ => []) s.lookup.recQ k l } }
    (Reg.parserSliceStatus k) Fld.parserSliceStatus_recircUsed l.length

/-- The counter of a parse error (Table 5.7). -/
def parseErrCtr : Nat → Ctr
  | 1 => .lookupParserErrDepth | 2 => .lookupParserErrVisits | 3 => .lookupParserErrWindow | 4 => .lookupParserErrTruncated
  | 5 => .lookupParserErrSkip | 6 => .lookupParserErrCsum | 7 => .lookupParserErrLength | 8 => .lookupParserErrNomatch
  | _ => .lookupParserErrForm

/-- The parse of a pass (R107 to R123): the batt, the metadata and the merged result a pass begins with (R133). `x` carries what the pass keeps (Table 5.8). -/
def State.parsePass (s : State) (x : Pass) : Pass × Walk :=
  let k := x.slice
  let cfg := Reg.parserPortCfg k (x.port % 8)
  let ccfg := Reg.classPortCfg k (x.port % 8)
  let fr := x.bytes.take (x.bytes.length - 4)
  let w := parseFrame (s.formStore k) x.form fr
  let vrf := if x.passNo = 1 then
      (s.fldEp x.epoch cfg Fld.parserPortCfg_vrfTag + (if s.fldEp x.epoch cfg Fld.parserPortCfg_vrfVlan = 1 then w.vid else 0)) % 65536
    else x.vrfTag
  let frag := if x.passNo = 1 then w.frag else x.fragClass
  let hdr := metaBytes x.port x.passNo x.msec w.err x.msecSc frag w.flags x.epoch vrf w x.recData
  let m := { Merged.none with tc := s.fldEp x.epoch ccfg Fld.classPortCfg_defaultTc, vrf := vrf, sampler := s.fld ccfg Fld.classPortCfg_rxSampler }
  let first := s.fldEp x.epoch ccfg (if x.passNo = 1 then Fld.classPortCfg_firstStage else Fld.classPortCfg_recircStage)
  ({ x with vrfTag := vrf, fragClass := frag, batt := hdr ++ w.batt.drop 16, payload := w.pos, m := m, stage := first, range := [], stages := [],
            searches := [], parsedAt := s.tod }, w)

/-- A parsed pass goes on (R117, R126, R128): an error's action continues, drops or punts; a first fragment reserves an entry, a later one consults it. -/
def State.afterParse (s : State) (x : Pass) (w : Walk) : State :=
  let cfg := Reg.parserPortCfg x.slice (x.port % 8)
  let s := if w.err = 0 then s else s.count (parseErrCtr w.err) x.slice
  let act := if w.err = 0 then 0 else bits (s.fldEp x.epoch cfg Fld.parserPortCfg_errAction) (2 * w.err - 1) (2 * w.err - 2)
  let scope := s.fldEp x.epoch cfg Fld.parserPortCfg_fragScope
  let key := w.fragKey ++ [x.vrfTag]
  let (s, x) := if x.passNo = 1 ∧ w.frag = 1 then
      let (s, slot) := s.fragReserve scope x.slice x.epoch key
      (s, { x with fragSlot := slot })
    else (s, x)
  if act = 1 then
    let (d, s) := s.draw
    (s.count .lookupParserDrop x.slice).toLook (x.decided 3 (Config.freeNat d % 65536))
  else if act = 2 then
    let (d, s) := s.draw
    s.toLook (x.decided 2 (Config.freeNat d % 65536))
  else if x.passNo = 1 ∧ w.frag = 2 then s.fragLater x scope key
  else s.toLook x

/-- The pass that a line frame begins: stamped with the current epoch (R118). -/
def State.firstPass (s : State) (pid : Nat) (r : RxPkt) : Pass :=
  let e := s.epoch
  { pid := pid, slice := r.port / 8, bytes := r.bytes, port := r.port, bad := r.bad, ts := r.ts, tsValid := r.tsValid, msec := r.msec, msecSc := r.msecSc,
    passNo := 1, epoch := e, vrfTag := 0, batt := [], fragClass := 0, fragSlot := none, follow := none,
    form := s.fldEp e (Reg.parserPortCfg (r.port / 8) (r.port % 8)) Fld.parserPortCfg_entryForm, recData := 0, payload := 0, m := Merged.none, stage := 15,
    range := [], stages := [], searches := [], parsedAt := 0, stripped := false, park := [], errs := { hash := [], hashCorr := 0, dit := [], ditCorr := 0 } }

/-- HEADER_PARSE (R19, R109, R117 to R123): a line frame takes the slot first, else a recirculated packet; none is taken while a batch's flip
waits at its lookup boundary (R120, R348). -/
def headerParse (k : Nat) (s : State) : State :=
  if s.boundaryDue then s
  else match s.hdrOf k with
  | r :: rest =>
    let s := { s with hdrQ := mput (fun _ => []) s.hdrQ k rest }
    let (pid, s) := s.newPid
    let x := s.firstPass pid r
    let (x, w) := s.parsePass x
    (s.epochEnter x.epoch).afterParse x w
  | [] =>
    match s.recOf k with
    | [] => s
    | x :: rest =>
      let s := s.setRec k rest
      if s.epochLive x.epoch then
        let (x, w) := s.parsePass x
        s.afterParse x w
      else (s.unpark k x.park).epochDrop 1

/-- FRAG_HOLD_TIMEOUT (R128): the oldest held fragment of the slice has waited FRAG_CFG.HOLD; its entry is removed and it takes the no-entry path. -/
def fragHoldTimeout (k : Nat) (s : State) : State :=
  match s.holdOf k with
  | [] => s
  | h :: rest =>
    let s := s.setHold k rest
    let e := s.frag h.shared k h.slot
    let s := if e.used && e.pending then s.setFrag h.shared k h.slot FragEntry.free else s
    let s := s.count .lookupFragPendingLost
    if s.epochLive h.pass.epoch then s.fragNoEntry h.pass else s.epochDrop 1

/-- FRAG_ENTRY_EXPIRY (R129): a complete entry at the end of its life is removed. -/
def fragEntryExpiry (k : Nat) (shared : Bool) (i : Nat) (s : State) : State :=
  let e := s.frag shared k i
  if e.used && !e.pending then s.setFrag shared k i FragEntry.free else s

/-- RECIRCULATE (R119, R121): the pass limit is tested first, then the queue of 256. The packet loses `strip` bytes at its front;
its bytes beyond the header window are parked, and without a park it is dropped (R255). -/
def State.recirculate (s : State) (x : Pass) (form strip data : Nat) : State :=
  if s.fld (Reg.parserSliceCfg x.slice) Fld.parserSliceCfg_maxPass < x.passNo + 1 then
    ((s.count .lookupParserRecircLimit x.slice).unpark x.slice x.park).epochLeave x.epoch
  else if 256 ≤ (s.recOf x.slice).length then
    (((s.count .lookupParserRecircFull x.slice).raiseLimited 0x0302 x.slice (natBe 1 x.slice)).unpark x.slice x.park).epochLeave x.epoch
  else
    let y := { x with bytes := x.bytes.drop strip, passNo := x.passNo + 1, form := form, recData := data, follow := none, stripped := x.stripped || strip != 0 }
    if x.park.isEmpty ∧ 260 < x.bytes.length then
      match s.poolChain 14 0 2 x.slice (ceilDiv (x.bytes.length - 260) 2016) with
      | (s, none) => (s.allocFail).epochLeave x.epoch
      | (s, some l) => s.setRec x.slice (s.recOf x.slice ++ [{ y with park := l }])
    else s.setRec x.slice (s.recOf x.slice ++ [y])

def execHeaderParse (k : Nat) (s : State) : Out := s.act (headerParse k s)
def execFragHoldTimeout (k : Nat) (s : State) : Out := s.act (fragHoldTimeout k s)
def execFragEntryExpiry (k : Nat) (sh : Bool) (i : Nat) (s : State) : Out := s.act (fragEntryExpiry k sh i s)

end Sys2Proof.Machine
end

