-- ==== Sys2Proof/Machine/Tables.lean ====
section
/-! DEFINITION. The forwarding tables: words in their windows (R465, Tables 6.11a and 8.1), epoch visibility (R339),
the exact-match hash tables (R138 to R142), the HBM flow tables (R199, R200) and the firmware's shadow of them (R212). -/

namespace Sys2Proof.Machine

/-! ### Words of table memory -/

/-- The 8-byte word at `a` of a byte map, most significant byte first. -/
def tblWord (m : List Host.Cell) (a : Nat) : Nat := beNat ((List.range 8).map (fun i => mget (fun _ => (0 : Byte)) m (a + i)))

/-- The 16-byte word at `a`: bits 127:64 at +0x00, bits 63:0 at +0x08 (Table 6.11a). -/
def tbl128 (m : List Host.Cell) (a : Nat) : Nat := 2 ^ 64 * tblWord m a + tblWord m (a + 8)

/-- `n` bytes of a byte map from `a`. -/
def tblBytes (m : List Host.Cell) (a n : Nat) : Bytes := (List.range n).map (fun i => mget (fun _ => (0 : Byte)) m (a + i))

/-- Row `r` of associative array `n` (R160). -/
def rowAddr (n r : Nat) : Nat := 0x0001_1000_0000 + 0x0010_0000 * n + 0x20 * r

/-- The array of an associative row word that holds VALID (+0x18). -/
def validWordArray (a : Nat) : Option Nat :=
  if 0x0001_1000_0000 ≤ a ∧ a < 0x0001_1800_0000 ∧ a % 0x20 = 0x18 then some ((a - 0x0001_1000_0000) / 0x0010_0000) else none

/-- Writes a table word; an associative row's VALID keeps VALID_ROWS of its array. -/
def State.tblPut (s : State) (a w : Nat) : State :=
  let old := b2n (bit (tblWord s.mem a) 63)
  let s := s.setMemWord a (BitVec.ofNat 64 w)
  match validWordArray a with
  | none => s
  | some n => s.setFld (Reg.assocArrayStatus n) Fld.assocArrayStatus_validRows
      (s.fld (Reg.assocArrayStatus n) Fld.assocArrayStatus_validRows + b2n (bit w 63) - old)

/-- Writes a word of the firmware's shadow. -/
def State.shPut (s : State) (a w : Nat) : State := { s with lookup := { s.lookup with shadow := memPut s.lookup.shadow a (natBe 8 w) } }

/-- Writes a word of a table, and of its shadow when the firmware is the writer. -/
def State.put (s : State) (fw : Bool) (a w : Nat) : State := if fw then (s.tblPut a w).shPut a w else s.tblPut a w

/-- Writes a 16-byte word. -/
def State.put128 (s : State) (fw : Bool) (a w : Nat) : State := (s.put fw a (w / 2 ^ 64)).put fw (a + 8) (w % 2 ^ 64)

/-- The position below the VIC position `vic` of the visibility bit of epoch `e`: a table stores the bit of even epochs at the VIC position
and the bit of odd epochs at the VIN position; windows exchange them while the current epoch is odd (R339). -/
def visPos (vic e : Nat) : Nat := if e % 2 = 0 then vic else vic - 1

/-- Whether an entry with its VIC bit at `vic` is visible in epoch `e` (R339). -/
def visible (w vic e : Nat) : Bool := bit w (visPos vic e)

/-! ### CRC -/

/-- One byte of a CRC that takes the most significant bit first, without reflection and without a final XOR (R139). -/
def crcByte (poly reg : BitVec 32) (b : Byte) : BitVec 32 :=
  (List.range 8).foldl (fun r i =>
    let fb := r.msb != b.getLsbD (7 - i)
    if fb then (r <<< 1) ^^^ poly else r <<< 1) reg

/-- A CRC over bytes from register value `init` (R139). -/
def crcMsb (poly : BitVec 32) (init : Nat) (bs : Bytes) : Nat := (bs.foldl (crcByte poly) (BitVec.ofNat 32 init)).toNat

/-- The CRC-32C polynomial. -/
def poly32C : BitVec 32 := 0x1EDC6F41

/-- The hash of a key for a 16-bit seed (R139). -/
def keyHash (seed : Nat) (key : Bytes) : Nat := crcMsb poly32C (0x10001 * seed) key

/-! ### On-die hash tables -/

/-- Way `w` of bucket `b` of bank `n`. -/
def slotAddr (n b w : Nat) : Nat := 0x0001_0000_0000 + 16 * (65536 * n + 4 * b + w)

/-- Slot `i` of the stash of bank `n`. -/
def stashAddr (n i : Nat) : Nat := 0x0001_0400_0000 + 0x100 * n + 16 * i

/-- Key bytes of an entry width, and the slots it takes (Table 6.5). -/
def widthBytes (w : Nat) : Nat := if w = 0 then 8 else if w = 1 then 24 else 56

/-- Slots of an entry width. -/
def widthSlots (w : Nat) : Nat := if w = 0 then 1 else if w = 1 then 2 else 4

/-- The entries' heads among the slots `p` to `n` - 1 of a bucket or stash at `base`, as slot numbers: a wide entry's continuation slots are passed over. -/
def headsFrom (m : List Host.Cell) (base n : Nat) : Nat → Nat → List Nat
  | 0, _ => []
  | f + 1, p =>
    if n ≤ p then []
    else
      let h := tbl128 m (base + 16 * p)
      if bit h 127 then p :: headsFrom m base n f (p + widthSlots (bits h 126 125)) else headsFrom m base n f (p + 1)

/-- The heads of `n` slots at `base`. -/
def heads (m : List Host.Cell) (base n : Nat) : List Nat := headsFrom m base n n 0

/-- The key bytes of the entry whose head is at `a`. -/
def entryKey (m : List Host.Cell) (a : Nat) : Bytes :=
  let w := bits (tbl128 m a) 126 125
  (tblBytes m (a + 8) 8 ++ tblBytes m (a + 16) (16 * (widthSlots w - 1))).take (widthBytes w)

/-- The two candidates of a key: bank and bucket (R139). -/
def State.hashCands (s : State) (t : Nat) (key : Bytes) : List (Nat × Nat) :=
  let c := Reg.emhashTableCfg t
  let half := s.fld c Fld.emhashTableCfg_bankCnt / 2
  let lo := s.fld c Fld.emhashTableCfg_bankLo
  let h1 := keyHash (s.fld c Fld.emhashTableCfg_seed1) key
  let h2 := keyHash (s.fld c Fld.emhashTableCfg_seed2) key
  [(lo + bits h1 31 14 % half, bits h1 13 0), (lo + half + bits h2 31 14 % half, bits h2 13 0)]

/-- The places a key can lie in, in the order of R140: bucket 1, bucket 2, stash of bank 1, stash of bank 2, as base address and slots. -/
def State.hashPlaces (s : State) (t : Nat) (key : Bytes) : List (Nat × Nat) :=
  let c := s.hashCands t key
  c.map (fun p => (slotAddr p.1 p.2 0, 4)) ++ c.map (fun p => (stashAddr p.1 0, 16))

/-- The matching entries' head addresses, first the one that decides (R140). Visibility is that of epoch `e`; of none for writers, who see every entry. -/
def State.hashFind (s : State) (m : List Host.Cell) (t : Nat) (e : Option Nat) (key : Bytes) : List Nat :=
  (s.hashPlaces t key).flatMap (fun p => ((heads m p.1 p.2).map (fun i => p.1 + 16 * i)).filter (fun a =>
    let h := tbl128 m a
    bits h 119 112 == t && bits h 126 125 == s.fld (Reg.emhashTableCfg t) Fld.emhashTableCfg_width && entryKey m a == key
      && (match e with | none => true | some e => visible h 122 e)))

/-- The stored result of an entry. -/
def entryResult (m : List Host.Cell) (a : Nat) : Nat := bits (tbl128 m a) 111 64

/-- The short result a hit gives (R138): an aged table's OP and PROFILE come from its configuration, and a learning table's ARG is bits 19:0. -/
def State.hashResult (s : State) (t res : Nat) : Nat :=
  let c := Reg.emhashTableCfg t
  if s.fld c Fld.emhashTableCfg_aged = 1 then
    2 ^ 44 * s.fld c Fld.emhashTableCfg_agedOp + 2 ^ 32 * s.fld c Fld.emhashTableCfg_agedProfile
      + (if s.flag (Reg.tableAgeCfg t) Fld.tableAgeCfg_learnTable then res % 2 ^ 20 else res % 2 ^ 32)
  else res

/-- The time now in ageing units (R207), of the time of day less the net of all steps (R364). -/
def State.ageNow (s : State) : Nat := s.time.stepFree / (100000000 * max 1 (s.fld Reg.learnCfg Fld.learnCfg_ageUnit)) % 65536

/-- What a match writes (R198, R207): HIT when it was 0, and the timestamp of a table that ages, when it differs from now. -/
def State.hashHit (s : State) (t a : Nat) : State :=
  let w := tblWord s.mem a
  let w1 := setBits w 60 1 1
  let w2 := if s.flag (Reg.tableAgeCfg t) Fld.tableAgeCfg_ageEn && s.fld (Reg.emhashTableCfg t) Fld.emhashTableCfg_aged == 1
    then setBits w1 32 16 s.ageNow else w1
  if w2 = w then s else s.tblPut a w2

/-- The slots of a bucket or stash that hold nothing. -/
def freeSlots (m : List Host.Cell) (base n : Nat) : List Nat :=
  let hs := heads m base n
  (List.range n).filter (fun p => hs.all (fun h => !(decide (h ≤ p) && decide (p < h + widthSlots (bits (tbl128 m (base + 16 * h)) 126 125)))))

/-- The free places of width `w`: aligned in a bucket, any run of slots in a stash. -/
def freePlaces (m : List Host.Cell) (base n w : Nat) : List Nat :=
  let fs := freeSlots m base n
  let k := widthSlots w
  (List.range n).filter (fun p => (n != 4 || p % k == 0) && (List.range k).all (fun j => fs.contains (p + j)))

/-- The words of an entry: head bits 127:64, then the key, continuation slots zero-padded (Table 6.5). -/
def entryWords (hi w : Nat) (key : Bytes) : List Nat :=
  let k := key ++ List.replicate (widthBytes w + 16 - key.length) 0
  hi :: beNat (k.take 8) :: (List.range (2 * (widthSlots w - 1))).map (fun j => beAt k (8 + 8 * j) 8)

/-- Writes an entry at `a`. -/
def State.putEntry (s : State) (fw : Bool) (a : Nat) (ws : List Nat) : State :=
  (List.range ws.length).foldl (fun s i => s.put fw (a + 8 * i) ((ws[i]?).getD 0)) s

/-- Clears the entry whose head is at `a`: every slot it took. -/
def State.clearEntry (s : State) (fw : Bool) (a : Nat) : State :=
  (List.range (2 * widthSlots (bits (tbl128 s.mem a) 126 125))).foldl (fun s i => s.put fw (a + 8 * i) 0) s

/-- Places for a key by steps 2 and 3 of R141: the candidate bucket with more free places of the width (bucket 1 on a tie), then the stashes. -/
def State.hashRoom (s : State) (t w : Nat) (key : Bytes) : Option Nat :=
  match s.hashCands t key with
  | [(n1, b1), (n2, b2)] =>
    let f1 := freePlaces s.mem (slotAddr n1 b1 0) 4 w
    let f2 := freePlaces s.mem (slotAddr n2 b2 0) 4 w
    match (if f2.length ≤ f1.length then f1.map (slotAddr n1 b1) else f2.map (slotAddr n2 b2)) with
    | a :: _ => some a
    | [] =>
      match freePlaces s.mem (stashAddr n1 0) 16 w with
      | p :: _ => some (stashAddr n1 p)
      | [] => ((freePlaces s.mem (stashAddr n2 0) 16 w).head?).map (stashAddr n2)
  | _ => none

/-- Moves the entry at `a` to the free place `b`: the copy is written complete before the old place is cleared (R142). -/
def State.moveEntry (s : State) (fw : Bool) (a b : Nat) : State :=
  let n := 2 * widthSlots (bits (tbl128 s.mem a) 126 125)
  let ws := (List.range n).map (fun i => tblWord s.mem (a + 8 * i))
  (s.putEntry fw b ws).clearEntry fw a

/-- The bucket of table-memory address `a`, as bank and bucket. -/
def bucketOf (a : Nat) : Nat × Nat := ((a - 0x0001_0000_0000) / 16 / 65536, (a - 0x0001_0000_0000) / 16 / 4 % 16384)

/-- A cuckoo path of at most `d` moves that frees a place of width `w` in bucket (`n`, `b`): the moves in the order they are made (R141 step 4).
Each place that holds one entry of the width is tried, lowest first. -/
def State.cuckoo (s : State) (w : Nat) : Nat → Nat → Nat → Option (List (Nat × Nat))
  | 0, _, _ => none
  | d + 1, n, b =>
    (List.range (4 / widthSlots w)).findSome? (fun i =>
      let a := slotAddr n b (i * widthSlots w)
      let h := tbl128 s.mem a
      if !((heads s.mem (slotAddr n b 0) 4).contains (i * widthSlots w) && bits h 126 125 == w) then none
      else
        match (s.hashCands (bits h 119 112) (entryKey s.mem a)).find? (fun c => c != (n, b)) with
        | none => none
        | some (n2, b2) =>
          match freePlaces s.mem (slotAddr n2 b2 0) 4 w with
          | p :: _ => some [(a, slotAddr n2 b2 p)]
          | [] => (s.cuckoo w d n2 b2).map (fun l =>
              match l.getLast? with | some (x, _) => l ++ [(a, x)] | none => l))

/-- A path of the fewest moves, up to 8, over both candidates. -/
def State.cuckooPath (s : State) (t w : Nat) (key : Bytes) : Option (List (Nat × Nat)) :=
  (List.range 8).findSome? (fun d => (s.hashCands t key).findSome? (fun c => s.cuckoo w (d + 1) c.1 c.2))

/-- The place of a new key by R141: steps 2 and 3, then step 4 when `deep`; the moves of a cuckoo path are made. -/
def State.hashPlace (s : State) (fw deep : Bool) (t w : Nat) (key : Bytes) : Option Nat × State :=
  match s.hashRoom t w key with
  | some a => (some a, s)
  | none =>
    if !deep then (none, s)
    else
      match s.cuckooPath t w key with
      | none => (none, s)
      | some l => ((l.getLast?).map (fun p => p.1), l.foldl (fun s p => s.moveEntry fw p.1 p.2) s)

/-- Table full (R141): counted and reported. -/
def State.insertFull (s : State) (t : Nat) : State := (s.count .lookupEmhashInsertFull).raise 0x0303 (natBe 1 t)

/-- After a way has freed in a bank, its stash entries go back into a bucket for which the freed way is a candidate (R142). -/
def State.stashReturn (s : State) (fw : Bool) (bank : Nat) : State :=
  (heads s.mem (stashAddr bank 0) 16).foldl (fun s i =>
    let a := stashAddr bank i
    let h := tbl128 s.mem a
    match ((s.hashCands (bits h 119 112) (entryKey s.mem a)).filter (fun c => c.1 == bank)).findSome? (fun c =>
        ((freePlaces s.mem (slotAddr c.1 c.2 0) 4 (bits h 126 125)).head?).map (slotAddr c.1 c.2)) with
    | some b => (s.moveEntry fw a b).count .lookupEmhashStashReturn
    | none => s) s

/-- Removes the entry at `a`, head first, and returns stash entries to the freed way (R142). -/
def State.hashRemove (s : State) (fw : Bool) (a : Nat) : State :=
  let s := s.clearEntry fw a
  if a < 0x0001_0400_0000 then s.stashReturn fw (bucketOf a).1 else s

/-! ### Table HBM -/

/-- Table-HBM offset `a` in the window (R270). -/
def hbmAddr (a : Nat) : Nat := 0x0100_0000_0000 + a

/-! ### Flow tables -/

/-- The table-HBM offsets of the two candidate buckets of a key (R199). -/
def State.flowCands (s : State) (f : Nat) (key : Bytes) : Nat × Nat :=
  let base := 2 ^ 20 * s.fld (Reg.flowTableCfg f) Fld.flowTableCfg_base
  let n := 2 ^ (s.fld (Reg.flowTableCfg f) Fld.flowTableCfg_log2Buckets - 1)
  let h1 := keyHash (s.fld (Reg.flowTableSeeds f) Fld.flowTableSeeds_seed1) key
  let h2 := keyHash (s.fld (Reg.flowTableSeeds f) Fld.flowTableSeeds_seed2) key
  (base + 512 * (h1 % n), 2 ^ 34 + base + 512 * (h2 % n))

/-- Key bytes of a flow entry: KEY_LEN bytes, zero-padded to 40. -/
def flowKey (key : Bytes) : Bytes := (key ++ List.replicate 40 0).take 40

/-- The way of a bucket (at table-HBM offset `b`) that holds a key, as a window address; visibility as in `hashFind`. -/
def flowFind (m : List Host.Cell) (f b : Nat) (e : Option Nat) (key : Bytes) : Option Nat :=
  ((List.range 8).map (fun w => hbmAddr (b + 64 * w))).find? (fun a =>
    let h := tblWord m a
    bit h 63 && bits h 55 48 == f && tblBytes m (a + 8) 40 == flowKey key
      && (match e with | none => true | some e => visible h 59 e))

/-- The OVF of a bucket: bytes 48 to 49 of way 0. -/
def flowOvf (m : List Host.Cell) (b : Nat) : Nat := beNat (tblBytes m (hbmAddr b + 48) 2)

/-- Changes the OVF of a bucket by `d`. -/
def State.flowOvfAdd (s : State) (fw : Bool) (b : Nat) (d : Int) : State :=
  let a := hbmAddr b + 48
  s.put fw a (setBits (tblWord s.mem a) 48 16 ((flowOvf s.mem b : Int) + d).toNat)

/-- The lowest free way of a bucket. -/
def flowFree (m : List Host.Cell) (b : Nat) : Option Nat :=
  ((List.range 8).map (fun w => hbmAddr (b + 64 * w))).find? (fun a => !bit (tblWord m a) 63)

/-- Writes a flow entry: its first word and its key (way 0's OVF is kept). -/
def State.putFlow (s : State) (fw : Bool) (a w : Nat) (key : Bytes) : State :=
  (List.range 5).foldl (fun s j => s.put fw (a + 8 + 8 * j) (beAt (flowKey key) (8 * j) 8)) (s.put fw a w)

/-- The key of the flow entry at window address `a`. -/
def State.flowKeyAt (s : State) (a : Nat) : Bytes :=
  (tblBytes s.mem (a + 8) 40).take (s.fld (Reg.flowTableCfg (bits (tblWord s.mem a) 55 48)) Fld.flowTableCfg_keyLen)

/-- Whether window address `a` lies in stack h1. -/
def inH1 (a : Nat) : Bool := decide (2 ^ 34 ≤ a - 0x0100_0000_0000)

/-- Clears a flow entry (OVF of way 0 is kept). -/
def State.clearFlow (s : State) (fw : Bool) (a : Nat) : State := (List.range 6).foldl (fun s j => s.put fw (a + 8 * j) 0) s

/-- Moves a flow entry to a free way of its other candidate, complete in its new place before the old one is cleared (R142); OVF follows (R200). -/
def State.moveFlow (s : State) (fw : Bool) (a d : Nat) : State :=
  let b0 := (s.flowCands (bits (tblWord s.mem a) 55 48) (s.flowKeyAt a)).1
  ((s.putFlow fw d (tblWord s.mem a) (tblBytes s.mem (a + 8) 40)).clearFlow fw a).flowOvfAdd fw b0 (if inH1 a then -1 else 1)

/-- A path of at most `d` moves that frees a way of bucket `b` (R200, R141 step 4), the moves in the order they are made. -/
def State.flowCuckoo (s : State) : Nat → Nat → Option (List (Nat × Nat))
  | 0, _ => none
  | d + 1, b =>
    (List.range 8).findSome? (fun w =>
      let a := hbmAddr (b + 64 * w)
      let c := s.flowCands (bits (tblWord s.mem a) 55 48) (s.flowKeyAt a)
      let alt := if inH1 a then c.1 else c.2
      match flowFree s.mem alt with
      | some x => some [(a, x)]
      | none => (s.flowCuckoo d alt).map (fun l => match l.getLast? with | some (x, _) => l ++ [(a, x)] | none => l))

/-- Inserts a flow entry with a new key (R200): the h0 bucket, else the h1 bucket with OVF counted, else a way made free by moves. The answer is its address. -/
def State.flowPlace (s : State) (fw : Bool) (f : Nat) (key : Bytes) : Option Nat × State :=
  let (b0, b1) := s.flowCands f key
  match flowFree s.mem b0 with
  | some a => (some a, s)
  | none =>
    match flowFree s.mem b1 with
    | some a => (some a, s.flowOvfAdd fw b0 1)
    | none =>
      match (List.range 8).findSome? (fun d => [b0, b1].findSome? (fun b => s.flowCuckoo (d + 1) b)) with
      | none => (none, s)
      | some l =>
        let t := l.foldl (fun s p => s.moveFlow fw p.1 p.2) s
        match l.getLast? with
        | none => (none, s)
        | some (a, _) => (some a, if inH1 a then t.flowOvfAdd fw b0 1 else t)

/-- Removes the flow entry at `a`; a key held in its second candidate leaves its first bucket's OVF one lower. -/
def State.flowRemove (s : State) (fw : Bool) (a : Nat) : State :=
  let b0 := (s.flowCands (bits (tblWord s.mem a) 55 48) (s.flowKeyAt a)).1
  let s := s.clearFlow fw a
  if inH1 a then s.flowOvfAdd fw b0 (-1) else s

/-- What a flow match writes (R208): HIT set and IDLE cleared when either changes. -/
def State.flowHit (s : State) (a : Nat) : State :=
  let w := tblWord s.mem a
  let w1 := setBits w 61 2 2
  if w1 = w then s else s.tblPut a w1

/-! ### Direct-index tables (Table 8.1) -/

/-- Label entry `i`. -/
def labelAddr (i : Nat) : Nat := 0x0001_2000_0000 + 8 * i
/-- Next-hop entry `i`. -/
def nhAddr (i : Nat) : Nat := 0x0001_2080_0000 + 8 * i
/-- Encapsulation entry `i`. -/
def encapAddr (i : Nat) : Nat := 0x0001_2100_0000 + 16 * i
/-- Bridge-domain entry `i`. -/
def bdAddr (i : Nat) : Nat := 0x0001_2180_0000 + 16 * i
/-- Action profile `i`. -/
def profileAddr (i : Nat) : Nat := 0x0001_2200_0000 + 16 * i
/-- ECMP group descriptor `i`. -/
def ecmpAddr (i : Nat) : Nat := 0x0001_2210_0000 + 8 * i
/-- LAG group descriptor `i`. -/
def lagAddr (i : Nat) : Nat := 0x0001_2220_0000 + 8 * i
/-- Member slot `i`. -/
def memberAddr (i : Nat) : Nat := 0x0001_2280_0000 + 8 * i
/-- Meter profile `i`. -/
def meterProfAddr (i : Nat) : Nat := 0x0001_2300_0000 + 16 * i
/-- Meter state `i`. -/
def meterAddr (i : Nat) : Nat := 0x0001_2400_0000 + 16 * i

end Sys2Proof.Machine
end

