-- ==== Sys2Proof/Machine/Classify.lean ====
section
/-! DEFINITION. Classification (chapter 6): how results merge, the stage chain, load spreading, packet meters, mirror copies and samples. -/

namespace Sys2Proof.Machine

/-! ### Merging (R133) -/

/-- The short result a merged result stands at: OP, last profile, ARG (Table 6.1). -/
def Merged.short (m : Merged) : Nat := 2 ^ 44 * m.op + 2 ^ 32 * m.profile + m.arg

/-- The merged result with action profile `v` (Table 6.3) applied: each field whose SET bit is 1 replaces that field. -/
def Merged.applyProfile (m : Merged) (v : Nat) : Merged :=
  { m with
    vrf := if bit v 127 then bits v 119 104 else m.vrf
    tc := if bit v 126 then bits v 103 101 else m.tc
    colour := if bit v 125 then bits v 100 99 else m.colour
    meter := if bit v 124 then some (bits v 98 79) else m.meter
    mirror := if bit v 123 then bits v 78 73 else m.mirror
    sampler := if bit v 122 then bits v 72 63 else m.sampler
    program := if bit v 121 then bits v 62 55 else m.program }

/-- The merged result with OP and ARG of a later result: a non-zero OP replaces the OP unless that is final (7, 8 or 9). -/
def Merged.applyOp (m : Merged) (op arg : Nat) : Merged :=
  if op ≠ 0 ∧ ¬(7 ≤ m.op ∧ m.op ≤ 9) then { m with op := op, arg := arg } else m

/-- Merges action profile `p`; profile 0 sets nothing (R132). -/
def State.mergeProfile (s : State) (p : Nat) (m : Merged) : Merged :=
  if p = 0 then m else { m.applyProfile (tbl128 s.mem (profileAddr p)) with profile := p }

/-- Merges a short result (R133): OP and ARG, then the profile. -/
def State.mergeShort (s : State) (r : Nat) (m : Merged) : Merged :=
  s.mergeProfile (bits r 43 32) (m.applyOp (bits r 47 44) (bits r 31 0))

/-- Merges a lookup's short result into a pass; a result that makes the OP drop is counted in `lookup.classify.drop` (Table 6.2). -/
def State.merge (s : State) (x : Pass) (r : Nat) : State × Pass :=
  let m := s.mergeShort r x.m
  (if m.op = 7 ∧ x.m.op ≠ 7 then s.count .lookupClassifyDrop x.slice else s, { x with m := m })

/-- Merges an error action (R182, R201): 1 drop, 2 punt with reason `why`, else the miss result. -/
def State.mergeError (s : State) (x : Pass) (act why miss : Nat) : State × Pass :=
  if act = 1 then (s, { x with m := x.m.applyOp 7 why })
  else if act = 2 then (s, { x with m := x.m.applyOp 8 why })
  else s.merge x miss

/-! ### Keys (R136) -/

/-- The merged word of Table 7.3. -/
def Merged.word (m : Merged) : Bytes := natBe 2 m.vrf ++ natBe 1 (m.colour * 8 + m.tc) ++ natBe 1 m.op

/-- The range words as bytes (R144). -/
def Pass.rangeBytes (x : Pass) : Bytes := (List.range 8).flatMap (fun b => natBe 8 (mget (fun _ => 0) x.range b))

/-- The bytes a key segment (Table 6.4) names. -/
def Pass.segment (x : Pass) (g : Nat) : Bytes :=
  let src := bits g 15 14
  let from_ := if src = 0 then x.batt else if src = 1 then x.rangeBytes else if src = 2 then x.m.word else []
  (from_.drop (bits g 13 7)).take (bits g 6 2)

/-- A key from its two segment words, in segment order. -/
def Pass.key (x : Pass) (k0 k1 : Nat) : Bytes :=
  (List.range 8).flatMap (fun i => x.segment (bits (if i < 4 then k0 else k1) (16 * (i % 4) + 15) (16 * (i % 4))))

/-- A key padded with zero bytes at its end, or cut, to `n` bytes. -/
def padKey (n : Nat) (k : Bytes) : Bytes := (k ++ List.replicate n 0).take n

/-! ### Range comparators (R143, R144) -/

/-- The output of comparator `c` of slice `k` on a batt. -/
def State.comparator (s : State) (k c : Nat) (x : Pass) : Bool :=
  let r := Reg.rangeCmp k c
  let lo := s.fld r Fld.rangeCmp_srcBit
  let v := bits (beNat x.batt) (lo + s.fld r Fld.rangeCmp_width) lo
  let hit := decide (s.fld r Fld.rangeCmp_lo ≤ v) && decide (v ≤ s.fld r Fld.rangeCmp_hi)
  s.flag r Fld.rangeCmp_valid && !(s.flag r Fld.rangeCmp_l4Guard && x.fragClass == 2) && (hit != s.flag r Fld.rangeCmp_invert)

/-- The range word of bank `b`. -/
def State.rangeWord (s : State) (k b : Nat) (x : Pass) : Nat :=
  (List.range 64).foldl (fun w i => w + 2 ^ i * b2n (s.comparator k (64 * b + i) x)) 0

/-! ### The stage chain (R134) -/

/-- The word of a stage as a pass reads it. -/
def State.stageWord (s : State) (x : Pass) (a : Nat) : Nat := (s.regPar (x.epoch % 2 == 1) a).toNat

/-- A pass after stage `n` of type `ty`: the trace notes it and the chain goes on to `next`. -/
def Pass.after (x : Pass) (n ty next : Nat) (hit : Bool) : Pass :=
  { x with stage := next, stages := x.stages ++ [{ stage := n, type := ty, hit := hit, result := x.m.short }] }

/-- A stage that hit with short result `r`. -/
def State.stageHit (s : State) (x : Pass) (ty r : Nat) : State × Pass :=
  let c := Reg.classStageCfg x.slice x.stage
  let (s, y) := s.merge x r
  (s, y.after x.stage ty (s.fldEp x.epoch c Fld.classStageCfg_nextHit) true)

/-- A stage that missed: MISS_RESULT is merged. -/
def State.stageMiss (s : State) (x : Pass) (ty : Nat) : State × Pass :=
  let c := Reg.classStageCfg x.slice x.stage
  let (s, y) := s.merge x (s.stageWord x (Reg.classStageMiss x.slice x.stage))
  (s, y.after x.stage ty (s.fldEp x.epoch c Fld.classStageCfg_nextMiss) false)

/-- A stage whose lookup ended with the error flag (R201): HASH_ERR_ACTION, with reason 0xFF12, and on as after a miss. -/
def State.stageError (s : State) (x : Pass) (ty : Nat) : State × Pass :=
  let c := Reg.classStageCfg x.slice x.stage
  let (s, y) := s.mergeError x (s.fld Reg.ditCtrl Fld.ditCtrl_hashErrAction) 0xFF12 (s.stageWord x (Reg.classStageMiss x.slice x.stage))
  (s, y.after x.stage ty (s.fldEp x.epoch c Fld.classStageCfg_nextMiss) false)

/-- The key of a stage. -/
def State.stageKey (s : State) (x : Pass) : Bytes :=
  x.key (s.stageWord x (Reg.classStageKey0 x.slice x.stage)) (s.stageWord x (Reg.classStageKey1 x.slice x.stage))

/-- A search of on-die table `t` for a pass (R140): the result of the deciding entry, with duplicates of another result counted and the hit written. -/
def State.hashSearch (s : State) (t e : Nat) (key : Bytes) : State × Option Nat :=
  match s.hashFind s.mem t (some e) key with
  | [] => (s, none)
  | a :: rest =>
    let r := entryResult s.mem a
    let s := if rest.any (fun b => entryResult s.mem b != r) then s.count .lookupEmhashDup else s
    (s.hashHit t a, some r)

/-- An entry of a hash table with an uncorrectable error (R211): a STATIC entry is rewritten from the shadow, another is invalidated. -/
def State.hashRepair (s : State) (a : Nat) : State :=
  let h := tblWord s.mem a
  if bit h 59 then (List.range (2 * widthSlots (bits h 62 61))).foldl (fun s i => s.tblPut (a + 8 * i) (tblWord s.lookup.shadow (a + 8 * i))) s
  else s.clearEntry false a

/-- The hash error the environment gives a pass at stage `n`. -/
def Pass.hashErr (x : Pass) (n : Nat) : Option Nat := (x.errs.hash.find? (fun h => h.stage == n)).map (fun h => h.slot)

/-- The chain from the stage the pass stands at; a flow stage parks the pass (third answer). At most eight stages are visited (R135). -/
def State.chain (s : State) (x : Pass) : Nat → State × Pass × Bool
  | 0 => (s, { x with stage := 15 }, false)
  | f + 1 =>
    if 8 ≤ x.stage then (s, x, false)
    else
      let c := Reg.classStageCfg x.slice x.stage
      let ty := s.fldEp x.epoch c Fld.classStageCfg_type
      let t := s.fldEp x.epoch c Fld.classStageCfg_table
      if ty = 1 then
        match x.hashErr x.stage with
        | some a =>
          let (s, x) := (s.count .lookupEmhashEccUncorr).stageError x 1
          (s.hashRepair a).chain x f
        | none =>
          let (s, r) := s.hashSearch t x.epoch (padKey (widthBytes (s.fld (Reg.emhashTableCfg t) Fld.emhashTableCfg_width)) (s.stageKey x))
          match r with
          | some r => let (s, x) := s.stageHit x 1 (s.hashResult t r); s.chain x f
          | none => let (s, x) := s.stageMiss x 1; s.chain x f
      else if ty = 2 then (s, x, true)
      else if ty = 3 then
        let b := t % 8
        let w := s.rangeWord x.slice b x
        let x := { x with range := mput (fun _ => 0) x.range b w }
        match (List.range 64).find? (fun i => bit w i) with
        | some i => let (s, x) := s.stageHit x 3 (s.fld (Reg.rangeResult x.slice (64 * b + i)) Fld.rangeResult_result); s.chain x f
        | none => let (s, x) := s.stageMiss x 3; s.chain x f
      else let (s, x) := s.stageMiss x 0; s.chain x f

/-! ### Load spreading (R145 to R147) -/

/-- The byte pairs of R146, as first byte of each member and their length. -/
def symPairs : List (Nat × Nat × Nat) := [(16, 22, 6), (58, 74, 16), (100, 102, 2), (108, 112, 4), (116, 118, 2)]

/-- The batt with each wholly included pair ordered, its numerically smaller member first. -/
def orderPairs (inc : Nat → Bool) (b : Bytes) : Bytes :=
  symPairs.foldl (fun b (p, q, n) =>
    let u := (b.drop p).take n
    let v := (b.drop q).take n
    if (List.range n).all (fun i => inc (p + i) && inc (q + i)) && decide (beNat v < beNat u) then battPut (battPut b p v) q u else b) b

/-- The load-spread hash of a pass under hash profile `p` (R146). -/
def State.spreadHash (s : State) (p : Nat) (x : Pass) : Nat :=
  let r := Reg.spreadProfile p
  let mask := 2 ^ 64 * (s.reg (Reg.spreadProfileMaskHi p)).toNat + (s.reg (Reg.spreadProfileMaskLo p)).toNat
  let fragOut (n : Nat) : Bool := s.flag r Fld.spreadProfile_fragSafe && (x.fragClass == 1 || x.fragClass == 2)
    && ((decide (100 ≤ n) && decide (n ≤ 104)) || (decide (116 ≤ n) && decide (n ≤ 119)))
  let inc (n : Nat) : Bool := bit mask n && !fragOut n
  let b := if s.flag r Fld.spreadProfile_symmetric then orderPairs inc x.batt else x.batt
  let bs := (List.range 128).flatMap (fun n => if inc n then ((b[n]?).map (fun y => [y])).getD [] else [])
  let seed := s.fld r Fld.spreadProfile_seed
  let fn := s.fld r Fld.spreadProfile_func
  if fn = 0 then crcMsb poly32C seed bs
  else if fn = 1 then crcMsb 0x04C11DB7 seed bs
  else (List.range ((bs.length + 3) / 4)).foldl (fun h i => h ^^^ beAt bs (4 * i) 4) seed

/-- A 32-bit number rotated right by 16. -/
def rot16 (h : Nat) : Nat := h / 65536 + 65536 * (h % 65536)

/-- Whether the port of a system port is up as the spread unit sees it (R147): a port of another device is down after a down notice for it,
and while its device, of version 2, is not alive. -/
def State.sysPortUp (s : State) (d : Nat) : Bool :=
  let dev := d / 128
  if dev = s.fld Reg.trafficDevice Fld.trafficDevice_self then s.portUp (d % 128)
  else mget (fun _ => 0) s.lookup.remoteDown d == 0 && !s.fabric.dead.contains dev

/-- What a spread answers: a failure (a reason with the counter), or the chosen slot's kind and value. -/
inductive Spread where
  | fail (reason : Nat)
  | slot (kind value : Nat)
  deriving DecidableEq, Repr

/-- Member slot `i`: kind and value (Table 6.7). -/
def State.member (s : State) (i : Nat) : Nat × Nat := (bits (tblWord s.mem (memberAddr i)) 23 22, bits (tblWord s.mem (memberAddr i)) 19 0)

/-- The slot of ECMP group `g` for hash `h`. -/
def State.spreadEcmp (s : State) (g h : Nat) : Spread :=
  let d := tblWord s.mem (ecmpAddr g)
  if !bit d 63 then .fail 0xFF0C
  else
    let (k, v) := s.member (bits d 58 39 + h * bits d 38 26 / 2 ^ 32)
    if k = 0 then .fail 0xFF0D else .slot k v

/-- The slot of LAG group `g` for hash `h` (R147): a slot whose port is down gives way to the k-th slot whose port is up. -/
def State.spreadLag (s : State) (g h : Nat) : Spread :=
  let d := tblWord s.mem (lagAddr g)
  if !bit d 63 then .fail 0xFF0C
  else
    let base := bits d 58 39
    let n := bits d 38 26
    let (k, v) := s.member (base + h * n / 2 ^ 32)
    if k = 0 then .fail 0xFF0D
    else if k ≠ 2 ∨ s.sysPortUp (v % 2 ^ 19) then .slot k v
    else
      let live := (List.range n).filter (fun i => let (k, v) := s.member (base + i); k == 2 && s.sysPortUp (v % 2 ^ 19))
      match live[rot16 h * live.length / 2 ^ 32]? with
      | none => .fail 0xFF0E
      | some i => let (k, v) := s.member (base + i); .slot k v

/-- Counts a spread failure; a LAG without a live member is reported once per 1 ms and group. -/
def State.spreadFail (s : State) (g reason : Nat) : State :=
  if reason = 0xFF0C then s.count .lookupSpreadBadGroup
  else if reason = 0xFF0D then s.count .lookupSpreadEmptySlot
  else (s.count .lookupSpreadLagDead).raiseLimited 0x0305 g (natBe 1 g)

/-! ### Packet meters (R149 to R153) -/

/-- A meter's buckets (Table 6.8) after the refill of R151: committed and peak tokens, time of last refill. -/
def State.meterRefill (s : State) (m : Nat) : Nat × Nat × Nat :=
  let v := tbl128 s.mem (meterAddr m)
  let p := tbl128 s.mem (meterProfAddr (bits v 9 0))
  let now := s.time.stepFree / 1024 % 2 ^ 22
  let dt := (now + 2 ^ 22 - bits v 31 10) % 2 ^ 22
  let fill (tok rate burst : Nat) : Nat := min (tok + 2 ^ 24 * (1024 * (rate * dt)) / 1000000000) (2 ^ 24 * burst)
  (fill (bits v 119 76) (bits p 127 96) (bits p 63 44), fill (bits v 75 32) (bits p 95 64) (bits p 43 24), now)

/-- Writes a meter's buckets; the profile stays. -/
def State.setMeter (s : State) (m tc tp last : Nat) : State :=
  s.put128 false (meterAddr m) (2 ^ 76 * tc + 2 ^ 32 * tp + 2 ^ 10 * last + bits (tbl128 s.mem (meterAddr m)) 9 0)

/-- One packet on meter `m` with colour `pre` (R151): the new colour, and the action's drop reason. -/
def State.meterPacket (s : State) (m pre : Nat) : State × Nat × Option Nat :=
  let p := tbl128 s.mem (meterProfAddr (bits (tbl128 s.mem (meterAddr m)) 9 0))
  let (tc, tp, now) := s.meterRefill m
  let one := 2 ^ 24
  let aware := bit p 23
  let colour := if aware && pre == 2 then 2 else if tp < one then 2 else if (aware && pre == 1) || decide (tc < one) then 1 else 0
  let s := s.setMeter m (if colour = 0 then tc - one else tc) (if colour = 2 then tp else tp - one) now
  let s := s.accCount 0x102 (3 * m + colour) 1
  if colour = 1 ∧ bits p 22 21 = 1 then (s.count .lookupMeterDropYellow, colour, some 0xFF0F)
  else if colour = 2 ∧ bits p 20 19 = 1 then (s.count .lookupMeterDropRed, colour, some 0xFF10)
  else (s, colour, none)

/-- METER_REFRESH (R153): a meter not updated meanwhile is refilled. -/
def meterRefresh (m : Nat) (s : State) : State :=
  let (tc, tp, now) := s.meterRefill m
  s.setMeter m tc tp now

/-! ### Mirror copies (R154, R155) -/

/-- The bridge queue of slice `k`. -/
def State.bridgeOf (s : State) (k : Nat) : List Desc := mget (fun _ => []) s.lookup.bridgeQ k

/-- A descriptor waits for the bridge. -/
def State.toBridge (s : State) (d : Desc) : State :=
  { s with lookup := { s.lookup with bridgeQ := mput (fun _ => []) s.lookup.bridgeQ d.slice (s.bridgeOf d.slice ++ [d]) } }

/-- A copy of frame `bytes` on session `n`: cut to TRUNC bytes (a new FCS is added at departure), with the session's ENCAP and that entry's current GEN.
A copy is of the current packet's epoch and is counted in no epoch of its own. -/
def State.mirrorCopy (s : State) (n : Nat) (d : Desc) (dropped : Bool) : State :=
  let r := Reg.mirrorSession n
  if n = 0 ∨ !s.flag r Fld.mirrorSession_valid ∨ (dropped ∧ !s.flag r Fld.mirrorSession_onDrop) then s
  else
    let tr := s.fld r Fld.mirrorSession_trunc
    let dest := s.fld r Fld.mirrorSession_dest
    let enc := s.fld r Fld.mirrorSession_encap
    let body := if tr = 0 ∨ d.bytes.length ≤ tr then d.bytes else d.bytes.take tr ++ [0, 0, 0, 0]
    s.toBridge { d with
      bytes := body, park := [], copy := true, copyDest := dest, inspect := 0, program := 255, fragSlot := none, meter := none,
      stamp := { Stamp.none with
        dest := s.fld Reg.trafficDevice Fld.trafficDevice_self * 128 + dest % 128, encap := enc,
        gen := if enc = 0 then 0 else bits (tbl128 s.mem (encapAddr enc)) 126 119,
        tc := s.fld r Fld.mirrorSession_tc, vrf := d.stamp.vrf, nh := 0 } }

/-! ### Sampling (R156 to R158) -/

/-- Sampler `n` before it has counted anything. -/
def Sampler.fresh : Sampler := { count := 1, pool := 0, drops := 0, seq := 0 }

/-- A sampler's counters. -/
def State.sampler (s : State) (n : Nat) : Sampler := mget (fun _ => Sampler.fresh) s.lookup.samplers n

/-- Replaces a sampler's counters. -/
def State.setSampler (s : State) (n : Nat) (x : Sampler) : State :=
  { s with lookup := { s.lookup with samplers := mput (fun _ => Sampler.fresh) s.lookup.samplers n x } }

/-- The next count of a sampler of mean `n`: `n` in deterministic mode; in random mode from its generator, whose state the spec does not give (a free value). -/
def State.sampleCount (s : State) (mode n : Nat) : Nat × State :=
  if mode = 1 then (n, s)
  else
    let (d, s) := s.draw
    (1 + Config.freeNat d % 2 ^ 32 * (2 * n - 1) / 2 ^ 32, s)

/-- What a sample says of its packet beside the frame. -/
structure SampleInfo where
  egress  : Bool
  dropped : Bool
  inPort  : Nat
  outPort : Nat
  tc      : Nat
  colour  : Nat
  epoch   : Nat
  vrf     : Nat
  op      : Nat
  arg     : Nat
  deriving DecidableEq, Repr

/-- The sample header of Table 6.10. -/
def sampleHeader (n : Nat) (i : SampleInfo) (random trunc sflow : Bool) (len cap rate pool drops seq tod : Nat) : Bytes :=
  natBe 2 1 ++ natBe 2 n ++ natBe 1 (b2n i.egress + 2 * b2n random + 4 * b2n i.dropped + 8 * b2n trunc + 16 * b2n sflow)
  ++ natBe 1 i.inPort ++ natBe 1 i.outPort ++ natBe 1 (i.tc + 8 * i.colour) ++ natBe 2 len ++ natBe 2 cap ++ natBe 4 rate
  ++ natBe 4 pool ++ natBe 4 drops ++ natBe 2 i.epoch ++ natBe 2 i.vrf ++ todBytes tod ++ natBe 4 (2 ^ 28 * i.op + i.arg % 2 ^ 28) ++ natBe 4 seq

/-- A flow sample of sFlow version 5 with the fields of Table 6.11; the order and the format words are the sFlow standard's, and the ifIndex of a port is free (log 20). -/
def sflowSample (seq source rate pool drops : Nat) (input output : Option Nat) (len : Nat) (cap : Bytes) : Bytes :=
  let ix (p : Option Nat) := match p with | some p => Config.ifIndex p | none => 0
  let pad := List.replicate ((4 - cap.length % 4) % 4) (0 : Byte)
  let body := natBe 4 seq ++ natBe 4 source ++ natBe 4 rate ++ natBe 4 pool ++ natBe 4 drops ++ natBe 4 (ix input) ++ natBe 4 (ix output)
    ++ natBe 4 1 ++ natBe 4 1 ++ natBe 4 (16 + cap.length + pad.length) ++ natBe 4 1 ++ natBe 4 len ++ natBe 4 4 ++ natBe 4 cap.length ++ cap ++ pad
  natBe 4 1 ++ natBe 4 body.length ++ body

/-- A sample taken by sampler `n` (R157): within MAX_RATE it goes to the exporter, beyond it is discarded and counted. -/
def State.takeSample (s : State) (n : Nat) (frame : Bytes) (i : SampleInfo) : State :=
  let r := Reg.samplerCfg n
  let x := s.sampler n
  let sec := s.tod / 1000000000
  let used := if s.lookup.sampSecond = sec then s.lookup.sampCount else 0
  let hit := if s.lookup.sampSecond = sec then s.lookup.sampHit else []
  if s.fld Reg.sampleCtrl Fld.sampleCtrl_maxRate ≤ used then
    let hit := if hit.contains n then hit else hit ++ [n]
    let s := { s with lookup := { s.lookup with sampHit := hit } }
    State.raiseLimited (State.count (s.setSampler n { x with drops := x.drops + 1 }) .lookupSamplerRateDrop) 0x0306 0 (natBe 2 hit.length)
  else
    let s := { s with lookup := { s.lookup with sampSecond := sec, sampCount := used + 1, sampHit := hit } }
    let s := s.setSampler n { x with seq := x.seq + 1 }
    let tr := s.fld r Fld.samplerCfg_trunc
    let body := frame.take (frame.length - 4)
    let cap := body.take tr
    let sflow := s.flag r Fld.samplerCfg_sflow
    let hdr := sampleHeader n i (s.fld r Fld.samplerCfg_mode == 0) (decide (tr < body.length)) sflow frame.length cap.length
      (s.fld r Fld.samplerCfg_n) x.pool x.drops x.seq s.tod
    if sflow then
      s.tele 7 6 (sflowSample x.seq (s.fld r Fld.samplerCfg_source) (s.fld r Fld.samplerCfg_n) x.pool x.drops (some i.inPort)
        (if i.outPort < 96 then some i.outPort else none) frame.length cap)
    else s.tele 2 1 (hdr ++ cap ++ List.replicate ((4 - cap.length % 4) % 4) 0)

/-- A packet reaches sampler `n` (R156). -/
def State.sample (s : State) (n : Nat) (frame : Bytes) (i : SampleInfo) : State :=
  let r := Reg.samplerCfg n
  if n = 0 ∨ !s.flag r Fld.samplerCfg_valid then s
  else
    let x := s.sampler n
    if 1 < x.count then s.setSampler n { x with pool := x.pool + 1, count := x.count - 1 }
    else
      let (c, s) := s.sampleCount (s.fld r Fld.samplerCfg_mode) (s.fld r Fld.samplerCfg_n)
      (s.setSampler n { x with pool := x.pool + 1, count := c }).takeSample n frame i

/-- A sampler after its configuration was written (R156): the count is reloaded as the mode requires; pool, drops and sequence are cleared. -/
def State.samplerReload (s : State) (n : Nat) : State :=
  let (c, s) := s.sampleCount (s.fld (Reg.samplerCfg n) Fld.samplerCfg_mode) (s.fld (Reg.samplerCfg n) Fld.samplerCfg_n)
  s.setSampler n { Sampler.fresh with count := c }

/-- SAMPLER_CFG_WRITE (R156); a value outside its range is refused (R7). -/
def samplerCfgWrite (n : Nat) (v : Word) (s : State) : State :=
  match s.hostWrite (Reg.samplerCfg n) v with
  | none => s
  | some t => t.samplerReload n

/-- EMHASH_BANK_READ (R140): a bucket read that has waited more than 8 F-clocks is counted; it is served late and never taken as a miss. -/
def emhashBankRead (_bank waited : Nat) (s : State) : State := if 8 < waited then s.count .lookupEmhashBankStall else s

def execMeterRefresh (m : Nat) (s : State) : Out := s.act (meterRefresh m s)
def execSamplerCfgWrite (n : Nat) (v : Word) (s : State) : Out := s.act (samplerCfgWrite n v s)
def execEmhashBankRead (b w : Nat) (s : State) : Out := s.act (emhashBankRead b w s)

end Sys2Proof.Machine
end

