-- ==== Sys2Proof/Machine/Assoc.lean ====
section
/-! DEFINITION. The associative memory (chapter 7): partitions, replicas and cascades, searches, moves, scrubbing and repair. -/

namespace Sys2Proof.Machine

/-! ### Arrays and units -/

/-- The partition descriptor of array `a` (Table 7.2), 128 bits. -/
def State.part (s : State) (a : Nat) : Nat := 2 ^ 64 * (s.reg (Reg.assocPartHi a)).toNat + (s.reg (Reg.assocPartLo a)).toNat

/-- The table of array `a`. -/
def State.partTable (s : State) (a : Nat) : Nat := bits (s.part a) 126 121

/-- Arrays in a horizontal cascade of table `t` (R171). -/
def State.cascade (s : State) (t : Nat) : Nat :=
  let w := s.fld (Reg.assocTableCfg t) Fld.assocTableCfg_width
  if w = 0 then 1 else if w = 1 then 2 else 4

/-- Whether array `a` is the head of a unit of table `t`: enabled, no continuation and no chain member. -/
def State.unitHead (s : State) (t a : Nat) : Bool :=
  let p := s.part a
  bit p 127 && bits p 126 121 == t && !bit p 53 && bits p 52 51 != 2

/-- Whether the partition of array `a` covers a key of `w` bits (R162). -/
def State.partCovers (s : State) (a w key : Nat) : Bool :=
  let p := s.part a
  (key / 2 ^ (w - 16) % 65536 &&& bits p 104 89) == (bits p 120 105 &&& bits p 104 89)

/-- The units of the vertical chain that begins at array `a` (R172), as the arrays that lead them: itself alone when it is no chain head. -/
def State.chainUnits (s : State) (n a : Nat) : Nat → Nat → List Nat
  | 0, _ => []
  | f + 1, h => h ::
    (let nx := h + n
     if bits (s.part a) 52 51 = 1 ∧ nx / 8 = a / 8 ∧ bits (s.part nx) 52 51 = 2 ∧ s.partTable nx = s.partTable a then s.chainUnits n a f nx else [])

/-- The units that the unit headed by `a` of table `t` searches as one. -/
def State.unitList (s : State) (t a : Nat) : List Nat := s.chainUnits (s.cascade t) a 8 a

/-- VALUE of row `r` of array `a` (Table 7.1). -/
def rowValue (m : List Host.Cell) (a r : Nat) : Nat := 2 ^ 64 * bits (tblWord m (rowAddr a r + 0x10)) 63 48 + tblWord m (rowAddr a r)

/-- MASK of row `r` of array `a`. -/
def rowMask (m : List Host.Cell) (a r : Nat) : Nat := 2 ^ 64 * bits (tblWord m (rowAddr a r + 0x10)) 47 32 + tblWord m (rowAddr a r + 8)

/-- The word of row `r` that holds VALID, VIC, VIN, PRIORITY and RESULT. -/
def rowCtl (m : List Host.Cell) (a r : Nat) : Nat := tblWord m (rowAddr a r + 0x18)

/-- Whether a row matches 80 key bits in epoch `e` (R159). -/
def rowMatches (m : List Host.Cell) (a r e key : Nat) : Bool :=
  bit (rowCtl m a r) 63 && visible (rowCtl m a r) 62 e && (key &&& rowMask m a r) == (rowValue m a r &&& rowMask m a r)

/-- Whether a row of a unit of `n` arrays matches: the same row in every array, each on its 80 key bits (R171). -/
def unitRowMatches (m : List Host.Cell) (h n r e key : Nat) : Bool :=
  (List.range n).all (fun j => rowMatches m (h + j) r e (key / 2 ^ (80 * (n - 1 - j)) % 2 ^ 80))

/-- What a unit returns: the array, row and logical row of its first matching row (R168, R172). -/
structure RowHit where
  lead  : Nat
  array : Nat
  row   : Nat
  lrow  : Nat
  prio  : Nat
  result : Nat
  deriving DecidableEq, Repr

/-- The lowest-numbered matching row of the unit headed by `a`. -/
def State.unitSearch (s : State) (t a e key : Nat) : Option RowHit :=
  let n := s.cascade t
  let us := s.unitList t a
  (List.range us.length).findSome? (fun i =>
    let h := (us[i]?).getD a
    ((List.range 32768).find? (fun r => unitRowMatches s.mem h n r e key)).map (fun r =>
      { lead := bits (s.part a) 60 54, array := h, row := r, lrow := 32768 * i + r, prio := bits (rowCtl s.mem h r) 43 32, result := bits (rowCtl s.mem h r) 19 0 }))

/-- Whether hit `x` goes before `y`: higher priority, then the lowest global address (R168). -/
def RowHit.before (x y : RowHit) : Bool :=
  decide (y.prio < x.prio) || (x.prio == y.prio && (decide (x.lead < y.lead) || (x.lead == y.lead && decide (x.lrow ≤ y.lrow))))

/-- The best of the rows the visited units return. -/
def bestHit (l : List RowHit) : Option RowHit :=
  l.foldl (fun b x => match b with | none => some x | some y => if y.before x then some y else some x) none

/-- The short result of a hit (Table 7.4); none when the indirect store's word is not served (R283). -/
def State.assocResult (s : State) (t res : Nat) : Option Nat :=
  let tm := s.fld (Reg.assocTableTemplate t) Fld.assocTableTemplate_template
  let mode := s.fld (Reg.assocTableCfg t) Fld.assocTableCfg_resultMode
  if mode = 1 then some (2 ^ 44 * bits res 19 16 + 2 ^ 32 * bits res 11 0 + bits tm 31 0)
  else if mode = 2 then
    let off := 2 ^ 20 * s.fld Reg.assocCtrl Fld.assocCtrl_indBase + 8 * (res + bits tm 21 0)
    if s.hbmServes (tableCtl off) then some (tblWord s.mem (hbmAddr off) % 2 ^ 48) else none
  else some (2 ^ 20 * bits tm 47 20 + res)

/-! ### Issue of a pass's searches (R166, R167, R173) -/

/-- A search that is not made. -/
def Search.idle : Search := { phase := 0, table := 0, key := 0, units := [], queued := [], result := 0, hit := false, err := false }

/-- Searches queued at unit `u`. -/
def State.unitQueue (s : State) (u : Nat) : Nat :=
  (s.lookup.assocWait.flatMap (fun x => x.searches.filter (fun q => q.phase != 3 && q.queued.contains u))).length

/-- Whether an earlier key of slice `k` waits for unit `u`. -/
def State.unitBlocked (s : State) (k u : Nat) : Bool :=
  s.lookup.assocWait.any (fun x => x.slice == k && x.searches.any (fun q => q.phase != 3 && q.units.contains u && !q.queued.contains u))

/-- The table a search definition's key goes to (R350): the partner while the bank-select bit of the pass's epoch parity is 1. -/
def State.searchTable (s : State) (x : Pass) (i : Nat) : Nat :=
  let r := Reg.assocSearch x.slice i
  let t := s.fldEp x.epoch r Fld.assocSearch_table
  if s.fldEp x.epoch r Fld.assocSearch_altValid = 1 ∧ bit (s.regPar (x.epoch % 2 == 1) Reg.epochBankSel).toNat t then
    s.fldEp x.epoch r Fld.assocSearch_tableAlt
  else t

/-- Whether search definition `i` is made on this pass (R166). -/
def State.searchMade (s : State) (x : Pass) (i : Nat) : Bool :=
  let r := Reg.assocSearch x.slice i
  let ps := s.fldEp x.epoch r Fld.assocSearch_passes
  s.fldEp x.epoch r Fld.assocSearch_valid == 1
    && (ps == 0 || (ps == 1 && x.passNo == 1) || (ps == 2 && x.passNo != 1))
    && (x.battByte 3 &&& s.fldEp x.epoch r Fld.assocSearch_flagMask) == s.fldEp x.epoch r Fld.assocSearch_flagValue

/-- The member of a replica set that a key goes to (R167): the shortest queue, among equals in rotating order after the last one chosen. -/
def State.replicaPick (s : State) (t lead : Nat) : State × Nat :=
  let ms := (List.range 128).filter (fun a => s.unitHead t a && bits (s.part a) 60 54 == lead)
  let least := ms.foldl (fun b a => min b (s.unitQueue a)) 4096
  let pick := (rotFind 128 ((mget (fun _ => 127) s.lookup.replicaRot lead + 1) % 128) (fun a => ms.contains a && s.unitQueue a == least)).getD lead
  ({ s with lookup := { s.lookup with replicaRot := mput (fun _ => 127) s.lookup.replicaRot lead pick } }, pick)

/-- The replica sets of table `t` that cover a key (R167). -/
def State.covering (s : State) (t key : Nat) : List Nat :=
  (List.range 128).filter (fun a =>
    (List.range 128).any (fun b => s.unitHead t b && bits (s.part b) 60 54 == a && s.partCovers b (80 * s.cascade t) key))

/-- Issues search `i` of a pass: a key that no unit covers is a miss; else it goes to each covering unit's queue, or waits at the slice for a place. -/
def State.issueSearch (s : State) (x : Pass) (i : Nat) : State × Search :=
  if !s.searchMade x i then (s, Search.idle)
  else
    let t := s.searchTable x i
    let w := 10 * s.cascade t
    let key := beNat (padKey w (x.key (s.stageWord x (Reg.assocSearchKey0 x.slice i)) (s.stageWord x (Reg.assocSearchKey1 x.slice i))))
    match s.covering t key with
    | [] => (s.count .associativeDispatchNoCover, { Search.idle with phase := 3, table := t, key := key })
    | ls =>
      let (s, us) := ls.foldl (fun (p : State × List Nat) l => let (s, u) := p.1.replicaPick t l; (s, p.2 ++ [u])) (s, [])
      let q := us.filter (fun u => decide (s.unitQueue u < 32) && !s.unitBlocked x.slice u)
      (s, { Search.idle with phase := if q.length = us.length then 2 else 1, table := t, key := key, units := us, queued := q })

/-- Issues the searches of a pass, all together after classification (R166). -/
def State.issueSearches (s : State) (x : Pass) : State × Pass :=
  let (s, qs) := (List.range 4).foldl (fun (p : State × List Search) i => let (s, q) := p.1.issueSearch x i; (s, p.2 ++ [q])) (s, [])
  (s, { x with searches := qs })

/-- Whether every search of a pass has ended. -/
def Pass.searched (x : Pass) : Bool := x.searches.all (fun q => q.phase == 0 || q.phase == 3)

/-- The searches merged in their order (R169, R182): a hit's result, a miss's MISS_RESULT, an error's action with reason 0xFF11. -/
def State.mergeSearches (s : State) (x : Pass) : State × Pass :=
  (List.range x.searches.length).foldl (fun (p : State × Pass) i =>
    let (s, x) := p
    let q := (x.searches[i]?).getD Search.idle
    let miss := s.stageWord x (Reg.assocSearchMiss x.slice i)
    if q.phase = 0 then (s, x)
    else if q.err then
      let act := s.fldEp x.epoch (Reg.assocSearch x.slice i) Fld.assocSearch_errAction
      let s := if act = 1 then s.count .associativeDispatchErrDrop else if act = 2 then s.count .associativeDispatchErrPunt else s
      s.mergeError x act 0xFF11 miss
    else if q.hit then s.merge x q.result
    else s.merge x miss) (s, x)

/-! ### Results -/

/-- The pass `pid` among those that wait for searches. -/
def State.waiting (s : State) (pid : Nat) : Option Pass := s.lookup.assocWait.find? (fun x => x.pid == pid)

/-- Replaces a waiting pass. -/
def State.setWaiting (s : State) (x : Pass) : State :=
  { s with lookup := { s.lookup with assocWait := s.lookup.assocWait.map (fun y => if y.pid == x.pid then x else y) } }

/-- A pass with search `i` replaced. -/
def Pass.setSearch (x : Pass) (i : Nat) (q : Search) : Pass := { x with searches := x.searches.set i q }

/-- The outcome of search `i` of a pass whose key is queued at all its units (R168, R169, R183). -/
def State.searchOutcome (s : State) (x : Pass) (i : Nat) (ecc : EccResult) : State × Pass :=
  let q := (x.searches[i]?).getD Search.idle
  match bestHit (q.units.filterMap (fun u => s.unitSearch q.table u x.epoch q.key)) with
  | none => (s, x.setSearch i { q with phase := 3 })
  | some h =>
    match ecc with
    | .uncorrectable _ =>
      let s := (s.count .associativeArrayEccUncorr h.array).raise 0x0404 (natBe 1 h.array ++ natBe 2 h.row)
      ({ s with lookup := { s.lookup with rowRepair := s.lookup.rowRepair ++ [(h.array, h.row)] } }, x.setSearch i { q with phase := 3, err := true })
    | _ =>
      let s := if ecc = .corrected then s.count .associativeArrayEccCorr h.array else s
      match s.assocResult q.table h.result with
      | some r => (s, x.setSearch i { q with phase := 3, hit := true, result := r })
      | none => (s, x.setSearch i { q with phase := 3, err := true })

/-- The outcome of a search whose key has waited too long (R182). -/
def State.searchTimeout (s : State) (x : Pass) (i : Nat) : State × Pass :=
  let q := (x.searches[i]?).getD Search.idle
  ((s.count .associativeDispatchTimeout).raiseLimited 0x0401 q.table (natBe 1 q.table ++ natBe 1 (q.units.headD 0)), x.setSearch i { q with phase := 3, err := true })

/-- ASSOC_KEY_QUEUED (R173): the first waiting key of slice `k` whose unit has a place enters that unit's queue. -/
def assocKeyQueued (k : Nat) (s : State) : State :=
  let cand := s.lookup.assocWait.filter (fun x => x.slice == k)
  match cand.findSome? (fun x => (List.range x.searches.length).findSome? (fun i =>
      let q := (x.searches[i]?).getD Search.idle
      if q.phase = 1 then (q.units.find? (fun u => !q.queued.contains u && decide (s.unitQueue u < 32))).map (fun u => (x, i, u)) else none)) with
  | none => s
  | some (x, i, u) =>
    let q := (x.searches[i]?).getD Search.idle
    let qs := q.queued ++ [u]
    s.setWaiting (x.setSearch i { q with queued := qs, phase := if qs.length = q.units.length then 2 else 1 })

/-! ### Moves (R178 to R180) -/

/-- The head of the chain that array `a` lies in, or itself. -/
def State.chainHead (s : State) (a : Nat) : Nat :=
  let t := s.partTable a
  ((List.range 8).find? (fun j => let h := 8 * (a / 8) + j; s.unitHead t h && (s.unitList t h).contains a)).map (fun j => 8 * (a / 8) + j) |>.getD a

/-- A row of a unit of `n` arrays written from another: every word. -/
def State.copyRow (s : State) (n a r b q : Nat) : State :=
  (List.range (4 * n)).foldl (fun s i => s.put true (rowAddr (b + i / 4) q + 8 * (i % 4)) (tblWord s.mem (rowAddr (a + i / 4) r + 8 * (i % 4)))) s

/-- A row of a unit cleared of VALID. -/
def State.clearRow (s : State) (n a r : Nat) : State :=
  (List.range n).foldl (fun s j => s.put true (rowAddr (a + j) r + 0x18) (setBits (rowCtl s.mem (a + j) r) 63 1 0)) s

/-- No move in hand. -/
def RowMove.none : RowMove := { src := 0, dst := 0, dstArray := 0, left := 0, down := false, toClear := Option.none }

/-- ASSOC_MOVE_START (R180): the firmware writes ASSOC_MOVE; the move is refused with a code, or begins. The codes are tried in their order. -/
def assocMoveStart (a src dst count dstArray : Nat) (s : State) : State :=
  let r := Reg.assocMove a
  let s := s.setReg r (putField Fld.assocMove_srcRow src (putField Fld.assocMove_dstRow dst (putField Fld.assocMove_count count (putField Fld.assocMove_dstArray dstArray 0))))
  let inSrc (q : Nat) : Bool := dstArray == a && decide (src ≤ q) && decide (q < src + count)
  let code :=
    if (List.range count).any (fun i => !inSrc (dst + i) && decide (dst + i < 32768) && bit (rowCtl s.mem dstArray (dst + i)) 63) then 1
    else if 32768 < src + count ∨ 32768 < dst + count then 2
    else if !(bit (s.part dstArray) 127 && s.partTable dstArray == s.partTable a) then 3
    else 0
  let s := (s.setFld (Reg.assocMoveStatus a) Fld.assocMoveStatus_code code).setFld (Reg.assocMoveStatus a) Fld.assocMoveStatus_done 0
  if code ≠ 0 then s.raise 0x0405 (natBe 1 a ++ natBe 1 code)
  else if count = 0 then s
  else
    let mv : RowMove := { src := src, dst := dst, dstArray := dstArray, left := count, down := decide (src < dst), toClear := none }
    State.setFlag { s with lookup := { s.lookup with moves := mput (fun _ => RowMove.none) s.lookup.moves a mv } }
      r Fld.assocMove_start true

/-- The move in hand of array `a`. -/
def State.move (s : State) (a : Nat) : RowMove := mget (fun _ => RowMove.none) s.lookup.moves a

/-- One row of the move of array `a` is done: DONE and the counter rise; after the last row START reads 0. -/
def State.rowMoved (s : State) (a : Nat) (mv : RowMove) : State :=
  let last := mv.left ≤ 1
  let s := { s with lookup := { s.lookup with moves := mput (fun _ => RowMove.none) s.lookup.moves a (if last then RowMove.none else { mv with left := mv.left - 1, toClear := none }) } }
  let s := s.setFld (Reg.assocMoveStatus a) Fld.assocMoveStatus_done (s.fld (Reg.assocMoveStatus a) Fld.assocMoveStatus_done + 1)
  let s := s.count .associativeArrayMoves a
  if last then s.setFlag (Reg.assocMove a) Fld.assocMove_start false else s

/-- ASSOC_ROW_MOVE: within one array or chain the destination is set valid and the source cleared together (R178); to another unit
the destination is set valid first and the source waits to be cleared (R179). -/
def assocRowMove (a : Nat) (s : State) : State :=
  let mv := s.move a
  if mv.left = 0 ∨ mv.toClear ≠ none then s
  else
    let n := s.cascade (s.partTable a)
    let off := if mv.down then mv.left - 1 else s.fld (Reg.assocMove a) Fld.assocMove_count - mv.left
    let t := s.copyRow n a (mv.src + off) mv.dstArray (mv.dst + off)
    if s.chainHead a = s.chainHead mv.dstArray then (t.clearRow n a (mv.src + off)).rowMoved a mv
    else { t with lookup := { t.lookup with moves := mput (fun _ => RowMove.none) t.lookup.moves a { mv with toClear := some (mv.src + off) } } }

/-- ASSOC_MOVE_SOURCE_CLEAR (R179). -/
def assocMoveSourceClear (a : Nat) (s : State) : State :=
  let mv := s.move a
  match mv.toClear with
  | none => s
  | some r => (s.clearRow (s.cascade (s.partTable a)) a r).rowMoved a mv

/-! ### Scrubbing (R184) -/

/-- ASSOC_SCRUB_READ: the scrubber reads row SCRUB_ROW of an enabled array; a parity failure asks for repair, or clears VALID where the table has REPAIR 0. -/
def assocScrubRead (a : Nat) (parityOk : Bool) (s : State) : State :=
  let st := Reg.assocArrayStatus a
  let r := s.fld st Fld.assocArrayStatus_scrubRow
  if !bit (s.part a) 127 then s
  else
    let s := s.setFld st Fld.assocArrayStatus_scrubRow ((r + 1) % 32768)
    if parityOk then s
    else
      let s := ((s.count .associativeArrayParityErr a).raise 0x0402 (natBe 1 a ++ natBe 2 r)).setFlag st Fld.assocArrayStatus_paritySeen true
      if s.flag (Reg.assocTableCfg (s.partTable a)) Fld.assocTableCfg_repair then
        { s with lookup := { s.lookup with rowRepair := s.lookup.rowRepair ++ [(a, r)] } }
      else s.tblPut (rowAddr a r + 0x18) (setBits (rowCtl s.mem a r) 63 1 0)

/-- ASSOC_ROW_REPAIR (R183, R184): the firmware rewrites a row that waits for repair from its shadow. -/
def assocRowRepair (a r : Nat) (s : State) : State :=
  if s.lookup.rowRepair.contains (a, r) then
    let s := { s with lookup := { s.lookup with rowRepair := s.lookup.rowRepair.erase (a, r) } }
    let s := (List.range 4).foldl (fun s i => s.tblPut (rowAddr a r + 8 * i) (tblWord s.lookup.shadow (rowAddr a r + 8 * i))) s
    (s.count .associativeArrayRepaired a).raise 0x0403 (natBe 1 a ++ natBe 2 r)
  else s

def execAssocKeyQueued (k : Nat) (s : State) : Out := s.act (assocKeyQueued k s)
def execAssocMoveStart (a src dst count dstArray : Nat) (s : State) : Out := s.act (assocMoveStart a src dst count dstArray s)
def execAssocRowMove (a : Nat) (s : State) : Out := s.act (assocRowMove a s)
def execAssocMoveSourceClear (a : Nat) (s : State) : Out := s.act (assocMoveSourceClear a s)
def execAssocScrubRead (a : Nat) (ok : Bool) (s : State) : Out := s.act (assocScrubRead a ok s)
def execAssocRowRepair (a r : Nat) (s : State) : Out := s.act (assocRowRepair a r s)

end Sys2Proof.Machine
end

