-- ==== Sys2Proof/Machine/Dit.lean ====
section
/-! DEFINITION. Resolving a decision (R189 to R192), the stamped result (R194), learn requests (R202), and the end of a pass:
meter, mirror, sample, trace, recirculation, inspection or the bridge. INGRESS_LOOKUP and the answers its waits end with. -/

namespace Sys2Proof.Machine

/-! ### The stamped result as bits -/

/-- The 128 bits of Table 8.8. -/
def Stamp.word (t : Stamp) : Nat :=
  2 ^ 125 * t.dkind + 2 ^ 106 * t.dest + 2 ^ 87 * t.encap + 2 ^ 79 * t.gen + 2 ^ 77 * t.labelOp + 2 ^ 57 * t.newLabel + 2 ^ 56 * b2n t.ttlDec
  + 2 ^ 53 * t.tc + 2 ^ 51 * t.colour + 2 ^ 35 * t.vrf + 2 ^ 15 * t.nh + t.spread

/-! ### Resolution -/

/-- What resolution has gathered so far: the merged result, how many direct-index reads were made, the label operation, the rewrite of
the last next hop that counts (R191), the last next hop read and the hash of the first group spread. -/
structure Res where
  m      : Merged
  reads  : Nat
  labelOp : Nat
  newLabel : Nat
  encap  : Nat
  gen    : Nat
  route  : Bool
  nh     : Nat
  hash   : Option Nat
  deriving DecidableEq, Repr

/-- How resolution ends: a destination, a failure of Table 8.7 or R201 (DKIND and reason), or a recirculation. -/
inductive Ending where
  | to (dkind dest : Nat)
  | stop (dkind reason : Nat)
  | recirc (form strip data : Nat)
  deriving DecidableEq, Repr

/-- Counts a resolution failure (Table 8.7). -/
def failCtr : Nat → Ctr
  | 1 => .lookupDitLabelMiss | 2 => .lookupDitBadChain | 3 => .lookupDitNhMiss | 4 => .lookupDitBdMiss | 5 => .lookupDitUnknownDrop
  | 6 => .lookupDitUnknownPunt | 7 => .lookupDitTtlExpired | _ => .lookupDitEccDrop

/-- A failure of row `r`: punt for rows 6 and 7, else drop, with reason 0xFF00 + row (R192). -/
def State.resFail (s : State) (r : Nat) : State × Ending := (s.count (failCtr r), .stop (if r = 6 ∨ r = 7 then 2 else 3) (0xFF00 + r))

/-- A direct-index read that met an uncorrectable error (R211): reported, and with REPAIR 1 the entry is rewritten from the shadow. -/
def State.ditError (s : State) (table index a words : Nat) : State :=
  let s := s.raise 0x0314 (natBe 1 table ++ natBe 3 index)
  if s.flag Reg.ditCtrl Fld.ditCtrl_repair then (List.range words).foldl (fun s i => s.tblPut (a + 8 * i) (tblWord s.lookup.shadow (a + 8 * i))) s else s

/-- The destination a port names (R290). -/
def Ending.port (d : Nat) : Ending := .to 0 (d % 2 ^ 19)

/-- The packet's load-spread hash of a group, noted when it is the pass's first spread (R197). -/
def Res.spread (r : Res) (h : Nat) : Res := { r with hash := some (r.hash.getD h) }

/-- A spread over LAG group `g`; `rot` when it is reached through an ECMP slot (R145). -/
def State.resLag (s : State) (x : Pass) (r : Res) (g : Nat) (ecmpHash : Option Nat) : State × Res × Ending :=
  let own := s.spreadHash (bits (tblWord s.mem (lagAddr g)) 62 59) x
  let h := match ecmpHash with | some e => rot16 e | none => own
  let r := r.spread own
  match s.spreadLag g h with
  | .fail why => (s.spreadFail g why, r, .stop 3 why)
  | .slot 2 v => (s, r, .port v)
  | .slot _ _ => let (s, e) := s.resFail 2; (s, r, e)

/-- Reads next hop `i` (Table 8.3): its fields are noted, its profile merged. -/
def State.readNh (s : State) (x : Pass) (r : Res) (i : Nat) : State × Res × Option Nat × Bool :=
  let a := nhAddr i
  let e := tblWord s.mem a
  let r := { r with reads := r.reads + 1 }
  if x.errs.dit.contains (r.reads - 1) then (s.ditError 1 i a 1, r, none, true)
  else if !(bit e 63 && visible e 62 x.epoch) then (s, r, none, false)
  else
    let first := r.encap = 0
    let take := bits e 57 39 ≠ 0 ∨ first
    (s, { r with
      m := s.mergeProfile (bits e 30 19) r.m
      encap := if take then bits e 57 39 else r.encap
      gen := if take then bits e 38 31 else r.gen
      route := if take then bit e 58 else r.route
      nh := i }, some e, false)

/-- A next hop that may name anything but an ECMP group (the second next hop of R191). -/
def State.resNh2 (s : State) (x : Pass) (r : Res) (i h : Nat) : State × Res × Ending :=
  match s.readNh x r i with
  | (s, r, _, true) => let (s, e) := s.resFail 8; (s, r, e)
  | (s, r, none, _) => let (s, e) := s.resFail 3; (s, r, e)
  | (s, r, some e, _) =>
    let d := bits e 18 0
    match bits e 60 59 with
    | 0 => (s, r, .port d)
    | 1 => let (s, e) := s.resFail 2; (s, r, e)
    | 2 => s.resLag x r (d % 256) (some h)
    | _ => (s, r, .to 1 d)

/-- A spread over ECMP group `g` (R191). -/
def State.resEcmp (s : State) (x : Pass) (r : Res) (g : Nat) : State × Res × Ending :=
  let h := s.spreadHash (bits (tblWord s.mem (ecmpAddr g)) 62 59) x
  let r := r.spread h
  match s.spreadEcmp g h with
  | .fail why => (s.spreadFail g why, r, .stop 3 why)
  | .slot 2 v => (s, r, .port v)
  | .slot _ v => s.resNh2 x r v h

/-- A next hop (R191). -/
def State.resNh (s : State) (x : Pass) (r : Res) (i : Nat) : State × Res × Ending :=
  match s.readNh x r i with
  | (s, r, _, true) => let (s, e) := s.resFail 8; (s, r, e)
  | (s, r, none, _) => let (s, e) := s.resFail 3; (s, r, e)
  | (s, r, some e, _) =>
    let d := bits e 18 0
    match bits e 60 59 with
    | 0 => (s, r, .port d)
    | 1 => s.resEcmp x r (d % 16384)
    | 2 => s.resLag x r (d % 256) none
    | _ => (s, r, .to 1 d)

/-- A byte string of the batt. -/
def Pass.battAt (x : Pass) (off n : Nat) : Bytes := ((x.batt.drop off) ++ List.replicate n 0).take n

/-- The label stack entry at batt byte `o`. -/
def Pass.labelEntry (x : Pass) (o : Nat) : Nat := beNat (x.battAt o 4)

/-- Reads label entry `i` (Table 8.2). -/
def State.readLabel (s : State) (x : Pass) (r : Res) (i : Nat) : State × Res × Option Nat × Bool :=
  let a := labelAddr i
  let e := tblWord s.mem a
  let r := { r with reads := r.reads + 1 }
  if x.errs.dit.contains (r.reads - 1) then (s.ditError 0 i a 1, r, none, true)
  else if !(bit e 63 && visible e 62 x.epoch) then (s, r, none, false)
  else (s, { r with m := s.mergeProfile (bits e 17 6) r.m }, some e, false)

/-- The strip of label action 3: the L3 offset; a pass whose parse marked no L3 header has none, and takes a free value. -/
def State.l3Strip (s : State) (x : Pass) : State × Nat :=
  let o := bits (beNat (x.battAt 10 4)) 31 23
  if o = 511 then (let (d, s) := s.draw; (s, Config.freeNat d % 256)) else (s, o)

/-- A label entry's action, with the stack entry `lab` it was read for and whether a label was popped before it (R190). -/
def State.labelAct (s : State) (x : Pass) (r : Res) (e lab : Nat) (popped : Bool) : State × Res × Ending :=
  match bits e 60 58 with
  | 0 =>
    if lab % 256 ≤ 1 then let (s, f) := s.resFail 7; (s, r, f)
    else s.resNh x { r with labelOp := if popped then 3 else 1, newLabel := bits e 37 18 } (bits e 57 38)
  | 1 => s.resNh x { r with labelOp := 2 } (bits e 57 38)
  | 3 => let (s, n) := s.l3Strip x; (s, r, .recirc (s.fld Reg.ditCtrl Fld.ditCtrl_popForm) n (lab / 4096 % 65536))
  | _ => let (s, f) := s.resFail 2; (s, r, f)

/-- OP 5 (R190): the label named, and once the label below it. -/
def State.resLabel (s : State) (x : Pass) (r : Res) (arg : Nat) : State × Res × Ending :=
  let o := s.fld Reg.ditCtrl Fld.ditCtrl_labelSrc
  match s.readLabel x r arg with
  | (s, r, _, true) => let (s, e) := s.resFail 8; (s, r, e)
  | (s, r, none, _) => let (s, e) := s.resFail 1; (s, r, e)
  | (s, r, some e, _) =>
    if bits e 60 58 = 2 then
      let below := x.labelEntry (o + 4)
      match s.readLabel x r (below / 4096) with
      | (s, r, _, true) => let (s, e) := s.resFail 8; (s, r, e)
      | (s, r, none, _) => let (s, e) := s.resFail 1; (s, r, e)
      | (s, r, some e2, _) => s.labelAct x r e2 below true
    else s.labelAct x r e (x.labelEntry o) false

/-- What a MAC lookup answers: an error under R201, a miss, or a hit's address and stored result. -/
inductive MacHit where
  | err
  | miss
  | hit (a : Nat) (res : Nat)
  deriving DecidableEq, Repr

/-- A MAC lookup in table `t` for bridge domain `bd` (R190, R198); `n` numbers the lookup for the pass's memory errors. -/
def State.macLookup (s : State) (x : Pass) (n t bd : Nat) (mac : Bytes) : State × MacHit :=
  match x.hashErr n with
  | some a => ((s.count .lookupEmhashEccUncorr).hashRepair a, .err)
  | none =>
    let key := padKey (widthBytes (s.fld (Reg.emhashTableCfg t) Fld.emhashTableCfg_width)) (natBe 2 bd ++ mac)
    let a := (s.hashFind s.mem t (some x.epoch) key).headD 0
    match s.hashSearch t x.epoch key with
    | (s, some r) => (s, .hit a r)
    | (s, none) => (s, .miss)

/-- An unknown destination under its action (Table 8.4). -/
def State.unknownDest (s : State) (x : Pass) (r : Res) (act flood : Nat) : State × Res × Ending :=
  if act = 1 then let (s, e) := s.resFail 5; (s, r, e)
  else if act = 2 then let (s, e) := s.resFail 6; (s, r, e)
  else s.resNh x r flood

/-- OP 6 (R190). -/
def State.resBridge (s : State) (x : Pass) (r : Res) (bd : Nat) : State × Res × Ending :=
  let a := bdAddr bd
  let e := tbl128 s.mem a
  let r := { r with reads := r.reads + 1 }
  if x.errs.dit.contains (r.reads - 1) then let (s, f) := (s.ditError 3 bd a 2).resFail 8; (s, r, f)
  else if !(bit e 127 && visible e 126 x.epoch) then let (s, f) := s.resFail 4; (s, r, f)
  else
    let r := { r with m := s.mergeProfile (bits e 91 80) r.m }
    let mac := x.battAt 16 6
    let flood := bits e 111 92
    let group := bit (x.battByte 16) 0
    let unknown := if group then bits e 113 112 else bits e 115 114
    if beNat mac = 0xFFFFFFFFFFFF then s.resNh x r flood
    else
      match s.macLookup x 8 (bits e 124 117) bd mac with
      | (s, .hit _ res) =>
        let sr := s.hashResult (bits e 124 117) res
        s.resNh x { r with m := s.mergeProfile (bits sr 43 32) r.m } (sr % 2 ^ 20)
      | (s, .miss) => s.unknownDest x r unknown flood
      | (s, .err) =>
        let act := s.fld Reg.ditCtrl Fld.ditCtrl_hashErrAction
        if act = 1 then (s, r, .stop 3 0xFF12) else if act = 2 then (s, r, .stop 2 0xFF12) else s.unknownDest x r unknown flood

/-- Resolution of a pass (R190, R191), from its merged result. -/
def State.resolve (s : State) (x : Pass) : State × Res × Ending :=
  let auto := x.m.op = 0 ∧ s.flag Reg.ditCtrl Fld.ditCtrl_labelAuto ∧ bit (x.battByte 3) 1
  let m := if auto then { x.m with op := 5, arg := x.labelEntry (s.fld Reg.ditCtrl Fld.ditCtrl_labelSrc) / 4096 } else x.m
  let r : Res := { m := m, reads := 0, labelOp := 0, newLabel := 0, encap := 0, gen := 0, route := false, nh := 0, hash := none }
  match m.op with
  | 1 => s.resNh x r (m.arg % 2 ^ 20)
  | 2 => s.resEcmp x r (m.arg % 2 ^ 14)
  | 3 => s.resLag x r (m.arg % 256) none
  | 4 => (s, r, .port m.arg)
  | 5 => s.resLabel x r (m.arg % 2 ^ 20)
  | 6 => s.resBridge x r (m.arg % 65536)
  | 7 => (s, r, .stop 3 (m.arg % 65536))
  | 8 => (s, r, .stop 2 (m.arg % 65536))
  | 9 => (s, r, .recirc (bits m.arg 31 24) (bits m.arg 23 16) (m.arg % 65536))
  | _ => (s.count .lookupDitNoDecision, r, .stop 3 0xFF13)

/-- The TTL test of Table 8.7 row 7, made on a destination that was reached. -/
def State.ttlCheck (s : State) (x : Pass) (r : Res) (e : Ending) : State × Ending :=
  match e with
  | .to _ _ => if r.route ∧ x.battByte 92 ≤ 1 then s.resFail 7 else (s, e)
  | _ => (s, e)

/-- The stamp of an ending (R194); SPREAD_HASH is that of the first spread, or of profile 0 (R197). -/
def State.stampOf (s : State) (x : Pass) (r : Res) (dkind dest : Nat) : Stamp :=
  let fwd := dkind ≤ 1
  { dkind := dkind, dest := dest, encap := if fwd then r.encap else 0, gen := if fwd then r.gen else 0,
    labelOp := if fwd then r.labelOp else 0, newLabel := if fwd then r.newLabel else 0, ttlDec := fwd && r.route,
    tc := r.m.tc, colour := r.m.colour, vrf := r.m.vrf, nh := r.nh,
    spread := (match r.hash with | some h => h | none => s.spreadHash 0 x) % 2 ^ 14 }

/-! ### Learn requests (R202, R203) -/

/-- The queue of learn arbiter `l`. -/
def State.learnOf (s : State) (l : Nat) : List LearnReq := mget (fun _ => []) s.lookup.learnQ l

/-- A request enters its arbiter's queue of 64, or is discarded. -/
def State.learnRequest (s : State) (q : LearnReq) : State :=
  let l := q.bd / 4096
  if 64 ≤ (s.learnOf l).length then s.count .lookupLearnQueueFull l
  else { s with lookup := { s.lookup with learnQ := mput (fun _ => []) s.lookup.learnQ l (s.learnOf l ++ [q]) } }

/-- The source lookup of a pass-1 bridged packet (R202): a request, a conflict, or nothing. The answer is the stamp, dropped where CONFLICT_ACT or LIMIT_ACT says so. -/
def State.learn (s : State) (x : Pass) (bd : Nat) (t : Stamp) : State × Stamp :=
  let e := tbl128 s.mem (bdAddr bd)
  let cfg := Reg.ditPortCfg x.slice (x.port % 8)
  let mac := x.battAt 22 6
  let tbl := bits e 124 117
  let nh := s.fld cfg Fld.ditPortCfg_learnNh
  let may := bit e 116 && s.flag cfg Fld.ditPortCfg_learnEn && !bit (x.battByte 22) 0 && !x.bad && x.msec != 2 && t.dkind != 3
  let req : LearnReq := { slice := x.slice, port := x.port, table := tbl, bd := bd, mac := beNat mac, nh := nh }
  match s.macLookup x 9 tbl bd mac with
  | (s, .err) => (s, t)
  | (s, .miss) =>
    let limit := s.fld cfg Fld.ditPortCfg_learnLimit
    if may && s.lookup.limitSeen.contains x.port && limit != 0 && decide (limit ≤ s.fld cfg Fld.ditPortCfg_learned) && s.flag cfg Fld.ditPortCfg_limitAct then
      (s.count .lookupLearnLimit (bd / 4096), { t with dkind := 3, dest := 0xFF0A, encap := 0, gen := 0 })
    else if may then (s.learnRequest req, t) else (s, t)
  | (s, .hit a res) =>
    let fixed := bit (tblWord s.mem a) 59 || bit res 31
    if res % 2 ^ 20 = nh then (s, t)
    else if fixed then
      let s := s.count .lookupLearnConflict (bd / 4096)
      if s.flag cfg Fld.ditPortCfg_conflictAct then (s, { t with dkind := 3, dest := 0xFF09, encap := 0, gen := 0 }) else (s, t)
    else if may then (s.learnRequest req, t) else (s, t)

/-! ### The end of a pass -/

/-- A field of a trace record: a search (Table 18.9). -/
def Search.traceBytes (q : Search) : Bytes := natBe 1 q.table ++ natBe 1 (b2n (q.phase == 3) + 2 * b2n q.hit + 4 * b2n q.err) ++ natBe 6 q.result

/-- A trace record (Table 18.9). -/
def Pass.trace (x : Pass) (st : Nat) : Bytes :=
  natBe 1 x.slice ++ natBe 1 x.passNo ++ natBe 2 x.epoch ++ todBytes x.parsedAt ++ x.batt.take 128
  ++ (List.range 8).flatMap (fun n => match x.stages.find? (fun t => t.stage == n) with
      | some t => natBe 1 t.type ++ natBe 1 (1 + 2 * b2n t.hit) ++ natBe 6 t.result
      | none => natBe 8 0)
  ++ (List.range 4).flatMap (fun i => match x.searches[i]? with | some q => q.traceBytes | none => natBe 8 0)
  ++ natBe 16 st

/-- TRACE (R431): one header in N that matches is traced, into a ring of 256. -/
def State.tracePass (s : State) (x : Pass) (st : Nat) : State :=
  let r := Reg.traceCfg x.slice
  let k := x.slice
  if !(s.flag r Fld.traceCfg_valid && (x.battByte 3 &&& s.fld r Fld.traceCfg_flagMask) == s.fld r Fld.traceCfg_flagValue) then s
  else
    let left := mget (fun _ => 0) s.lookup.traceLeft k
    let n := (if left = 0 then s.fld r Fld.traceCfg_n else left) - 1
    let s := { s with lookup := { s.lookup with traceLeft := mput (fun _ => 0) s.lookup.traceLeft k n } }
    if n ≠ 0 then s
    else
      let ring := mget (fun _ => []) s.lookup.traceRing k
      if 256 ≤ ring.length then s.count .lookupSliceTraceLost k
      else { s with lookup := { s.lookup with traceRing := mput (fun _ => []) s.lookup.traceRing k (ring ++ [x.trace st]) } }

/-- The descriptor of a stamped pass. -/
def Pass.desc (x : Pass) (t : Stamp) : Desc :=
  { stamp := t, bytes := x.bytes, port := x.port, slice := x.slice, epoch := x.epoch, bad := x.bad, ts := x.ts, tsValid := x.tsValid,
    fragClass := x.fragClass, batt := x.batt, payload := x.payload, program := x.m.program, inspect := 0, fragSlot := x.fragSlot,
    meter := x.m.meter, stripped := x.stripped, park := x.park, stream := 0, rate := 0, streamed := false, node := 0, win := 0, replica := false, copy := false, copyDest := 0 }

/-- A packet whose stamped result is final leaves the slice (R127, R194): a dropped one leaves the device, any other crosses the bridge. -/
def State.leaveSlice (s : State) (d : Desc) : State :=
  let s := s.fragComplete d.slice d.fragSlot d.stamp d.meter
  if d.stamp.dkind = 3 then (s.unpark d.slice d.park).epochLeave d.epoch else s.toBridge d

/-- The packets of slice `k` that wait for dispatch. -/
def State.engOf (s : State) (k : Nat) : List Desc := mget (fun _ => []) s.lookup.engQ k

/-- What a pass's meter says of its stamp (R149, R151). -/
def State.meterStamp (s : State) (x : Pass) (t : Stamp) : State × Stamp × Bool :=
  match x.m.meter with
  | none => (s, t, false)
  | some m =>
    let (s, c, why) := s.meterPacket m t.colour
    match why with
    | none => (s, { t with colour := c }, false)
    | some r => (s, { t with colour := c, dkind := 3, dest := r, encap := 0, gen := 0 }, true)

/-- Copies, sample and trace of a stamped pass (R154, R156, R431). -/
def State.observe (s : State) (x : Pass) (t : Stamp) : State :=
  let d := x.desc t
  let dropped := t.dkind == 3
  let s := if x.passNo = 1 then s.mirrorCopy (s.fld (Reg.classPortCfg x.slice (x.port % 8)) Fld.classPortCfg_rxMirror) d dropped else s
  let s := s.mirrorCopy x.m.mirror d dropped
  let outPort := if t.dkind = 0 ∧ t.dest / 128 = s.fld Reg.trafficDevice Fld.trafficDevice_self then t.dest % 128 else 0xFF
  let s := s.sample x.m.sampler x.bytes
    { egress := false, dropped := dropped, inPort := x.port, outPort := outPort, tc := t.tc, colour := t.colour, epoch := x.epoch, vrf := t.vrf,
      op := x.m.op, arg := x.m.arg }
  s.tracePass x t.word

/-- A stamped pass goes on: to inspection (R214), to the bridge, or out of the device. -/
def State.finish (s : State) (x : Pass) (t : Stamp) : State :=
  let (s, t, _) := s.meterStamp x t
  let s := if t.dkind ≤ 1 then (s.accCount 0x103 (2 * t.nh) 1).accCount 0x103 (2 * t.nh + 1) x.bytes.length else s
  let s := s.observe x t
  let d := x.desc t
  if x.m.program < 255 ∧ t.dkind ≤ 1 ∧ !x.bad ∧ x.fragClass ≠ 3 then
    { s with lookup := { s.lookup with engQ := mput (fun _ => []) s.lookup.engQ x.slice (s.engOf x.slice ++ [d]) } }
  else s.leaveSlice d

/-- A pass that ends in a recirculation is not stamped (R190); its meter, copies and sample are taken as on any pass. -/
def State.finishRecirc (s : State) (x : Pass) (form strip data : Nat) : State :=
  let t := { Stamp.none with tc := x.m.tc, colour := x.m.colour, vrf := x.m.vrf }
  let (s, t, drop) := s.meterStamp x t
  let s := s.observe x t
  if drop then s.leaveSlice (x.desc t) else s.recirculate x form strip data

/-- A pass whose searches have ended: merge, resolve, learn, stamp. -/
def State.endLookup (s : State) (x : Pass) : State :=
  let (s, x) := s.mergeSearches x
  let bridged := x.m.op = 6
  let bd := x.m.arg % 65536
  let (s, r, e) := s.resolve x
  let (s, e) := s.ttlCheck x r e
  let x := { x with m := r.m }
  match e with
  | .recirc f n d => s.finishRecirc { x with m := { x.m with op := 9 } } f n d
  | .to k d =>
    let t := s.stampOf x r k d
    let (s, t) := if bridged ∧ x.passNo = 1 then s.learn x bd t else (s, t)
    s.finish x t
  | .stop k d =>
    let t := s.stampOf x r k d
    let absent := e = .stop 3 0xFF04
    let (s, t) := if bridged ∧ x.passNo = 1 ∧ ¬absent then s.learn x bd t else (s, t)
    s.finish x t

/-- A pass whose chain has ended issues its searches (R166), and ends at once when none waits. -/
def State.afterChain (s : State) (x : Pass) : State :=
  let (s, x) := s.issueSearches x
  if x.searched then s.endLookup x else { s with lookup := { s.lookup with assocWait := s.lookup.assocWait ++ [x] } }

/-- A pass goes down its chain; a flow stage parks it. -/
def State.runChain (s : State) (x : Pass) : State :=
  match s.chain x 8 with
  | (s, x, true) => { s with lookup := { s.lookup with flowWait := s.lookup.flowWait ++ [x] } }
  | (s, x, false) => s.afterChain x

/-- INGRESS_LOOKUP (R133): the oldest parsed pass of slice `k`. A pass that follows a fragment's result, or that the parser decided, consults no table. -/
def ingressLookup (k : Nat) (errs : EccErrs) (s : State) : State :=
  match s.lookOf k with
  | [] => s
  | x :: rest =>
    let s := { s with lookup := { s.lookup with lookQ := mput (fun _ => []) s.lookup.lookQ k rest } }
    match x.follow with
    | some t => s.finish x t
    | none =>
      let s := (s.countN .lookupEmhashEccCorr 0 errs.hashCorr).countN .lookupDitEccCorr 0 errs.ditCorr
      s.runChain { x with errs := errs }

/-- The pass `pid` parked at a flow stage. -/
def State.flowPass (s : State) (pid : Nat) : Option Pass := s.lookup.flowWait.find? (fun x => x.pid == pid)

/-- The state without that pass. -/
def State.flowTake (s : State) (pid : Nat) : State :=
  { s with lookup := { s.lookup with flowWait := s.lookup.flowWait.filter (fun x => x.pid != pid) } }

/-- A flow lookup that ended with the error flag (R201). -/
def State.flowError (s : State) (x : Pass) : State :=
  let t := s.fldEp x.epoch (Reg.classStageCfg x.slice x.stage) Fld.classStageCfg_table
  let (s, x) := ((s.count .lookupFlowError).raiseLimited 0x0317 t (natBe 1 t)).stageError x 2
  s.runChain x

/-- FLOW_LOOKUP_RESPONSE (R200, R201): the h0 bucket, and the h1 bucket when the key is not found and OVF is not zero;
a bucket in a pseudo-channel that does not serve, or with an uncorrectable error, takes the error path. -/
def flowLookupResponse (pid : Nat) (uncorrectable : Bool) (s : State) : State :=
  match s.flowPass pid with
  | none => s
  | some x =>
    let s := s.flowTake pid
    let t := s.fldEp x.epoch (Reg.classStageCfg x.slice x.stage) Fld.classStageCfg_table
    let key := padKey (s.fld (Reg.flowTableCfg t) Fld.flowTableCfg_keyLen) (s.stageKey x)
    let (b0, b1) := s.flowCands t key
    let hit (a : Nat) : State :=
      let r := bits (tblWord s.mem a) 47 0
      let (s, x) := (s.flowHit a).stageHit x 2 r
      s.runChain x
    let miss : State := let (s, x) := s.stageMiss x 2; s.runChain x
    if uncorrectable || !s.hbmServes (tableCtl b0) then s.flowError x
    else
      match flowFind s.mem t b0 (some x.epoch) key with
      | some a => hit a
      | none =>
        if flowOvf s.mem b0 = 0 then miss
        else if !s.hbmServes (tableCtl b1) then s.flowError x
        else match flowFind s.mem t b1 (some x.epoch) key with | some a => hit a | none => miss

/-- FLOW_LOOKUP_TIMEOUT (R201). -/
def flowLookupTimeout (pid : Nat) (s : State) : State :=
  match s.flowPass pid with
  | none => s
  | some x => (s.flowTake pid).flowError x

/-- A waiting pass after one of its searches ended: it leaves the wait when it was the last. -/
def State.searchEnded (s : State) (x : Pass) : State :=
  if x.searched then State.endLookup { s with lookup := { s.lookup with assocWait := s.lookup.assocWait.filter (fun y => y.pid != x.pid) } } x
  else s.setWaiting x

/-- ASSOC_SEARCH_RESULT (R168): once the key is queued at every unit it visits. -/
def assocSearchResult (pid i : Nat) (ecc : EccResult) (s : State) : State :=
  match s.waiting pid with
  | none => s
  | some x =>
    if ((x.searches[i]?).getD Search.idle).phase = 2 then let (s, x) := s.searchOutcome x i ecc; s.searchEnded x else s

/-- ASSOC_DISPATCH_TIMEOUT (R182). -/
def assocDispatchTimeout (pid i : Nat) (s : State) : State :=
  match s.waiting pid with
  | none => s
  | some x =>
    let ph := ((x.searches[i]?).getD Search.idle).phase
    if ph = 1 ∨ ph = 2 then let (s, x) := s.searchTimeout x i; s.searchEnded x else s

def execIngressLookup (k : Nat) (errs : EccErrs) (s : State) : Out := s.act (ingressLookup k errs s)
def execFlowLookupResponse (pid : Nat) (u : Bool) (s : State) : Out := s.act (flowLookupResponse pid u s)
def execFlowLookupTimeout (pid : Nat) (s : State) : Out := s.act (flowLookupTimeout pid s)
def execAssocSearchResult (pid i : Nat) (ecc : EccResult) (s : State) : Out := s.act (assocSearchResult pid i ecc s)
def execAssocDispatchTimeout (pid i : Nat) (s : State) : Out := s.act (assocDispatchTimeout pid i s)

end Sys2Proof.Machine
end

