-- ==== Sys2Proof/Machine/Learn.lean ====
section
/-! DEFINITION. Learning, moves, ageing and integrity of the forwarding tables (R202 to R212), and the hold of deleted encapsulations (R195). -/

namespace Sys2Proof.Machine

/-! ### The learn log (R206) -/

/-- A learn record (Table 8.11). -/
structure LearnRec where
  type  : Nat
  table : Nat
  bd    : Nat
  key   : Bytes
  newNh : Nat
  oldNh : Nat
  deriving DecidableEq, Repr

/-- Its 16 bytes; the key is a MAC address, or for type 5 the bucket and the stack and way. -/
def LearnRec.bytes (r : LearnRec) : Bytes :=
  natBe 1 r.type ++ natBe 1 r.table ++ natBe 2 r.bd ++ (r.key ++ List.replicate 6 0).take 6 ++ natBe 3 r.newNh ++ natBe 3 r.oldNh

/-- The table-HBM offset of record `i` of the learn log. -/
def State.logOffset (s : State) (i : Nat) : Nat := 2 ^ 20 * s.fld Reg.learnLogPtr Fld.learnLogPtr_base + 16 * i

/-- Writes a record; a full ring discards it, and the table's shadow is stale (R206). -/
def State.learnLog (s : State) (r : LearnRec) : State :=
  let wr := s.fld Reg.learnLogPtr Fld.learnLogPtr_wr
  if (wr + 1) % 65536 = s.fld Reg.learnLogPtr Fld.learnLogPtr_rd then
    (((s.count .lookupLearnLogLost (r.bd / 4096)).setFlag (Reg.tableAgeCfg r.table) Fld.tableAgeCfg_stale true)).raise 0x0315 (natBe 1 r.table)
  else
    State.setFld { s with mem := memPut s.mem (hbmAddr (s.logOffset wr)) r.bytes } Reg.learnLogPtr Fld.learnLogPtr_wr ((wr + 1) % 65536)

/-! ### Learned entries of ports (R205) -/

/-- The configuration word of line port `p` in its slice. -/
def ditPort (p : Nat) : Nat := Reg.ditPortCfg (p / 8) (p % 8)

/-- Changes LEARNED of every port whose LEARN_NH is `nh`. -/
def State.learnedAdd (s : State) (nh : Nat) (d : Int) : State :=
  (List.range 96).foldl (fun s p =>
    if s.fld (ditPort p) Fld.ditPortCfg_learnNh = nh then
      s.setFld (ditPort p) Fld.ditPortCfg_learned ((s.fld (ditPort p) Fld.ditPortCfg_learned : Int) + d).toNat
    else s) s

/-- The time in 100 ms units modulo 256 (R204). -/
def State.moveNow (s : State) : Nat := s.time.stepFree / 100000000 % 256

/-- The stored result of a MAC entry (R198). -/
def macResult (ts : Nat) (frozen : Bool) (moves mstart nh : Nat) : Nat := 2 ^ 32 * ts + 2 ^ 31 * b2n frozen + 2 ^ 28 * moves + 2 ^ 20 * mstart + nh

/-- The key of a MAC entry. -/
def LearnReq.key (q : LearnReq) : Bytes := natBe 2 q.bd ++ natBe 6 q.mac

/-- A learn request of Table 8.10 for which no entry was found; `deep` when the management cores take it (R203). -/
def State.learnNew (s : State) (q : LearnReq) (deep : Bool) : State :=
  let cfg := ditPort q.port
  let l := q.bd / 4096
  let limit := s.fld cfg Fld.ditPortCfg_learnLimit
  let r : LearnRec := { type := 1, table := q.table, bd := q.bd, key := natBe 6 q.mac, newNh := q.nh, oldNh := 0 }
  if limit ≠ 0 ∧ limit ≤ s.fld cfg Fld.ditPortCfg_learned then
    let s := { s with lookup := { s.lookup with limitSeen := if s.lookup.limitSeen.contains q.port then s.lookup.limitSeen else s.lookup.limitSeen ++ [q.port] } }
    ((s.count .lookupLearnLimit l).learnLog { r with type := 6 }).raiseLimited 0x0316 q.port (natBe 1 q.port)
  else
    match s.hashPlace true deep q.table 0 q.key with
    | (some a, s) =>
      let hi := 2 ^ 63 + 3 * 2 ^ 57 + 2 ^ 48 * q.table + macResult s.ageNow false 0 s.moveNow q.nh
      ((((s.putEntry false a (entryWords hi 0 q.key)).learnedAdd q.nh 1).count .lookupLearnLearned l)).learnLog r
    | (none, s) =>
      if deep then
        (((s.insertFull q.table).learnLog { r with type := 7 }).count .lookupLearnTableFull l).raise 0x0310 (natBe 1 q.table ++ natBe 2 q.bd)
      else if 256 ≤ s.lookup.handoff.length then s.count .lookupLearnHandoffFull l
      else { s with lookup := { s.lookup with handoff := s.lookup.handoff ++ [q] } }

/-- A move of the entry at `a` under R204: allowed with the window's new count and start, or none when it freezes the entry. -/
def State.moveWindow (s : State) (res : Nat) : Option (Nat × Nat) :=
  let now := s.moveNow
  let moves := bits res 30 28
  let mstart := bits res 27 20
  if !s.flag Reg.learnCfg Fld.learnCfg_dampen then some (moves, mstart)
  else if s.fld Reg.learnCfg Fld.learnCfg_moveWindow ≤ (now + 256 - mstart) % 256 then some (1, now)
  else if s.fld Reg.learnCfg Fld.learnCfg_moveLimit < moves + 1 then none
  else some (moves + 1, mstart)

/-- A learn request for the entry at `a`, re-read by the arbiter (Table 8.10). -/
def State.learnFound (s : State) (q : LearnReq) (a : Nat) : State :=
  let l := q.bd / 4096
  let w := tblWord s.mem a
  let res := bits w 47 0
  let old := res % 2 ^ 20
  let r : LearnRec := { type := 2, table := q.table, bd := q.bd, key := natBe 6 q.mac, newNh := q.nh, oldNh := old }
  if old = q.nh then s.count .lookupLearnDuplicate l
  else if bit w 59 || bit res 31 then s.count .lookupLearnConflict l
  else
    match s.moveWindow res with
    | some (moves, mstart) =>
      let s := s.tblPut a (setBits w 0 48 (macResult s.ageNow false moves mstart q.nh))
      ((((s.learnedAdd q.nh 1).learnedAdd old (-1)).count .lookupLearnMoved l)).learnLog r
    | none =>
      let s := s.tblPut a (setBits w 31 1 1)
      ((s.count .lookupLearnFlap l).learnLog { r with type := 4 }).raise 0x0311 (natBe 2 q.bd ++ natBe 6 q.mac)

/-- A learn request served. -/
def State.learnServe (s : State) (q : LearnReq) (deep : Bool) : State :=
  match s.hashFind s.mem q.table none q.key with
  | a :: _ => s.learnFound q a
  | [] => s.learnNew q deep

/-- LEARN_ARBITER_SERVE (R203): the oldest request of arbiter `l`. -/
def learnArbiterServe (l : Nat) (s : State) : State :=
  match s.learnOf l with
  | [] => s
  | q :: rest => State.learnServe { s with lookup := { s.lookup with learnQ := mput (fun _ => []) s.lookup.learnQ l rest } } q false

/-- LEARN_HANDOFF_INSERT (R203): the management cores take the oldest handed-off request, with the cuckoo search of R141 step 4. -/
def learnHandoffInsert (s : State) : State :=
  match s.lookup.handoff with
  | [] => s
  | q :: rest => State.learnServe { s with lookup := { s.lookup with handoff := rest } } q true

/-! ### Removal by the pouncer (R205, R207 to R209) -/

/-- Where hash entries are listed: the buckets (4 slots) and stashes (16 slots) with a byte that is not zero. -/
def listedPlaces (m : List Host.Cell) : List (Nat × Nat) :=
  (m.foldl (fun (l : List (Nat × Nat)) c =>
    let p := if 0x0001_0000_0000 ≤ c.1 ∧ c.1 < 0x0001_0400_0000 then some (c.1 / 64 * 64, 4)
             else if 0x0001_0400_0000 ≤ c.1 ∧ c.1 < 0x0001_0400_4000 then some (c.1 / 256 * 256, 16) else none
    match p with | none => l | some p => if l.contains p then l else l ++ [p]) [])

/-- Every hash entry, by its head's address. -/
def allHeads (m : List Host.Cell) : List Nat := (listedPlaces m).flatMap (fun p => (heads m p.1 p.2).map (fun i => p.1 + 16 * i))

/-- Removes the entry at `a` of a learning table with a record of type `ty`; LEARNED of its port falls. -/
def State.learnRemove (s : State) (a ty : Nat) : State :=
  let h := tbl128 s.mem a
  let nh := bits h 83 64
  let key := entryKey s.mem a
  let t := bits h 119 112
  let s := s.hashRemove false a
  let s := if s.flag (Reg.tableAgeCfg t) Fld.tableAgeCfg_learnTable then s.learnedAdd nh (-1) else s
  s.learnLog { type := ty, table := t, bd := beNat (key.take 2), key := (key.drop 2).take 6, newNh := 0, oldNh := nh }

/-- POUNCER_PORT_FLUSH (R205): the learned entries that name the LEARN_NH of a port that went down are removed and recorded as Flushed. -/
def pouncerPortFlush (p : Nat) (s : State) : State :=
  if !s.line.pouncerDue.contains p then s
  else
    let s := { s with line := { s.line with pouncerDue := s.line.pouncerDue.filter (fun q => q != p) } }
    let nh := s.fld (ditPort p) Fld.ditPortCfg_learnNh
    (allHeads s.mem).foldl (fun s a =>
      let h := tbl128 s.mem a
      if bit h 127 && !bit h 123 && s.flag (Reg.tableAgeCfg (bits h 119 112)) Fld.tableAgeCfg_learnTable && bits h 83 64 == nh then s.learnRemove a 8 else s) s

/-- Whether `a` is the address of an entry's head. -/
def isHead (m : List Host.Cell) (a : Nat) : Bool := (allHeads m).contains a

/-- POUNCER_AGE_VISIT (R207): the entry whose head is at byte address `a`, in a table with AGE_EN. -/
def pouncerAgeVisit (a : Nat) (s : State) : State :=
  let h := tbl128 s.mem a
  let c := Reg.tableAgeCfg (bits h 119 112)
  if !s.canSpend 3 40 then s
  else
  let s := s.spend 3 40
  if !isHead s.mem a || !s.flag c Fld.tableAgeCfg_ageEn || bit h 123 then s
  else if s.fld c Fld.tableAgeCfg_ageLimit < (s.ageNow + 65536 - bits h 111 96) % 65536 then s.learnRemove a 3
  else s

/-- POUNCER_IDLE_PASS (R208): way `way` of the bucket at table-HBM offset `b` of flow table `f`, in a table with AGE_EN.
Type 5 records hold the bucket's number in its stack, then stack × 8 + way (log 12). -/
def pouncerIdlePass (f b way : Nat) (s : State) : State :=
  let a := hbmAddr (b + 64 * way)
  let w := tblWord s.mem a
  if !s.canSpend 3 40 then s
  else
  let s := s.spend 3 40
  if !s.flag (Reg.flowTableCfg f) Fld.flowTableCfg_ageEn || !bit w 63 || bits w 55 48 != f || bit w 60 then s
  else if bit w 62 then s.tblPut a (setBits w 62 1 0)
  else if !bit w 61 then s.tblPut a (setBits w 61 1 1)
  else
    let r : LearnRec := { type := 5, table := f, bd := 0, key := natBe 4 (b % 2 ^ 34 / 512) ++ natBe 1 (b / 2 ^ 34 * 8 + way), newNh := 0, oldNh := 0 }
    (s.flowRemove false a).learnLog r

/-! ### Comparison with the shadow (R212) -/

/-- The entry a table address lies in: table number, index, address and words. -/
structure Entry where
  table : Nat
  index : Nat
  addr  : Nat
  words : Nat
  deriving DecidableEq, Repr

/-- The entry at a table address (Tables 6.5, 7.1, 8.1 and 8.9); hash and flow tables take the number the entry carries. -/
def State.entryAt (s : State) (a : Nat) : Option Entry :=
  if 0x0001_0000_0000 ≤ a ∧ a < 0x0001_0400_4000 then
    let e := a / 16 * 16
    some { table := bits (tblWord s.mem e) 55 48, index := (e - 0x0001_0000_0000) / 16, addr := e, words := 2 }
  else if 0x0001_1000_0000 ≤ a ∧ a < 0x0001_1800_0000 then
    let n := (a - 0x0001_1000_0000) / 0x0010_0000
    some { table := s.partTable n, index := (a - 0x0001_1000_0000) / 0x20, addr := a / 0x20 * 0x20, words := 4 }
  else if 0x0001_2000_0000 ≤ a ∧ a < 0x0001_2080_0000 then some { table := 0, index := (a - 0x0001_2000_0000) / 8, addr := a / 8 * 8, words := 1 }
  else if 0x0001_2080_0000 ≤ a ∧ a < 0x0001_2100_0000 then some { table := 1, index := (a - 0x0001_2080_0000) / 8, addr := a / 8 * 8, words := 1 }
  else if 0x0001_2100_0000 ≤ a ∧ a < 0x0001_2180_0000 then some { table := 2, index := (a - 0x0001_2100_0000) / 16, addr := a / 16 * 16, words := 2 }
  else if 0x0001_2180_0000 ≤ a ∧ a < 0x0001_2190_0000 then some { table := 3, index := (a - 0x0001_2180_0000) / 16, addr := a / 16 * 16, words := 2 }
  else if 0x0100_0000_0000 ≤ a ∧ a < 0x0108_0000_0000 then
    let e := a / 64 * 64
    some { table := bits (tblWord s.mem e) 55 48, index := (e - 0x0100_0000_0000) / 64, addr := e, words := 8 }
  else none

/-- The bits of word `i` of an entry that the walk compares: not HIT, IDLE and timestamps, nor RESULT bits 31:20 of MAC tables. -/
def State.compareBits (s : State) (e : Entry) (i w : Nat) : Nat :=
  if i ≠ 0 then w
  else if e.addr < 0x0001_0400_4000 then
    let w := setBits w 60 1 0
    let w := if s.fld (Reg.emhashTableCfg e.table) Fld.emhashTableCfg_aged = 1 then setBits w 32 16 0 else w
    if s.flag (Reg.tableAgeCfg e.table) Fld.tableAgeCfg_learnTable then setBits w 20 12 0 else w
  else if 0x0100_0000_0000 ≤ e.addr then setBits w 61 2 0
  else w

/-- Whether an entry differs from its shadow; learned entries of a table whose shadow is stale are left out. -/
def State.differs (s : State) (e : Entry) : Bool :=
  let hash := decide (e.addr < 0x0001_0400_4000)
  let learned (m : List Host.Cell) : Bool := let w := tblWord m e.addr
    bit w 63 && !bit w 59 && s.flag (Reg.tableAgeCfg (bits w 55 48)) Fld.tableAgeCfg_learnTable && s.flag (Reg.tableAgeCfg (bits w 55 48)) Fld.tableAgeCfg_stale
  if hash && (learned s.mem || learned s.lookup.shadow) then false
  else (List.range e.words).any (fun i => s.compareBits e i (tblWord s.mem (e.addr + 8 * i)) != s.compareBits e i (tblWord s.lookup.shadow (e.addr + 8 * i)))

/-- COMPARE_WALK_READ (R212): the entry at `addr` against the shadow; a difference waits for its second read. -/
def compareWalkRead (addr : Nat) (s : State) : State :=
  match if s.canSpend 3 40 then s.entryAt addr else none with
  | none => s
  | some e =>
    let s := s.spend 3 40
    if s.differs e then
      let left := (s.fld Reg.learnLogPtr Fld.learnLogPtr_wr + 65536 - s.fld Reg.learnLogPtr Fld.learnLogPtr_rd) % 65536
      { s with lookup := { s.lookup with mismatches := s.lookup.mismatches ++ [{ addr := e.addr, table := e.table, logLeft := left }] } }
    else s

/-- COMPARE_CONFIRM (R212): the second read, once no batch is in progress and the learn log has been drained past the first read. -/
def compareConfirm (addr : Nat) (s : State) : State :=
  match s.lookup.mismatches.find? (fun m => m.addr == addr) with
  | none => s
  | some m =>
    if m.logLeft ≠ 0 ∨ s.fcp.flip.isSome then s
    else
      let s := { s with lookup := { s.lookup with mismatches := s.lookup.mismatches.erase m } }
      match s.entryAt addr with
      | none => s
      | some e =>
        if !s.differs e then s
        else
          let data := natBe 1 e.table ++ natBe 4 e.index
          let s := (s.count .lookupCompareMismatch).raise 0x0312 data
          if s.flag Reg.ditCtrl Fld.ditCtrl_repair then
            State.raise ((List.range e.words).foldl (fun s i => s.tblPut (e.addr + 8 * i) (tblWord s.lookup.shadow (e.addr + 8 * i))) s) 0x0313 data
          else s

/-- COMPARE_PERIOD_OVERRUN (R212). -/
def comparePeriodOverrun (s : State) : State := s.setFlag Reg.compareStatus Fld.compareStatus_late true

/-- ENCAP_HOLD_EXPIRY (R195): a deleted encapsulation entry becomes invalid and reusable. -/
def encapHoldExpiry (i : Nat) (s : State) : State :=
  if s.lookup.encapHold.contains i then
    let s := { s with lookup := { s.lookup with encapHold := s.lookup.encapHold.filter (fun j => j != i) } }
    s.put true (encapAddr i) (setBits (tblWord s.mem (encapAddr i)) 63 1 0)
  else s

def execLearnArbiterServe (l : Nat) (s : State) : Out := s.act (learnArbiterServe l s)
def execLearnHandoffInsert (s : State) : Out := s.act (learnHandoffInsert s)
def execPouncerPortFlush (p : Nat) (s : State) : Out := s.act (pouncerPortFlush p s)
def execPouncerAgeVisit (a : Nat) (s : State) : Out := s.act (pouncerAgeVisit a s)
def execPouncerIdlePass (f b w : Nat) (s : State) : Out := s.act (pouncerIdlePass f b w s)
def execCompareWalkRead (a : Nat) (s : State) : Out := s.act (compareWalkRead a s)
def execCompareConfirm (a : Nat) (s : State) : Out := s.act (compareConfirm a s)
def execComparePeriodOverrun (s : State) : Out := s.act (comparePeriodOverrun s)
def execEncapHoldExpiry (i : Nat) (s : State) : Out := s.act (encapHoldExpiry i s)

end Sys2Proof.Machine
end

