-- ==== Sys2Proof/Machine/Engine.lean ====
section
/-! DEFINITION. The pattern engines (chapter 9): dispatch, the programming model, the instruction set, pattern searches, faults and sampling. -/

namespace Sys2Proof.Machine

/-! ### State access -/

/-- A descriptor of no packet. -/
def Desc.none : Desc :=
  { stamp := Stamp.none, bytes := [], port := 0, slice := 0, epoch := 0, bad := false, ts := 0, tsValid := false, fragClass := 0, batt := [],
    payload := 0, program := 255, inspect := 0, fragSlot := Option.none, meter := Option.none, stripped := false, park := [], stream := 0, rate := 0, streamed := false, node := 0, win := 0, replica := false, copy := false, copyDest := 0 }

/-- An engine that runs nothing. -/
def Engine.idle : Engine :=
  { run := false, slice := 0, seq := 0, d := Desc.none, program := 255, regs := List.replicate 16 0, pc := 0, stack := [], scratch := [], act := 0,
    value := 0, colourSet := false, colour := 0, cycles := 0, scan := none }

/-- Engine `e`. -/
def State.eng (s : State) (e : Nat) : Engine := mget (fun _ => Engine.idle) s.engine.engines e

/-- Replaces engine `e`. -/
def State.setEng (s : State) (e : Nat) (x : Engine) : State :=
  { s with engine := { s.engine with engines := mput (fun _ => Engine.idle) s.engine.engines e x } }

/-- The dispatched packets of slice `k`, in dispatch order. -/
def State.outOf (s : State) (k : Nat) : List Dispatched := mget (fun _ => []) s.engine.out k

/-- Replaces them. -/
def State.setOut (s : State) (k : Nat) (l : List Dispatched) : State := { s with engine := { s.engine with out := mput (fun _ => []) s.engine.out k l } }

/-- The engine hold of slice `k`. -/
def State.engHold (s : State) (k : Nat) : List Desc := mget (fun _ => []) s.engine.hold k

/-- Replaces it. -/
def State.setEngHold (s : State) (k : Nat) (l : List Desc) : State := { s with engine := { s.engine with hold := mput (fun _ => []) s.engine.hold k l } }

/-- The request queue of cluster `c`. -/
def State.cq (s : State) (c : Nat) : List (Nat × Nat) := mget (fun _ => []) s.engine.queue c

/-- Replaces it; QUEUE follows. -/
def State.setCq (s : State) (c : Nat) (l : List (Nat × Nat)) : State :=
  State.setFld { s with engine := { s.engine with queue := mput (fun _ => []) s.engine.queue c l } } (Reg.engineClusterStatus c) Fld.engineClusterStatus_queue l.length

/-- Engines of cluster `c` that run a program. -/
def State.busy (s : State) (c : Nat) : Nat := ((List.range 32).filter (fun i => (s.eng (32 * c + i)).run)).length

/-- BUSY follows the engines. -/
def State.busyEval (s : State) (c : Nat) : State := s.setFld (Reg.engineClusterStatus c) Fld.engineClusterStatus_busy (s.busy c)

/-- Whether cluster `c` takes dispatches: not draining, not under test, not disabled (R216). -/
def State.clusterOpen (s : State) (c : Nat) : Bool :=
  !s.flag (Reg.engineClusterCtrl c) Fld.engineClusterCtrl_drain && !s.flag (Reg.engineClusterStatus c) Fld.engineClusterStatus_underTest
    && !s.flag (Reg.engineClusterStatus c) Fld.engineClusterStatus_disabled

/-- ELIGIBLE follows. -/
def State.clusterEval (s : State) (c : Nat) : State := s.setFlag (Reg.engineClusterStatus c) Fld.engineClusterStatus_eligible (s.clusterOpen c)

/-! ### Dispatch (R214 to R217) -/

/-- The cluster a request of program `p` goes to: eligible with room, most idle engines, then the shortest queue, then in rotating order. -/
def State.pickCluster (s : State) (p : Nat) : Option Nat :=
  let cs := (List.range 8).filter (fun c => bit (s.fld (Reg.engineProg p) Fld.engineProg_clusters) c && s.clusterOpen c && decide ((s.cq c).length < 32))
  let least := cs.foldl (fun b c => min b (s.busy c)) 33
  let cs := cs.filter (fun c => s.busy c == least)
  let short := cs.foldl (fun b c => min b (s.cq c).length) 33
  rotFind 8 ((s.engine.lastCluster + 1) % 8) (fun c => cs.contains c && (s.cq c).length == short)

/-- The cost of a dispatch (Table 16.2). -/
def State.dispatchCost (s : State) (p : Nat) : Nat := 2000 + 75 * s.fld (Reg.engineProg p) Fld.engineProg_budget

/-- A dispatch, when the three things of R217 are there. -/
def State.tryDispatch (s : State) (d : Desc) : Option State :=
  match s.pickCluster d.program with
  | none => none
  | some c =>
    if 512 ≤ (s.outOf d.slice).length ∨ !s.canSpend 2 (s.dispatchCost d.program) then none
    else
      let q := mget (fun _ => 0) s.engine.seqNext d.slice
      let s := s.spend 2 (s.dispatchCost d.program)
      let s := s.setOut d.slice (s.outOf d.slice ++ [{ seq := q, cluster := c, d := d, ended := false }])
      let s := s.setCq c (s.cq c ++ [(d.slice, q)])
      some { s with engine := { s.engine with seqNext := mput (fun _ => 0) s.engine.seqNext d.slice ((q + 1) % 2 ^ 28), lastCluster := c } }

/-- A packet that is not inspected (R217, R229): inspection status 2. -/
def State.engSkip (s : State) (d : Desc) : State := s.leaveSlice { d with inspect := 2 }

/-- A packet dropped for lack of an engine (R217). -/
def State.engDrop (s : State) (d : Desc) (reason : Nat) : State :=
  (s.raiseLimited 0x0506 d.slice (natBe 1 d.slice ++ natBe 1 d.stamp.tc)).leaveSlice
    { d with stamp := { d.stamp with dkind := 3, dest := reason, encap := 0, gen := 0 } }

/-- The EXPIRE action of a packet's class. -/
def State.engExpire (s : State) (d : Desc) : State :=
  if s.flag (Reg.engineTcPolicy d.stamp.tc) Fld.engineTcPolicy_expire then s.engDrop d 0xFE04 else s.engSkip d

/-- ENGINE_DISPATCH (R215, R217): the packet of slice `k` whose window bytes are present. A request for an invalid program is skipped. -/
def engineDispatch (k : Nat) (s : State) : State :=
  match s.engOf k with
  | [] => s
  | d :: rest =>
    let s := { s with lookup := { s.lookup with engQ := mput (fun _ => []) s.lookup.engQ k rest } }
    if !s.flag (Reg.engineProg d.program) Fld.engineProg_valid then (s.count .lookupSliceEngineSkip k).engSkip d
    else
      match s.tryDispatch d with
      | some t => t
      | none =>
        let pol := s.fld (Reg.engineTcPolicy d.stamp.tc) Fld.engineTcPolicy_policy
        if pol = 1 then
          if (s.engHold k).length < 64 then (s.count .lookupSliceEngineWait k).setEngHold k (s.engHold k ++ [d])
          else (s.count .lookupSliceEngineHoldFull k).engExpire d
        else if pol = 2 then (s.count .lookupSliceEngineDrop k).engDrop d 0xFE03
        else (s.count .lookupSliceEngineSkip k).engSkip d

/-- ENGINE_HOLD_RETRY (R217): the oldest waiting packet. -/
def engineHoldRetry (k : Nat) (s : State) : State :=
  match s.engHold k with
  | [] => s
  | d :: rest =>
    match s.tryDispatch d with
    | some t => t.setEngHold k rest
    | none => s

/-- ENGINE_WAIT_EXPIRY (R217): the oldest waiting packet has waited WAIT. -/
def engineWaitExpiry (k : Nat) (s : State) : State :=
  match s.engHold k with
  | [] => s
  | d :: rest => ((s.setEngHold k rest).count .lookupSliceEngineWaitExpired k).engExpire d

/-! ### A program's memory (R215, R222) -/

/-- The payload window's length: the frame's bytes from the payload offset, FCS left off, up to 1,024. -/
def Desc.window (d : Desc) : Nat := min 1024 (d.bytes.length - 4 - d.payload)

/-- The dispatch block (Table 9.2). -/
def Engine.block (x : Engine) : Bytes :=
  natBe 16 x.d.stamp.word ++ natBe 2 x.d.bytes.length ++ natBe 2 x.d.payload ++ natBe 2 x.d.window ++ natBe 1 x.d.port ++ natBe 1 x.program
  ++ natBe 4 (x.d.ts / 256 % 1000000000) ++ natBe 4 (2 ^ 28 * x.slice + x.seq)

/-- The regions of Table 9.3. -/
inductive Region where
  | header | batt | block | payload | scratch | table
  deriving DecidableEq, Repr

/-- The region a byte address lies in. -/
def regionOf (a : Nat) : Option Region :=
  if a < 0x100 then some .header
  else if a < 0x180 then some .batt
  else if a < 0x1A0 then some .block
  else if a < 0x400 then none
  else if a < 0x800 then some .payload
  else if a < 0xA00 then some .scratch
  else if a < 0x20000 then none
  else if a < 0x40000 then some .table
  else none

/-- The region all `n` bytes from `a` lie in: none is fault 1. -/
def accessRegion (a n : Nat) : Option Region :=
  match regionOf a with
  | none => none
  | some r => if (List.range n).all (fun i => regionOf (a + i) == some r) then some r else none

/-- The window address of cluster-table byte address `a` (an engine address) of cluster `c`. -/
def clusterByte (c a : Nat) : Nat := 0x0001_3000_0000 + 0x0010_0000 * c + 0x0008_0000 + (a - 0x20000)

/-- A byte an engine reads. -/
def State.engByte (s : State) (c : Nat) (x : Engine) (a : Nat) : Byte :=
  match regionOf a with
  | some .header => BitVec.ofNat 8 (winByte (x.d.bytes.take (x.d.bytes.length - 4)) a)
  | some .batt => (x.d.batt[a - 0x100]?).getD 0
  | some .block => (x.block[a - 0x180]?).getD 0
  | some .payload => if a - 0x400 < x.d.window then (x.d.bytes[x.d.payload + (a - 0x400)]?).getD 0 else 0
  | some .scratch => mget (fun _ => 0) x.scratch a
  | some .table => s.memByte (clusterByte c a)
  | none => 0

/-- Reads `n` bytes in network order. -/
def State.engRead (s : State) (c : Nat) (x : Engine) (a n : Nat) : Nat := beNat ((List.range n).map (fun i => s.engByte c x (a + i)))

/-- Writes `n` bytes in network order to scratch or to the cluster table. -/
def State.engWrite (s : State) (c : Nat) (x : Engine) (a n v : Nat) : State × Engine :=
  if a < 0x20000 then (s, { x with scratch := memPut x.scratch a (natBe n v) })
  else ({ s with mem := memPut s.mem (clusterByte c a) (natBe n v) }, x)

/-! ### Registers -/

/-- Register `r` of an engine. -/
def Engine.reg (x : Engine) (r : Nat) : Word := (x.regs[r]?).getD 0

/-- Sets register `r`. -/
def Engine.setReg (x : Engine) (r : Nat) (v : Word) : Engine := { x with regs := x.regs.set r v }

/-- PROGRAM_START (R216, R221): idle engine `e` takes the oldest request of its cluster. -/
def programStart (e : Nat) (s : State) : State :=
  let c := e / 32
  match s.cq c, (s.eng e).run with
  | (k, q) :: rest, false =>
    match (s.outOf k).find? (fun o => o.seq == q) with
    | none => s.setCq c rest
    | some o =>
      let d := o.d
      let regs : List Word := [BitVec.ofNat 64 d.window, BitVec.ofNat 64 d.payload, BitVec.ofNat 64 (2 ^ 28 * k + q), BitVec.ofNat 64 d.bytes.length]
        ++ List.replicate 12 0
      ((s.setCq c rest).setEng e
        { Engine.idle with run := true, slice := k, seq := q, d := d, program := d.program, regs := regs,
                           pc := s.fld (Reg.engineProg d.program) Fld.engineProg_entry }).busyEval c
  | _, _ => s

/-! ### Sampling (R237, R238) -/

/-- A sampling record written (Table 9.10); a full ring discards it. -/
def State.engSample (s : State) (e : Nat) (x : Engine) (op fault addr clocks issue kind : Nat) : State :=
  let c := e / 32
  let p := Reg.engineSamplePtr c
  let wr := s.fld p Fld.engineSamplePtr_wr
  if (wr + 1) % 4096 = s.fld p Fld.engineSamplePtr_rd then (s.count .engineClusterSampleLost c).raiseLimited 0x0505 c (natBe 1 c)
  else
    let a := 0x0001_3000_0000 + 0x0010_0000 * c + 0x000C_0000 + 16 * wr
    let w0 := 2 ^ 32 * (2 ^ 28 * x.slice + x.seq) + 2 ^ 24 * e + 2 ^ 16 * x.program + s.tod % 1000000000 % 65536
    let w1 := 2 ^ 58 * op + 2 ^ 52 * fault + 2 ^ 40 * addr + 2 ^ 24 * min clocks 65535 + 2 ^ 12 * (issue % 4096) + kind
    let s := (s.setMemWord a (BitVec.ofNat 64 w0)).setMemWord (a + 8) (BitVec.ofNat 64 w1)
    s.setFld p Fld.engineSamplePtr_wr ((wr + 1) % 4096)

/-- A completed instruction under SAMPLE_MODE 1 or 2; the random interval is a free value. -/
def State.engSampled (s : State) (e : Nat) (x : Engine) (op addr clocks issue : Nat) : State :=
  let c := e / 32
  let r := Reg.engineClusterCtrl c
  let mode := s.fld r Fld.engineClusterCtrl_sampleMode
  if mode = 1 then
    let left := mget (fun _ => 0) s.engine.sampLeft c
    let (left, s) := if left = 0 then (let (d, s) := s.draw; (1 + Config.freeNat d % (2 * s.fld r Fld.engineClusterCtrl_sampleN - 1), s)) else (left, s)
    let s := { s with engine := { s.engine with sampLeft := mput (fun _ => 0) s.engine.sampLeft c (left - 1) } }
    if left = 1 then s.engSample e x op 0 addr clocks issue 0 else s
  else if mode = 2 ∧ addr = s.fld r Fld.engineClusterCtrl_sampleAddr then s.engSample e x op 0 addr clocks issue 0
  else s

/-! ### The end of a program (R228, R229, R234, R235) -/

/-- The stamped result after a verdict (Table 9.6): colour control, then ACTION. -/
def State.verdictStamp (s : State) (x : Engine) : Stamp :=
  let t := x.d.stamp
  let t := if x.colourSet then { t with colour := x.colour } else t
  if x.act = 1 then { t with dkind := 3, dest := x.value }
  else if x.act = 2 then { t with dkind := 2, dest := x.value }
  else if x.act = 3 then
    { t with dkind := 0, dest := s.fld Reg.trafficDevice Fld.trafficDevice_self * 128 + x.value % 128, encap := 0, labelOp := 0, ttlDec := false }
  else t

/-- Counts a verdict that is applied. -/
def State.verdictCount (s : State) (c act : Nat) : State :=
  if act = 1 then s.count .engineClusterVerdictDrop c
  else if act = 2 then s.count .engineClusterVerdictPunt c
  else if act = 3 then s.count .engineClusterVerdictRedirect c
  else s

/-- The next engine that waits for a scanner of cluster `c` starts its search (R232). -/
def State.scanNext (s : State) (c : Nat) (find : State → Engine → Scan → Word) : State :=
  match mget (fun _ => []) s.engine.scanQ c with
  | [] => s
  | e :: rest =>
    if ((List.range 32).filter (fun i => match (s.eng (32 * c + i)).scan with | some q => q.scanning | none => false)).length < 8 then
      let s := { s with engine := { s.engine with scanQ := mput (fun _ => []) s.engine.scanQ c rest } }
      match (s.eng e).scan with
      | none => s
      | some q => s.setEng e { s.eng e with scan := some { q with scanning := true, result := find s (s.eng e) q } }
    else s

/-! ### Pattern search (R230 to R232) -/

/-- Letters compare without regard to case under NOCASE. -/
def foldCase (b : Nat) : Nat := if 97 ≤ b ∧ b ≤ 122 then b - 32 else b

/-- Whether pattern `i` of cluster `c` matches the payload window of an engine's packet at offset `o`, for a search of `set`; the answer is its length. -/
def State.patternAt (s : State) (c : Nat) (x : Engine) (set o i : Nat) : Option Nat :=
  let base := 0x0001_3000_0000 + 0x0010_0000 * c
  let w := tblWord s.mem (base + 8 * i)
  let len := bits w 59 55 + 1
  let same (j : Nat) : Bool :=
    let a := ((x.d.bytes[x.d.payload + o + j]?).getD 0).toNat
    let b := (s.memByte (base + 0x10000 + 32 * i + j)).toNat
    if bit w 60 then foldCase a == foldCase b else a == b
  if bit w 63 && visible w 62 x.d.epoch && bits w 54 45 == set && decide (o + len ≤ x.d.window) && (List.range len).all same then some len else none

/-- The match that starts exactly at `o`: the longest, then the lowest index (R231). -/
def State.matchAt (s : State) (c : Nat) (x : Engine) (set o : Nat) : Option (Nat × Nat) :=
  (List.range 8192).foldl (fun best i =>
    match s.patternAt c x set o i, best with
    | none, b => b
    | some l, none => some (i, l)
    | some l, some (j, m) => if m < l then some (i, l) else some (j, m)) none

/-- The word a match sets (R231). -/
def State.matchWord (s : State) (c o i : Nat) : Word :=
  BitVec.ofNat 64 (2 ^ 63 + 2 ^ 32 * o + 2 ^ 16 * bits (tblWord s.mem (0x0001_3000_0000 + 0x0010_0000 * c + 8 * i)) 44 29 + i)

/-- PMATCH. -/
def State.pmatchWord (s : State) (c : Nat) (x : Engine) (set o : Nat) : Word :=
  match s.matchAt c x set o with | some (i, _) => s.matchWord c o i | none => 0

/-- PFIND over the start offsets `o` to `o + n - 1`: the lowest offset with a match. -/
def State.pfindWord (s : State) (c : Nat) (x : Engine) (set o n : Nat) : Word :=
  ((List.range n).findSome? (fun j => (s.matchAt c x set (o + j)).map (fun m => s.matchWord c (o + j) m.1))).getD 0

/-- The result of a search that starts now. -/
def State.scanResult (c : Nat) (s : State) (x : Engine) (q : Scan) : Word := s.pfindWord c x q.set q.start q.len

/-- A program has ended: its packet waits for its return, its engine is idle and its scanner free. -/
def State.progEnd (s : State) (e : Nat) (x : Engine) (t : Stamp) (inspect : Nat) : State :=
  let c := e / 32
  let s := (s.count .engineClusterPrograms c).countN .enginePeCycles e x.cycles
  let s := s.setOut x.slice ((s.outOf x.slice).map (fun o => if o.seq == x.seq then { o with ended := true, d := { o.d with stamp := t, inspect := inspect } } else o))
  let s := (s.setEng e Engine.idle).busyEval c
  let s := { s with engine := { s.engine with scanQ := mput (fun _ => []) s.engine.scanQ c ((mget (fun _ => []) s.engine.scanQ c).filter (fun y => y != e)) } }
  s.scanNext c (State.scanResult c)

/-- A timeout or fault action (Table 9.8). -/
def State.progAbort (s : State) (e : Nat) (x : Engine) (action reason : Nat) : State :=
  if action = 0 then (s.verdictCount (e / 32) x.act).progEnd e x (s.verdictStamp x) 3
  else if action = 2 then s.progEnd e x { x.d.stamp with dkind := 3, dest := reason } 3
  else if action = 3 then s.progEnd e x { x.d.stamp with dkind := 2, dest := reason } 3
  else s.progEnd e x x.d.stamp 3

/-- A fault at the instruction at the engine's pc (R235): the instruction has no effect. -/
def State.engFault (s : State) (e : Nat) (x : Engine) (op kind : Nat) : State :=
  let s := (s.count .engineClusterFault (e / 32)).raiseLimited 0x0502 x.program (natBe 1 x.program ++ natBe 1 e ++ natBe 2 x.pc ++ natBe 1 kind)
  let s := if s.fld (Reg.engineClusterCtrl (e / 32)) Fld.engineClusterCtrl_sampleMode = 0 then s else s.engSample e x op kind x.pc 0 (x.cycles + 1) 2
  s.progAbort e x (s.fld (Reg.engineProg x.program) Fld.engineProg_faultAct) 0xFE02

/-- What an instruction does to the state and its engine: it completes in so many cycles and goes on at an address, or faults. -/
inductive Eff where
  | go (s : State) (x : Engine) (cycles pc : Nat)
  | fault (kind : Nat)

/-- What an uncorrectable error leaves (R236): reported; a cluster-table word is written zero. Stores are numbered 0 program store, 1 pattern memory, 2 cluster table (log 13). -/
def State.engEcc (s : State) (c store word : Nat) : State :=
  let s := s.raise 0x0507 (natBe 1 c ++ natBe 1 store ++ natBe 3 word)
  if store = 2 then s.setMemWord (clusterByte c 0x20000 + 8 * word) 0 else s

/-- The issue of an instruction with opcode `op` (R221, R234 to R236): only a running engine below its budget and with no search in hand issues; one fetched
past the program's end is fault 7; an uncorrectable read is fault 6, of `store` at `word`. -/
def State.issue (s : State) (i : Issue) (op : Nat) (store : State → Engine → Nat × Nat) (f : State → Engine → Eff) : State :=
  let x := s.eng i.e
  let p := Reg.engineProg x.program
  if !x.run || x.scan.isSome || decide (s.fld p Fld.engineProg_budget ≤ x.cycles + 1) then s
  else if s.fld p Fld.engineProg_entry + s.fld p Fld.engineProg_length ≤ x.pc then s.engFault i.e x op 7
  else
    match i.ecc with
    | .uncorrectable _ => let (st, w) := store s x; (s.engEcc (i.e / 32) st w).engFault i.e x op 6
    | _ =>
      let s := if i.ecc = .corrected then s.count .engineClusterEccCorr (i.e / 32) else s
      match f s x with
      | .fault k => s.engFault i.e x op k
      | .go s y n pc => (s.setEng i.e { y with cycles := x.cycles + n, pc := pc }).engSampled i.e x op x.pc n (x.cycles + 1)

/-- The word of the program store an instruction is fetched from. -/
def fetchStore (_ : State) (x : Engine) : Nat × Nat := (0, x.pc / 2)

/-- An instruction that writes one register and goes on. -/
def State.aluOp (s : State) (i : Issue) (op n rd : Nat) (v : Engine → Word) : State :=
  s.issue i op fetchStore (fun s x => .go s (x.setReg rd (v x)) n (x.pc + 1))

/-! ### The instructions (Table 9.5) -/

def engAdd (i : Issue) (rd ra rb : Nat) (s : State) : State := s.aluOp i 0x01 1 rd (fun x => x.reg ra + x.reg rb)
def engSub (i : Issue) (rd ra rb : Nat) (s : State) : State := s.aluOp i 0x02 1 rd (fun x => x.reg ra - x.reg rb)
def engAnd (i : Issue) (rd ra rb : Nat) (s : State) : State := s.aluOp i 0x03 1 rd (fun x => x.reg ra &&& x.reg rb)
def engOr (i : Issue) (rd ra rb : Nat) (s : State) : State := s.aluOp i 0x04 1 rd (fun x => x.reg ra ||| x.reg rb)
def engXor (i : Issue) (rd ra rb : Nat) (s : State) : State := s.aluOp i 0x05 1 rd (fun x => x.reg ra ^^^ x.reg rb)
/-- The shift amount is rb[5:0]. -/
def engShl (i : Issue) (rd ra rb : Nat) (s : State) : State := s.aluOp i 0x06 1 rd (fun x => x.reg ra <<< ((x.reg rb).toNat % 64))
def engShr (i : Issue) (rd ra rb : Nat) (s : State) : State := s.aluOp i 0x07 1 rd (fun x => x.reg ra >>> ((x.reg rb).toNat % 64))
def engMin (i : Issue) (rd ra rb : Nat) (s : State) : State := s.aluOp i 0x08 1 rd (fun x => if (x.reg ra).toNat ≤ (x.reg rb).toNat then x.reg ra else x.reg rb)
def engMax (i : Issue) (rd ra rb : Nat) (s : State) : State := s.aluOp i 0x09 1 rd (fun x => if (x.reg ra).toNat ≤ (x.reg rb).toNat then x.reg rb else x.reg ra)
/-- CRC-32C of the 8 bytes of rb, most significant first, the register starting at ra[31:0]. -/
def engCrc (i : Issue) (rd ra rb : Nat) (s : State) : State :=
  s.aluOp i 0x0A 2 rd (fun x => BitVec.ofNat 64 (crcMsb poly32C ((x.reg ra).toNat % 2 ^ 32) (natBe 8 (x.reg rb).toNat)))
/-- Leading zeros of a word, 64 for zero. -/
def leadingZeros (w : Word) : Nat := ((List.range 64).find? (fun j => w.getLsbD (63 - j))).getD 64
def engClz (i : Issue) (rd ra : Nat) (s : State) : State := s.aluOp i 0x0B 1 rd (fun x => BitVec.ofNat 64 (leadingZeros (x.reg ra)))
def engAddi (i : Issue) (rd ra : Nat) (imm : BitVec 16) (s : State) : State := s.aluOp i 0x10 1 rd (fun x => x.reg ra + imm.signExtend 64)
def engAndi (i : Issue) (rd ra : Nat) (imm : BitVec 16) (s : State) : State := s.aluOp i 0x11 1 rd (fun x => x.reg ra &&& imm.setWidth 64)
def engOri (i : Issue) (rd ra : Nat) (imm : BitVec 16) (s : State) : State := s.aluOp i 0x12 1 rd (fun x => x.reg ra ||| imm.setWidth 64)
def engXori (i : Issue) (rd ra : Nat) (imm : BitVec 16) (s : State) : State := s.aluOp i 0x13 1 rd (fun x => x.reg ra ^^^ imm.setWidth 64)
def engShli (i : Issue) (rd ra : Nat) (imm : BitVec 16) (s : State) : State := s.aluOp i 0x14 1 rd (fun x => x.reg ra <<< (imm.toNat % 64))
def engShri (i : Issue) (rd ra : Nat) (imm : BitVec 16) (s : State) : State := s.aluOp i 0x15 1 rd (fun x => x.reg ra >>> (imm.toNat % 64))
def engMovi (i : Issue) (rd : Nat) (imm : BitVec 16) (s : State) : State := s.aluOp i 0x16 1 rd (fun _ => imm.setWidth 64)
/-- Bits [16·SZ + 15 : 16·SZ] of rd become IMM. -/
def engInsh (i : Issue) (rd sz : Nat) (imm : BitVec 16) (s : State) : State :=
  s.aluOp i 0x17 1 rd (fun x => BitVec.ofNat 64 (setBits (x.reg rd).toNat (16 * (sz % 4)) 16 imm.toNat))

/-- The engine address of a load or store: (ra + IMM) modulo 2^20, IMM taken unsigned (R222; log 14). -/
def engAddr (x : Engine) (ra : Nat) (imm : BitVec 16) : Nat := ((x.reg ra).toNat + imm.toNat) % 2 ^ 20

/-- The memory an access that fails its check lies in: the cluster table, or the program store it was fetched from. -/
def dataStore (addr : Engine → Nat) (_ : State) (x : Engine) : Nat × Nat :=
  if regionOf (addr x) = some .table then (2, (addr x - 0x20000) / 8) else (0, x.pc / 2)

/-- LD (R222, R223): zero-extended; 3 cycles, 8 in the cluster table. -/
def engLd (i : Issue) (rd ra sz : Nat) (imm : BitVec 16) (s : State) : State :=
  s.issue i 0x20 (dataStore (fun x => engAddr x ra imm)) (fun s x =>
    let a := engAddr x ra imm
    let n := 2 ^ (sz % 4)
    match accessRegion a n with
    | none => .fault 1
    | some .table => if a % n ≠ 0 then .fault 3 else .go s (x.setReg rd (BitVec.ofNat 64 (s.engRead (i.e / 32) x a n))) 8 (x.pc + 1)
    | some _ => .go s (x.setReg rd (BitVec.ofNat 64 (s.engRead (i.e / 32) x a n))) 3 (x.pc + 1))

/-- ST (R222, R223): a read-only region is fault 2. -/
def engSt (i : Issue) (rd ra sz : Nat) (imm : BitVec 16) (s : State) : State :=
  s.issue i 0x21 (dataStore (fun x => engAddr x ra imm)) (fun s x =>
    let a := engAddr x ra imm
    let n := 2 ^ (sz % 4)
    let put (c : Nat) : Eff := let (s, y) := s.engWrite (i.e / 32) x a n (x.reg rd).toNat; .go s y c (x.pc + 1)
    match accessRegion a n with
    | none => .fault 1
    | some .table => if a % n ≠ 0 then .fault 3 else put 8
    | some .scratch => put 1
    | some _ => .fault 2)

/-- XADD (R224): the cluster-table word at ra, added to and returned in one step. Any other region takes no XADD: fault 2 where it is read-only, else fault 1 (log 14). -/
def engXadd (i : Issue) (rd ra rb : Nat) (s : State) : State :=
  s.issue i 0x22 (dataStore (fun x => (x.reg ra).toNat % 2 ^ 20)) (fun s x =>
    let a := (x.reg ra).toNat % 2 ^ 20
    match accessRegion a 8 with
    | none => .fault 1
    | some .table =>
      if a % 8 ≠ 0 then .fault 3
      else
        let old := s.engRead (i.e / 32) x a 8
        let (s, y) := s.engWrite (i.e / 32) x a 8 (old + (x.reg rb).toNat)
        .go s (y.setReg rd (BitVec.ofNat 64 old)) 10 (x.pc + 1)
    | some .scratch => .fault 1
    | some _ => .fault 2)

/-- A conditional branch: 1 cycle, 2 when taken. -/
def State.branchOp (s : State) (i : Issue) (op target : Nat) (c : Engine → Bool) : State :=
  s.issue i op fetchStore (fun s x => if c x then .go s x 2 target else .go s x 1 (x.pc + 1))

def engBeq (i : Issue) (ra rb target : Nat) (s : State) : State := s.branchOp i 0x30 target (fun x => x.reg ra == x.reg rb)
def engBne (i : Issue) (ra rb target : Nat) (s : State) : State := s.branchOp i 0x31 target (fun x => x.reg ra != x.reg rb)
def engBlt (i : Issue) (ra rb target : Nat) (s : State) : State := s.branchOp i 0x32 target (fun x => decide ((x.reg ra).toNat < (x.reg rb).toNat))
def engBge (i : Issue) (ra rb target : Nat) (s : State) : State := s.branchOp i 0x33 target (fun x => decide ((x.reg rb).toNat ≤ (x.reg ra).toNat))
def engJmp (i : Issue) (target : Nat) (s : State) : State := s.issue i 0x34 fetchStore (fun s x => .go s x 2 target)
/-- CALL (R227): a ninth entry is fault 4. -/
def engCall (i : Issue) (target : Nat) (s : State) : State :=
  s.issue i 0x35 fetchStore (fun s x => if 8 ≤ x.stack.length then .fault 4 else .go s { x with stack := (x.pc + 1) :: x.stack } 2 target)
/-- RET (R227): an empty stack is fault 5. -/
def engRet (i : Issue) (s : State) : State :=
  s.issue i 0x36 fetchStore (fun s x => match x.stack with | [] => .fault 5 | a :: st => .go s { x with stack := st } 2 a)

/-- The memory a search reads: the pattern memory, at a word the spec does not name (a free value is not needed: its first). -/
def patternStore (_ : State) (_ : Engine) : Nat × Nat := (1, 0)

/-- PFIND (R231, R232): the search takes a scanner, or waits for one in arrival order. -/
def engPfind (i : Issue) (rd ra rb set : Nat) (s : State) : State :=
  s.issue i 0x38 patternStore (fun s x =>
    let c := i.e / 32
    let lo := min (x.reg ra).toNat x.d.window
    let hi := min ((x.reg ra).toNat + (x.reg rb).toNat) x.d.window
    let q : Scan := { rd := rd, start := lo, len := hi - lo, set := set, scanning := false, result := 0, addr := x.pc }
    let wait := mget (fun _ => []) s.engine.scanQ c
    let s := State.scanNext { s.setEng i.e { x with scan := some q } with
      engine := { (s.setEng i.e { x with scan := some q }).engine with scanQ := mput (fun _ => []) s.engine.scanQ c (wait ++ [i.e]) } } c (State.scanResult c)
    .go s (s.eng i.e) 0 x.pc)

/-- PFIND_SCAN_DONE (R232): the match is written; the search took 4 + ⌈n / 16⌉ cycles and `wait` cycles for its scanner. -/
def pfindScanDone (e wait : Nat) (s : State) : State :=
  let x := s.eng e
  match x.scan with
  | none => s
  | some q =>
    if !q.scanning then s
    else
      let n := 4 + ceilDiv q.len 16 + wait
      let s := s.setEng e { x.setReg q.rd q.result with scan := none, cycles := x.cycles + n, pc := x.pc + 1 }
      (s.engSampled e x 0x38 q.addr n (x.cycles + 1)).scanNext (e / 32) (State.scanResult (e / 32))

/-- PMATCH (R231). -/
def engPmatch (i : Issue) (rd ra set : Nat) (s : State) : State :=
  s.issue i 0x39 patternStore (fun s x =>
    .go s (x.setReg rd (if x.d.window < (x.reg ra).toNat then 0 else s.pmatchWord (i.e / 32) x set (x.reg ra).toNat)) 4 (x.pc + 1))

/-- VERDICT (R228): replaces the program's verdict. -/
def engVerdict (i : Issue) (action : Nat) (colourSet : Bool) (colour : Nat) (value : BitVec 16) (s : State) : State :=
  s.issue i 0x3C fetchStore (fun s x => .go s { x with act := action, colourSet := colourSet, colour := colour, value := value.toNat } 1 (x.pc + 1))

/-- END (R229): the program ends and its verdict is applied, inspection status 1. -/
def engEnd (i : Issue) (s : State) : State :=
  let t := s.issue i 0x3D fetchStore (fun s x => .go s x 1 (x.pc + 1))
  let x := t.eng i.e
  if x.run && x.cycles == (s.eng i.e).cycles + 1 then (t.verdictCount (i.e / 32) x.act).progEnd i.e x (t.verdictStamp x) 1 else t

def engNop (i : Issue) (s : State) : State := s.issue i 0x3E fetchStore (fun s x => .go s x 1 (x.pc + 1))

/-- PROGRAM_BUDGET_EXPIRY (R234): issue stops, a search in hand is abandoned, TIMEOUT_ACT applies. -/
def programBudgetExpiry (e : Nat) (s : State) : State :=
  let x := s.eng e
  if !x.run then s
  else
    let c := e / 32
    let p := Reg.engineProg x.program
    let s := (s.count .engineClusterTimeout c).raiseLimited 0x0501 x.program (natBe 1 x.program ++ natBe 1 c)
    let op := let w := (s.reg (Reg.engineStoreWord c (x.pc / 2))).toNat; if x.pc % 2 = 0 then bits w 63 58 else bits w 31 26
    let s := if s.fld (Reg.engineClusterCtrl c) Fld.engineClusterCtrl_sampleMode = 0 then s else s.engSample e x op 0 x.pc 0 (s.fld p Fld.engineProg_budget) 1
    s.progAbort e { x with cycles := s.fld p Fld.engineProg_budget } (s.fld p Fld.engineProg_timeoutAct) 0xFE01

/-- ENGINE_RESULT_RETURN (R218): the first packet of slice `k`, in dispatch order, whose program has ended and that no earlier packet of its port waits before.
A packet of a retired epoch is dropped (R344). -/
def engineResultReturn (k : Nat) (s : State) : State :=
  let l := s.outOf k
  match l.find? (fun o => o.ended && !(l.takeWhile (fun y => y.seq != o.seq)).any (fun y => y.d.port == o.d.port)) with
  | none => s
  | some o =>
    let s := s.setOut k (l.filter (fun y => y.seq != o.seq))
    if s.epochLive o.d.epoch then s.leaveSlice o.d else (s.unpark k o.d.park).epochDrop 3

/-- ENGINE_DRAIN_WRITE (R239); a write of 0 is ignored under test (R442) and refused after a failed test (R444). -/
def engineDrainWrite (c : Nat) (v : Bool) (s : State) : State :=
  let was := s.flag (Reg.engineClusterCtrl c) Fld.engineClusterCtrl_drain
  if !v && 3 ≤ s.fld (Reg.bistSegStatus (52 + c)) Fld.bistSegStatus_state then s
  else if !v && s.bist.barred.contains (500 + c) then s.count .controlBistReturnRefused
  else
  let s := (s.setFlag (Reg.engineClusterCtrl c) Fld.engineClusterCtrl_drain v).clusterEval c
  if v then s
  else
    let s := s.setFlag (Reg.engineClusterStatus c) Fld.engineClusterStatus_drained false
    if was then s.raise 0x0504 (natBe 1 c) else s

/-- CLUSTER_DRAINED (R239): the queue is empty and no program runs. -/
def clusterDrained (c : Nat) (s : State) : State :=
  if s.flag (Reg.engineClusterCtrl c) Fld.engineClusterCtrl_drain && (s.cq c).isEmpty && s.busy c == 0
      && !s.flag (Reg.engineClusterStatus c) Fld.engineClusterStatus_drained then
    (s.setFlag (Reg.engineClusterStatus c) Fld.engineClusterStatus_drained true).raise 0x0503 (natBe 1 c)
  else s

def execEngineDispatch (k : Nat) (s : State) : Out := s.act (engineDispatch k s)
def execEngineHoldRetry (k : Nat) (s : State) : Out := s.act (engineHoldRetry k s)
def execEngineWaitExpiry (k : Nat) (s : State) : Out := s.act (engineWaitExpiry k s)
def execProgramStart (e : Nat) (s : State) : Out := s.act (programStart e s)
def execAdd (i : Issue) (rd ra rb : Nat) (s : State) : Out := s.act (engAdd i rd ra rb s)
def execSub (i : Issue) (rd ra rb : Nat) (s : State) : Out := s.act (engSub i rd ra rb s)
def execAnd (i : Issue) (rd ra rb : Nat) (s : State) : Out := s.act (engAnd i rd ra rb s)
def execOr (i : Issue) (rd ra rb : Nat) (s : State) : Out := s.act (engOr i rd ra rb s)
def execXor (i : Issue) (rd ra rb : Nat) (s : State) : Out := s.act (engXor i rd ra rb s)
def execShl (i : Issue) (rd ra rb : Nat) (s : State) : Out := s.act (engShl i rd ra rb s)
def execShr (i : Issue) (rd ra rb : Nat) (s : State) : Out := s.act (engShr i rd ra rb s)
def execMin (i : Issue) (rd ra rb : Nat) (s : State) : Out := s.act (engMin i rd ra rb s)
def execMax (i : Issue) (rd ra rb : Nat) (s : State) : Out := s.act (engMax i rd ra rb s)
def execCrc (i : Issue) (rd ra rb : Nat) (s : State) : Out := s.act (engCrc i rd ra rb s)
def execClz (i : Issue) (rd ra : Nat) (s : State) : Out := s.act (engClz i rd ra s)
def execAddi (i : Issue) (rd ra : Nat) (imm : BitVec 16) (s : State) : Out := s.act (engAddi i rd ra imm s)
def execAndi (i : Issue) (rd ra : Nat) (imm : BitVec 16) (s : State) : Out := s.act (engAndi i rd ra imm s)
def execOri (i : Issue) (rd ra : Nat) (imm : BitVec 16) (s : State) : Out := s.act (engOri i rd ra imm s)
def execXori (i : Issue) (rd ra : Nat) (imm : BitVec 16) (s : State) : Out := s.act (engXori i rd ra imm s)
def execShli (i : Issue) (rd ra : Nat) (imm : BitVec 16) (s : State) : Out := s.act (engShli i rd ra imm s)
def execShri (i : Issue) (rd ra : Nat) (imm : BitVec 16) (s : State) : Out := s.act (engShri i rd ra imm s)
def execMovi (i : Issue) (rd : Nat) (imm : BitVec 16) (s : State) : Out := s.act (engMovi i rd imm s)
def execInsh (i : Issue) (rd sz : Nat) (imm : BitVec 16) (s : State) : Out := s.act (engInsh i rd sz imm s)
def execLd (i : Issue) (rd ra sz : Nat) (imm : BitVec 16) (s : State) : Out := s.act (engLd i rd ra sz imm s)
def execSt (i : Issue) (rd ra sz : Nat) (imm : BitVec 16) (s : State) : Out := s.act (engSt i rd ra sz imm s)
def execXadd (i : Issue) (rd ra rb : Nat) (s : State) : Out := s.act (engXadd i rd ra rb s)
def execBeq (i : Issue) (ra rb t : Nat) (s : State) : Out := s.act (engBeq i ra rb t s)
def execBne (i : Issue) (ra rb t : Nat) (s : State) : Out := s.act (engBne i ra rb t s)
def execBlt (i : Issue) (ra rb t : Nat) (s : State) : Out := s.act (engBlt i ra rb t s)
def execBge (i : Issue) (ra rb t : Nat) (s : State) : Out := s.act (engBge i ra rb t s)
def execJmp (i : Issue) (t : Nat) (s : State) : Out := s.act (engJmp i t s)
def execCall (i : Issue) (t : Nat) (s : State) : Out := s.act (engCall i t s)
def execRet (i : Issue) (s : State) : Out := s.act (engRet i s)
def execPfind (i : Issue) (rd ra rb set : Nat) (s : State) : Out := s.act (engPfind i rd ra rb set s)
def execPfindScanDone (e w : Nat) (s : State) : Out := s.act (pfindScanDone e w s)
def execPmatch (i : Issue) (rd ra set : Nat) (s : State) : Out := s.act (engPmatch i rd ra set s)
def execVerdict (i : Issue) (a : Nat) (cs : Bool) (c : Nat) (v : BitVec 16) (s : State) : Out := s.act (engVerdict i a cs c v s)
def execEndProg (i : Issue) (s : State) : Out := s.act (engEnd i s)
def execNop (i : Issue) (s : State) : Out := s.act (engNop i s)
def execProgramBudgetExpiry (e : Nat) (s : State) : Out := s.act (programBudgetExpiry e s)
def execEngineResultReturn (k : Nat) (s : State) : Out := s.act (engineResultReturn k s)
def execEngineDrainWrite (c : Nat) (v : Bool) (s : State) : Out := s.act (engineDrainWrite c v s)
def execClusterDrained (c : Nat) (s : State) : Out := s.act (clusterDrained c s)

end Sys2Proof.Machine
end

