-- ==== Sys2Proof/Machine/Hbm.lean ====
section
/-! DEFINITION. The HBM controllers (chapter 11): requests and their order, refresh, periodic training, ECC and poison, freeze and return. -/

namespace Sys2Proof.Machine

/-- A controller that has served nothing. -/
def HbmCtl.idle : HbmCtl := { queue := [], open_ := [], owed := [], cmds := [], cmdPos := 0, freezes := [], lost := 0, fails := 0, drain := false }

/-- Controller `x`. -/
def State.ctl (s : State) (x : Nat) : HbmCtl := mget (fun _ => HbmCtl.idle) s.hbm.ctls x

/-- Replaces controller `x`. -/
def State.setCtl (s : State) (x : Nat) (c : HbmCtl) : State := { s with hbm := { s.hbm with ctls := mput (fun _ => HbmCtl.idle) s.hbm.ctls x c } }

/-- Sets the state of controller `x` (Table 11.4). -/
def State.setHbmState (s : State) (x v : Nat) : State := s.setFld (Reg.hbmStatus x) Fld.hbmStatus_state v

/-- The bank index of pseudo-channel address `p` (R267 to R269). -/
def bankOf (p : Nat) : Nat := 4 * (p / 2048 % 4) + p / 8192 % 4

/-- The row of pseudo-channel address `p`. -/
def rowOf (p : Nat) : Nat := p / 32768 % 8192

/-- The table-HBM offset of address `p` of table controller `x` (R269). -/
def hbmOffset (x p : Nat) : Nat := 2 ^ 34 * (x / 64) + 2 ^ 15 * (p / 512) + (x % 64 ^^^ p / 512 % 64) * 512 + p % 512

/-- The window address of burst `b`, byte `i`, of table controller `x`. -/
def burstAddr (x b i : Nat) : Nat := hbmAddr (hbmOffset x (32 * b + i))

/-- Whether two requests share a burst. -/
def reqOverlaps (a b : HbmReq) : Bool := decide (a.burst ≤ b.burst + b.len) && decide (b.burst ≤ a.burst + a.len)

/-- Whether a controller serves the request at all (R271). -/
def reqOk (r : HbmReq) : Bool := decide (r.burst % 64 + r.len + 1 ≤ 64) && r.hint != 3 && r.cls != 2

/-- `n` free bytes (log 2). -/
def State.freeBytes (s : State) (n : Nat) : Bytes × State :=
  ((List.range n).map (fun i => Config.freeByte (s.freeCtr + i)), { s with freeCtr := s.freeCtr + n })

/-- An answer of controller `x` (R273). -/
def State.hbmAnswer (s : State) (x tag status : Nat) (data : Bytes) : State :=
  { s with hbm := { s.hbm with answers := s.hbm.answers ++ [{ x := x, tag := tag, status := status, data := data }] } }

/-- The bytes a read returns: table memory, or the buffers' contents, which the model does not hold (free values). -/
def State.hbmData (s : State) (x : Nat) (r : HbmReq) : Bytes × State :=
  if x < 128 then ((List.range (32 * (r.len + 1))).map (fun i => s.memByte (burstAddr x r.burst i)), s) else s.freeBytes (32 * (r.len + 1))

/-! ### Commands to the stack, and refresh -/

/-- A command issued to the stack, kept for the capture (Table 11.8); the hN clock count is a free value. -/
def State.hbmCmd (s : State) (x op bank row col tag cls : Nat) : State :=
  let (d, s) := s.draw
  let c := s.ctl x
  let w0 := 2 ^ 60 * op + 2 ^ 56 * bank + 2 ^ 43 * row + 2 ^ 37 * col + 2 ^ 23 * tag + 2 ^ 21 * cls
  let w1 := 2 ^ 32 * (Config.freeNat d % 2 ^ 32) + s.tod % 1000000000 * 4
  let l := c.cmds ++ [(w0, w1)]
  s.setCtl x { c with cmds := if 256 < l.length then l.drop 1 else l, cmdPos := c.cmdPos + 1 }

/-- The row open in a bank, plus 1; 0 when it is precharged. -/
def HbmCtl.row (c : HbmCtl) (bank : Nat) : Nat := mget (fun _ => 0) c.open_ bank

/-- Refreshes a bank owes. -/
def HbmCtl.owes (c : HbmCtl) (bank : Nat) : Nat := mget (fun _ => 0) c.owed bank

/-- Whether a request for the bank is queued. -/
def HbmCtl.busy (c : HbmCtl) (bank : Nat) : Bool := c.queue.any (fun w => bankOf (32 * w.r.burst) == bank)

/-- Precharges a bank whose row is open. -/
def State.precharge (s : State) (x bank : Nat) : State :=
  if (s.ctl x).row bank = 0 then s
  else
    let s := s.hbmCmd x 6 bank 0 0 0 0
    s.setCtl x { s.ctl x with open_ := mput (fun _ => 0) (s.ctl x).open_ bank 0 }

/-- One per-bank refresh of an owing bank (R277). -/
def State.refreshBank (s : State) (x bank : Nat) : State :=
  let s := ((s.precharge x bank).hbmCmd x 8 bank 0 0 0 0).count .hbmctlRefreshPb x
  s.setCtl x { s.ctl x with owed := mput (fun _ => 0) (s.ctl x).owed bank ((s.ctl x).owes bank - 1) }

/-- Banks that owe REF_URGENT refreshes or more. -/
def State.urgent (s : State) (x : Nat) : List Nat :=
  (List.range 16).filter (fun b => decide (s.fld (Reg.hbmCtrl x) Fld.hbmCtrl_refUrgent ≤ (s.ctl x).owes b))

/-- Refreshes a bank as R277 allows: with no queued request, or urgent and precharged; four urgent banks bring an all-bank refresh. -/
def State.refreshSettle (s : State) (x bank : Nat) : State :=
  let c := s.ctl x
  if 4 ≤ (s.urgent x).length then
    let s := (List.range 16).foldl (fun s b => s.precharge x b) s
    let s := ((s.hbmCmd x 9 0 0 0 0 0).count .hbmctlRefreshAb x).raiseLimited 0x0705 x (natBe 2 x)
    s.setCtl x { s.ctl x with owed := (List.range 16).foldl (fun m b => mput (fun _ => 0) m b ((s.ctl x).owes b - 1)) [] }
  else if c.owes bank ≠ 0 ∧ (!c.busy bank ∨ ((s.urgent x).contains bank ∧ c.row bank = 0)) then s.refreshBank x bank
  else s

/-! ### Freeze, poison and retirement -/

/-- The poison entries of controller `x` in use. -/
def State.poison (s : State) (x : Nat) : List (Nat × Nat) :=
  ((List.range 16).filter (fun i => s.flag (Reg.hbmPoison x i) Fld.hbmPoison_valid)).map (fun i => (i, s.fld (Reg.hbmPoison x i) Fld.hbmPoison_burst))

/-- POISON_USED follows the list. -/
def State.poisonUsed (s : State) (x : Nat) : State := s.setFld (Reg.hbmStatus x) Fld.hbmStatus_poisonUsed (s.poison x).length

/-- Adds a burst to the poison list with 0x0704 (R281); a full list leaves it out. -/
def State.poisonAdd (s : State) (x b : Nat) : State :=
  if (s.poison x).any (fun p => p.2 == b) then s
  else match (List.range 16).find? (fun i => !s.flag (Reg.hbmPoison x i) Fld.hbmPoison_valid) with
    | none => s
    | some i => ((s.setReg (Reg.hbmPoison x i) (BitVec.ofNat 64 (2 ^ 63 + 2 ^ 40 * b))).poisonUsed x).raise 0x0704 (natBe 2 x ++ natBe 3 b)

/-- A write that covers whole bursts takes them off the list (R281). -/
def State.poisonClear (s : State) (x lo n : Nat) : State :=
  ((s.poison x).foldl (fun s p => if lo ≤ p.2 ∧ p.2 < lo + n then s.setReg (Reg.hbmPoison x p.1) 0 else s) s).poisonUsed x

/-- A controller retires (R285): 0x0703 with the reason. -/
def State.hbmRetire (s : State) (x reason : Nat) : State := (s.setHbmState x 5).raise 0x0703 (natBe 2 x ++ natBe 1 reason)

/-- The counter of a freeze cause (Table 11.6). -/
def causeCtr : Nat → Ctr
  | 1 => .hbmctlEccUncorr | 2 => .hbmctlCaParity | 3 => .hbmctlCmdTimeout | _ => .hbmctlTrainFail

/-- HBM_SYNDROME for a cause, with the request in hand when there is one. -/
def synWord (cause : Nat) (r : Option HbmReq) (burst syn : Nat) : Nat :=
  match r with
  | none => 2 ^ 61 * cause
  | some r => 2 ^ 61 * cause + 2 ^ 56 * bankOf (32 * burst) + 2 ^ 43 * rowOf (32 * burst) + 2 ^ 37 * (burst % 64) + 2 ^ 23 * r.tag + 2 ^ 21 * r.cls + syn % 65536

/-- Copies the last 256 commands into HBM_CAPTURE (R282). -/
def State.hbmCapture (s : State) (x : Nat) : State :=
  let c := s.ctl x
  let base := if 256 < c.cmdPos then c.cmdPos % 256 else 0
  let s := ((List.range c.cmds.length).zip c.cmds).foldl (fun s p =>
    let i := (base + p.1) % 256
    (s.setReg (Reg.hbmCaptureW0 x i) (BitVec.ofNat 64 p.2.1)).setReg (Reg.hbmCaptureW1 x i) (BitVec.ofNat 64 p.2.2)) s
  s.setFld (Reg.hbmStatus x) Fld.hbmStatus_captureNext base

/-- HBM_FREEZE (R282, R285): cause counted; the controller stops, keeps cause and capture, answers what is queued with status 3 and loses queued writes.
A freeze beyond FREEZE_LIMIT within 10 s retires it. A cause that arises while it is frozen is counted only (R288). -/
def State.hbmFreeze (s : State) (x cause : Nat) (r : Option HbmReq) (burst syn : Nat) : State :=
  let s := s.count (causeCtr cause) x
  if s.hbmState x ≠ 1 ∧ s.hbmState x ≠ 2 then s
  else
    let wasFenced := decide (128 ≤ x) && s.poolFenced (x - 128)
    let c := s.ctl x
    let past := c.freezes.filter (fun t => decide (s.time.stepFree < t + 10000000000))
    let fr := past ++ [s.time.stepFree]
    let lost := (c.queue.filter (fun w => w.r.write)).length
    let s := (s.setHbmState x 3).hbmCapture x
    let s := s.setReg (Reg.hbmSyndrome x) (BitVec.ofNat 64 (synWord cause r burst syn))
    let s := s.setFld (Reg.hbmStatus x) Fld.hbmStatus_freezes (min fr.length 15)
    let s := s.setFld (Reg.hbmStatus x) Fld.hbmStatus_waitMap 0
    let s := c.queue.foldl (fun s w => s.hbmAnswer x w.r.tag 3 []) s
    let s := s.setCtl x { s.ctl x with queue := [], open_ := [], owed := [], freezes := fr, lost := lost, fails := 0, drain := false }
    let s := (((s.countN .hbmctlWritesLost x lost).count .hbmctlFreeze x).raise 0x0701 (natBe 2 x ++ natBe 1 cause))
    let s := if cause = 1 then s.poisonAdd x burst else s
    let s := if 128 ≤ x ∧ !wasFenced then s.poolFence (x - 128) else s
    if s.fld (Reg.hbmCtrl x) Fld.hbmCtrl_freezeLimit < fr.length then s.hbmRetire x 2 else s

/-! ### Requests -/

/-- FZ24 mode (R275): a drain of queued writes starts at HIGH_WM or when no read is queued, and ends at LOW_WM or with the last write. -/
def State.drainEval (s : State) (x : Nat) : State :=
  let c := s.ctl x
  if s.fld (Reg.hbmCtrl x) Fld.hbmCtrl_mode = 0 then s
  else
    let n := (c.queue.filter (fun w => w.r.write)).length
    let reads := c.queue.length - n
    let go := if c.drain then decide (s.fld (Reg.hbmCtrl x) Fld.hbmCtrl_lowWm < n) else decide (s.fld (Reg.hbmCtrl x) Fld.hbmCtrl_highWm ≤ n) || (reads == 0 && n != 0)
    s.setCtl x { c with drain := go }

/-- The newest queued write that covers a read wholly (R275), and whether any covers part of it. -/
def HbmCtl.forward (c : HbmCtl) (r : HbmReq) : Option HbmReq :=
  match (c.queue.filter (fun w => w.r.write && reqOverlaps w.r r)).getLast? with
  | none => none
  | some w => if w.r.burst ≤ r.burst ∧ r.burst + r.len ≤ w.r.burst + w.r.len then some w.r else none

/-- HBM_REQUEST (R271, R275, R282): accepted into the bank queues of 64 in all, or refused, or answered with status 3 by a controller that does not serve.
With 64 requests held the request waits in its crossing (R29), and nothing changes. -/
def hbmRequest (x : Nat) (r : HbmReq) (s : State) : State :=
  let t := s.filterCount 4 0 x (if x < 128 then some (hbmOffset x (32 * r.burst)) else none) (some r.cls)
  let c := s.ctl x
  if !reqOk r then (t.count .hbmctlReqRefused x).hbmAnswer x r.tag 3 []
  else if !s.hbmServes x || s.segTested (ctlSeg x) then t.hbmAnswer x r.tag 3 []
  else if 64 ≤ c.queue.length then s
  else
    match if s.fld (Reg.hbmCtrl x) Fld.hbmCtrl_mode = 1 ∧ !r.write then c.forward r else none with
    | some w => (t.count .hbmctlWriteFwd x).hbmAnswer x r.tag 0 ((w.data.drop (32 * (r.burst - w.burst))).take (32 * (r.len + 1)))
    | none => (t.setCtl x { c with queue := c.queue ++ [{ r := r, at_ := s.time.stepFree }] }).drainEval x

/-- Whether queued request `w` may complete next (R273 to R275): nothing that shares a burst is ahead of it; it is the first of its bank (native mode),
or of its bank and direction while that direction is served (FZ24 mode). -/
def State.hbmReady (s : State) (x : Nat) (w : HbmWait) : Bool :=
  let c := s.ctl x
  let ahead := c.queue.takeWhile (fun y => y != w)
  let bank := bankOf (32 * w.r.burst)
  let same (y : HbmWait) : Bool := bankOf (32 * y.r.burst) == bank
  !ahead.any (fun y => reqOverlaps y.r w.r) &&
    (if s.fld (Reg.hbmCtrl x) Fld.hbmCtrl_mode = 0 then !ahead.any same
     else w.r.write == c.drain && !ahead.any (fun y => same y && y.r.write == w.r.write))

/-- Opens the row of a request (R276): nothing when it is open; an activate takes an energy credit of the request's class, and waits (no answer)
without it or while the bank is urgent. -/
def State.hbmActivate (s : State) (x : Nat) (r : HbmReq) : Option State :=
  let bank := bankOf (32 * r.burst)
  let row := rowOf (32 * r.burst)
  let cost := 1000 + 320 * (r.len + 1)
  if (s.ctl x).row bank = row + 1 then some s
  else if (s.urgent x).contains bank || !s.canSpend r.cls cost then none
  else
    let s := (((s.spend r.cls cost).precharge x bank).hbmCmd x 1 bank row 0 r.tag r.cls).count .hbmctlActivates x
    some (s.setCtl x { s.ctl x with open_ := mput (fun _ => 0) (s.ctl x).open_ bank (row + 1) })

/-- The column commands of a request; the row stays open as its hint says (Table 11.2). -/
def State.hbmColumns (s : State) (x : Nat) (r : HbmReq) : State :=
  let bank := bankOf (32 * r.burst)
  let row := rowOf (32 * r.burst)
  let keep := r.hint = 1 ∨ (r.hint = 0 ∧ (s.ctl x).queue.any (fun w => bankOf (32 * w.r.burst) == bank && rowOf (32 * w.r.burst) == row))
  let s := (List.range (r.len + 1)).foldl (fun s i =>
    s.hbmCmd x ((if r.write then 4 else 2) + (if ¬keep ∧ i = r.len then 1 else 0)) bank row ((r.burst + i) % 64) r.tag r.cls) s
  if keep then s else s.setCtl x { s.ctl x with open_ := mput (fun _ => 0) (s.ctl x).open_ bank 0 }

/-- Writes the bursts of a completed write to table memory; buffer contents are not held. -/
def State.hbmStore (s : State) (x : Nat) (r : HbmReq) : State :=
  let s := s.poisonClear x r.burst (r.len + 1)
  if x < 128 then
    (List.range (32 * (r.len + 1))).foldl (fun s i => { s with mem := mput (fun _ => (0 : Byte)) s.mem (burstAddr x r.burst i) ((r.data[i]?).getD 0) }) s
  else s

/-- The answer of a completed read (R273, R280, R281). A failing burst within a longer request is a free value. -/
def State.hbmRead (s : State) (x : Nat) (r : HbmReq) (ecc : EccResult) : State :=
  let zeros := List.replicate (32 * (r.len + 1)) (0 : Byte)
  if (s.poison x).any (fun p => decide (r.burst ≤ p.2) && decide (p.2 ≤ r.burst + r.len)) then
    (s.count .hbmctlPoisoned x).hbmAnswer x r.tag 2 zeros
  else match ecc with
    | .good => let (d, s) := s.hbmData x r; s.hbmAnswer x r.tag 0 d
    | .corrected => let (d, s) := (s.count .hbmctlEccCorr x).hbmData x r; s.hbmAnswer x r.tag 1 d
    | .uncorrectable syn =>
      let (n, s) := s.draw
      (s.hbmAnswer x r.tag 2 zeros).hbmFreeze x 1 (some r) (r.burst + Config.freeNat n % (r.len + 1)) syn

/-- HBM_RESPONSE (R273, R274, R276, R280): the queued request of that tag completes when its turn has come, its row can be opened and the controller runs. -/
def hbmResponse (x tag : Nat) (ecc : EccResult) (s : State) : State :=
  match (s.ctl x).queue.find? (fun w => w.r.tag == tag) with
  | none => s
  | some w =>
    if s.hbmState x ≠ 1 ∨ !s.hbmReady x w then s
    else match s.hbmActivate x w.r with
      | none => s
      | some s =>
        let s := s.setCtl x { s.ctl x with queue := (s.ctl x).queue.filter (fun y => y != w) }
        let s := s.hbmColumns x w.r
        let s := if w.r.write then (s.hbmStore x w.r).hbmAnswer x tag 0 [] else s.hbmRead x w.r ecc
        if s.hbmState x = 1 then (s.refreshSettle x (bankOf (32 * w.r.burst))).drainEval x else s

/-- OPEN_ROW_TIMEOUT (Table 11.2): the row is closed. -/
def openRowTimeout (x bank : Nat) (s : State) : State :=
  if s.hbmServes x && (s.ctl x).row bank != 0 then (s.precharge x bank).refreshSettle x bank else s

/-- FZ24_WRITE_AGE (R275). -/
def fz24WriteAge (x : Nat) (s : State) : State :=
  if s.hbmServes x && s.fld (Reg.hbmCtrl x) Fld.hbmCtrl_mode == 1 && (s.ctl x).queue.any (fun w => w.r.write) then s.setCtl x { s.ctl x with drain := true } else s

/-- REFRESH_DUE (R277, R282): the bank owes one refresh more, never more than 8. A frozen controller issues its all-bank refresh once for all banks. -/
def refreshDue (x bank : Nat) (s : State) : State :=
  if s.hbmState x = 3 then (if bank = 0 then s.count .hbmctlRefreshAb x else s)
  else if !s.hbmServes x then s
  else (s.setCtl x { s.ctl x with owed := mput (fun _ => 0) (s.ctl x).owed bank (min 8 ((s.ctl x).owes bank + 1)) }).refreshSettle x bank

/-! ### Periodic training (R279) -/

/-- The pass of stack `n`. -/
def State.hbmPass (s : State) (n : Nat) : HbmPass := mget (fun _ => { next := 0, due := false }) s.hbm.pass n

/-- Replaces the pass of stack `n`. -/
def State.setPass (s : State) (n : Nat) (p : HbmPass) : State :=
  { s with hbm := { s.hbm with pass := mput (fun _ => { next := 0, due := false }) s.hbm.pass n p } }

/-- A pass starts, or is due when the running one ends. -/
def State.passStart (s : State) (n : Nat) : State :=
  let st := Reg.hbmStackStatus n
  if s.flag st Fld.hbmStackStatus_passActive then s.setPass n { s.hbmPass n with due := true }
  else ((s.setFld st Fld.hbmStackStatus_trainTemp (s.fld st Fld.hbmStackStatus_temp)).setFld st Fld.hbmStackStatus_passActive 1).setPass n { next := 0, due := false }

/-- TRAIN_PASS_START (R279). -/
def trainPassStart (n : Nat) (t : Int) (s : State) : State := (s.setFld (Reg.hbmStackStatus n) Fld.hbmStackStatus_temp (ofSigned 8 t)).passStart n

/-- TRAIN_NOW_WRITE (R279). -/
def trainNowWrite (n : Nat) (s : State) : State := s.passStart n

/-- After pseudo-channel 63 the pass ends, and a pass that is due starts. -/
def State.passNext (s : State) (n : Nat) : State :=
  let p := s.hbmPass n
  if p.next < 63 then s.setPass n { p with next := p.next + 1 }
  else
    let s := (s.setFld (Reg.hbmStackStatus n) Fld.hbmStackStatus_passActive 0).setPass n { next := 0, due := false }
    if p.due then s.passStart n else s

/-- TRAIN_PAUSE (R279, R288): the pass's next pseudo-channel pauses; one that does not run, or is under test (R441), is skipped; a pause that fails freezes it with cause 4. -/
def trainPause (x : Nat) (ok : Bool) (s : State) : State :=
  let n := x / 64
  if !s.flag (Reg.hbmStackStatus n) Fld.hbmStackStatus_passActive || (s.hbmPass n).next != x % 64 then s
  else if s.hbmState x ≠ 1 || s.segTested (ctlSeg x) then s.passNext n
  else
    let s := s.hbmCmd x 10 0 0 0 0 0
    if ok then (s.setHbmState x 2).passNext n else (s.hbmFreeze x 4 none 0 0).passNext n

/-- TRAINING_PAUSE_ENDS (R279). -/
def trainingPauseEnds (x : Nat) (s : State) : State := if s.hbmState x = 2 then s.setHbmState x 1 else s

/-! ### Return (R284 to R287) -/

/-- A failed retrain: tried twice more, then the controller retires. -/
def State.retrainFail (s : State) (x : Nat) : State :=
  let c := s.ctl x
  let s := s.setCtl x { c with fails := c.fails + 1 }
  if 3 ≤ c.fails + 1 then s.hbmRetire x 1 else s

/-- HBM_CA_PARITY (R282, R288). -/
def hbmCaParity (x : Nat) (s : State) : State :=
  if s.hbmState x = 4 then (s.count .hbmctlCaParity x).retrainFail x else s.hbmFreeze x 2 none 0 0

/-- HBM_CMD_TIMEOUT (R282). -/
def hbmCmdTimeout (x tag : Nat) (s : State) : State :=
  match (s.ctl x).queue.find? (fun w => w.r.tag == tag) with
  | none => s
  | some w => s.hbmFreeze x 3 (some w.r) w.r.burst 0

/-- The return of a frozen controller starts (R284). -/
def State.hbmReturn (s : State) (x : Nat) : State :=
  if s.hbmState x = 3 then (s.setHbmState x 4).setCtl x { s.ctl x with fails := 0 } else s

/-- A diagnosis read of HBM_SYNDROME by an operator or vendor session (R284). -/
def State.hbmDiagnosis (s : State) (x : Nat) : State := if s.flag (Reg.hbmCtrl x) Fld.hbmCtrl_freezeHold then s else s.hbmReturn x

/-- HBM_FREEZE_TIMEOUT (R284). -/
def hbmFreezeTimeout (x : Nat) (s : State) : State := s.hbmDiagnosis x

/-- HBM_RELEASE (R284). -/
def hbmRelease (x : Nat) (s : State) : State := s.hbmReturn x

/-- Rewrites from the firmware's shadow what lies in table controller `x` (R287). -/
def State.shadowRestore (s : State) (x : Nat) : State :=
  s.lookup.shadow.foldl (fun s c =>
    if hbmAddr 0 ≤ c.1 ∧ c.1 < hbmAddr (2 ^ 35) ∧ tableCtl (c.1 - hbmAddr 0) = x then { s with mem := mput (fun _ => (0 : Byte)) s.mem c.1 c.2 } else s) s

/-- A table controller is back (R287): shadows rewritten, STALE set on every table that learns. -/
def State.tableReturn (s : State) (x : Nat) : State :=
  let s := s.shadowRestore x
  (List.range 256).foldl (fun s t => if s.flag (Reg.tableAgeCfg t) Fld.tableAgeCfg_learnTable then s.setFld (Reg.tableAgeCfg t) Fld.tableAgeCfg_stale 1 else s) s

/-- The counter records of pseudo-channel `x` are rewritten from the other stack's copy where that one may be read, and 0x0143 is raised (R418). -/
def State.counterRewrite (s : State) (x : Nat) : State :=
  let y := (x + 64) % 128
  if s.hbmServes x && s.copyGood y then
    let here (k : Nat) : Bool := s.recordPc (k / 2 ^ 32 - 0x1000) (k % 2 ^ 32) == x % 64
    let fromTo (a b : AMap CtrVal) : AMap CtrVal :=
      (a.filter (fun p => here p.1)).foldl (fun m p => mput (fun _ => CtrVal.zero) m p.1 p.2) (b.filter (fun p => !here p.1))
    let o := s.obs
    let o := if x < 64 then { o with stored0 := fromTo o.stored1 o.stored0 } else { o with stored1 := fromTo o.stored0 o.stored1 }
    State.raise { s with obs := { o with stale := o.stale.filter (fun z => z != x) } } 0x0143 (pcBytes x)
  else s

/-- HBM_RETRAIN_DONE (R284 to R287). -/
def hbmRetrainDone (x : Nat) (ok : Bool) (us : Nat) (s : State) : State :=
  if s.hbmState x ≠ 4 then s
  else
    let s := s.count .hbmctlRetrain x
    if !ok then s.retrainFail x
    else
      let lost := (s.ctl x).lost
      let s := (s.setHbmState x 1).setCtl x { s.ctl x with lost := 0, fails := 0 }
      let s := s.raise 0x0702 (natBe 2 x ++ natBe 2 us ++ natBe 1 lost)
      if 128 ≤ x then s.taintTake (x - 128) else
        let s := (s.tableReturn x).counterRewrite x
        if s.obs.stale.contains ((x + 64) % 128) then s.counterRewrite ((x + 64) % 128) else s

def execHbmRequest (x : Nat) (r : HbmReq) (s : State) : Out := s.act (hbmRequest x r s)
def execHbmResponse (x tag : Nat) (ecc : EccResult) (s : State) : Out := s.act (hbmResponse x tag ecc s)
def execOpenRowTimeout (x b : Nat) (s : State) : Out := s.act (openRowTimeout x b s)
def execFz24WriteAge (x : Nat) (s : State) : Out := s.act (fz24WriteAge x s)
def execRefreshDue (x b : Nat) (s : State) : Out := s.act (refreshDue x b s)
def execTrainPassStart (n : Nat) (t : Int) (s : State) : Out := s.act (trainPassStart n t s)
def execTrainNowWrite (n : Nat) (s : State) : Out := s.act (trainNowWrite n s)
def execTrainPause (x : Nat) (ok : Bool) (s : State) : Out := s.act (trainPause x ok s)
def execTrainingPauseEnds (x : Nat) (s : State) : Out := s.act (trainingPauseEnds x s)
def execHbmCaParity (x : Nat) (s : State) : Out := s.act (hbmCaParity x s)
def execHbmCmdTimeout (x tag : Nat) (s : State) : Out := s.act (hbmCmdTimeout x tag s)
def execHbmFreezeTimeout (x : Nat) (s : State) : Out := s.act (hbmFreezeTimeout x s)
def execHbmRelease (x : Nat) (s : State) : Out := s.act (hbmRelease x s)
def execHbmRetrainDone (x : Nat) (ok : Bool) (us : Nat) (s : State) : Out := s.act (hbmRetrainDone x ok us s)

end Sys2Proof.Machine
end

