-- ==== Sys2Proof/Machine/Queues.lean ====
section
/-! DEFINITION. Queues as the traffic complex keeps them (R240 to R257, R289 to R294): what the image says of a queue, its chain, records that enter
and leave it, replication contexts, and what closes it. -/

namespace Sys2Proof.Machine

/-! ### What the image says (Tables 12.1 to 12.3) -/

/-- Word `w` of queue `q`'s window (R293). -/
def State.qWord (s : State) (q w : Nat) : Nat := tblWord s.mem (0x0001_5000_0000 + 0x20 * q + 8 * w)

/-- KIND of a queue: 0 unused, 1 virtual output queue, 2 egress queue (log 15). -/
def State.qKind (s : State) (q : Nat) : Nat := bits (s.qWord q 2) 35 34

/-- The queue's admission profile. -/
def State.qProfile (s : State) (q : Nat) : Nat := bits (s.qWord q 2) 47 36

/-- Group node `g` (Table 12.3). -/
def State.grpWord (s : State) (g : Nat) : Nat := tblWord s.mem (0x0001_5100_0000 + 0x20 * g)

/-- The groups in use, in rising order. -/
def State.groups (s : State) : List Nat :=
  (s.mem.filterMap (fun c => if 0x0001_5100_0000 ≤ c.1 ∧ c.1 < 0x0001_5120_0000 ∧ c.1 % 32 = 0 then some ((c.1 - 0x0001_5100_0000) / 32) else none)).filter
    (fun g => bit (s.grpWord g) 63)

/-- The first queue of a group, and how many it holds. -/
def State.grpQueues (s : State) (g : Nat) : Nat × Nat := (bits (s.grpWord g) 62 44, bits (s.grpWord g) 43 38 + 1)

/-- The port node of a group. -/
def State.grpNode (s : State) (g : Nat) : Nat := bits (s.grpWord g) 37 29

/-- The group of an egress queue. -/
def State.qGroup (s : State) (q : Nat) : Option Nat :=
  s.groups.find? (fun g => decide ((s.grpQueues g).1 ≤ q) && decide (q < (s.grpQueues g).1 + (s.grpQueues g).2))

/-- The line port of a port node (Table 12.2): a client node stands on its slice's group port. -/
def State.nodePort (s : State) (n : Nat) : Option Nat :=
  if n < 96 then some n
  else if n < 480 then ((s.phyLanes ((n - 96) / 32)).head?).map (fun j => 8 * ((n - 96) / 32) + j)
  else none

/-- The line port an egress queue leads to. -/
def State.qPort (s : State) (q : Nat) : Option Nat := (s.qGroup q).bind (fun g => s.nodePort (s.grpNode g))

/-- The device maps in use (R291): device, first queue, ports. -/
def State.voqMaps (s : State) : List (Nat × Nat × Nat) :=
  (s.regs.filterMap (fun c => if 0x50050000 ≤ c.1 ∧ c.1 < 0x50058000 ∧ c.1 % 8 = 0 then some ((c.1 - 0x50050000) / 8) else none)).filterMap (fun d =>
    if s.flag (Reg.trafficVoqMap d) Fld.trafficVoqMap_valid then
      some (d, s.fld (Reg.trafficVoqMap d) Fld.trafficVoqMap_voqBase, s.fld (Reg.trafficVoqMap d) Fld.trafficVoqMap_ports)
    else none)

/-- What a virtual output queue carries: the device, and the port, or none for the device's replicas. -/
def State.voqOf (s : State) (q : Nat) : Option (Nat × Option Nat) :=
  s.voqMaps.findSome? (fun m =>
    if m.2.1 ≤ q ∧ q < m.2.1 + 8 * (m.2.2 + 1) then some (m.1, if q < m.2.1 + 8 * m.2.2 then some ((q - m.2.1) / 8) else none) else none)

/-- This device's number. -/
def State.self (s : State) : Nat := s.fld Reg.trafficDevice Fld.trafficDevice_self

/-- Whether device `d` is treated as alive (R334): only a version-2 device whose heartbeats stopped is not. -/
def State.devUp (s : State) (d : Nat) : Bool := !s.fabric.dead.contains d

/-! ### Queue state -/

/-- A queue that has held nothing. -/
def Queue.empty : Queue := { recs := [], open_ := none, deficit := 0, headMs := 0, wait := none, credit := 0, surrender := 0, flushed := false }

/-- Queue `q`. -/
def State.queue (s : State) (q : Nat) : Queue := mget (fun _ => Queue.empty) s.traffic.queues q

/-- Replaces queue `q`. -/
def State.setQueue (s : State) (q : Nat) (x : Queue) : State := { s with traffic := { s.traffic with queues := mput (fun _ => Queue.empty) s.traffic.queues q x } }

/-- Record bytes held. -/
def Queue.bytes (x : Queue) : Nat := (x.recs.map (fun r => r.size)).sum

/-- Whether a queue is closed (R263, R265, R266, R334). -/
def State.qClosed (s : State) (q : Nat) : Bool :=
  (s.queue q).wait.isSome ||
    (if s.qKind q = 2 then (match s.qPort q with | some p => s.flag (Reg.trafficPortCfg p) Fld.trafficPortCfg_closed | none => false)
     else match s.voqOf q with
       | some (d, some p) => !s.sysPortUp (128 * d + p)
       | some (d, none) => !s.devUp d
       | none => false)

/-- The record bytes of a frame of `f` bytes (R241). -/
def recSize (f : Nat) : Nat := 32 + 32 * ceilDiv (f - 4) 32

/-- The accounting port a packet's egress count is kept for (Table 10.5): a line port, 97 ip_punt, 98 ip_mirror; none toward another device. -/
def State.acctOf (s : State) (d : Desc) : Option Nat :=
  if d.copy && d.copyDest == 127 then some 98
  else if d.stamp.dkind = 2 then some 97
  else if d.stamp.dest / 128 = s.self then some (d.stamp.dest % 128)
  else none

/-- The line port of this FZ96 a packet entered on, for the ingress count; a copy or replica has none of its own. -/
def Desc.ingPort (d : Desc) : Option Nat := if d.slice < 12 && !d.copy && !d.replica then some d.port else Option.none

/-- The count of a port and class. -/
def State.egrCount (s : State) (p c : Nat) : Nat := mget (fun _ => 0) s.traffic.egrUse (8 * p + c)

/-- The ingress count of a port and class. -/
def State.ingCount (s : State) (p c : Nat) : Nat := mget (fun _ => 0) s.traffic.ingUse (8 * p + c)

/-- Changes the egress count of a packet's port and class. -/
def State.egrAdd (s : State) (d : Desc) (v : Int) : State :=
  match s.acctOf d with
  | none => s
  | some p => { s with traffic := { s.traffic with egrUse := mput (fun _ => 0) s.traffic.egrUse (8 * p + d.stamp.tc) ((s.egrCount p d.stamp.tc : Int) + v).toNat } }

/-- Changes the ingress count of a packet's port and class. -/
def State.ingAdd (s : State) (d : Desc) (v : Int) : State :=
  match d.ingPort with
  | none => s
  | some p => { s with traffic := { s.traffic with ingUse := mput (fun _ => 0) s.traffic.ingUse (8 * p + d.stamp.tc) ((s.ingCount p d.stamp.tc : Int) + v).toNat } }

/-- The time of day in ms, modulo 1,024. -/
def State.todMs (s : State) : Nat := s.tod / 1000000 % 1024

/-! ### Chains -/

/-- Room for a record of `size` bytes at the tail of queue `q` (R252): the buffers it lies in, where it starts, and the open buffer after it. -/
def State.reserve (s : State) (q req pool size : Nat) : State × Option (List Nat × (Nat × Nat) × Option (Nat × Nat)) :=
  let opn := (s.queue q).open_
  let room := match opn with | some (_, o) => 2016 - o | none => 0
  if size ≤ room then
    match opn with
    | some (h, o) => (s, some ([h], (h, o), some (h, o + size)))
    | none => (s, none)
  else
    let n := ceilDiv (size - room) 2016
    match s.poolChain req pool 0 q n with
    | (s, none) => (s, none)
    | (s, some l) =>
      let last := (l.getLast?).getD 0
      let tail := some (last, size - room - 2016 * (n - 1))
      match opn with
      | some (h, o) => if room = 0 then (s, some (l, (l.headD 0, 0), tail)) else (s, some (h :: l, (h, o), tail))
      | none => (s, some (l, (l.headD 0, 0), tail))

/-- A record enters queue `q`, whose open buffer becomes `opn`; counts follow (R294) and an empty queue's head time is taken. -/
def State.enqueue (s : State) (q : Nat) (r : Rec) (opn : Option (Nat × Nat)) : State :=
  let x := s.queue q
  let s := s.setQueue q { x with recs := x.recs ++ [r], open_ := opn, headMs := if x.recs.isEmpty then s.todMs else x.headMs }
  ((s.egrAdd r.d r.size).ingAdd r.d r.size).queueCount q 0 r.d.bytes.length

/-- Whether a record of queue `q` still lies in buffer `h`, in the queue or among the records dequeued and not read. -/
def State.stillHolds (s : State) (q h : Nat) : Bool :=
  (s.queue q).recs.any (fun r => r.bufs.contains h) || s.traffic.departing.any (fun p => p.2.any (fun y => y.1 == q && y.2.bufs.contains h))

/-- Frees the buffers of a record that has left queue `q`, where it was the last written there (R253); an open buffer is closed at that moment. -/
def State.freeRec (s : State) (q : Nat) (r : Rec) : State :=
  r.bufs.foldl (fun s h =>
    if s.stillHolds q h then s
    else
      let x := s.queue q
      let s := match x.open_ with | some (o, _) => if o = h then s.setQueue q { x with open_ := none } else s | none => s
      s.poolFree 0 q 3 h) s

/-! ### Replication contexts (R254, R311) -/

/-- A context in no use. -/
def ReplCtx.free : ReplCtx :=
  { d := Desc.none, size := 0, req := 0, chain := [], remaining := 0, walking := false, stage := 0, onPorts := false, next := 0, seen := 0 }

/-- Context `c`. -/
def State.repl (s : State) (c : Nat) : ReplCtx := mget (fun _ => ReplCtx.free) s.traffic.ctxs c

/-- Replaces context `c`; CTX_USED follows. -/
def State.setRepl (s : State) (c : Nat) (x : ReplCtx) : State :=
  let m := mput (fun _ => ReplCtx.free) s.traffic.ctxs c x
  State.setFld { s with traffic := { s.traffic with ctxs := m } } Reg.trafficReplStatus Fld.trafficReplStatus_ctxUsed m.length

/-- A context whose walk has ended and whose replicas are all released frees its chain (R254, R311), and the packet leaves its epoch's count (R343). -/
def State.replSettle (s : State) (c : Nat) : State :=
  let x := s.repl c
  if x.walking ∨ x.remaining ≠ 0 ∨ x = ReplCtx.free then s
  else
    let s := s.setRepl c ReplCtx.free
    ((s.poolFreeAll 1 c 4 x.chain).ingAdd x.d (-(x.size : Int))).epochLeave x.d.epoch

/-- One replica is read or discarded. -/
def State.replRelease (s : State) (c : Nat) : State := (s.setRepl c { s.repl c with remaining := (s.repl c).remaining - 1 }).replSettle c

/-- The buffers a record's packet is read from: its own and, for a replica, its context's chain. -/
def State.recReads (s : State) (r : Rec) : List Nat := r.bufs ++ (match r.ctx with | some c => (s.repl c).chain | none => [])

/-- A record leaves the device's counts; `gone` when its packet leaves the device with it, as a dropped one does. -/
def State.recLeave (s : State) (r : Rec) (gone : Bool) : State :=
  let s := s.ingAdd r.d (-(r.size : Int))
  match r.ctx with
  | some c => s.replRelease c
  | none => if gone && !r.d.copy then s.epochLeave r.d.epoch else s

/-- Takes the head record off queue `q`: counts and head time follow. -/
def State.popHead (s : State) (q : Nat) : State :=
  let x := s.queue q
  match x.recs with
  | [] => s
  | r :: rest => (s.setQueue q { x with recs := rest, headMs := s.todMs }).egrAdd r.d (-(r.size : Int))

/-- Records at the head that cannot be read are dropped (R250, R286). -/
def State.headClean (s : State) (q : Nat) : Nat → State
  | 0 => s
  | n + 1 =>
    match (s.queue q).recs with
    | [] => s
    | r :: _ =>
      if s.unreadable (s.recReads r) then
        State.headClean (((((s.popHead q).queueCount q 2 r.d.bytes.length).count .trafficQueueFencedDrop).freeRec q r).recLeave r true) q n
      else s

/-- `headClean` over the whole queue. -/
def State.cleanHead (s : State) (q : Nat) : State := s.headClean q (s.queue q).recs.length

/-! ### Detaching (R263, R266, R313) -/

/-- Handles without repeats. -/
def dedup : List Nat → List Nat
  | [] => []
  | x :: l => if l.contains x then dedup l else x :: dedup l

/-- LIST_USED and PENDING follow the flush list. -/
def State.flushRegs (s : State) : State :=
  let n := (s.traffic.flush.map (fun c => c.bufs.length)).sum
  (s.setFld Reg.trafficFlushStatus Fld.trafficFlushStatus_listUsed s.traffic.flush.length).setFld Reg.trafficFlushStatus Fld.trafficFlushStatus_pending (min n 4294967295)

/-- A queue's chain goes to the flush list, and the queue reads as empty; its packets leave the counts, and `c` counts them. -/
def State.detach (s : State) (q : Nat) (port : Option Nat) (c : Ctr) : State :=
  let x := s.queue q
  let own := dedup ((x.recs.map (fun r => r.bufs)).flatten ++ (match x.open_ with | some (h, _) => [h] | none => []))
  let s := s.setQueue q { x with recs := [], open_ := none, wait := none, headMs := s.todMs }
  let bufs := own.filter (fun h => !s.stillHolds q h)
  let s := x.recs.foldl (fun s r => (if r.ctx.isSome || r.d.copy then s else s.epochLeave r.d.epoch).egrAdd r.d (-(r.size : Int)) |>.ingAdd r.d (-(r.size : Int)) |>.queueCount q 2 r.d.bytes.length) s
  State.flushRegs { s with traffic := { s.traffic with flush := s.traffic.flush ++ [{ q := q, port := port, recs := x.recs, bufs := bufs }] } } |>.countN c 0 x.recs.length

/-- Detaches a queue that holds something; a full flush list of 4,096 leaves it closed with its chain attached, and 0x0608 names the port. -/
def State.detachOrWait (s : State) (q port : Nat) (isLocal : Bool) (c : Ctr) : State :=
  let x := s.queue q
  if x.recs.isEmpty ∨ x.wait.isSome then s
  else if s.traffic.flush.length < 4096 then s.detach q (if isLocal then some port else none) c
  else
    (State.setQueue { s with traffic := { s.traffic with flushWait := s.traffic.flushWait ++ [q] } } q { x with wait := some (if isLocal then port else 128 + port) }).raise 0x0608 (natBe 1 port)

/-- A virtual output queue gives up all its credit (R330). -/
def State.surrenderAll (s : State) (q : Nat) : State :=
  let x := s.queue q
  if 0 < x.credit then s.setQueue q { x with surrender := x.surrender + x.credit.toNat / 256, credit := x.credit - (x.credit.toNat / 256 * 256 : Nat) } else s

/-- Closes and detaches the virtual output queues of a port of another device (R265). -/
def State.closeVoqs (s : State) (dev port : Nat) : State :=
  match s.voqMaps.find? (fun m => m.1 == dev && decide (port < m.2.2)) with
  | none => s
  | some m => (List.range 8).foldl (fun s c => (s.detachOrWait (m.2.1 + 8 * port + c) port false .trafficQueueFlushDrop).surrenderAll (m.2.1 + 8 * port + c)) s

end Sys2Proof.Machine
end

