-- ==== Sys2Proof/Machine/Buffers.lean ====
section
/-! DEFINITION. Admission, cut-through, bad frames, departure and the flush of a port that goes down (R251 to R266). -/

namespace Sys2Proof.Machine

/-! ### Rates and queues for a packet -/

/-- A port mode's rate in Mb/s (Table 3.1). -/
def modeRate : Nat → Nat
  | 1 => 10000 | 2 => 25000 | 3 => 50000 | 4 => 100000 | 5 => 200000 | 6 => 200000 | 7 => 400000 | 8 => 400000 | 9 => 800000 | 10 => 800000 | 11 => 1600000 | _ => 0

/-- The rate of line port `p` in Mb/s; a FlexE group's is the sum over its PHYs. -/
def State.portRate (s : State) (p : Nat) : Nat :=
  if s.flexePort p then ((s.phyLanes (p / 8)).map (fun j => modeRate (s.portMode (8 * (p / 8) + j)))).sum else modeRate (s.portMode p)

/-- The queue a port node selects (R292). -/
def State.nodeQueue (s : State) (n : Nat) (byNh : Bool) (tc nh : Nat) : Option Nat :=
  let r := Reg.trafficSchedPort n
  if !s.flag r Fld.trafficSchedPort_valid then none
  else
    let b := s.fld r Fld.trafficSchedPort_qbase
    if byNh && s.flag r Fld.trafficSchedPort_qselMode then some (b + 8 * (nh % (s.fld r Fld.trafficSchedPort_qspan + 1)) + tc) else some (b + tc)

/-- Where a packet goes: a queue, no queue, or no queue for a port of another device (R291, 0x0616). -/
inductive Target where
  | queue (q : Nat)
  | none
  | noVoq (dev port : Nat)
  deriving DecidableEq, Repr

/-- The queue of a unicast packet (R290 to R292): ip_punt and ip_mirror have nodes of their own, a local port its node, another device its block. -/
def State.target (s : State) (d : Desc) : Target :=
  let tc := d.stamp.tc
  let ofNode (n : Nat) (byNh : Bool) : Target := match s.nodeQueue n byNh tc d.stamp.nh with | some q => .queue q | none => .none
  if d.copy && d.copyDest == 127 then ofNode 481 false
  else if d.stamp.dkind = 2 then ofNode 480 false
  else
    let dev := d.stamp.dest / 128
    let p := d.stamp.dest % 128
    if dev = s.self then (if p < 96 && s.portMode p != 0 then ofNode p true else .none)
    else
      let m := Reg.trafficVoqMap dev
      if s.flag m Fld.trafficVoqMap_valid && decide (p < s.fld m Fld.trafficVoqMap_ports) then .queue (s.fld m Fld.trafficVoqMap_voqBase + 8 * p + tc) else .noVoq dev p

/-- The requester a packet's buffers count against (Table 10.2). -/
def Desc.requester (d : Desc) : Nat :=
  if d.copy then 16 else if d.stamp.dkind = 2 then 15 else if d.slice < 12 then d.slice else if d.stamp.dkind = 1 then 13 else 12

/-- Whether a packet crosses whole (R251): at most 256 bytes, from a SecY port, of a class the port does not stream, or a copy. -/
def State.isWhole (s : State) (d : Desc) : Bool :=
  decide (d.bytes.length ≤ 256) || d.copy ||
    (decide (d.slice < 12) && (s.flag (Reg.macsecSecyCfg d.port) Fld.macsecSecyCfg_enable
      || !bit (s.fld (Reg.trafficPortCfg d.port) Fld.trafficPortCfg_ctTcMask) d.stamp.tc))

/-! ### Admission checks (Table 10.5) -/

/-- The limit of an admission profile for a colour, in bytes (Table 10.8). -/
def State.limitOf (s : State) (prof colour : Nat) : Nat :=
  let hi := (s.reg (Reg.trafficAdmitProfileHi prof)).toNat
  let lo := (s.reg (Reg.trafficAdmitProfileLo prof)).toNat
  1024 * (if colour = 0 then bits hi 63 40 else if colour = 1 then bits hi 39 16 else bits hi 15 0 * 256 + bits lo 63 56)

/-- POOL of an admission profile. -/
def State.poolOf (s : State) (prof : Nat) : Nat := b2n (bit (s.reg (Reg.trafficAdmitProfileLo prof)).toNat 55)

/-- The limit test of R257: a whole packet's count with its record, a streamed packet's count alone. -/
def passes (whole : Bool) (count size limit : Nat) : Bool := if whole then decide (count + size ≤ limit) else decide (count < limit)

/-- The first of checks 2 to 6 that a packet fails for queue `q`. -/
def State.admitCheck (s : State) (d : Desc) (q size : Nat) (whole replica : Bool) : Option Ctr :=
  let tc := d.stamp.tc
  if s.qClosed q then some .trafficAdmitPortDown
  else if !replica && whole && d.bad then some .trafficAdmitBadDrop
  else if !passes whole (s.queue q).bytes size (s.limitOf (s.qProfile q) d.stamp.colour) then some .trafficAdmitQueueLimit
  else if !replica && (match d.ingPort with
      | some p => !passes whole (s.ingCount p tc) size (1024 * s.fld (Reg.trafficPortTcLimit p tc) Fld.trafficPortTcLimit_ingLimit) | none => false) then some .trafficAdmitIngLimit
  else if (match s.acctOf d with
      | some p => !passes whole (s.egrCount p tc) size (1024 * s.fld (Reg.trafficPortTcLimit p tc) Fld.trafficPortTcLimit_egrLimit) | none => false) then some .trafficAdmitEgrLimit
  else none

/-- A packet that is not admitted (Table 10.5, R155, R343). -/
def State.refuse (s : State) (d : Desc) (q : Option Nat) (c : Ctr) : State :=
  let s := (s.count c).filterCount 3 0 d.requester q (some d.stamp.tc)
  let s := match q with | some q => s.queueCount q 2 d.bytes.length | none => s
  let s := if c = .trafficPoolAllocFail then s.raiseLimited 0x0603 d.requester (natBe 1 d.requester) else s
  if d.copy then s.count .lookupMirrorCopyDrop else s.epochLeave d.epoch

/-- Counts an admitted packet. -/
def State.admitted (s : State) (d : Desc) (q : Option Nat) : State :=
  let s := (s.count .trafficAdmitAdmitted).filterCount 2 0 d.requester q (some d.stamp.tc)
  match d.ingPort with | some p => s.portCount p d.stamp.tc 0 d.bytes.length | none => s

/-! ### Cut-through (R259) -/

/-- Whether a streamed packet for queue `q` may be cut through. -/
def State.cutOk (s : State) (d : Desc) (q : Nat) : Bool :=
  let tc := d.stamp.tc
  let inOk := !decide (d.slice < 12) || bit (s.fld (Reg.trafficPortCfg d.port) Fld.trafficPortCfg_ctTcMask) tc
  (s.queue q).recs.isEmpty && inOk &&
    (if s.qKind q = 2 then
      match s.qPort q, s.qGroup q with
      | some p, some g =>
        bit (s.fld (Reg.trafficPortCfg p) Fld.trafficPortCfg_ctTcMask) tc && decide (s.portRate p ≤ d.rate)
          && mget (fun _ => 0) s.traffic.inflight (s.grpNode g) == 0 && (s.port p).txQ.isEmpty
      | _, _ => false
    else decide (0 < (s.queue q).credit))

/-- The number of the next streamed packet. -/
def State.newStream (s : State) : Nat × State := (s.traffic.nextStream, { s with traffic := { s.traffic with nextStream := s.traffic.nextStream + 1 } })

/-- A record with a chain of its own: the queue's open buffer is closed (R254). -/
def State.enqueueChain (s : State) (q : Nat) (d : Desc) (chain : List Nat) : State :=
  s.enqueue q { d := d, size := recSize d.bytes.length, ctx := none, bufs := chain, start := (chain.headD 0, 0) } none

/-! ### Replication contexts (R310, R311) -/

/-- A multicast packet takes a context with its chain and its walk begins; without a context or buffers it is dropped. The caller has its chain. -/
def State.replBegin (s : State) (d : Desc) : State :=
  let size := recSize d.bytes.length
  let whole := s.isWhole d
  let tc := d.stamp.tc
  match d.ingPort.filter (fun p => !passes whole (s.ingCount p tc) size (1024 * s.fld (Reg.trafficPortTcLimit p tc) Fld.trafficPortTcLimit_ingLimit)) with
  | some _ => s.refuse d none .trafficAdmitIngLimit
  | none =>
    match firstFree s.traffic.ctxs 0 262144 with
    | none => ((s.count .trafficReplCtxFull).raiseLimited 0x0611 0 (natBe 2 d.stamp.dest)).epochLeave d.epoch
    | some c =>
      match s.poolChain d.requester 0 1 c (ceilDiv size 2016) with
      | (s, none) => s.refuse d none .trafficPoolAllocFail
      | (s, some l) =>
        let g := 0x0001_5140_0000 + 0x10 * d.stamp.dest
        let w := tbl128 s.mem g
        let fab := !decide (d.slice < 12)
        let first := if !bit w 127 then 0 else if fab then bits w 106 87 else bits w 126 107
        let x : ReplCtx := ReplCtx.mk d size d.requester l 0 true (b2n fab) fab first 0
        let s := s.setRepl c x
        (s.ingAdd d size).admitted d none

/-! ### PACKET_ADMIT -/

/-- Streamed packets of slice `k` in progress, oldest first. -/
def State.streamsOf (s : State) (k : Nat) : List Stream := mget (fun _ => []) s.traffic.streams k

/-- Replaces them. -/
def State.setStreams (s : State) (k : Nat) (l : List Stream) : State := { s with traffic := { s.traffic with streams := mput (fun _ => []) s.traffic.streams k l } }

/-- A whole packet that has passed the checks is packed into its queue's chain (R252), or refused for want of a buffer. -/
def State.admitWhole (s : State) (d : Desc) (q : Nat) : State :=
  let size := recSize d.bytes.length
  match s.reserve q d.requester (s.poolOf (s.qProfile q)) size with
  | (s, none) => s.refuse d (some q) .trafficPoolAllocFail
  | (s, some (l, st, opn)) => (s.enqueue q { d := d, size := size, ctx := none, bufs := l, start := st } opn).admitted d (some q)

/-- The head of a streamed packet from slice `k` (R251, R257, R259): its chain begins; cut through, it is in its queue at once. -/
def State.admitHead (s : State) (k : Nat) (d : Desc) (q : Nat) : State :=
  match s.poolGrant d.requester (s.poolOf (s.qProfile q)) 0 q with
  | (s, none) => s.refuse d (some q) .trafficPoolAllocFail
  | (s, some h) =>
    let (n, s) := s.newStream
    let d := { d with stream := n, streamed := true }
    let cut := s.cutOk d q
    let s := s.setStreams k (s.streamsOf k ++ [{ id := n, d := d, q := some q, req := d.requester, chain := [h], cut := cut }])
    (if cut then s.enqueueChain q d [h] else s).admitted d (some q)

/-- A streamed packet from the fabric, whose record is complete (log 17): cut through, or stored and dropped when it is bad (R261). -/
def State.admitFabric (s : State) (d : Desc) (q : Nat) : State :=
  let cut := s.cutOk d q
  match s.poolChain d.requester (s.poolOf (s.qProfile q)) 0 q (ceilDiv (recSize d.bytes.length) 2016) with
  | (s, none) => s.refuse d (some q) .trafficPoolAllocFail
  | (s, some l) =>
    if d.bad && !cut then (s.poolFreeAll 0 q 3 l).refuse d (some q) .trafficAdmitBadDrop
    else
      let s := if d.bad then s.count .trafficAdmitCtBadTail else s
      let (n, s) := s.newStream
      (s.enqueueChain q { d with stream := n, streamed := true } l).admitted d (some q)

/-- A packet at traffic.admit (R256). -/
def State.admitPacket (s : State) (k : Nat) (fab : Bool) (d : Desc) : State :=
  if d.stamp.dkind = 3 then s.epochLeave d.epoch
  else if d.stamp.dkind = 1 && !d.copy then
    if s.isWhole d then (if d.bad then s.refuse d none .trafficAdmitBadDrop else s.replBegin d)
    else if fab then (if d.bad then s.refuse d none .trafficAdmitBadDrop else s.replBegin d)
    else
      let (n, s) := s.newStream
      s.setStreams k (s.streamsOf k ++ [{ id := n, d := { d with stream := n, streamed := true }, q := none, req := d.requester, chain := [], cut := false }])
  else match s.target d with
    | .none => s.refuse d none .trafficAdmitPortDown
    | .noVoq dev p => (s.refuse d none .trafficAdmitPortDown).raiseLimited 0x0616 dev (natBe 2 dev ++ natBe 1 p)
    | .queue q =>
      let whole := s.isWhole d
      match s.admitCheck d q (recSize d.bytes.length) whole false with
      | some c => s.refuse d (some q) c
      | none => if whole then s.admitWhole d q else if fab then s.admitFabric d q else s.admitHead k d q

/-- PACKET_ADMIT (R256): the front packet of slice `k`'s bridge channel, or of what fabric.reasm delivered. A park is freed as the packet crosses (R255). -/
def packetAdmit (k : Nat) (fromFabric : Bool) (s : State) : State :=
  if fromFabric then
    match s.fabric.inQ with
    | [] => s
    | d :: rest => State.admitPacket { s with fabric := { s.fabric with inQ := rest } } k true d
  else
    match s.bridgeOf k, s.bridgeCarries k false with
    | d :: rest, true =>
      let s := { s with lookup := { s.lookup with bridgeQ := mput (fun _ => []) s.lookup.bridgeQ k rest } }
      State.admitPacket (s.unpark k d.park) k false { d with park := [], rate := s.portRate d.port }
    | _, _ => s

/-! ### STREAM_TAIL (R261) -/

/-- Marks a record of streamed packet `n`. -/
def Rec.markBad (n : Nat) (bufs : List Nat) (bad : Bool) (r : Rec) : Rec :=
  if r.d.stream = n then { r with d := { r.d with bad := r.d.bad || bad }, bufs := r.bufs ++ bufs } else r

/-- The tail of a packet that is cut through reaches it where it is: its queue, its way out, or its port, where a bad one ends with a stomped FCS. -/
def State.streamMark (s : State) (n q : Nat) (bufs : List Nat) (bad : Bool) : State :=
  let x := s.queue q
  let s := s.setQueue q { x with recs := x.recs.map (Rec.markBad n bufs bad) }
  let dep := s.traffic.departing.map (fun p => (p.1, p.2.map (fun y => (y.1, Rec.markBad n bufs bad y.2))))
  let seg := s.fabric.seg.map (fun p => (p.1, { p.2 with cur := p.2.cur.map (Rec.markBad n bufs bad) }))
  let egr := s.lookup.egrQ.map (fun p => (p.1, p.2.map (fun d => if d.stream = n then { d with bad := d.bad || bad } else d)))
  let mark (f : TxPkt) : TxPkt := if f.stream = n then { f with stomp := f.stomp || bad } else f
  let ports := s.line.ports.map (fun p => (p.1, { p.2 with macTx := p.2.macTx.map mark, txQ := p.2.txQ.map mark }))
  { s with traffic := { s.traffic with departing := dep }, fabric := { s.fabric with seg := seg }, lookup := { s.lookup with egrQ := egr },
           line := { s.line with ports := ports } }

/-- Whether a packet that was cut through has still buffers to hold: in its queue, dequeued and not read, or being cut into cells. -/
def State.streamHeld (s : State) (n q : Nat) : Bool :=
  (s.queue q).recs.any (fun r => r.d.stream == n) || s.traffic.departing.any (fun p => p.2.any (fun y => y.2.d.stream == n))
    || s.fabric.seg.any (fun p => match p.2.cur with | some r => r.d.stream == n | none => false)

/-- STREAM_TAIL (R251, R261): the oldest streamed packet of slice `k` ends, good or bad: by the command, by its MAC mark, by a fenced channel,
or by a buffer refused for the rest of it. -/
def streamTail (k : Nat) (bad : Bool) (s : State) : State :=
  match s.streamsOf k with
  | [] => s
  | x :: rest =>
    let s := s.setStreams k rest
    let bad := bad || x.d.bad || (s.chan k false).fenced
    match x.q with
    | none => if bad then s.refuse x.d none .trafficAdmitBadDrop else s.replBegin { x.d with stream := 0 }
    | some q =>
      let more := ceilDiv (recSize x.d.bytes.length) 2016 - x.chain.length
      if x.cut then
        let (s, l) := if bad || !s.streamHeld x.id q then (s, some []) else s.poolChain x.req (s.poolOf (s.qProfile q)) 0 q more
        let bad := bad || l.isNone
        let s := s.streamMark x.id q (l.getD []) bad
        if bad then s.count .trafficAdmitCtBadTail else s
      else if bad then (s.poolFreeAll 0 q 3 x.chain).refuse x.d (some q) .trafficAdmitBadDrop
      else
        match s.poolChain x.req (s.poolOf (s.qProfile q)) 0 q more with
        | (s, none) => (s.poolFreeAll 0 q 3 x.chain).refuse x.d (some q) .trafficAdmitBadDrop
        | (s, some l) => s.enqueueChain q { x.d with stream := 0 } (x.chain ++ l)

/-! ### Departure (R253, R262) -/

/-- Records dequeued for port node `n` and not read yet. -/
def State.departingOf (s : State) (n : Nat) : List (Nat × Rec) := mget (fun _ => []) s.traffic.departing n

/-- Replaces them. -/
def State.setDeparting (s : State) (n : Nat) (l : List (Nat × Rec)) : State :=
  { s with traffic := { s.traffic with departing := mput (fun _ => []) s.traffic.departing n l } }

/-- The bytes `w` leave the window of port node `n` (R296). -/
def State.winLess (s : State) (n w : Nat) : State :=
  { s with traffic := { s.traffic with inflight := mput (fun _ => 0) s.traffic.inflight n (mget (fun _ => 0) s.traffic.inflight n - w) } }

/-- A mirror record for export (Table 18.8). -/
def mirrorRecord (d : Desc) : Bytes :=
  let body := d.bytes.take (d.bytes.length - 4)
  natBe 1 d.port ++ natBe 1 d.stamp.tc ++ natBe 2 d.bytes.length ++ natBe 2 body.length ++ [0, 0] ++ body

/-- The packet of a record that was read goes on: across the bridge to egress processing, to the control complex (ip_punt), or to the exporter (ip_mirror, R428). -/
def State.deliver (s : State) (n : Nat) (d : Desc) : State :=
  let s := if 480 ≤ n then s.portCount (n - 383) d.stamp.tc 2 d.bytes.length else s
  if n = 480 then
    State.winLess { s with traffic := { s.traffic with punted := s.traffic.punted ++ [d] } } n d.win
  else if n = 481 then
    State.winLess (State.tele { s with traffic := { s.traffic with mirrored := s.traffic.mirrored ++ [d] } } 6 5 (mirrorRecord d)) n d.win
  else
    match s.nodePort n with
    | none => s
    | some p => { s with lookup := { s.lookup with egrQ := mput (fun _ => []) s.lookup.egrQ (p / 8) (mget (fun _ => []) s.lookup.egrQ (p / 8) ++ [d]) } }

/-- PACKET_DEPART (R253): the oldest dequeued record of port node `n` is read; its buffers are freed where it was the last in them. -/
def packetDepart (n : Nat) (s : State) : State :=
  match s.departingOf n with
  | [] => s
  | (q, r) :: rest =>
    let s := (s.setDeparting n rest).freeRec q r
    let s := s.recLeave r (n == 480)
    s.deliver n r.d

/-- BUFFER_READ_ERROR (R262). A packet no byte of which has left is dropped; a frame on its way ends with a stomped FCS where the read failed, and a record
being cut into cells is closed with the bytes read so far, of which the spec says no number (a free value), and the bad-tail flag. -/
def bufferReadError (voq : Bool) (n status : Nat) (s : State) : State :=
  if status ≠ 2 ∧ status ≠ 3 then s
  else if voq then
    let g := mget (fun _ => { left := [], cur := none, seq := 0 }) s.fabric.seg n
    match g.cur with
    | none => s
    | some r =>
      let (d, s) := s.draw
      let g := { g with cur := some { r with d := { r.d with bad := true } }, left := (match g.left with
        | [] => []
        | .desc e o l :: _ => [.desc e o (1 + Config.freeNat d % l)]
        | .data b :: _ => [.data (b.take (1 + Config.freeNat d % b.length))]) }
      State.count { s with fabric := { s.fabric with seg := mput (fun _ => { left := [], cur := none, seq := 0 }) s.fabric.seg n g } } .trafficQueueReadErr
  else
    match s.departingOf n with
    | (q, r) :: rest =>
      let s := (s.setDeparting n rest).freeRec q r
      let s := ((s.recLeave r true).winLess n r.d.win).queueCount q 2 r.d.bytes.length
      (s.count .trafficQueueFencedDrop).count .trafficQueueReadErr
    | [] =>
      match s.nodePort n with
      | none => s
      | some p =>
        match (s.port p).txQ with
        | [] => s
        | f :: rest =>
          let (d, s) := s.draw
          let b := f.bytes.take (Config.freeNat d % (f.bytes.length - 3))
          (s.setPort p { s.port p with txQ := { f with stomp := true, bytes := b ++ fcsOf b } :: rest }).count .trafficQueueReadErr

/-! ### Quotas (R245) -/

/-- QUOTA_WRITE (R245). Pools are numbered as POOL is: 0 on-die, 1 HBM. -/
def quotaWrite (r onDieQ hbmQ : Nat) (s : State) : State :=
  if 24 ≤ r ∨ 32768 < onDieQ ∨ 50331648 < hbmQ then s
  else
    let s := (s.setFld (Reg.trafficQuota r) Fld.trafficQuota_ondieQuota onDieQ).setFld (Reg.trafficQuota r) Fld.trafficQuota_hbmQuota hbmQ
    let u := Reg.trafficQuotaUsed r
    let s := if onDieQ < s.fld u Fld.trafficQuotaUsed_ondieUsed then (s.setFld u Fld.trafficQuotaUsed_overOndie 1).raise 0x0601 (natBe 1 r ++ natBe 1 0) else s
    let s := if hbmQ < s.fld u Fld.trafficQuotaUsed_hbmUsed then (s.setFld u Fld.trafficQuotaUsed_overHbm 1).raise 0x0601 (natBe 1 r ++ natBe 1 1) else s
    s.overClear r

/-! ### Port down (R263 to R266) -/

/-- PORT_QUEUES_CLOSE (R263): the queues of a port that went down are closed and detached. -/
def portQueuesClose (p : Nat) (s : State) : State :=
  if !s.line.closeDue.contains p then s
  else
    let s := { s with line := { s.line with closeDue := s.line.closeDue.filter (fun x => x != p) } }
    let s := s.setFld (Reg.trafficPortCfg p) Fld.trafficPortCfg_closed 1
    let qs := (s.traffic.queues.map (fun x => x.1)).filter (fun q => s.qKind q == 2 && s.qPort q == some p)
    let s := qs.foldl (fun s q => s.detachOrWait q p true .trafficQueueFlushDrop) s
    s.closeVoqs s.self p

/-- VOQ_CLOSE_ON_NOTICE (R265). -/
def voqCloseOnNotice (dev port : Nat) (s : State) : State :=
  if s.fabric.closeVoq.contains (dev, port) then
    let s := { s with fabric := { s.fabric with closeVoq := s.fabric.closeVoq.filter (fun x => x != (dev, port)) } }
    (s.closeVoqs dev port).raise 0x0606 (natBe 2 dev ++ natBe 1 port)
  else s

/-- Whether chains of port `p` still wait or are listed. -/
def State.portFlushing (s : State) (p : Nat) : Bool :=
  s.traffic.flush.any (fun c => c.port == some p) || s.traffic.flushWait.any (fun q => (s.queue q).wait == some p)

/-- FLUSH_CHAIN_FREE (R266): the first chain of the list is freed buffer by buffer, its replicas released; a port's last chain raises 0x0607. -/
def flushChainFree (s : State) : State :=
  match s.traffic.flush with
  | [] => s
  | c :: rest =>
    let s := { s with traffic := { s.traffic with flush := rest } }
    let s := (s.poolFreeAll 0 c.q 3 c.bufs).countN .trafficQueueFlushBuffers 0 c.bufs.length
    let s := c.recs.foldl (fun s r => match r.ctx with | some x => s.replRelease x | none => s) s
    let s := s.flushRegs
    match c.port with
    | none => s
    | some p =>
      let n := mget (fun _ => 0) s.traffic.flushFreed p + c.bufs.length
      if s.portFlushing p then { s with traffic := { s.traffic with flushFreed := mput (fun _ => 0) s.traffic.flushFreed p n } }
      else State.raise { s with traffic := { s.traffic with flushFreed := mput (fun _ => 0) s.traffic.flushFreed p 0 } } 0x0607 (natBe 1 p ++ natBe 4 n)

/-- FLUSH_LIST_ADMIT (R266): the first queue that waits for a place gets one. -/
def flushListAdmit (s : State) : State :=
  match s.traffic.flushWait with
  | [] => s
  | q :: rest =>
    if 4096 ≤ s.traffic.flush.length then s
    else
      let s := { s with traffic := { s.traffic with flushWait := rest } }
      s.detach q ((s.queue q).wait.filter (fun p => decide (p < 128))) .trafficQueueFlushDrop

def execPacketAdmit (k : Nat) (fab : Bool) (s : State) : Out := s.act (packetAdmit k fab s)
def execStreamTail (k : Nat) (bad : Bool) (s : State) : Out := s.act (streamTail k bad s)
def execPacketDepart (n : Nat) (s : State) : Out := s.act (packetDepart n s)
def execBufferReadError (voq : Bool) (n st : Nat) (s : State) : Out := s.act (bufferReadError voq n st s)
def execQuotaWrite (r a b : Nat) (s : State) : Out := s.act (quotaWrite r a b s)
def execPortQueuesClose (p : Nat) (s : State) : Out := s.act (portQueuesClose p s)
def execVoqCloseOnNotice (d p : Nat) (s : State) : Out := s.act (voqCloseOnNotice d p s)
def execFlushChainFree (s : State) : Out := s.act (flushChainFree s)
def execFlushListAdmit (s : State) : Out := s.act (flushListAdmit s)

end Sys2Proof.Machine
end

