-- ==== Sys2Proof/Machine/Egress.lean ====
section
/-! DEFINITION. Egress processing (R196, R197, R86, R154, R156, R344): the stamped result applied to a departing packet. -/

namespace Sys2Proof.Machine

/-! ### The parts of a frame -/

/-- A frame without its FCS, in parts: addresses and tags, EtherType, label stack entries, and what follows. -/
structure Parts where
  l2     : Bytes
  et     : Nat
  labels : List Nat
  body   : Bytes
  deriving DecidableEq, Repr

/-- The length of addresses and VLAN tags. -/
def l2Len (b : Bytes) : Nat → Nat → Nat
  | 0, i => i
  | n + 1, i => if beAt b i 2 = 0x8100 ∨ beAt b i 2 = 0x88A8 then l2Len b n (i + 4) else i

/-- The label stack at the front of `b`, to the bottom-of-stack bit, and what follows. -/
def takeLabels : Nat → Bytes → List Nat × Bytes
  | 0, b => ([], b)
  | n + 1, b =>
    if b.length < 4 then ([], b)
    else
      let w := beAt b 0 4
      if bit w 8 then ([w], b.drop 4) else let (l, r) := takeLabels n (b.drop 4); (w :: l, r)

/-- The EtherType of an IP header, by its version; none for anything else. -/
def ipType (b : Bytes) : Option Nat :=
  if b.isEmpty then none else if beAt b 0 1 / 16 = 4 then some 0x0800 else if beAt b 0 1 / 16 = 6 then some 0x86DD else none

/-- The EtherType of what follows a label stack or a strip; where it is no IP header the spec states none, and it is a free value. -/
def State.typeOf (s : State) (b : Bytes) : Nat × State :=
  match ipType b with
  | some t => (t, s)
  | none => let (d, s) := s.draw; (Config.freeNat d % 65536, s)

/-- The parts of a departing packet. A packet that recirculation stripped has lost its Ethernet header (R119); its label stack is taken when a label operation is stamped. -/
def State.parts (s : State) (d : Desc) : Parts × State :=
  let b := d.bytes.take (d.bytes.length - 4)
  if d.stripped then
    let (ls, body) := if d.stamp.labelOp = 0 then ([], b) else takeLabels b.length b
    let (et, s) := if ls.isEmpty then s.typeOf body else (0x8847, s)
    ({ l2 := [], et := et, labels := ls, body := body }, s)
  else
    let n := l2Len b b.length 12
    let et := beAt b n 2
    let (ls, body) := if et = 0x8847 ∨ et = 0x8848 then takeLabels b.length (b.drop (n + 2)) else ([], b.drop (n + 2))
    ({ l2 := b.take n, et := et, labels := ls, body := body }, s)

/-! ### Steps 1 and 2 -/

/-- Step 1 (R197): pop, swap, or pop and swap. A swapped label keeps its TC and takes the received TTL minus 1. -/
def State.labelStep (s : State) (op newLabel : Nat) (p : Parts) : Parts × State :=
  let ls := if op = 2 ∨ op = 3 then p.labels.drop 1 else p.labels
  let ls := match ls with
    | w :: rest => if op = 1 ∨ op = 3 then (4096 * newLabel + w / 256 % 16 * 256 + (w % 256 - 1)) :: rest else ls
    | [] => []
  if ls.isEmpty ∧ !p.labels.isEmpty then let (et, s) := s.typeOf p.body; ({ p with labels := [], et := et }, s)
  else ({ p with labels := ls }, s)

/-- Replaces bytes of a byte string at an offset. -/
def bytesPut (b : Bytes) (o : Nat) (v : Bytes) : Bytes := b.take o ++ v ++ b.drop (o + v.length)

/-- One's complement sum of 16-bit words folded to 16 bits. -/
def onesFold (n : Nat) : Nat :=
  let a := n / 65536 + n % 65536
  a / 65536 + a % 65536

/-- Sum of the 16-bit words of a byte string, an odd last byte padded with zero. -/
def wordSum (b : Bytes) : Nat := ((List.range ((b.length + 1) / 2)).map (fun i => beAt b (2 * i) 2)).sum

/-- The Internet checksum of a byte string. -/
def inetSum (b : Bytes) : Nat := 65535 - onesFold (wordSum b)

/-- Step 2 (R197): the IPv4 TTL falls by one and the header checksum is updated for it, or the IPv6 hop limit falls by one. -/
def ttlStep (b : Bytes) : Bytes :=
  match ipType b with
  | some 0x0800 =>
    let old := beAt b 8 2
    let b := bytesPut b 8 (natBe 1 (beAt b 8 1 - 1))
    bytesPut b 10 (natBe 2 (65535 - onesFold (65535 - beAt b 10 2 + (65535 - old) + beAt b 8 2)))
  | some _ => bytesPut b 7 (natBe 1 (beAt b 7 1 - 1))
  | none => b

/-- The TTL of the header below a pushed label (R197 step 4); a header without a TTL gives a free value. -/
def State.ttlBelow (s : State) (p : Parts) : Nat × State :=
  match p.labels with
  | w :: _ => (w % 256, s)
  | [] => match ipType p.body with
    | some 0x0800 => (beAt p.body 8 1, s)
    | some _ => (beAt p.body 7 1, s)
    | none => let (d, s) := s.draw; (Config.freeNat d % 256, s)

/-! ### Steps 3 to 5 -/

/-- Step 4: one label pushed. -/
def State.push (s : State) (tc label : Nat) (p : Parts) : Parts × State :=
  let (ttl, s) := s.ttlBelow p
  ({ p with labels := (4096 * label + tc * 512 + b2n p.labels.isEmpty * 256 + ttl) :: p.labels, et := 0x8847 }, s)

/-- The bytes from the EtherType on. -/
def Parts.tail (p : Parts) : Bytes := natBe 2 p.et ++ (p.labels.map (natBe 4)).flatten ++ p.body

/-- Step 3: the Ethernet header of an encapsulation entry, up to the EtherType. -/
def State.ethHeader (s : State) (e tc : Nat) : Bytes :=
  natBe 6 (bits e 115 68) ++ natBe 6 (s.fld (Reg.ditSmac (bits e 67 60)) Fld.ditSmac_mac)
  ++ (if bit e 59 then natBe 2 0x8100 ++ natBe 2 (8192 * tc + bits e 58 47) else [])

/-- Step 5: the outer headers of KIND 2 or 3. The outer header fields the spec does not state (identification, flags, ECN, flow label) are free values. -/
def State.vxlan (s : State) (e i spread : Nat) (inner : Bytes) : Bytes × State :=
  let vx := [8, 0, 0, 0] ++ natBe 3 (bits e 44 21) ++ [0] ++ inner
  let n := 8 + vx.length
  let udp := natBe 2 (0xC000 ||| spread) ++ natBe 2 4789 ++ natBe 2 n
  let (d, s) := s.draw
  if bits e 118 116 = 2 then
    let x := tbl128 s.mem (encapAddr (i + 1))
    let head := natBe 1 0x45 ++ natBe 1 (bits x 51 46 * 4 + Config.freeNat d % 4) ++ natBe 2 (20 + n) ++ natBe 4 (Config.freeNat d / 4)
      ++ natBe 1 (bits x 45 38) ++ natBe 1 17 ++ [0, 0] ++ natBe 4 (bits x 115 84) ++ natBe 4 (bits x 83 52)
    (natBe 2 0x0800 ++ bytesPut head 10 (natBe 2 (inetSum head)) ++ udp ++ [0, 0] ++ vx, s)
  else
    let x1 := tbl128 s.mem (encapAddr (i + 1))
    let x2 := tbl128 s.mem (encapAddr (i + 2))
    let dst := natBe 16 (2 ^ 24 * bits x1 115 12 + bits x2 115 92)
    let src := natBe 16 (tbl128 s.mem (0x0001_2190_0000 + 16 * bits x2 91 84))
    let head := natBe 4 (6 * 2 ^ 28 + 2 ^ 20 * (bits x2 83 78 * 4 + Config.freeNat d % 4) + Config.freeNat d / 4 % 2 ^ 20) ++ natBe 2 n ++ natBe 1 17 ++ natBe 1 (bits x2 77 70) ++ src ++ dst
    let ck := inetSum (src ++ dst ++ natBe 4 n ++ [0, 0, 0, 17] ++ udp ++ [0, 0] ++ vx)
    (natBe 2 0x86DD ++ head ++ udp ++ natBe 2 (if ck = 0 then 65535 else ck) ++ vx, s)

/-- Steps 3 to 5 of R197 with encapsulation entry `i`; the frame without FCS. -/
def State.encapsulate (s : State) (d : Desc) (i : Nat) (p : Parts) : Bytes × State :=
  let e := tbl128 s.mem (encapAddr i)
  let eth := s.ethHeader e d.stamp.tc
  match bits e 118 116 with
  | 0 => (eth ++ p.tail, s)
  | 1 =>
    let (p, s) := if bits e 46 45 = 2 then s.push d.stamp.tc (bits e 24 5) p else (p, s)
    let (p, s) := s.push d.stamp.tc (bits e 44 25) p
    (eth ++ p.tail, s)
  | _ =>
    let (outer, s) := s.vxlan e i d.stamp.spread (p.l2 ++ p.tail)
    (eth ++ outer, s)

/-- The whole rewrite (R197). A mirror copy is only wrapped. -/
def State.rewrite (s : State) (d : Desc) : Bytes × State :=
  let t := d.stamp
  let (p, s) := s.parts d
  let (p, s) := if t.labelOp = 0 then (p, s) else s.labelStep t.labelOp t.newLabel p
  let p := if t.ttlDec then { p with body := ttlStep p.body } else p
  if t.encap = 0 then (if p.l2.isEmpty then (p.labels.map (natBe 4)).flatten ++ p.body else p.l2 ++ p.tail, s) else s.encapsulate d t.encap p

/-! ### One-step time (R86) -/

/-- The offset of an IEEE 1588 event message in a frame (over Ethernet, UDP/IPv4 or UDP/IPv6), and of the UDP header when it has one. -/
def ptpAt (b : Bytes) : Option (Nat × Option (Nat × Bool)) :=
  let n := l2Len b b.length 12
  let et := beAt b n 2
  let ip := n + 2
  let udp4 := ip + beAt b ip 1 % 16 * 4
  let event (o : Nat) : Bool := decide (o + 16 ≤ b.length) && decide (beAt b o 1 % 16 ≤ 3)
  if et = 0x88F7 ∧ event ip then some (ip, none)
  else if et = 0x0800 ∧ beAt b (ip + 9) 1 = 17 ∧ beAt b (udp4 + 2) 2 = 319 ∧ event (udp4 + 8) then some (udp4 + 8, some (udp4, false))
  else if et = 0x86DD ∧ beAt b (ip + 6) 1 = 17 ∧ beAt b (ip + 42) 2 = 319 ∧ event (ip + 48) then some (ip + 48, some (ip + 40, true))
  else none

/-- Writes the correction field: the predicted departure depends on a path delay the spec does not state, so its 8 bytes are free values. Over UDP/IPv4 the checksum
becomes zero, over UDP/IPv6 it is updated. -/
def State.oneStep (s : State) (b : Bytes) : Bytes × State :=
  match ptpAt b with
  | none => (b, s)
  | some (o, u) =>
    let (v, s) := s.freeBytes 8
    let c := bytesPut b (o + 8) v
    match u with
    | none => (c, s)
    | some (k, false) => (bytesPut c (k + 6) [0, 0], s)
    | some (k, true) =>
      let len := beAt c (k + 4) 2
      let z := bytesPut c (k + 6) [0, 0]
      let ck := inetSum (((z.drop (k - 32)).take 32) ++ natBe 4 len ++ [0, 0, 0, 17] ++ (z.drop k).take len)
      (bytesPut c (k + 6) (natBe 2 (if ck = 0 then 65535 else ck)), s)

/-! ### EGRESS_PROCESS -/

/-- A packet dropped at egress leaves the window of its node and its epoch's count. -/
def State.egrDrop (s : State) (d : Desc) : State :=
  let s := s.winLess d.node d.win
  if d.copy || d.replica then s else s.epochLeave d.epoch

/-- What a sample says of a departing packet. -/
def Desc.egrInfo (d : Desc) (p : Nat) : SampleInfo :=
  { egress := true, dropped := false, inPort := d.port, outPort := p, tc := d.stamp.tc, colour := d.stamp.colour, epoch := d.epoch, vrf := d.stamp.vrf, op := 0, arg := 0 }

/-- The port mirror and sampler of egress port `p` (R154, R156), on the frame `b` as it will be sent, before protection. A copy is neither mirrored nor sampled (R155). -/
def State.egrObserve (s : State) (d : Desc) (p : Nat) (b : Bytes) : State :=
  if d.copy then s
  else
    let cfg := Reg.classPortCfg (p / 8) (p % 8)
    let s := s.mirrorCopy (s.fld cfg Fld.classPortCfg_txMirror) { d with bytes := b, slice := p / 8, replica := false, stream := 0, stripped := false } false
    s.sample (s.fld cfg Fld.classPortCfg_txSampler) b (d.egrInfo p)

/-- A frame goes to MACsec on a port with a SecY, else to the MAC. -/
def State.toPort (s : State) (p : Nat) (f : TxPkt) : State :=
  if s.flag (Reg.macsecSecyCfg p) Fld.macsecSecyCfg_enable then s.setPort p { s.port p with macTx := (s.port p).macTx ++ [f] } else s.toMac p f

/-- A packet that passed every test: one-step time, FCS, copies, sample, and the port. `sent` is the frame without FCS. -/
def State.egrSend (s : State) (d : Desc) (p : Nat) (ts : TsReq) (underrun : Bool) (out : Bytes) : State :=
  let cut := decide (d.stream ≠ 0)
  let flexe := s.flexePort p
  let one := match ts with | .oneStep _ => !flexe && s.flag (Reg.linePortCfg p) Fld.linePortCfg_tsOnestep | _ => false
  let (out, s) := if one then s.oneStep out else (out, s)
  let s := if flexe ∧ ts ≠ .none then s.count .lineTspFlexeIgnored p else s
  let tag := match ts with | .twoStep t => t | .oneStep t => t | .none => 0
  let (n, s) := if underrun && cut then s.draw else (0, s)
  let s := if underrun && cut then s.count .trafficQueueCtUnderrun else s
  let body := if underrun && cut then out.take (Config.freeNat n % (out.length + 1)) else out
  let frame := body ++ fcsOf body
  let s := s.egrObserve d p frame
  let f : TxPkt := TxPkt.mk frame d.epoch (!(d.copy || d.replica)) (!flexe && !one && ts != .none) tag (d.bad || (underrun && cut)) d.node d.win d.stamp.tc d.stream
  s.toPort p f

/-- EGRESS_PROCESS (R196, R197, R260, R344): the oldest packet that crossed back to slice `k`. `aclDrop` is the verdict of the egress ACL searches (log 18). -/
def egressProcess (k : Nat) (underrun aclDrop : Bool) (ts : TsReq) (s : State) : State :=
  match mget (fun _ => []) s.lookup.egrQ k with
  | [] => s
  | d :: rest =>
    let s := { s with lookup := { s.lookup with egrQ := mput (fun _ => []) s.lookup.egrQ k rest } }
    let p := (s.nodePort d.node).getD 0
    let e := tbl128 s.mem (encapAddr d.stamp.encap)
    if !d.copy ∧ !s.epochLive d.epoch then (s.epochDrop 1).winLess d.node d.win
    else if aclDrop ∧ !d.copy then s.egrDrop d
    else if d.stamp.encap ≠ 0 ∧ !(bit e 127 && bits e 126 119 == d.stamp.gen) then (s.count .lookupEgressEncapStale k).egrDrop d
    else
      let (out, s) := s.rewrite d
      let out := if out.length < 60 then out ++ List.replicate (60 - out.length) 0 else out
      if s.fld (Reg.linePortCfg p) Fld.linePortCfg_maxFrame < out.length + 4 then (s.count .lookupEgressOversize k).egrDrop d
      else s.egrSend d p ts underrun out

def execEgressProcess (k : Nat) (u a : Bool) (ts : TsReq) (s : State) : Out := s.act (egressProcess k u a ts s)

end Sys2Proof.Machine
end

