-- ==== Sys2Proof/Machine/Sched.lean ====
section
/-! DEFINITION. Scheduling, shapers, hatbands, egress replication and stuck queues (chapter 12). -/

namespace Sys2Proof.Machine

/-! ### Hatbands (R305 to R308) -/

/-- The base time of bank `b` of port `p`, in ns. -/
def State.bankBase (s : State) (p b : Nat) : Nat :=
  1000000000 * s.fld (Reg.hatbandList p b) Fld.hatbandList_seconds + s.fld (Reg.hatbandListW1 p b) Fld.hatbandListW1_nanoseconds

/-- The cycle of a bank, in ns. -/
def State.bankCycle (s : State) (p b : Nat) : Nat := s.fld (Reg.hatbandListW1 p b) Fld.hatbandListW1_cycle

/-- The entries of a bank: gates and interval (Table 12.6). -/
def State.bankEntries (s : State) (p b : Nat) : List (Nat × Nat) :=
  (List.range (s.fld (Reg.hatbandList p b) Fld.hatbandList_len)).map (fun i =>
    let w := (s.reg (Reg.hatbandEntryWord p b (i / 2))).toNat
    if i % 2 = 0 then (bits w 63 56, bits w 55 32) else (bits w 31 24, bits w 23 0))

/-- The entry in force `pos` ns into a cycle; the last holds to the cycle's end. -/
def hatEntryAt : List (Nat × Nat) → Nat → Nat → Nat
  | [], i, _ => i
  | [_], i, _ => i
  | (_, v) :: l, i, pos => if pos < v then i else hatEntryAt l (i + 1) (pos - v)

/-- The bank of port `p` in force at time `t`: a committed takeover counts from its instant. -/
def State.bankAt (s : State) (p t : Nat) : Nat :=
  let a := s.fld (Reg.hatbandCfg p) Fld.hatbandCfg_activeBank
  if s.flag (Reg.hatbandCfg p) Fld.hatbandCfg_pending && decide (mget (fun _ => 0) s.traffic.takeAt p ≤ t) then 1 - a else a

/-- The entry of bank `b` in force at `t`, none before its base. -/
def State.bankEntry (s : State) (p b t : Nat) : Option Nat :=
  if t < s.bankBase p b ∨ s.bankCycle p b = 0 then none else some (hatEntryAt (s.bankEntries p b) 0 ((t - s.bankBase p b) % s.bankCycle p b))

/-- Whether the gate of class `c` is open at `t` (R305). -/
def State.gateOpen (s : State) (p c t : Nat) : Bool :=
  if !s.flag (Reg.hatbandCfg p) Fld.hatbandCfg_enable then true
  else
    let b := s.bankAt p t
    match s.bankEntry p b t with
    | none => true
    | some i => match (s.bankEntries p b)[i]? with | some (g, _) => bit g c | none => true

/-- The starts of a bank's entries in the cycle at `t` and the next one, and in its first cycle. -/
def State.bankEdges (s : State) (p b t : Nat) : List Nat :=
  let base := s.bankBase p b
  let cyc := s.bankCycle p b
  let k := if cyc = 0 then 0 else (t - base) / cyc
  let es := s.bankEntries p b
  let offs := (List.range es.length).map (fun i => ((es.take i).map (fun e => e.2)).sum)
  (offs.filter (fun o => decide (o < cyc))).flatMap (fun o => [base + k * cyc + o, base + (k + 1) * cyc + o])

/-- The next time after `t` at which the gate of class `c` is closed (R306). -/
def State.nextClose (s : State) (p c t : Nat) : Option Nat :=
  let a := s.bankAt p t
  let l := s.bankEdges p a t ++ s.bankEdges p (1 - a) (max t (mget (fun _ => 0) s.traffic.takeAt p)) ++ [mget (fun _ => 0) s.traffic.takeAt p]
  ((l.filter (fun u => decide (t < u) && !s.gateOpen p c u)).foldl (fun m u => match m with | none => some u | some v => some (min u v)) none)

/-- Whether port `p` has gates (R305). -/
def State.gated (s : State) (p : Nat) : Bool := s.flag (Reg.hatbandCfg p) Fld.hatbandCfg_enable && !s.flexePort p

/-- The brim (R306): `ahead` bytes are dequeued and untransmitted, `len` is the charged length; the estimated end falls no later than the margin before the close. -/
def State.brim (s : State) (p c ahead len : Nat) : Bool :=
  let t := s.tod + s.fld (Reg.hatbandCfg p) Fld.hatbandCfg_lead
  match s.nextClose p c t with
  | none => true
  | some u => decide (8000 * (ahead + len) + (t + s.fld (Reg.hatbandCfg p) Fld.hatbandCfg_brimMargin) * s.portRate p ≤ u * s.portRate p)

/-- GATE_INTERVAL_END (R305, R307): the entry in force is shown; a frame whose class's gate has just closed is an overrun. -/
def gateIntervalEnd (p : Nat) (s : State) : State :=
  if !s.gated p then s
  else
    let now := s.tod
    let s := s.setFld (Reg.hatbandStatus p) Fld.hatbandStatus_entry ((s.bankEntry p (s.bankAt p now) now).getD 0)
    match (s.port p).txQ with
    | f :: _ =>
      if !s.gateOpen p f.tc now && s.gateOpen p f.tc (now - 1) then (s.count .trafficGateOverrun).raiseLimited 0x0614 p (natBe 1 p ++ natBe 1 f.tc) else s
    | [] => s

/-- The instant bank `b` would take over for a takeover time `t`: the first of its cycle starts at or after it (R308). -/
def State.takeInstant (s : State) (p b t : Nat) : Nat :=
  let base := s.bankBase p b
  if t ≤ base then base else base + ceilDiv (t - base) (s.bankCycle p b) * s.bankCycle p b

/-- Why a commit is refused (R308); 0 when it is not. The first case of the rule's list decides. -/
def State.commitCode (s : State) (p : Nat) : Nat :=
  let cfg := Reg.hatbandCfg p
  let b := 1 - s.fld cfg Fld.hatbandCfg_activeBank
  let len := s.fld (Reg.hatbandList p b) Fld.hatbandList_len
  let t := 1000000000 * s.fld (Reg.hatbandTakeover p) Fld.hatbandTakeover_seconds + s.fld (Reg.hatbandTakeoverNs p) Fld.hatbandTakeoverNs_nanoseconds
  if len = 0 ∨ 1024 < len ∨ (s.bankEntries p b).any (fun e => e.2 == 0) then 1
  else if s.bankCycle p b < 1000 ∨ 1000000000 < s.bankCycle p b then 2
  else if s.takeInstant p b t < s.tod + 1000 then 3
  else if !s.flag cfg Fld.hatbandCfg_enable then 4
  else if s.flag cfg Fld.hatbandCfg_pending then 5
  else 0

/-- HATBAND_COMMIT (R308). -/
def hatbandCommit (p : Nat) (s : State) : State :=
  let c := s.commitCode p
  if c ≠ 0 then (s.setFld (Reg.hatbandStatus p) Fld.hatbandStatus_refused c).raise 0x0613 (natBe 1 p ++ natBe 1 c)
  else
    let b := 1 - s.fld (Reg.hatbandCfg p) Fld.hatbandCfg_activeBank
    let t := 1000000000 * s.fld (Reg.hatbandTakeover p) Fld.hatbandTakeover_seconds + s.fld (Reg.hatbandTakeoverNs p) Fld.hatbandTakeoverNs_nanoseconds
    State.setFld { s with traffic := { s.traffic with takeAt := mput (fun _ => 0) s.traffic.takeAt p (s.takeInstant p b t) } } (Reg.hatbandCfg p) Fld.hatbandCfg_pending 1

/-- HATBAND_CANCEL (R308). -/
def hatbandCancel (p : Nat) (s : State) : State :=
  if s.flag (Reg.hatbandCfg p) Fld.hatbandCfg_pending && decide (s.tod + 1000 < mget (fun _ => 0) s.traffic.takeAt p) then
    s.setFld (Reg.hatbandCfg p) Fld.hatbandCfg_pending 0 else s

/-- HATBAND_TAKEOVER (R308). -/
def hatbandTakeover (p : Nat) (s : State) : State :=
  if !s.flag (Reg.hatbandCfg p) Fld.hatbandCfg_pending then s
  else
    let b := 1 - s.fld (Reg.hatbandCfg p) Fld.hatbandCfg_activeBank
    let s := (s.setFld (Reg.hatbandCfg p) Fld.hatbandCfg_activeBank b).setFld (Reg.hatbandCfg p) Fld.hatbandCfg_pending 0
    let s := s.setFld (Reg.hatbandStatus p) Fld.hatbandStatus_entry ((s.bankEntry p b s.tod).getD 0)
    s.raise 0x0612 (natBe 1 p ++ natBe 1 b)

/-! ### Shapers (R301 to R304) -/

/-- A shaper before any refill. -/
def Shaper.idle : Shaper := { cb := 0, pb := 0, last := 0, profile := 0, deficit := 0 }

/-- Shaper `i` of a kind: 0 queue shaper, 1 group, 2 port node. -/
def State.shaper (s : State) (kind i : Nat) : Shaper := mget (fun _ => Shaper.idle) s.traffic.shapers (2 ^ 20 * kind + i)

/-- Replaces a shaper. -/
def State.setShaper (s : State) (kind i : Nat) (x : Shaper) : State :=
  { s with traffic := { s.traffic with shapers := mput (fun _ => Shaper.idle) s.traffic.shapers (2 ^ 20 * kind + i) x } }

/-- The words of profile `i` in force: during a sweep of it the old ones (R304). -/
def State.profileWords (s : State) (i : Nat) : Nat × Nat :=
  match s.traffic.sweep with
  | some (.profile j hi lo) => if j = i then (hi.toNat, lo.toNat) else ((s.reg (Reg.trafficShaperProfileHi i)).toNat, (s.reg (Reg.trafficShaperProfileLo i)).toNat)
  | _ => ((s.reg (Reg.trafficShaperProfileHi i)).toNat, (s.reg (Reg.trafficShaperProfileLo i)).toNat)

/-- CIR, PIR, CBS, PBS and CLAMP of a profile's words (Table 12.5). -/
structure ShaperProf where
  cir : Nat
  pir : Nat
  cbs : Nat
  pbs : Nat
  clamp : Nat
  deriving DecidableEq, Repr

/-- The fields of a profile's two words. -/
def profOf (hi lo : Nat) : ShaperProf :=
  { cir := bits hi 63 32, pir := bits hi 31 0, cbs := bits lo 63 41, pbs := bits lo 40 18, clamp := bits lo 17 5 }

/-- The time of day in 1,024 ns units, modulo 2^20. -/
def State.shaperNow (s : State) : Nat := s.tod / 1024 % 2 ^ 20

/-- The refill of R301; profile 0 is unshaped and only takes the time. -/
def Shaper.refill (x : Shaper) (pr : ShaperProf) (now : Nat) : Shaper :=
  let dt := (now + 2 ^ 20 - x.last) % 2 ^ 20
  if dt = 0 then x
  else if x.profile = 0 then { x with last := now }
  else { x with cb := min (x.cb + (524288 * (pr.cir * dt) / 1000000 : Nat)) (4096 * pr.cbs : Nat), pb := min (x.pb + (524288 * (pr.pir * dt) / 1000000 : Nat)) (4096 * pr.pbs : Nat), last := now }

/-- Refills a shaper in place. -/
def State.refillShaper (s : State) (kind i : Nat) : State :=
  let x := s.shaper kind i
  let w := s.profileWords x.profile
  s.setShaper kind i (x.refill (profOf w.1 w.2) s.shaperNow)

/-- Whether a shaper's peak bucket is positive. -/
def Shaper.pbOk (x : Shaper) : Bool := x.profile == 0 || decide (0 < x.pb)

/-- Whether a shaper's committed bucket is positive. -/
def Shaper.cbOk (x : Shaper) : Bool := x.profile == 0 || decide (0 < x.cb)

/-- A bucket after a charge of `n` bytes (R303), and whether it was held at -8 MiB. -/
def chargeBucket (v : Int) (n clamp : Nat) : Int × Bool :=
  let v := v - (4096 * n : Nat)
  let v := if clamp ≠ 0 ∧ v < -((4096 * (1024 * clamp) : Nat) : Int) then -((4096 * (1024 * clamp) : Nat) : Int) else v
  if v < -34359738368 then (-34359738368, true) else (v, false)

/-- Charges a shaper for a batch (R302, R303). -/
def State.charge (s : State) (kind i n : Nat) : State :=
  let x := s.shaper kind i
  if x.profile = 0 then s
  else
    let pr := profOf (s.profileWords x.profile).1 (s.profileWords x.profile).2
    let (cb, a) := chargeBucket x.cb n pr.clamp
    let (pb, b) := chargeBucket x.pb n pr.clamp
    let s := s.setShaper kind i { x with cb := cb, pb := pb }
    if a || b then s.count .trafficSchedDebtSat else s

/-- SHAPER_REFRESH (R301). -/
def shaperRefresh (kind i : Nat) (s : State) : State := s.refillShaper kind i

/-- Whether a profile's first word is in range (Table 12.5, R7). -/
def profHiOk (hi : Nat) : Bool :=
  let p := profOf hi 0
  (p.cir == 0 || (decide (64 ≤ p.cir) && decide (p.cir ≤ 1600000000))) && decide (64 ≤ p.pir) && decide (p.pir ≤ 1600000000) && decide (p.cir ≤ p.pir)

/-- Whether its second word is. -/
def profLoOk (lo : Nat) : Bool :=
  let p := profOf 0 lo
  decide (2048 ≤ p.cbs) && decide (p.cbs ≤ 4194304) && decide (2048 ≤ p.pbs) && decide (p.pbs ≤ 4194304)

/-- Whether both are. -/
def profLegal (hi lo : Nat) : Bool := profHiOk hi && profLoOk lo

/-- BUSY follows a sweep. -/
def State.startSweep (s : State) (w : Sweep) : State :=
  State.setFld { s with traffic := { s.traffic with sweep := some w } } Reg.trafficShaperSweep Fld.trafficShaperSweep_busy 1

/-- SHAPER_PROFILE_WRITE (R304): a write of both words starts a sweep; profile 0 ignores writes, and a write during a sweep is refused. -/
def shaperProfileWrite (i : Nat) (hi lo : Word) (s : State) : State :=
  if i = 0 ∨ 4096 ≤ i ∨ s.flag Reg.trafficShaperSweep Fld.trafficShaperSweep_busy ∨ !profLegal hi.toNat lo.toNat then s
  else
    let w := Sweep.profile i (s.reg (Reg.trafficShaperProfileHi i)) (s.reg (Reg.trafficShaperProfileLo i))
    ((s.setReg (Reg.trafficShaperProfileHi i) hi).setReg (Reg.trafficShaperProfileLo i) (BitVec.ofNat 64 (lo.toNat / 32 * 32))).startSweep w

/-- SHAPER_ASSIGN_START (R304). -/
def shaperAssignStart (kind index profile : Nat) (s : State) : State :=
  if s.flag Reg.trafficShaperSweep Fld.trafficShaperSweep_busy ∨ 3 ≤ kind ∨ (if kind = 0 then 16384 else if kind = 1 then 65536 else 512) ≤ index ∨ 4096 ≤ profile then s
  else
    let s := ((s.setFld Reg.trafficShaperAssign Fld.trafficShaperAssign_kind kind).setFld Reg.trafficShaperAssign Fld.trafficShaperAssign_index index).setFld Reg.trafficShaperAssign
      Fld.trafficShaperAssign_profile profile
    s.startSweep (.assign kind index profile)

/-- SHAPER_SWEEP_DONE (R304): each shaper affected was refilled at the old values at its visit, and has the new ones. -/
def shaperSweepDone (s : State) : State :=
  let s := match s.traffic.sweep with
    | none => s
    | some (.profile i _ _) => (s.traffic.shapers.filter (fun (p : Nat × Shaper) => p.2.profile == i)).foldl (fun (s : State) (p : Nat × Shaper) => s.refillShaper (p.1 / 2 ^ 20) (p.1 % 2 ^ 20)) s
    | some (.assign k i p) => let s := s.refillShaper k i; s.setShaper k i { s.shaper k i with profile := p }
  State.setFld { s with traffic := { s.traffic with sweep := none } } Reg.trafficShaperSweep Fld.trafficShaperSweep_busy 0

/-! ### Choosing (R296 to R298) -/

/-- The scheduling word of a queue (Table 12.1). -/
def State.schedWord (s : State) (q : Nat) : Nat := s.qWord q 3

/-- The queue shaper of queue `q` of group `g`, when it has one (R297). -/
def State.qShaper (s : State) (g q : Nat) : Option Nat :=
  if bit (s.schedWord q) 3 then some (bits (s.grpWord g) 16 3 + (q - (s.grpQueues g).1)) else none

/-- A child of a group or of a port node. `com` is its committed state; `lim` bars it from the excess pass (R385). -/
structure Child where
  id      : Nat
  rank    : Nat
  weight  : Nat
  elig    : Bool
  com     : Bool
  lim     : Bool
  deficit : Int
  deriving DecidableEq, Repr

/-- Whether a child may be chosen in a pass. -/
def Child.ok (c : Child) (committed : Bool) : Bool := c.elig && (if committed then c.com else !c.lim)

/-- The weighted choice of R298 from pointer `ptr` on: the child and every member's deficit after it. -/
def weighted (cs : List Child) (ptr : Nat) (committed : Bool) : Option (Nat × List (Nat × Int)) :=
  let set := cs.filter (fun c => c.weight != 0 && c.ok committed)
  if set.isEmpty then none
  else
    let need (c : Child) : Nat := if 0 < c.deficit then 0 else (-c.deficit).toNat / (c.weight * 128) + 1
    let k := if set.any (fun c => decide (0 < c.deficit)) then 0 else (set.map need).foldl min ((set.map need).headD 0)
    let ds : List (Nat × Int) := set.map (fun c => (c.id, c.deficit + ((k * c.weight * 128 : Nat) : Int)))
    let pos := ds.filter (fun d => decide (0 < d.2))
    let pick := match pos.find? (fun d => decide (ptr ≤ d.1)) with | some d => some d | none => pos.head?
    pick.map (fun d => (d.1, ds))

/-- One pass of R298: strict ranks first, then the weighted children. -/
def pickPass (cs : List Child) (ptr : Nat) (committed : Bool) : Option (Nat × List (Nat × Int)) :=
  match (List.range 4).findSome? (fun r => cs.find? (fun c => c.weight == 0 && c.rank == r && c.ok committed)) with
  | some c => some (c.id, [])
  | none => weighted cs ptr committed

/-- `pick` of R298: the committed pass, then the excess pass; whether the choice is committed. -/
def pick (cs : List Child) (ptr : Nat) : Option (Bool × Nat × List (Nat × Int)) :=
  match pickPass cs ptr true with
  | some x => some (true, x)
  | none => (pickPass cs ptr false).map (fun x => (false, x))

/-- The charged length of a frame at a port node (R302): with OVERHEAD, never less than 1. -/
def State.chargedLen (s : State) (n len : Nat) : Nat :=
  let v := (len : Int) + toSigned 8 (s.fld (Reg.trafficSchedPort n) Fld.trafficSchedPort_overhead)
  if v < 1 then 1 else v.toNat

/-- The length a record is judged by at the brim: for a streamed packet the longest frame (R306). -/
def State.brimLen (s : State) (n p : Nat) (r : Rec) : Nat :=
  s.chargedLen n (if r.d.streamed then s.fld (Reg.linePortCfg p) Fld.linePortCfg_maxFrame else r.d.bytes.length)

/-- The bytes dequeued and not transmitted of port node `n`. -/
def State.window (s : State) (n : Nat) : Nat := mget (fun _ => 0) s.traffic.inflight n

/-- Whether the brim and the gate of class `c` let record `r` go at port node `n` (R296, R306); ip_punt and ip_mirror have no gates. -/
def State.gateOk (s : State) (n c : Nat) : Bool :=
  match s.nodePort n with
  | some p => !s.gated p || s.gateOpen p c (s.tod + s.fld (Reg.hatbandCfg p) Fld.hatbandCfg_lead)
  | none => true

/-- Whether record `r` passes the brim with `ahead` bytes before it. -/
def State.brimOk (s : State) (n c ahead : Nat) (r : Rec) : Bool :=
  match s.nodePort n with
  | some p => !s.gated p || s.brim p c ahead (s.brimLen n p r)
  | none => true

/-- Whether a queue holds a record it may send, but for the brim and its group and node (R296). -/
def State.qReady (s : State) (n g q : Nat) : Bool :=
  s.qKind q == 2 && !s.qClosed q && !(s.queue q).recs.isEmpty && s.gateOk n (bits (s.schedWord q) 2 0)
    && (match s.qShaper g q with | some i => (s.shaper 0 i).pbOk | none => true)

/-- The children of group `g` of node `n`. -/
def State.qChildren (s : State) (n g : Nat) : List Child :=
  (List.range (s.grpQueues g).2).map (fun i =>
    let q := (s.grpQueues g).1 + i
    let w := s.schedWord q
    let head := (s.queue q).recs.head?
    { id := q, rank := bits w 15 14, weight := bits w 13 4,
      elig := s.qReady n g q && (match head with | some r => s.brimOk n (bits w 2 0) (s.window n) r | none => false),
      com := (match s.qShaper g q with | some j => (s.shaper 0 j).cbOk | none => true),
      lim := s.gov.short1 && (match head with | some r => !onDie r.start.1 | none => false),
      deficit := (s.queue q).deficit })

/-- The children of port node `n`: its groups. A group is eligible when one of its queues may be chosen. -/
def State.gChildren (s : State) (n : Nat) : List Child :=
  (s.groups.filter (fun g => s.grpNode g == n)).map (fun g =>
    { id := g, rank := bits (s.grpWord g) 28 27, weight := bits (s.grpWord g) 26 17,
      elig := (s.shaper 1 g).pbOk && (s.qChildren n g).any (fun c => c.ok true || c.ok false),
      com := (s.shaper 1 g).cbOk, lim := false, deficit := (s.shaper 1 g).deficit })

/-- Whether port node `n` is eligible (R296). -/
def State.nodeOk (s : State) (n : Nat) : Bool :=
  let r := Reg.trafficSchedPort n
  s.flag r Fld.trafficSchedPort_valid && decide (s.window n < 1024 * s.fld r Fld.trafficSchedPort_window) && (s.shaper 2 n).pbOk
    && (match s.nodePort n with | some p => s.portUp p | none => decide (480 ≤ n))

/-! ### SCHED_DECISION (R299, R300, R302) -/

/-- Takes records off queue `q` into port node `n`'s departures: up to `f` more, with `total` frame bytes taken. The answer is the charged bytes. -/
def State.takeBatch (s : State) (n c q : Nat) : Nat → Nat → Nat → State × Nat
  | 0, _, ch => (s, ch)
  | f + 1, total, ch =>
    match (s.queue q).recs with
    | [] => (s, ch)
    | r :: _ =>
      let len := r.d.bytes.length
      if s.unreadable (s.recReads r) then (s, ch)
      else if total ≠ 0 ∧ (2048 < total + len ∨ !s.brimOk n c (s.window n) r) then (s, ch)
      else
        let r' : Rec := { r with d := { r.d with node := n, win := len } }
        let s := (s.popHead q).setDeparting n (s.departingOf n ++ [(q, r')])
        let s := { s with traffic := { s.traffic with inflight := mput (fun _ => 0) s.traffic.inflight n (s.window n + len) } }
        State.takeBatch s n c q f (total + len) (ch + s.chargedLen n len)

/-- The rotation pointer of a port node, or of group `512 + g`. -/
def State.ptrOf (s : State) (i : Nat) : Nat := mget (fun _ => 0) s.traffic.ptrs i

/-- Moves a pointer. -/
def State.setPtr (s : State) (i v : Nat) : State := { s with traffic := { s.traffic with ptrs := mput (fun _ => 0) s.traffic.ptrs i v } }

/-- A deficit after a batch (R299): charged, and a positive one of a child that became empty is set to 0. -/
def deficitAfter (d : Int) (n : Nat) (empty : Bool) : Int := if empty && decide (0 < d - n) then 0 else d - n

/-- Refills every shaper that a decision of port node `n` tests (R301). -/
def State.refillNode (s : State) (n : Nat) : State :=
  (s.groups.filter (fun g => s.grpNode g == n)).foldl (fun s g =>
    (List.range (s.grpQueues g).2).foldl (fun s i => match s.qShaper g ((s.grpQueues g).1 + i) with | some j => s.refillShaper 0 j | none => s) (s.refillShaper 1 g)) (s.refillShaper 2 n)

/-- Drops what cannot be read at the heads of the queues of port node `n`. -/
def State.cleanNode (s : State) (n : Nat) : State :=
  (s.groups.filter (fun g => s.grpNode g == n)).foldl (fun s g => (List.range (s.grpQueues g).2).foldl (fun s i => s.cleanHead ((s.grpQueues g).1 + i)) s) s

/-- Counts what the brim holds back (R306), and what the power limit passes over in an excess pass (R385). -/
def State.countDefers (s : State) (n : Nat) (excess : Bool) : State :=
  let gs := s.groups.filter (fun g => s.grpNode g == n)
  let brim := (gs.map (fun g => ((List.range (s.grpQueues g).2).filter (fun i =>
    let q := (s.grpQueues g).1 + i
    s.qReady n g q && (match (s.queue q).recs.head? with | some r => !s.brimOk n (bits (s.schedWord q) 2 0) (s.window n) r | none => false))).length)).sum
  let power := if excess then (gs.map (fun g => ((s.qChildren n g).filter (fun c => c.elig && c.lim && !c.com)).length)).sum else 0
  (s.countN .trafficGateBrimDefer 0 brim).countN .trafficSchedPowerDefer 0 power

/-- Writes the deficits that a weighted choice raised. -/
def State.setDeficits (s : State) (isGroup : Bool) (ds : List (Nat × Int)) : State :=
  ds.foldl (fun s d => if isGroup then s.setShaper 1 d.1 { s.shaper 1 d.1 with deficit := d.2 } else s.setQueue d.1 { s.queue d.1 with deficit := d.2 }) s

/-- Whether a group holds no record. -/
def State.grpEmpty (s : State) (g : Nat) : Bool := (List.range (s.grpQueues g).2).all (fun i => (s.queue ((s.grpQueues g).1 + i)).recs.isEmpty)

/-- The end of a decision (R299, R302): shapers of the path and weighted deficits are charged; a pointer moves past a child with nothing left. -/
def State.settleBatch (s : State) (n g q ch : Nat) : State :=
  let s := (s.charge 2 n ch).charge 1 g ch
  let s := match s.qShaper g q with | some i => s.charge 0 i ch | none => s
  let s := if bits (s.schedWord q) 13 4 = 0 then s
    else
      let e := (s.queue q).recs.isEmpty
      let d := deficitAfter (s.queue q).deficit ch e
      let s := s.setQueue q { s.queue q with deficit := d }
      s.setPtr (512 + g) (if e || decide (d ≤ 0) then q + 1 else q)
  if bits (s.grpWord g) 26 17 = 0 then s
  else
    let e := s.grpEmpty g
    let d := deficitAfter (s.shaper 1 g).deficit ch e
    let s := s.setShaper 1 g { s.shaper 1 g with deficit := d }
    s.setPtr n (if e || decide (d ≤ 0) then g + 1 else g)

/-- SCHED_DECISION (R296 to R303, R306, R385): one decision for port node `n`. -/
def schedDecision (n : Nat) (s : State) : State :=
  let s := (s.refillNode n).cleanNode n
  if !s.nodeOk n then s
  else
    match pick (s.gChildren n) (s.ptrOf n) with
    | none => s.countDefers n true
    | some (_, g, gd) =>
      match pick (s.qChildren n g) (s.ptrOf (512 + g)) with
      | none => s
      | some (com, q, qd) =>
        let s := ((s.countDefers n (!com)).setDeficits true gd).setDeficits false qd
        let (s, ch) := s.takeBatch n (bits (s.schedWord q) 2 0) q 4 0 0
        s.settleBatch n g q ch

/-! ### Egress replication (R309 to R312) -/

/-- A replication element (Table 12.9). -/
def State.replElem (s : State) (e : Nat) : Nat := tblWord s.mem (0x0001_5150_0000 + 8 * e)

/-- A walk ends (R311). -/
def State.walkEnd (s : State) (c : Nat) : State := (s.setRepl c { s.repl c with walking := false }).replSettle c

/-- A walk ends early: cause 1 a list too long, 2 the time (R312). -/
def State.walkCut (s : State) (c cause : Nat) : State :=
  let g := (s.repl c).d.stamp.dest
  ((s.count (if cause = 1 then .trafficReplListLong else .trafficReplWalkTimeout)).raiseLimited 0x0615 g (natBe 2 g ++ natBe 1 cause)).walkEnd c

/-- A replica for queue `q` is judged under rows 2, 4, 6 and 7 of Table 10.5 and, admitted, its record of 32 bytes is packed (R254, R310). -/
def State.makeReplica (s : State) (c : Nat) (d : Desc) (q : Nat) : State :=
  let x := s.repl c
  match s.admitCheck d q x.size true true with
  | some k => ((s.count k).filterCount 3 0 x.req (some q) (some d.stamp.tc)).queueCount q 2 d.bytes.length
  | none =>
    match s.reserve q x.req (s.poolOf (s.qProfile q)) 32 with
    | (s, none) => (((s.count .trafficPoolAllocFail).filterCount 3 0 x.req (some q) (some d.stamp.tc)).queueCount q 2 d.bytes.length).raiseLimited 0x0603 x.req (natBe 1 x.req)
    | (s, some (l, st, opn)) =>
      let s := l.foldl (fun s h => s.setBuf h { s.buf h with replicas := (s.buf h).replicas + 1 }) s
      let s := s.enqueue q { d := d, size := x.size, ctx := some c, bufs := l, start := st } opn
      (s.setRepl c { s.repl c with remaining := (s.repl c).remaining + 1 }).count .trafficReplReplicas

/-- What an element yields (R310). -/
def State.replElement (s : State) (c e : Nat) : State :=
  let x := s.repl c
  let w := s.replElem e
  let enc := bits w 48 30
  let t := if enc = 0 then x.d.stamp else { x.d.stamp with encap := enc, gen := bits w 29 22 }
  let d := { x.d with replica := true, stream := 0, stamp := t }
  if bit w 62 then
    let dev := bits w 60 49
    if dev = s.self then s
    else
      let m := Reg.trafficVoqMap dev
      if s.flag m Fld.trafficVoqMap_valid then
        s.makeReplica c d (s.fld m Fld.trafficVoqMap_voqBase + 8 * s.fld m Fld.trafficVoqMap_ports + t.tc)
      else (s.count .trafficAdmitPortDown).raiseLimited 0x0616 dev (natBe 2 dev ++ natBe 1 0)
  else
    let p := bits w 55 49
    if bit w 61 ∧ x.d.slice < 12 ∧ p = x.d.port then s.count .trafficReplPruned
    else
      let d := { d with stamp := { t with dkind := 0, dest := 128 * s.self + p } }
      match s.target d with
      | .queue q => s.makeReplica c d q
      | _ => s.count .trafficAdmitPortDown

/-- One element of a walk; at the end of the device list the port list follows, at its end the walk ends. An element that is not valid ends its list. -/
def State.walkStep (s : State) (c : Nat) : State :=
  let x := s.repl c
  if !x.walking then s
  else if x.next = 0 ∨ !bit (s.replElem x.next) 63 then
    if x.onPorts then s.walkEnd c
    else
      let g := tbl128 s.mem (0x0001_5140_0000 + 0x10 * x.d.stamp.dest)
      s.setRepl c { x with onPorts := true, next := if bit g 127 then bits g 106 87 else 0 }
  else if 4096 ≤ x.seen then s.walkCut c 1
  else
    let s := s.replElement c x.next
    s.setRepl c { s.repl c with next := bits (s.replElem x.next) 21 2, seen := x.seen + 1 }

/-- REPL_WALK (R310): up to 4 elements of the walk of context `c`. -/
def replWalk (c : Nat) (s : State) : State := (((s.walkStep c).walkStep c).walkStep c).walkStep c

/-- REPL_WALK_TIMEOUT (R312). -/
def replWalkTimeout (c : Nat) (s : State) : State := if (s.repl c).walking then s.walkCut c 2 else s

/-! ### Stuck queues (R313) -/

/-- STUCK_QUEUE_VISIT (R313, R330): a queue whose head is STUCK_TIMEOUT behind is flushed without being closed. -/
def stuckQueueVisit (q : Nat) (s : State) : State :=
  let x := s.queue q
  let behind := (s.todMs + 1024 - x.headMs) % 1024
  if x.recs.isEmpty ∨ x.wait.isSome ∨ behind < s.fld Reg.trafficStuckCfg Fld.trafficStuckCfg_stuckTimeout then s
  else
    let n := x.recs.length
    let port := match s.qPort q with | some p => p | none => (match s.voqOf q with | some (_, some p) => p | _ => 0)
    let s := s.detachOrWait q port false .trafficQueueStuckFlush
    if (s.queue q).recs.isEmpty then
      let s := s.surrenderAll q
      (s.setQueue q { s.queue q with flushed := s.qKind q == 1 }).raise 0x0610 (natBe 3 q ++ natBe 4 n)
    else s

def execSchedDecision (n : Nat) (s : State) : Out := s.act (schedDecision n s)
def execShaperRefresh (k i : Nat) (s : State) : Out := s.act (shaperRefresh k i s)
def execShaperProfileWrite (i : Nat) (hi lo : Word) (s : State) : Out := s.act (shaperProfileWrite i hi lo s)
def execShaperAssignStart (k i p : Nat) (s : State) : Out := s.act (shaperAssignStart k i p s)
def execShaperSweepDone (s : State) : Out := s.act (shaperSweepDone s)
def execGateIntervalEnd (p : Nat) (s : State) : Out := s.act (gateIntervalEnd p s)
def execHatbandCommit (p : Nat) (s : State) : Out := s.act (hatbandCommit p s)
def execHatbandCancel (p : Nat) (s : State) : Out := s.act (hatbandCancel p s)
def execHatbandTakeover (p : Nat) (s : State) : Out := s.act (hatbandTakeover p s)
def execReplWalk (c : Nat) (s : State) : Out := s.act (replWalk c s)
def execReplWalkTimeout (c : Nat) (s : State) : Out := s.act (replWalkTimeout c s)
def execStuckQueueVisit (q : Nat) (s : State) : Out := s.act (stuckQueueVisit q s)

end Sys2Proof.Machine
end

