-- ==== Sys2Proof/Machine/Fabric.lean ====
section
/-! DEFINITION. The Malyth cell link (chapter 13): lanes and groups, reassembly, segmentation, credits, notices and liveness. -/

namespace Sys2Proof.Machine

/-! ### Lanes and groups (R314 to R325) -/

/-- What no register shows of a lane that hunts. -/
def FabLane.idle : FabLane :=
  { cnt := 0, sel := 0, ident := 0, partnerReady := false, partnerAligned := false, held := 0, buffer := 0, sent := 0, back := 0, ret := 0, arrival := 0,
    delaySum := 0, delayN := 0 }

/-- Lane fl`l`. -/
def State.fabLane (s : State) (l : Nat) : FabLane := mget (fun _ => FabLane.idle) s.fabric.lanes l

/-- Replaces lane fl`l`. -/
def State.setFabLane (s : State) (l : Nat) (x : FabLane) : State := { s with fabric := { s.fabric with lanes := mput (fun _ => FabLane.idle) s.fabric.lanes l x } }

/-- The groups in use. -/
def State.fabGroups (s : State) : List Nat := (List.range 60).filter (fun g => s.flag (Reg.fabricGroupCfg g) Fld.fabricGroupCfg_enable)

/-- The lanes of group `g` (R314). -/
def State.groupLanes (s : State) (g : Nat) : List Nat :=
  (List.range (s.fld (Reg.fabricGroupCfg g) Fld.fabricGroupCfg_lanes + 1)).map (fun j => s.fld (Reg.fabricGroupCfg g) Fld.fabricGroupCfg_firstLane + j)

/-- The group of a lane. -/
def State.laneGroup (s : State) (l : Nat) : Option Nat := s.fabGroups.find? (fun g => (s.groupLanes g).contains l)

/-- STATE of a lane (Table 13.4a). -/
def State.laneState (s : State) (l : Nat) : Nat := s.fld (Reg.fabricLaneStatus l) Fld.fabricLaneStatus_state

/-- Whether a lane is active (R325). -/
def State.laneActive (s : State) (l : Nat) : Bool := s.laneState l == 2 && (s.fabLane l).held == 0 && (s.fabLane l).partnerAligned

/-- Bits of the lanes of a list for which `p` holds, by position. -/
def laneMask (ls : List Nat) (p : Nat → Bool) : Nat := ((List.range ls.length).map (fun j => if p (ls.getD j 0) then 2 ^ j else 0)).sum

/-- Whether a group is ready. -/
def State.groupReady (s : State) (g : Nat) : Bool := s.flag (Reg.fabricGroupStatus g) Fld.fabricGroupStatus_ready

/-- Whether some group is ready. -/
def State.anyReady (s : State) : Bool := s.fabGroups.any (fun g => s.groupReady g)

/-- The status of a group follows its lanes (R325): 0x0803, 0x0804, and 0x080C when no group is left ready (R336). -/
def State.groupUpdate (s : State) (g : Nat) : State :=
  let st := Reg.fabricGroupStatus g
  let ls := s.groupLanes g
  let act := ls.filter (fun l => s.laneActive l)
  let ali := ls.filter (fun l => s.laneState l == 2)
  let was := s.groupReady g
  let rx := ali.any (fun l => (s.fabLane l).partnerReady)
  let ver := if act.isEmpty then 0 else if s.fld st Fld.fabricGroupStatus_version ≠ 0 then s.fld st Fld.fabricGroupStatus_version else (act.head?.map (fun l => (s.fabLane l).sel)).getD 0
  let now := !act.isEmpty && rx
  let skew := (ali.map (fun l => s.fld (Reg.fabricLaneStatus l) Fld.fabricLaneStatus_skew)).foldl Nat.max 0
  let s := ls.foldl (fun s l => s.setFlag (Reg.fabricLaneStatus l) Fld.fabricLaneStatus_active (s.laneActive l)) s
  let s := (s.setFld st Fld.fabricGroupStatus_aligned (laneMask ls (fun l => s.laneState l == 2))).setFld st Fld.fabricGroupStatus_active (laneMask ls (fun l => s.laneActive l))
  let s := ((s.setFld st Fld.fabricGroupStatus_version ver).setFlag st Fld.fabricGroupStatus_readyRx rx).setFlag st Fld.fabricGroupStatus_ready now
  let s := (s.setFld st Fld.fabricGroupStatus_skew skew).setFld st Fld.fabricGroupStatus_partner ((ali.head?.map (fun l => (s.fabLane l).ident)).getD 0)
  if !was && now then s.raise 0x0803 (natBe 1 g ++ natBe 1 ver)
  else if was && !now then
    let s := s.raise 0x0804 (natBe 1 g)
    if s.anyReady then s else s.raise 0x080C
  else s

/-- Whether every link group named in the image is aligned: each of its lanes is (R52, R55). -/
def State.groupAligned (s : State) (g : Nat) : Bool := (s.groupLanes g).all (fun l => s.laneState l == 2)

/-- Step 8 of Table 2.8 ends when every group is aligned (R55). -/
def State.fabricStep (s : State) : State :=
  if s.boot.stage = .fabric ∧ !s.boot.stopped ∧ s.fabGroups.all (fun g => s.groupAligned g) then
    State.setFld { s with boot := { s.boot with stage := .statics } } Reg.bootStatus Fld.bootStatus_step 9
  else s

/-- A lane goes back to HUNT (R320). -/
def State.laneHunt (s : State) (l : Nat) : State :=
  let st := Reg.fabricLaneStatus l
  let s := (((s.setFabLane l FabLane.idle).setFld st Fld.fabricLaneStatus_state 0).setFld st Fld.fabricLaneStatus_errRun 0).setFld st Fld.fabricLaneStatus_goodRun 0
  (s.setFld st Fld.fabricLaneStatus_skew 0).setFld st Fld.fabricLaneStatus_outstanding 0

/-- An ALIGNED lane of group `g` loses alignment. -/
def State.alignLost (s : State) (g l : Nat) : State := (((s.laneHunt l).count .fabricLinkAlignLost g).raise 0x0802 (natBe 1 l)).groupUpdate g

/-- FABRIC_LANE_SIGNAL_LOSS (R320). -/
def fabricLaneSignalLoss (l : Nat) (s : State) : State :=
  match s.laneGroup l with
  | none => s
  | some g => if s.laneState l = 2 then s.alignLost g l else s.laneHunt l

/-- Whether a frame is errored against the previous counter (R319). -/
def frameErrored (o : Overhead) (cnt : Nat) : Bool := !(o.alignOk && o.crcOk && o.fecOk) || o.frameCnt != (cnt + 1) % 65536

/-- What holds a lane out of group `g` (R321, R323): 1 another version, or one below VERSION_MIN; 2 another partner; 3 skew over 80 ns. -/
def State.laneHeld (s : State) (g l : Nat) (o : Overhead) (skew : Nat) : Nat :=
  let x := s.fabLane l
  let gv := s.fld (Reg.fabricGroupStatus g) Fld.fabricGroupStatus_version
  let want := if gv = 0 then x.sel else gv
  let others := (s.groupLanes g).filter (fun j => j != l && s.laneState j == 2 && (s.fabLane j).held == 0)
  if x.held = 1 ∨ x.held = 2 then x.held
  else if (o.versionSel ≠ 0 ∧ o.versionSel ≠ want) ∨ x.sel ≠ want ∨ x.sel < s.fld (Reg.fabricGroupCfg g) Fld.fabricGroupCfg_versionMin then 1
  else if others.any (fun j => (s.fabLane j).ident != o.ident) then 2
  else if 80 < skew then 3 else 0

/-- A good frame of an ALIGNED lane (R321 to R327): what it tells is taken, then the lane and its group are judged. -/
def State.goodFrame (s : State) (g l : Nat) (o : Overhead) : State :=
  let st := Reg.fabricLaneStatus l
  let x := s.fabLane l
  let back := (o.creditRet + 65536 - x.ret) % 65536
  let n := x.delayN + 1
  let sum := x.delaySum + o.linkDelay
  let x := { x with cnt := o.frameCnt, ident := o.ident, partnerReady := o.ready, partnerAligned := o.laneAligned, buffer := o.buffer, back := x.back + back,
                    ret := o.creditRet, arrival := o.arrivalNs, delayN := if n = 1024 then 0 else n, delaySum := if n = 1024 then 0 else sum }
  let s := s.setFabLane l x
  let s := if n = 1024 then s.setFld st Fld.fabricLaneStatus_delay (min (sum / 1024) 4095) else s
  let s := (s.setFld st Fld.fabricLaneStatus_partnerMax o.versionMax).setFld st Fld.fabricLaneStatus_outstanding (min (x.sent - x.back) 4095)
  let first := (((s.groupLanes g).filter (fun j => s.laneState j == 2 && (s.fabLane j).cnt == o.frameCnt)).map (fun j => (s.fabLane j).arrival)).foldl Nat.min o.arrivalNs
  let skew := o.arrivalNs - first
  let s := s.setFld st Fld.fabricLaneStatus_skew (min skew 1023)
  let held := s.laneHeld g l o skew
  let s := s.setFabLane l { x with held := held }
  let s := if held = x.held ∨ held = 0 then s else if held = 3 then s.raise 0x0806 (natBe 1 l ++ natBe 2 skew) else s.raise 0x0805 (natBe 1 l ++ natBe 1 held)
  (s.groupUpdate g).fabricStep

/-- MALYTH_FRAME_RX (R319 to R327): one overhead block position of lane fl`l` is tested. -/
def malythFrameRx (l : Nat) (o : Overhead) (s : State) : State :=
  match s.laneGroup l, s.pins.linkIdle with
  | some g, false =>
    let st := Reg.fabricLaneStatus l
    let x := s.fabLane l
    match s.laneState l with
    | 0 => if o.alignOk && o.crcOk then ((s.setFabLane l { x with cnt := o.frameCnt }).setFld st Fld.fabricLaneStatus_state 1).setFld st Fld.fabricLaneStatus_goodRun 1 else s
    | 1 =>
      if frameErrored o x.cnt then (s.count .fabricLinkFrameErr g).laneHunt l
      else
        let n := s.fld st Fld.fabricLaneStatus_goodRun + 1
        let s := (s.setFabLane l { x with cnt := o.frameCnt }).setFld st Fld.fabricLaneStatus_goodRun n
        if n < s.fld (Reg.fabricGroupCfg g) Fld.fabricGroupCfg_confirmN then s
        else
          let sel := Nat.min (s.fld (Reg.fabricGroupCfg g) Fld.fabricGroupCfg_versionMax) o.versionMax
          let s := (s.setFabLane l { FabLane.idle with cnt := o.frameCnt, sel := sel, ret := o.creditRet }).setFld st Fld.fabricLaneStatus_state 2
          State.goodFrame ((s.setFld st Fld.fabricLaneStatus_errRun 0).raise 0x0801 (natBe 1 l)) g l o
    | 2 =>
      if frameErrored o x.cnt then
        let s := s.count .fabricLinkFrameErr g
        let n := s.fld st Fld.fabricLaneStatus_errRun + 1
        if n < s.fld (Reg.fabricGroupCfg g) Fld.fabricGroupCfg_loseM then
          (s.setFabLane l { x with cnt := if o.alignOk && o.crcOk then o.frameCnt else (x.cnt + 1) % 65536 }).setFld st Fld.fabricLaneStatus_errRun n
        else s.alignLost g l
      else (s.setFld st Fld.fabricLaneStatus_errRun 0).goodFrame g l o
    | _ => s
  | _, _ => s

/-! ### Reassembly (R326, R328) -/

/-- A context for a new stream. -/
def Reasm.none : Reasm := { expected := 65536, held := [], cur := Option.none, skip := false }

/-- The key of a stream. -/
def streamKey (dev type port tc : Nat) : Nat := ((dev * 16 + type) * 128 + port) * 8 + tc

/-- A context. -/
def State.reasm (s : State) (k : Nat) : Reasm := mget (fun _ => Reasm.none) s.fabric.ctxs k

/-- Replaces a context. -/
def State.setReasm (s : State) (k : Nat) (x : Reasm) : State := { s with fabric := { s.fabric with ctxs := mput (fun _ => Reasm.none) s.fabric.ctxs k x } }

/-- The current generation of an encapsulation entry (R324). -/
def State.encapGen (s : State) (i : Nat) : Nat := if i = 0 then 0 else bits (tbl128 s.mem (0x0001_2100_0000 + 16 * i)) 126 119

/-- The packet of a record (R324, R326, R352): its stamp, its epoch, its frame with an FCS. -/
def State.fabDesc (s : State) (f : FabDesc) (b : Bytes) (bad : Bool) : Desc :=
  let e := if f.v1 then s.epoch else if s.epochLive f.epoch then f.epoch else s.epoch
  let t : Stamp :=
    if f.v1 then Stamp.mk f.dkind (if f.dkind = 0 then 128 * s.self + f.dest % 128 else f.dest) f.encap (s.encapGen f.encap) f.labelOp f.newLabel f.ttlDec f.tc f.colour 0 0 0
    else Stamp.mk f.dkind f.dest f.encap f.gen f.labelOp f.newLabel f.ttlDec f.tc f.colour f.vrf f.nh f.spread
  { Desc.none with stamp := t, bytes := b ++ fcsOf b, port := 255, slice := 255, epoch := e, bad := bad, rate := f.rate }

/-- fabric.reasm delivers a record of device `dev` to traffic.admit (R343, R352). -/
def State.deliverRec (s : State) (dev : Nat) (f : FabDesc) (b : Bytes) (bad : Bool) : State :=
  let s := if f.v1 || s.epochLive f.epoch then s else (s.count .fabricReasmEpochForeign).raiseLimited 0x080E dev (natBe 2 dev ++ natBe 2 f.epoch)
  let d := s.fabDesc f b bad
  State.epochEnter { s with fabric := { s.fabric with inQ := s.fabric.inQ ++ [d] } } d.epoch

/-- A record that ends: the descriptor, the frame bytes. -/
abbrev FabRec := FabDesc × Bytes

/-- Reads a run of payload: the record in hand and the records that ended, oldest first. -/
def readPiece (cur : Option (FabDesc × Nat × Bytes)) (done : List FabRec) : Piece → Option (FabDesc × Nat × Bytes) × List FabRec
  | .desc d off len =>
    match cur with
    | none => if off = 0 then (some (d, len, []), done) else (none, done)
    | some (f, h, b) => if h < 32 ∧ off = h then (some (f, h + len, b), done) else (none, done)
  | .data bs =>
    match cur with
    | none => (none, done)
    | some (f, h, b) =>
      let b := b ++ bs
      if f.len - 4 ≤ b.length then (none, done ++ [(f, b.take (f.len - 4))]) else (some (f, h, b), done)

/-- Bytes of a run. -/
def pieceLen : Piece → Nat
  | .desc _ _ n => n
  | .data b => b.length

/-- Payload from offset `n` on; a record begins at a run's start. -/
def dropPieces : List Piece → Nat → List Piece
  | [], _ => []
  | p :: l, n => if n = 0 then p :: l else dropPieces l (n - pieceLen p)

/-- A cell is read in its place in the stream (R328): bytes before the first record start are discarded while `skip` holds; BAD_TAIL marks the last
record that ends here, whole or cut short. -/
def State.readCell (s : State) (k : Nat) (c : Cell) : State :=
  let x := s.reasm k
  let ps := if x.skip then (if c.rstart = 255 then [] else dropPieces c.payload c.rstart) else c.payload
  let (cur, done) := ps.foldl (fun r p => readPiece r.1 r.2 p) (x.cur, [])
  let cut := match cur with | some (f, _, b) => if c.badTail then some (f, b) else none | none => none
  let ends := done.map (fun r => (r, false)) ++ (match cut with | some r => [(r, true)] | none => [])
  let s := (List.range ends.length).foldl (fun s i =>
    match ends[i]? with
    | some (r, b) => s.deliverRec c.srcDev r.1 r.2 (b || (c.badTail && i + 1 == ends.length))
    | none => s) s
  s.setReasm k { s.reasm k with cur := if c.badTail then none else cur, skip := x.skip && c.rstart == 255, expected := (c.seq + 1) % 65536 }

/-- The cells held that follow in SEQ order are read. -/
def State.readHeld (s : State) (k : Nat) : Nat → State
  | 0 => s
  | n + 1 =>
    let x := s.reasm k
    match x.held.find? (fun p => p.1 == x.expected) with
    | none => s
    | some (q, c) =>
      let s := State.setReasm { s with fabric := { s.fabric with store := s.fabric.store - 1 } } k { x with held := x.held.filter (fun p => p.1 != q) }
      State.readHeld (s.readCell k c) k n

/-- The bytes of a cell's payload. -/
def cellBytes (c : Cell) : Nat := (c.payload.map pieceLen).sum

/-- O of a port and class (R329). -/
def State.owed (s : State) (port tc : Nat) : Int := mget (fun _ => 0) s.fabric.owed (8 * port + tc)

/-- Changes O. -/
def State.addOwed (s : State) (port tc : Nat) (v : Int) : State :=
  { s with fabric := { s.fabric with owed := mput (fun _ => 0) s.fabric.owed (8 * port + tc) (s.owed port tc + v) } }

/-- A cell that its stream accepts: unicast bytes count as received (R329). -/
def State.received (s : State) (c : Cell) : State := if c.type = 1 then s.addOwed c.destPort c.tc (-(cellBytes c : Int)) else s

/-- A data cell at fabric.reasm (R328). -/
def State.reasmCell (s : State) (c : Cell) : State :=
  let k := streamKey c.srcDev c.type c.destPort c.tc
  let x := s.reasm k
  if x = Reasm.none then
    if 65536 ≤ s.fabric.ctxs.length then (s.count .fabricReasmCtxFull).raiseLimited 0x080D 0 []
    else ((s.setReasm k { x with expected := c.seq, skip := true }).received c).readCell k c
  else if c.seq = x.expected then ((s.received c).readCell k c).readHeld k x.held.length
  else if 32768 ≤ (c.seq + 65536 - x.expected) % 65536 ∨ x.held.any (fun p => p.1 == c.seq) then s.count .fabricReasmLate
  else if 57344 ≤ s.fabric.store then (s.count .fabricReasmStoreFull).raiseLimited 0x080D 0 []
  else
    let held := x.held.filter (fun p => decide (p.1 < c.seq)) ++ (c.seq, c) :: x.held.filter (fun p => decide (c.seq < p.1))
    State.setReasm (State.received { s with fabric := { s.fabric with store := s.fabric.store + 1 } } c) k { x with held := held }

/-- CELL_RX (R29, R317, R318, R328): a cell on an aligned lane of a group it is not held out of. The entries of cell types 3 to 6 come as commands of their own. -/
def cellRx (l : Nat) (c : Cell) (cdcOverrun : Bool) (s : State) : State :=
  match s.laneGroup l with
  | none => s
  | some g =>
    if s.laneState l ≠ 2 ∨ (s.fabLane l).held ≠ 0 ∨ c.type = 0 then s
    else if cdcOverrun then s.count .fabricLinkRxCdcOverrun g
    else if !c.crcOk then s.count .fabricLinkCellCrc g
    else if 7 ≤ c.type then s.count .fabricLinkCellBad g
    else
      let st := Reg.fabricDeviceStatus c.srcDev
      let s := s.setFld st Fld.fabricDeviceStatus_heard 1
      let s := if c.v2 then s.setFld st Fld.fabricDeviceStatus_v2 1 else s
      if c.type ≤ 2 then s.reasmCell c else s

/-- The cell held that follows `e` first in SEQ order. -/
def nextHeld (l : AMap Cell) (e : Nat) : Option (Nat × Cell) :=
  l.foldl (fun m p => match m with | none => some p | some q => if (p.1 + 65536 - e) % 65536 < (q.1 + 65536 - e) % 65536 then some p else some q) none

/-- REASM_TIMEOUT (R328): the cells missing before the next one held are lost; so is the record they cut, marked bad where its head has been delivered. -/
def reasmTimeout (dev type port tc : Nat) (s : State) : State :=
  let k := streamKey dev type port tc
  let x := s.reasm k
  match nextHeld x.held x.expected with
  | none => s
  | some (q, c) =>
    let s := (s.countN .fabricReasmCellLost 0 ((q + 65536 - x.expected) % 65536)).raiseLimited 0x080A dev (natBe 2 dev)
    let s := match x.cur with
      | some (f, _, b) => if 256 < f.len ∧ 256 ≤ b.length then s.deliverRec dev f b true else s.count .fabricReasmRecDrop
      | none => if c.rstart = 0 then s else s.count .fabricReasmRecDrop
    (s.setReasm k { x with cur := none, skip := true, expected := q }).readHeld k x.held.length

/-- REASM_CONTEXT_IDLE (R328): a context that holds nothing is freed. -/
def reasmContextIdle (dev type port tc : Nat) (s : State) : State :=
  let k := streamKey dev type port tc
  if (s.reasm k).held.isEmpty ∧ (s.reasm k).cur.isNone then s.setReasm k Reasm.none else s

/-! ### Segmentation and spraying (R326, R327) -/

/-- A stream with nothing in hand. -/
def Seg.idle : Seg := { left := [], cur := none, seq := 0 }

/-- The stream of queue `q`. -/
def State.segOf (s : State) (q : Nat) : Seg := mget (fun _ => Seg.idle) s.fabric.seg q

/-- Replaces it. -/
def State.setSeg (s : State) (q : Nat) (x : Seg) : State := { s with fabric := { s.fabric with seg := mput (fun _ => Seg.idle) s.fabric.seg q x } }

/-- The record of a packet toward a device (R324, R326): its descriptor, then its frame without FCS. -/
def fabPieces (d : Desc) (v1 : Bool) : List Piece :=
  let t := d.stamp
  let f := FabDesc.mk v1 d.bytes.length d.epoch d.rate t.dkind (if v1 && t.dkind == 0 then t.dest % 128 else t.dest) t.encap t.gen t.labelOp t.newLabel t.ttlDec t.tc t.colour t.vrf t.nh t.spread
  [.desc f 0 32, .data (d.bytes.take (d.bytes.length - 4))]

/-- The bytes of a record on the fabric. -/
def fabSize (d : Desc) : Nat := d.bytes.length + 28

/-- Whether the tail of streamed packet `n` has yet to cross. -/
def State.tailDue (s : State) (n : Nat) : Bool := n != 0 && s.traffic.streams.any (fun p => p.2.any (fun x => x.id == n))

/-- A cell being filled: room left, payload, offset of the first record start, whether it ends bad, whether it is closed. -/
structure Fill where
  s     : State
  room  : Nat
  pay   : List Piece
  start : Nat
  bad   : Bool
  stop  : Bool

/-- The first `n` bytes of a run, and the rest. -/
def pieceCut (n : Nat) : Piece → Piece × Option Piece
  | .desc d o l => (.desc d o (min n l), if n < l then some (.desc d (o + n) (l - n)) else none)
  | .data b => (.data (b.take n), if n < b.length then some (.data (b.drop n)) else none)

/-- The credit of a virtual output queue that empties (R330): what exceeds QUANTUM is surrendered at once. -/
def State.standCredit (s : State) (q : Nat) : State :=
  let x := s.queue q
  let keep : Int := (1024 * s.fld Reg.fabricCtrl Fld.fabricCtrl_quantum : Nat)
  if x.recs.isEmpty ∧ keep < x.credit then
    let u := ((x.credit - keep).toNat + 255) / 256
    s.setQueue q { x with credit := x.credit - ((256 * u : Nat) : Int), surrender := x.surrender + u }
  else s

/-- The next record of queue `q` is taken for cutting (R329): a unicast queue needs credit above zero. A packet of a retired epoch is dropped (R344). -/
def State.segTake (s : State) (q : Nat) (uni v1 : Bool) : Nat → State
  | 0 => s
  | n + 1 =>
    let s := s.cleanHead q
    match (s.queue q).recs with
    | [] => s
    | r :: _ =>
      if uni && decide ((s.queue q).credit ≤ 0) then s
      else
        let s := s.popHead q
        if !s.epochLive r.d.epoch then State.segTake ((((s.freeRec q r).recLeave r true).epochDrop 1).standCredit q) q uni v1 n
        else
          let s := if uni then s.setQueue q { s.queue q with credit := (s.queue q).credit - (fabSize r.d : Int) } else s
          (s.standCredit q).setSeg q { s.segOf q with cur := some r, left := fabPieces r.d v1 }

/-- Fills a cell of the stream of queue `q` (R326). -/
def Fill.run (q : Nat) (uni v1 closed : Bool) (cap : Nat) : Nat → Fill → Fill
  | 0, f => f
  | n + 1, f =>
    if f.room = 0 ∨ f.stop then f
    else
      let g := f.s.segOf q
      match g.cur, g.left with
      | some r, p :: rest =>
        let due := f.s.tailDue r.d.stream && !closed
        let total := ((p :: rest).map pieceLen).sum
        let most := if due then min f.room (total - 1) else f.room
        if most = 0 then { f with stop := true }
        else
          let (a, b) := pieceCut most p
          let left := match b with | some y => y :: rest | none => rest
          let f := { f with room := f.room - pieceLen a, pay := f.pay ++ [a], s := f.s.setSeg q { g with left := left } }
          if left.isEmpty then
            let s := ((f.s.setSeg q { g with left := [], cur := none }).freeRec q r).recLeave r true
            Fill.run q uni v1 closed cap n { f with s := s, bad := r.d.bad, stop := r.d.bad }
          else Fill.run q uni v1 closed cap n f
      | _, _ =>
        if closed then { f with stop := true }
        else
          let s := f.s.segTake q uni v1 (f.s.queue q).recs.length
          if (s.segOf q).cur.isNone then { f with s := s, stop := true }
          else Fill.run q uni v1 closed cap n { f with s := s, start := if f.start = 255 then cap - f.room else f.start }

/-- Link credit of a lane in quarters (R327). -/
def State.linkCredit (s : State) (l : Nat) : Nat := (s.fabLane l).buffer + (s.fabLane l).back - (s.fabLane l).sent

/-- The next active lane of a ready group with credit for `n` quarters, of version 2 where needed, from the lane after the last one used (R327). -/
def State.pickLane (s : State) (n : Nat) (v2 : Bool) : Option Nat :=
  rotFind 120 s.fabric.rot (fun l => s.laneActive l && decide (n ≤ s.linkCredit l) &&
    (match s.laneGroup l with | some g => s.groupReady g && (!v2 || s.fld (Reg.fabricGroupStatus g) Fld.fabricGroupStatus_version == 2) | none => false))

/-- A cell leaves on lane `l`. -/
def State.spray (s : State) (l : Nat) (c : Cell) : State :=
  let x := { s.fabLane l with sent := (s.fabLane l).sent + c.quarters }
  let s := (s.setFabLane l x).setFld (Reg.fabricLaneStatus l) Fld.fabricLaneStatus_outstanding (min (x.sent - x.back) 4095)
  { s with fabric := { s.fabric with rot := (l + 1) % 120, sent := s.fabric.sent ++ [(l, c)] } }

/-- The quarters of a cell of `n` payload bytes (R317). -/
def cellQuarters (n : Nat) : Nat := ceilDiv (n + 14) 64

/-- CELL_SEND (R326, R327, R329): the stream of queue `q` closes a cell, which leaves on the next lane that takes it, or waits. A packet being
cut when its queue closes ends with the cell, marked bad (R263). -/
def cellSend (q : Nat) (s : State) : State :=
  match s.voqOf q with
  | none => s
  | some (dev, port) =>
    if !s.fabric.quietDone ∨ s.qKind q ≠ 1 then s
    else
      let v1 := !s.flag (Reg.fabricDeviceStatus dev) Fld.fabricDeviceStatus_v2
      let cap := if v1 then 114 else 242
      let closed := s.qClosed q
      let f := Fill.run q port.isSome v1 closed cap (3 * cap) { s := s, room := cap, pay := [], start := 255, bad := false, stop := false }
      let g := f.s.segOf q
      let cutOff := closed && g.cur.isSome
      let used := cap - f.room
      if used = 0 then f.s
      else
        let base := match s.voqMaps.find? (fun m => m.1 == dev) with | some m => m.2.1 | none => 0
        let n := cellQuarters used
        let c := Cell.mk (if port.isSome then 1 else 2) n (f.bad || cutOff) true dev (port.getD 0) ((q - base) % 8) s.self g.seq f.start f.pay true
        match s.pickLane n (decide (2 < n)) with
        | none => s
        | some l =>
          let t := match g.cur, cutOff with
            | some r, true => ((f.s.setSeg q { g with left := [], cur := none, seq := (g.seq + 1) % 65536 }).freeRec q r).recLeave r true
            | _, _ => f.s.setSeg q { g with seq := (g.seq + 1) % 65536 }
          t.spray l c

/-! ### Credits (R329 to R331) -/

/-- Whether the device may send cells other than idle ones (R335), and has a ready group to send them on. -/
def State.maySend (s : State) : Bool := s.fabric.quietDone && s.anyReady

/-- Bytes a virtual output queue wants beyond its credit, in 256-byte units (R329). -/
def State.wanted (s : State) (q : Nat) : Nat :=
  let b := (((s.queue q).recs.map (fun r => fabSize r.d)).sum : Nat)
  min (ceilDiv ((b : Int) - (s.queue q).credit).toNat 256) 16777215

/-- CREDIT_REQUEST_SEND (R329, R330): a request entry with the bytes wanted and the credit surrendered. -/
def creditRequestSend (q : Nat) (s : State) : State :=
  match s.voqOf q with
  | some (_, some p) =>
    if !s.maySend ∨ s.qKind q ≠ 1 then s
    else
      let x := s.queue q
      let base := match s.voqMaps.find? (fun m => decide (m.2.1 ≤ q) && decide (q < m.2.1 + 8 * m.2.2)) with | some m => m.2.1 | none => 0
      let give := min x.surrender 65535
      let r := CreditReq.mk s.self q p ((q - base) % 8) (s.wanted q) give
      let s := s.setQueue q { x with surrender := x.surrender - give, flushed := false }
      { s with fabric := { s.fabric with sentReq := s.fabric.sentReq ++ [r] } }
  | _ => s

/-- Requesting queues of a port and class, in rotation. -/
def State.wants (s : State) (port tc : Nat) : List CreditWant := mget (fun _ => []) s.fabric.wants (8 * port + tc)

/-- Replaces them. -/
def State.setWants (s : State) (port tc : Nat) (l : List CreditWant) : State := { s with fabric := { s.fabric with wants := mput (fun _ => []) s.fabric.wants (8 * port + tc) l } }

/-- CREDIT_REQUEST_RX (R329). -/
def creditRequestRx (r : CreditReq) (s : State) : State :=
  let s := s.addOwed r.port r.tc (-((256 * r.surrendered : Nat) : Int))
  let l := s.wants r.port r.tc
  let same (w : CreditWant) : Bool := w.dev == r.srcDev && w.voq == r.voq
  let l := if r.wanted = 0 then l.filter (fun w => !same w)
    else if l.any same then l.map (fun w => if same w then { w with wanted := r.wanted } else w)
    else l ++ [{ dev := r.srcDev, voq := r.voq, wanted := r.wanted }]
  s.setWants r.port r.tc l

/-- CREDIT_GRANT_ISSUE (R329): QUANTUM to the next requesting queue while O and the queued bytes stay below TARGET. Pacing on VDD_T withholds grants (R375). -/
def creditGrantIssue (port tc : Nat) (s : State) : State :=
  match s.wants port tc with
  | [] => s
  | w :: rest =>
    let target : Int := (1024 * s.fld Reg.fabricCtrl Fld.fabricCtrl_target : Nat)
    if !s.maySend ∨ s.gov.levelT = 4 ∨ target ≤ s.owed port tc + (s.egrCount port tc : Int) then s
    else
      let u := 4 * s.fld Reg.fabricCtrl Fld.fabricCtrl_quantum
      let s := (s.addOwed port tc ((256 * u : Nat) : Int)).setWants port tc (if w.wanted ≤ u then rest else rest ++ [{ w with wanted := w.wanted - u }])
      { s with fabric := { s.fabric with sentGrant := s.fabric.sentGrant ++ [(w.dev, w.voq, u)] } }

/-- CREDIT_GRANT_RX (R329, R330): credit for a queue, or to be surrendered when it is closed or flushed. -/
def creditGrantRx (q units : Nat) (s : State) : State :=
  let x := s.queue q
  if s.qKind q ≠ 1 then s
  else if s.qClosed q || x.flushed then s.setQueue q { x with surrender := x.surrender + units }
  else s.setQueue q { x with credit := x.credit + ((256 * units : Nat) : Int) }

/-- STANDING_CREDIT_EXPIRY (R330). -/
def standingCreditExpiry (q : Nat) (s : State) : State := if (s.queue q).recs.isEmpty ∧ s.qKind q = 1 then s.surrenderAll q else s

/-- STARVE_TIMEOUT (R331). -/
def starveTimeout (q : Nat) (s : State) : State :=
  match s.voqOf q with
  | some (dev, some _) =>
    let x := s.queue q
    if x.recs.isEmpty ∨ 0 < x.credit ∨ s.qKind q ≠ 1 then s
    else
      let s := (s.count .fabricCreditStarved).setFld (Reg.fabricDeviceStatus dev) Fld.fabricDeviceStatus_starved 1
      creditRequestSend q (s.raiseLimited 0x0807 dev (natBe 2 dev))
  | _ => s

/-! ### Time cells (R332) -/

/-- Devices that are alive and of version 2. -/
def State.liveV2 (s : State) : List Nat :=
  (s.regs.filterMap (fun c => if 0x70100000 ≤ c.1 ∧ c.1 < 0x70108000 ∧ c.1 % 8 = 0 then some ((c.1 - 0x70100000) / 8) else none)).filter (fun d =>
    s.flag (Reg.fabricDeviceStatus d) Fld.fabricDeviceStatus_v2 && s.flag (Reg.fabricDeviceStatus d) Fld.fabricDeviceStatus_alive)

/-- TIME_CELL_SEND (R332): the chassis reference sends a time cell to each live version-2 device, over groups of version 2. -/
def timeCellSend (s : State) : State :=
  if s.fld Reg.timeSrcCfg Fld.timeSrcCfg_role ≠ 1 ∨ !s.maySend then s
  else
    s.liveV2.foldl (fun s d =>
      match s.pickLane 1 true with
      | none => s
      | some l =>
        let t := TimeCell.mk s.self s.tod (s.fld (Reg.fabricLaneStatus l) Fld.fabricLaneStatus_delay : Int) s.fabric.timeSeq (s.fld Reg.timeStatus Fld.timeStatus_quality)
        let x := { s.fabLane l with sent := (s.fabLane l).sent + 1 }
        let s := (s.setFabLane l x).setFld (Reg.fabricLaneStatus l) Fld.fabricLaneStatus_outstanding (min (x.sent - x.back) 4095)
        { s with fabric := { s.fabric with rot := (l + 1) % 120, timeSeq := (s.fabric.timeSeq + 1) % 65536, sentTime := s.fabric.sentTime ++ [(d, t)] } }) s

/-! ### Notices and liveness (R264, R333 to R335) -/

/-- A port that has sent no notice. -/
def NoticeOut.none : NoticeOut := { up := false, seq := 0, wait := [], since := 0, late := false }

/-- The last notice of line port `p`. -/
def State.noticeOf (s : State) (p : Nat) : NoticeOut := mget (fun _ => NoticeOut.none) s.fabric.notices p

/-- Replaces it; REMOTE_DOWN_SEEN tells whether a device has yet to acknowledge it. -/
def State.setNotice (s : State) (p : Nat) (x : NoticeOut) : State :=
  State.setFlag { s with fabric := { s.fabric with notices := mput (fun _ => NoticeOut.none) s.fabric.notices p x } } (Reg.trafficPortCfg p) Fld.trafficPortCfg_remoteDownSeen (!x.wait.isEmpty)

/-- A NOTICE field goes out. -/
def State.putNotice (s : State) (n : Notice) : State := { s with fabric := { s.fabric with sentNotice := s.fabric.sentNotice ++ [n] } }

/-- PORT_NOTICE_SEND (R264, R333): the newest state of line port `p` is told under the next sequence number. -/
def portNoticeSend (p : Nat) (s : State) : State :=
  match (s.line.noticeDue.filter (fun x => x.1 == p)).getLast? with
  | none => s
  | some (_, up) =>
    if !s.maySend then s
    else
      let s := { s with line := { s.line with noticeDue := s.line.noticeDue.filter (fun x => x.1 != p) } }
      let seq := ((s.noticeOf p).seq + 1) % 256
      (s.setNotice p { up := up, seq := seq, wait := s.liveV2, since := s.time.stepFree, late := false }).putNotice (Notice.mk false s.self p up seq)

/-- NOTICE_REPEAT (R333). -/
def noticeRepeat (p : Nat) (s : State) : State :=
  let x := s.noticeOf p
  let wait := x.wait.filter (fun d => s.liveV2.contains d)
  if x.wait.isEmpty then s
  else if wait.isEmpty then s.setNotice p { x with wait := [] }
  else
    let due := !x.late && decide (x.since + 1000000 ≤ s.time.stepFree)
    let s := s.setNotice p { x with wait := wait, late := x.late || due }
    let s := if due then s.raise 0x080B (natBe 1 p) else s
    if s.maySend then s.putNotice (Notice.mk false s.self p x.up x.seq) else s

/-- NOTICE_ACK_RX (R333). -/
def noticeAckRx (dev port seq : Nat) (s : State) : State :=
  let x := s.noticeOf port
  if x.seq = seq then s.setNotice port { x with wait := x.wait.filter (fun d => d != dev) } else s

/-- A port notice of another device (R264, R265, R333): applied when newer, acknowledged always. -/
def State.portNotice (s : State) (n : Notice) : State :=
  let k := 128 * n.origin + n.port
  let last := mget (fun _ => 0) s.fabric.applied k
  let gap := (n.seq + 256 - (last - 1) % 256) % 256
  let s :=
    if last = 0 ∨ (1 ≤ gap ∧ gap ≤ 127) then
      let due := s.fabric.closeVoq.filter (fun x => x != (n.origin, n.port))
      let s := { s with fabric := { s.fabric with applied := mput (fun _ => 0) s.fabric.applied k (n.seq + 1), closeVoq := if n.up then due else due ++ [(n.origin, n.port)] } }
      { s with lookup := { s.lookup with remoteDown := mput (fun _ => 0) s.lookup.remoteDown k (b2n (!n.up)) } }
    else s
  if s.maySend then { s with fabric := { s.fabric with sentAck := s.fabric.sentAck ++ [(n.origin, n.port, n.seq)] } } else s

/-- NOTICE_RX (R333, R334): a heartbeat sets ALIVE, and after a timeout reopens the device's queues with every port up. -/
def noticeRx (n : Notice) (s : State) : State :=
  if n.origin = s.self then s
  else if n.heartbeat then
    let s := s.setFld (Reg.fabricDeviceStatus n.origin) Fld.fabricDeviceStatus_alive 1
    if s.fabric.dead.contains n.origin then
      let s := { s with fabric := { s.fabric with dead := s.fabric.dead.filter (fun d => d != n.origin), closeVoq := s.fabric.closeVoq.filter (fun x => x.1 != n.origin) },
                        lookup := { s.lookup with remoteDown := s.lookup.remoteDown.filter (fun x => x.1 / 128 != n.origin) } }
      s.raise 0x0809 (natBe 2 n.origin)
    else s
  else s.portNotice n

/-- HEARTBEAT_SEND (R334). -/
def heartbeatSend (s : State) : State :=
  if s.maySend then
    State.putNotice { s with fabric := { s.fabric with hbSeq := (s.fabric.hbSeq + 1) % 256 } } (Notice.mk true s.self 0 true ((s.fabric.hbSeq + 1) % 256))
  else s

/-- DEV_TIMEOUT_EXPIRY (R334): every port of the device is treated as down. -/
def devTimeoutExpiry (d : Nat) (s : State) : State :=
  let st := Reg.fabricDeviceStatus d
  if !s.flag st Fld.fabricDeviceStatus_v2 ∨ s.fabric.dead.contains d then s
  else
    let ports := if s.flag (Reg.trafficVoqMap d) Fld.trafficVoqMap_valid then s.fld (Reg.trafficVoqMap d) Fld.trafficVoqMap_ports else 0
    let base := s.fld (Reg.trafficVoqMap d) Fld.trafficVoqMap_voqBase
    let due := s.fabric.closeVoq.filter (fun x => x.1 != d) ++ (List.range ports).map (fun p => (d, p))
    let s := { s with fabric := { s.fabric with dead := s.fabric.dead ++ [d], closeVoq := due, applied := s.fabric.applied.filter (fun x => x.1 / 128 != d) } }
    let s := (s.setFld st Fld.fabricDeviceStatus_alive 0).raise 0x0808 (natBe 2 d)
    if s.flag (Reg.trafficVoqMap d) Fld.trafficVoqMap_valid then
      (List.range 8).foldl (fun s c => s.detachOrWait (base + 8 * ports + c) 0 false .trafficQueueFlushDrop) s
    else s

/-- QUIET_PERIOD_END (R335): readiness, heartbeats, notices and cells may go out; a down notice is due for every line port that is not up (R334). -/
def quietPeriodEnd (s : State) : State :=
  if s.fabric.quietDone ∨ s.boot.stage = .coldReset then s
  else
    let down := (s.portList.filter (fun p => !s.portUp p)).map (fun p => (p, false))
    { s with fabric := { s.fabric with quietDone := true }, line := { s.line with noticeDue := down } }

def execFabricLaneSignalLoss (l : Nat) (s : State) : Out := s.act (fabricLaneSignalLoss l s)
def execMalythFrameRx (l : Nat) (o : Overhead) (s : State) : Out := s.act (malythFrameRx l o s)
def execCellRx (l : Nat) (c : Cell) (o : Bool) (s : State) : Out := s.act (cellRx l c o s)
def execReasmTimeout (d t p c : Nat) (s : State) : Out := s.act (reasmTimeout d t p c s)
def execReasmContextIdle (d t p c : Nat) (s : State) : Out := s.act (reasmContextIdle d t p c s)
def execCellSend (q : Nat) (s : State) : Out := s.act (cellSend q s)
def execCreditRequestSend (q : Nat) (s : State) : Out := s.act (creditRequestSend q s)
def execCreditRequestRx (r : CreditReq) (s : State) : Out := s.act (creditRequestRx r s)
def execCreditGrantIssue (p c : Nat) (s : State) : Out := s.act (creditGrantIssue p c s)
def execCreditGrantRx (q u : Nat) (s : State) : Out := s.act (creditGrantRx q u s)
def execStandingCreditExpiry (q : Nat) (s : State) : Out := s.act (standingCreditExpiry q s)
def execStarveTimeout (q : Nat) (s : State) : Out := s.act (starveTimeout q s)
def execTimeCellSend (s : State) : Out := s.act (timeCellSend s)
def execPortNoticeSend (p : Nat) (s : State) : Out := s.act (portNoticeSend p s)
def execNoticeRx (n : Notice) (s : State) : Out := s.act (noticeRx n s)
def execNoticeRepeat (p : Nat) (s : State) : Out := s.act (noticeRepeat p s)
def execNoticeAckRx (d p q : Nat) (s : State) : Out := s.act (noticeAckRx d p q s)
def execHeartbeatSend (s : State) : Out := s.act (heartbeatSend s)
def execDevTimeoutExpiry (d : Nat) (s : State) : Out := s.act (devTimeoutExpiry d s)
def execQuietPeriodEnd (s : State) : Out := s.act (quietPeriodEnd s)

end Sys2Proof.Machine
end

