-- ==== Sys2Proof/Machine/Session.lean ====
section
/-! DEFINITION. FCP sessions, replies and event delivery (R393 to R398, R405 to R407, R467): what every FCP request goes through. -/

namespace Sys2Proof.Machine

/-- Whether control.fcp answers: while the firmware runs, and in the recovery state (R49, R398). -/
def State.fcpUp (s : State) : Bool := s.boot.fwRunning || s.boot.stage == .recovery

/-- Replaces a session. -/
def State.setSession (s : State) (x : Session) : State := { s with fcp := { s.fcp with sessions := putSession s.fcp.sessions x } }

/-- FCP_CTRL.SESSIONS follows the sessions that are open. -/
def State.sessionCount (s : State) : State := s.setFld Reg.fcpCtrl Fld.fcpCtrl_sessions (s.fcp.sessions.filter (fun x => x.auth)).length

/-- A session ends and its pending requests are discarded (R397). -/
def State.dropSession (s : State) (id : Nat) : State :=
  State.sessionCount { s with fcp := { s.fcp with
    sessions := s.fcp.sessions.filter (fun x => x.id != id), open_ := s.fcp.open_.filter (fun b => b.session != id),
    waiting := s.fcp.waiting.filter (fun b => b.session != id) } }

/-- 0x0131: session closed, with its cause (Table 17.12). -/
def State.closeSession (s : State) (id cause : Nat) : State := (s.dropSession id).raise 0x0131 (natBe 4 id ++ natBe 1 cause)

/-- What becomes of a frame of a session (R394, R398): discarded, answered with a stored reply, or taken. -/
inductive Gate where
  | drop
  | again (r : Reply)
  | take (x : Session)

/-- The checks of R394 and R398 on a frame of a session; a frame that passes moves the session's last SEQ. -/
def State.fcpGate (s : State) (h : FcpHdr) : State × Gate :=
  match s.session h.session with
  | none => (s, .drop)
  | some x =>
    if !s.fcpUp then (s, .drop)
    else if !h.tagOk then (s.count .controlFcpAuthFail, .drop)
    else if h.seq ≤ x.rxSeq then (s.count .controlFcpReplay, .drop)
    else
      let y := { x with rxSeq := h.seq }
      (s.setSession y, match x.replies.find? (fun r => r.request == h.request) with | some r => .again r | none => .take y)

/-- Sends a reply and keeps it among the session's last 64 (R398). -/
def State.answer (s : State) (h : FcpHdr) (type status : Nat) (payload : Bytes) : State :=
  match s.session h.session with
  | none => s
  | some x =>
    let l := x.replies ++ [{ request := h.request, type := type, status := status, payload := payload }]
    (s.setSession { x with replies := l.drop (l.length - 64) }).send h.session type h.request status true false payload

/-- The requests the recovery state accepts (R398). -/
def recoveryType (t : Nat) : Bool := t == 0x33 || t == 0x35 || t == 0x40 || t == 0x41

/-- Privileges (Table 17.2) as a mask: bit 0 observer, 1 operator, 2 vendor. -/
def privAll : Nat := 7
def privWrite : Nat := 6
def privOwner : Nat := 2

/-- Why a request of type `t` is turned away before it is looked at (R395, R398, Table 17.2): the state or privilege, or a type its version lacks. -/
def State.fcpDeny (s : State) (x : Session) (t priv : Nat) : Option Nat :=
  if !x.auth then some 1
  else if s.boot.stage == .recovery && !recoveryType t then some 1
  else if x.version < 3 ∧ 0x30 ≤ t ∧ t ≤ 0x3F then some 3
  else if !bit priv x.priv then some 1
  else none

/-- A request of type `t` that privileges `priv` may make: gate, denial or `act`, whose status and payload are the reply. -/
def State.fcpServe (s : State) (h : FcpHdr) (t priv : Nat) (act : State → State × Nat × Bytes) : State :=
  match s.fcpGate h with
  | (s, .drop) => s
  | (s, .again r) => s.send h.session r.type h.request r.status true false r.payload
  | (s, .take x) =>
    match s.fcpDeny x t priv with
    | some st => s.answer h t st []
    | none => match act s with | (s, st, p) => s.answer h t st p

/-! ### Sessions (R395 to R397) -/

/-- A message outside any session. -/
def State.sendBare (s : State) (type request status : Nat) : State :=
  { s with fcp := { s.fcp with sent := s.fcp.sent ++ [{ session := 0, type := type, seq := 0, request := request, status := status, reply := true, gap := false, payload := [] }] } }

/-- HELLO (R395, R397): versions 1 to 3 are supported; eight sessions are held. -/
def hello (port req verLo verHi : Nat) (keyHash : BitVec 384) (s : State) : State :=
  let v := Nat.min verHi 3
  if !s.fcpUp then s
  else if v < Nat.max verLo 1 then s.sendBare 0x02 req 7
  else if 8 ≤ s.fcp.sessions.length then s.sendBare 0x02 req 4
  else
    let (d, s) := s.draw
    let id := ((List.range 8).map (fun i => i + 1)).find? (fun i => (s.session i).isNone) |>.getD 8
    let x := Session.mk id port v keyHash 0 false 0 0 0 [] 0 0 false 0 0
    let p := natBe 1 v ++ natBe 4 id ++ Config.helloKeys d ++ Config.identityCert
    let s := { s with fcp := { s.fcp with sessions := s.fcp.sessions ++ [x] } }
    s.send id 0x02 req 0 true false (p ++ (List.range 96).map (Config.signByte p))

/-- FCP_PEER entry `i`: its key hash, when valid, and the privilege it gives (R396). -/
def State.peerEntry (s : State) (i : Nat) : Option (Nat × Nat) :=
  if bit (s.reg (Reg.fcpPeerWord i 6)).toNat 63 then
    some (((List.range 6).map (fun j => (s.reg (Reg.fcpPeerWord i j)).toNat * 2 ^ (64 * (5 - j)))).sum, bits (s.reg (Reg.fcpPeerWord i 6)).toNat 1 0)
  else none

/-- Whether an owner slot is programmed (R45). -/
def Fuses.programmed (f : Fuses) (k : Nat) : Bool := mget (fun _ => (0 : BitVec 384)) f.ownerHash k != 0

/-- Whether any owner slot is programmed. -/
def Fuses.anyOwner (f : Fuses) : Bool := (List.range 4).any (fun k => f.programmed k)

/-- Who a controller key is: its number and privilege (R396). In the recovery state, an owner key that is not revoked, or a provisioning key while no
owner slot is programmed. -/
def State.peerOf (s : State) (k : BitVec 384) : Option (Nat × Nat) :=
  if s.boot.stage == .recovery then
    if (List.range 4).any (fun i => s.fuses.programmed i && !bit s.fuses.ownerRevoked i && mget (fun _ => (0 : BitVec 384)) s.fuses.ownerHash i == k) then some (16, 1)
    else if !s.fuses.anyOwner && (List.range 2).any (fun j => !bit s.fuses.provRevoked j && Config.provHash j == k) then some (17, 1)
    else none
  else (List.range 16).findSome? (fun i => match s.peerEntry i with | some (w, p) => if w = k.toNat then some (i, p) else none | none => none)

/-- Runs of at most 32 records. -/
def chunks32 {α : Type} : Nat → List α → List (List α)
  | 0, _ => []
  | n + 1, l => if l.isEmpty then [] else l.take 32 :: chunks32 n (l.drop 32)

/-- Sends records to a session in EVENT messages of up to 32 (R407); `gap` marks the first. -/
def State.sendRecords (s : State) (sid : Nat) (rs : List EventRec) (gap : Bool) : State :=
  let cs := chunks32 rs.length rs
  (List.range cs.length).foldl (fun s i => s.send sid 0x28 0 0 false (gap && i == 0) (((cs.getD i []).map EventRec.bytes).flatten)) s

/-- Every record after `seq` that the ring holds goes to a session, the first flagged when it is not the next (R407). -/
def State.sendAfter (s : State) (x : Session) (seq : Nat) : State :=
  let rs := s.ev.ring.filter (fun r => decide (seq < r.seq))
  let gap := match rs with | r :: _ => r.seq != seq + 1 | [] => false
  (s.setSession { x with ackSeq := seq, sentSeq := (rs.getLast?.map (fun r => r.seq)).getD x.sentSeq }).sendRecords x.id rs gap

/-- AUTH (R395, R396): the controller's signature and key are checked; AUTH_OK or status 1, 0x0130 or 0x0132. A session that opens
is sent every record the ring holds, the boot log among them (R58, R407, log 24). -/
def auth (h : FcpHdr) (sigOk : Bool) (s : State) : State :=
  match s.fcpGate h with
  | (s, .drop) => s
  | (s, .again r) => s.send h.session r.type h.request r.status true false r.payload
  | (s, .take x) =>
    if x.auth then s.answer h 0x03 1 []
    else
      match if sigOk then s.peerOf x.keyHash else none with
      | some (i, p) =>
        let s := (s.setSession { x with auth := true, peer := i, priv := p }).sessionCount
        let s := s.answer h 0x04 0 (natBe 1 p)
        let s := match s.session x.id with | some y => s.sendAfter y 0 | none => s
        s.raise 0x0130 (natBe 4 x.id ++ natBe 1 p ++ natBe 1 x.port)
      | none =>
        let s := (s.answer h 0x04 1 []).dropSession x.id
        (s.count .controlFcpAuthRefused).raise 0x0132 (natBe 1 x.port)

/-- KEEPALIVE (R397): the session has been heard. -/
def keepalive (h : FcpHdr) (s : State) : State := (s.fcpGate h).1

/-- CLOSE (R397). -/
def close (h : FcpHdr) (s : State) : State :=
  match s.fcpGate h with
  | (s, .take x) => s.closeSession x.id 1
  | (s, _) => s

/-- KEEPALIVE_SEND (R397). -/
def keepaliveSend (sid : Nat) (s : State) : State := if s.fcpUp then s.send sid 0x05 0 0 false false [] else s

/-- SESSION_KEEPALIVE_TIMEOUT (R397). -/
def sessionKeepaliveTimeout (sid : Nat) (s : State) : State :=
  match s.session sid with
  | some _ => if s.fcpUp then s.closeSession sid 2 else s
  | none => s

/-! ### Events (R404 to R407, R467) -/

/-- EVENT_ACK (R407). -/
def eventAck (h : FcpHdr) (seq : Nat) (s : State) : State :=
  match s.fcpGate h with
  | (s, .take x) => if x.auth then s.setSession { x with ackSeq := Nat.max x.ackSeq seq } else s
  | (s, _) => s

/-- EVENT_RESUME (R407): every record after `seq` that the ring holds. -/
def eventResume (h : FcpHdr) (seq : Nat) (s : State) : State :=
  match s.fcpGate h with
  | (s, .take x) =>
    if x.auth then s.sendAfter x seq else s
  | (s, _) => s

/-- EVENT_RESEND (R407): records sent and not acknowledged go out again. -/
def eventResend (sid : Nat) (s : State) : State :=
  match s.session sid with
  | none => s
  | some x => if x.auth ∧ s.fcpUp then s.sendRecords sid (s.ev.ring.filter (fun r => decide (x.ackSeq < r.seq) && decide (r.seq ≤ x.sentSeq))) false else s

/-- EVENT_WINDOW_CLOSE (R467): a window closes with one record for what it held, and a new one opens; with none held it is gone. -/
def eventWindowClose (code key : Nat) (s : State) : State :=
  match s.ev.windows.find? (fun w => w.code == code && w.key == key) with
  | none => s
  | some w =>
    if w.held = 0 then { s with ev := { s.ev with windows := s.ev.windows.filter (fun w => !(w.code == code && w.key == key)) } }
    else
      State.record { s with ev := { s.ev with windows := s.ev.windows.map (fun w => if w.code == code && w.key == key then { w with held := 0, data := [] } else w) } } code w.held w.data

def execHello (p r a b : Nat) (k : BitVec 384) (s : State) : Out := s.act (hello p r a b k s)
def execAuth (h : FcpHdr) (ok : Bool) (s : State) : Out := s.act (auth h ok s)
def execKeepalive (h : FcpHdr) (s : State) : Out := s.act (keepalive h s)
def execClose (h : FcpHdr) (s : State) : Out := s.act (close h s)
def execKeepaliveSend (i : Nat) (s : State) : Out := s.act (keepaliveSend i s)
def execSessionKeepaliveTimeout (i : Nat) (s : State) : Out := s.act (sessionKeepaliveTimeout i s)
def execEventAck (h : FcpHdr) (q : Nat) (s : State) : Out := s.act (eventAck h q s)
def execEventResume (h : FcpHdr) (q : Nat) (s : State) : Out := s.act (eventResume h q s)
def execEventResend (i : Nat) (s : State) : Out := s.act (eventResend i s)
def execEventWindowClose (c k : Nat) (s : State) : Out := s.act (eventWindowClose c k s)

end Sys2Proof.Machine
end

