-- ==== Sys2Proof/Machine/Warm.lean ====
section
/-! DEFINITION. The warm restart of the control complex (R59 to R61): what it resets, what it keeps, and when restarting stops. -/

namespace Sys2Proof.Machine

/-- What a warm restart does (R59): the sessions close, to be reported once the firmware runs (R397), with their batches; the telemetry unit is reset.
The event ring, the batch log and every register keep what they hold, but for FCP_CTRL, whose KEEPALIVE has no STK mark (R11). -/
def State.warmReset (s : State) : State :=
  let ids := (s.fcp.sessions.filter (fun x => x.auth)).map (fun x => x.id)
  let s := (s.setFld Reg.fcpCtrl Fld.fcpCtrl_sessions 0).setFld Reg.fcpCtrl Fld.fcpCtrl_keepalive 3
  { s with
    boot := { s.boot with staged := if (s.boot.staged.map (fun g => g.checked)) = some true then s.boot.staged else none },
    fcp := { s.fcp with sessions := [], open_ := [], waiting := [], flip := none, closedByWarm := s.fcp.closedByWarm ++ ids },
    obs := { s.obs with teleQ := [], teleSeq := [], teleGap := [], sflowSeq := [] } }

/-- A warm restart begins (R59, R61): counted in WARM_COUNT and `control.core.warm_restart`. -/
def State.warmBegin (s : State) : State :=
  let n := min (s.fld Reg.bootStatus Fld.bootStatus_warmCount + 1) 255
  let s := (s.warmReset.setFld Reg.bootStatus Fld.bootStatus_warmCount n).count .controlCoreWarmRestart
  { s with boot := { s.boot with fwRunning := false, warm := true, warmAt := s.time.stepFree } }

/-- A warm restart has failed (R61): another one, or after WARM_LIMIT in a row 0x011A, FAULT_N and no more. -/
def State.warmFail (s : State) : State :=
  let n := s.boot.warmFails + 1
  let s := { s with boot := { s.boot with warmFails := n } }
  if s.fld Reg.bootPolicy Fld.bootPolicy_warmLimit ≤ n then
    State.raise { s with boot := { s.boot with warm := false, warmStopped := true }, pins := { s.pins with faultWarm := true } } 0x011A
  else s.warmBegin

/-- Whether start-up has started the firmware, so that there is something to restart. -/
def State.warmMay (s : State) : Bool := s.boot.fwRunning && !s.boot.warmStopped

/-- 60 s in ns. -/
def warmProof : Nat := 60000000000

/-- Whether the last warm restart began less than 60 s ago. -/
def State.warmYoung (s : State) : Bool := decide (0 < s.fld Reg.bootStatus Fld.bootStatus_warmCount) && decide (s.time.stepFree < s.boot.warmAt + warmProof)

/-- A warm restart by request or by the firmware (R59); restarts that have stood for 60 s end the run of failures. -/
def State.warmStart (s : State) : State :=
  if s.warmMay then (if s.warmYoung then s else { s with boot := { s.boot with warmFails := 0 } } : State).warmBegin else s

/-- FIRMWARE_WARM_RESTART (R59). -/
def firmwareWarmRestart (s : State) : State := s.warmStart

/-- WARM_RESTART_TIMEOUT (R61): the firmware has not reported running within 2 s. -/
def warmRestartTimeout (s : State) : State := if s.boot.warm then s.warmFail else s

/-- RESTART (R59, R398): the reply leaves before the session closes with the restart. -/
def restart (h : FcpHdr) (s : State) : State :=
  match s.fcpGate h with
  | (s, .drop) => s
  | (s, .again r) => s.send h.session r.type h.request r.status true false r.payload
  | (s, .take x) =>
    match s.fcpDeny x 0x34 privWrite with
    | some st => s.answer h 0x34 st []
    | none => (s.answer h 0x34 0 []).warmStart

/-- WATCHDOG_EXPIRY (R409): a PERIOD has passed since the last KICK; alarm source 4 erases the MACsec keys, the expiry is counted, and a warm restart starts; within 60 s of the last one, that
one has failed (R61). -/
def watchdogExpiry (s : State) : State :=
  if s.boot.fwRunning ∧ s.boot.wdogAt + 1000000 * s.fld Reg.wdogCtrl Fld.wdogCtrl_period ≤ s.time.stepFree then
    let s := (s.fireAlarm .watchdog).count .controlCoreWdogExpired
    if s.boot.warmStopped then s else if s.warmYoung then s.warmFail else s.warmStart
  else s

def execFirmwareWarmRestart (s : State) : Out := s.act (firmwareWarmRestart s)
def execWarmRestartTimeout (s : State) : Out := s.act (warmRestartTimeout s)
def execRestart (h : FcpHdr) (s : State) : Out := s.act (restart h s)
def execWatchdogExpiry (s : State) : Out := s.act (watchdogExpiry s)

end Sys2Proof.Machine
end

