-- ==== Sys2Proof/Machine/Epoch.lean ====
section
/-! DEFINITION. Configuration epochs (R338 to R346, R353): the epoch unit, its switch, retirement and the sweep. -/

namespace Sys2Proof.Machine

/-! ### The sweep's walk over what is banked and what is epoch-sensitive (R339, R340, R345) -/

/-- The words of a byte map that hold a listed byte, rising. -/
def wordsOf : List Host.Cell → Option Nat → List Nat
  | [], _ => []
  | c :: l, last => if last = some (c.1 / 8) then wordsOf l last else (8 * (c.1 / 8)) :: wordsOf l (some (c.1 / 8))

/-- The flow table whose buckets hold table-HBM offset `o`. -/
def State.flowTableAt (s : State) (o : Nat) : Option Nat :=
  (List.range 16).find? (fun f =>
    let base := 2 ^ 20 * s.fld (Reg.flowTableCfg f) Fld.flowTableCfg_base
    let n := 512 * 2 ^ (s.fld (Reg.flowTableCfg f) Fld.flowTableCfg_log2Buckets - 1)
    s.flag (Reg.flowTableCfg f) Fld.flowTableCfg_valid && decide (base ≤ o % 2 ^ 34) && decide (o % 2 ^ 34 < base + n))

/-- Kinds of epoch-sensitive entries (R339). -/
inductive VisKind where
  | hash | flow | other
  deriving DecidableEq, Repr

/-- Where the entry whose first word is at `a` keeps its VIC bit in that word, and what kind it is; none where no valid epoch-sensitive entry starts. -/
def State.visEntry (s : State) (a : Nat) : Option (VisKind × Nat) :=
  let w := tblWord s.mem a
  let inHash (base n : Nat) : Bool := ((heads s.mem base n).map (fun i => base + 16 * i)).contains a
  if !bit w 63 then none
  else if a < 0x0001_0000_0000 then none
  else if a < 0x0001_0400_0000 then (if a % 16 = 0 ∧ inHash (64 * (a / 64)) 4 then some (.hash, 58) else none)
  else if a < 0x0001_0400_4000 then (if a % 16 = 0 ∧ inHash (256 * (a / 256)) 16 then some (.hash, 58) else none)
  else if (validWordArray a).isSome then some (.other, 62)
  else if 0x0001_2000_0000 ≤ a ∧ a < 0x0001_2100_0000 then some (.other, 62)
  else if 0x0001_2180_0000 ≤ a ∧ a < 0x0001_2190_0000 then (if a % 16 = 0 then some (.other, 62) else none)
  else if 0x0001_3000_0000 ≤ a ∧ a < 0x0001_3080_0000 then (if (a - 0x0001_3000_0000) % 0x0010_0000 < 0x0001_0000 then some (.other, 62) else none)
  else if 0x0100_0000_0000 ≤ a ∧ a % 64 = 0 then (match s.flowTableAt (a - 0x0100_0000_0000) with | some f => if bits w 55 48 = f then some (.flow, 59) else none | none => none)
  else none

/-- The sweep of one entry (R345): with VIC 0 it is invalidated and its space released, else VIN becomes VIC. With `only` set nothing is invalidated (R342). -/
def State.sweepEntry (s : State) (only : Bool) (a : Nat) : State :=
  match s.visEntry a with
  | none => s
  | some (k, vic) =>
    let w := tblWord s.mem a
    let cur := visible w vic s.epoch
    if cur = visible w vic (s.epoch + 1) then s
    else if cur || only then s.put true a (setBits w (visPos vic (s.epoch + 1)) 1 (b2n cur))
    else match k with
      | .hash => s.hashRemove true a
      | .flow => s.flowRemove true a
      | .other => s.put true a (setBits (setBits w 63 1 0) (vic - 1) 2 0)

/-- Every next copy is set to its current copy (R345). -/
def State.alignBanks (s : State) : State :=
  ((s.regs.map (fun c => c.1) ++ s.bankOdd.map (fun c => c.1)).filter (fun a => (bankedLow a).isSome)).foldl (fun s a => s.setRegPar (!s.curOdd) a (s.regPar s.curOdd a)) s

/-- The sweep of R345 and R346, over every entry and every banked word. -/
def State.sweepAll (s : State) (only : Bool) : State := ((wordsOf s.mem none).foldl (fun s a => s.sweepEntry only a) s).alignBanks

/-! ### The epoch unit (R341 to R346) -/

/-- A command refused (R341): the code is kept in EPOCH_STATE.REFUSED. -/
def State.epochRefuse (s : State) (code : Nat) : State := s.setFld Reg.epochState Fld.epochState_refused code

/-- Sets the phase. -/
def State.setPhase (s : State) (p : Nat) : State := s.setFld Reg.epochState Fld.epochState_phase p

/-- OPEN (R342): the state, and the REFUSED code, 0 when accepted. -/
def State.epochOpenCmd (s : State) : State × Nat :=
  if s.epochPhase ≠ 0 then (s.epochRefuse (if s.epochPhase = 4 then 3 else 1), if s.epochPhase = 4 then 3 else 1)
  else
    let e := (s.epoch + 1) % 65536
    let s := ((s.setFld Reg.epochState Fld.epochState_other e).setFld Reg.epochInflight Fld.epochInflight_other 0).setPhase 1
    ((s.sweepAll true).raise 0x0120 (natBe 2 e), 0)

/-- EPOCH_SWITCH_TIME in ns. -/
def State.switchTime (s : State) : Nat := 1000000000 * s.fld Reg.epochSwitchTime Fld.epochSwitchTime_seconds + s.fld Reg.epochSwitchNs Fld.epochSwitchNs_nanoseconds

/-- ARM for the time in EPOCH_SWITCH_TIME (R342). -/
def State.epochArmCmd (s : State) : State × Nat :=
  if s.epochPhase ≠ 1 then (s.epochRefuse 1, 1)
  else if s.switchTime < s.tod + 10000 then (s.epochRefuse 2, 2)
  else (s.setPhase 2, 0)

/-- The low 32 bits of an image header's BUILD_ID, and its SECURITY_VERSION (Table 2.1). -/
def buildLow (hdr : Bytes) : Nat := beAt hdr 0x14 4
def secVersionOf (hdr : Bytes) : Nat := beAt hdr 0x18 2

/-- From the switch on, SEC_VERSION and the attestation report describe the staged image (R356). -/
def State.stagedSwitch (s : State) : State :=
  match s.boot.staged with
  | some g =>
    if g.checked then
      State.setFld { s with boot := { s.boot with hdr := g.hdr, tbl := g.tbl, keyHash := g.keyHash, staged := some { g with switched := true } } }
        Reg.bootStatus Fld.bootStatus_secVersion (secVersionOf g.hdr)
    else s
  | none => s

/-- The sweep of an in-service change is done (R356): with new firmware a warm restart onto it follows, else 0x0127. -/
def State.stagedSwept (s : State) : State :=
  match s.boot.staged with
  | some g =>
    if !g.switched then s
    else match g.firmware with
      | some f => State.warmStart { s with boot := { s.boot with firmware := f } }
      | none => State.raise { s with boot := { s.boot with staged := none } } 0x0127 (natBe 4 (buildLow g.hdr))
  | none => s

/-- The switch (R342): the next epoch becomes current, the current one retires, at once when it has no packet (R344). -/
def State.epochDoSwitch (s : State) : State :=
  let old := s.epoch
  let new := s.epochOther
  let nOld := s.fld Reg.epochInflight Fld.epochInflight_current
  let nNew := s.fld Reg.epochInflight Fld.epochInflight_other
  let s := ((s.setFld Reg.epochState Fld.epochState_current new).setFld Reg.epochState Fld.epochState_other old).setPhase 3
  let s := (s.setFld Reg.epochInflight Fld.epochInflight_current nNew).setFld Reg.epochInflight Fld.epochInflight_other nOld
  let s := (s.raise 0x0121 (natBe 2 new)).stagedSwitch
  if nOld = 0 then s.epochRetire else s

/-- SWITCH_NOW (R342). -/
def State.epochSwitchNowCmd (s : State) : State × Nat :=
  if s.epochPhase = 1 ∨ s.epochPhase = 2 then (s.epochDoSwitch, 0) else (s.epochRefuse 1, 1)

/-- ABORT (R346); an in-service change that has opened the epoch is dropped (R356). -/
def State.epochAbortCmd (s : State) : State × Nat :=
  if s.epochPhase = 1 ∨ s.epochPhase = 2 then (State.setPhase { s with boot := { s.boot with staged := if (s.boot.staged.map (fun g => g.checked)) = some true then none else s.boot.staged } } 4, 0)
  else (s.epochRefuse 1, 1)

/-- The reply to an EPOCH request: status 6 for a wrong phase, 9 with the reason for a switch time too near (Table 17.4, R341). -/
def epochReply (r : State × Nat) : State × Nat × Bytes := if r.2 = 0 then (r.1, 0, []) else if r.2 = 2 then (r.1, 9, [2]) else (r.1, 6, [])

/-- EPOCH_OPEN. -/
def epochOpen (h : FcpHdr) (s : State) : State := s.fcpServe h 0x30 privWrite (fun s => epochReply s.epochOpenCmd)

/-- EPOCH_ARM: the request carries the time, which EPOCH_SWITCH_TIME takes. -/
def epochArm (h : FcpHdr) (seconds ns : Nat) (s : State) : State :=
  s.fcpServe h 0x30 privWrite (fun s =>
    if 2 ^ 48 ≤ seconds ∨ 1000000000 ≤ ns then (s, 5, [])
    else epochReply (State.epochArmCmd ((s.setFld Reg.epochSwitchTime Fld.epochSwitchTime_seconds seconds).setFld Reg.epochSwitchNs Fld.epochSwitchNs_nanoseconds ns)))

/-- EPOCH_SWITCH_NOW. -/
def epochSwitchNow (h : FcpHdr) (s : State) : State := s.fcpServe h 0x30 privWrite (fun s => epochReply s.epochSwitchNowCmd)

/-- EPOCH_ABORT. -/
def epochAbort (h : FcpHdr) (s : State) : State := s.fcpServe h 0x30 privWrite (fun s => epochReply s.epochAbortCmd)

/-- EPOCH_SWITCH (R342): the armed time is reached. -/
def epochSwitch (s : State) : State := if s.epochPhase = 2 then s.epochDoSwitch else s

/-- EPOCH_DRAIN_TIMEOUT (R344). -/
def epochDrainTimeout (s : State) : State :=
  if s.epochPhase = 3 then (s.setPhase 4).raise 0x0123 (natBe 2 s.epochOther ++ natBe 4 (s.fld Reg.epochInflight Fld.epochInflight_other)) else s

/-- EPOCH_SWEEP_DONE (R345, R346). -/
def epochSweepDone (s : State) : State :=
  if s.epochPhase = 4 then
    let s := s.sweepAll false
    let s := (s.setPhase 0).setFld Reg.epochInflight Fld.epochInflight_other 0
    (s.raise 0x0124 (natBe 2 s.epoch)).stagedSwept
  else s

def execEpochOpen (h : FcpHdr) (s : State) : Out := s.act (epochOpen h s)
def execEpochArm (h : FcpHdr) (a b : Nat) (s : State) : Out := s.act (epochArm h a b s)
def execEpochSwitchNow (h : FcpHdr) (s : State) : Out := s.act (epochSwitchNow h s)
def execEpochAbort (h : FcpHdr) (s : State) : Out := s.act (epochAbort h s)
def execEpochSwitch (s : State) : Out := s.act (epochSwitch s)
def execEpochDrainTimeout (s : State) : Out := s.act (epochDrainTimeout s)
def execEpochSweepDone (s : State) : Out := s.act (epochSweepDone s)

end Sys2Proof.Machine
end

