-- ==== Sys2Proof/Machine/Time.lean ====
section
/-! DEFINITION. The time reference (chapter 15): sources, states, steps, slews, following through the fabric, and the outputs.
Offsets are the time of day less the reference's time, in 1/256 ns (R365). -/

namespace Sys2Proof.Machine

/-- A source's number (Table 15.1). -/
def srcNum : TimeSource → Nat
  | .ext => 1 | .pps => 2 | .fabric => 3 | .soft => 4

/-- The sources listed, best first (R360). -/
def State.timeList (s : State) : List Nat :=
  [s.fld Reg.timeSrcCfg Fld.timeSrcCfg_src0, s.fld Reg.timeSrcCfg Fld.timeSrcCfg_src1, s.fld Reg.timeSrcCfg Fld.timeSrcCfg_src2].filter (fun x => x != 0)

/-- STATE (Table 15.2). -/
def State.timeState (s : State) : Nat := s.fld Reg.timeStatus Fld.timeStatus_state

/-- SOURCE: in use in ACQUIRE and LOCKED, else last used. -/
def State.timeSource (s : State) : Nat := s.fld Reg.timeStatus Fld.timeStatus_source

/-- Whether a source is in use. -/
def State.timeInUse (s : State) : Bool := s.timeState == 1 || s.timeState == 2

/-- The clock quality byte (R362). -/
def qualityByte (state source : Nat) : Nat := 32 * (if state = 2 then 0 else if state = 3 then 1 else if state = 1 then 2 else 3) + 4 * source

/-- Enters a state with a source; QUALITY follows (R362). -/
def State.setTime (s : State) (state source : Nat) : State :=
  ((s.setFld Reg.timeStatus Fld.timeStatus_state state).setFld Reg.timeStatus Fld.timeStatus_source source).setFld Reg.timeStatus Fld.timeStatus_quality (qualityByte state source)

/-- The best listed source that is qualified. -/
def State.timeBest (s : State) : Option Nat := s.timeList.find? (fun x => s.time.qualified.contains x)

/-- Selects a source (R360, R361): ACQUIRE and 0x0901. The stored steering of SOFT takes effect with it (R366). -/
def State.timeSelect (s : State) (src : Nat) : State :=
  let acq := if s.timeState = 0 then 1 else 2
  let s := State.setTime { s with time := { s.time with acq := acq, lockRun := 0 } } 1 src
  let s := if src = 4 then s.setFld Reg.timeFreq Fld.timeFreq_steer (ofSigned 32 s.time.softSteer) else s
  s.raise 0x0901 (natBe 1 src)

/-- A better placed qualified source than the one in use is selected (R360). -/
def State.timeReselect (s : State) : State :=
  match s.timeBest with
  | none => s
  | some b => if s.timeInUse && b == s.timeSource then s else s.timeSelect b

/-- Events on the time of day that a step has passed take effect at it (R364): the armed switch and the takeovers. -/
def State.stepEvents (s : State) : State :=
  let s := if s.epochPhase = 2 ∧ s.switchTime ≤ s.tod then s.epochDoSwitch else s
  ((List.range 96).filter (fun p => s.flag (Reg.hatbandCfg p) Fld.hatbandCfg_pending && decide (mget (fun _ => 0) s.traffic.takeAt p ≤ s.tod))).foldl (fun s p => hatbandTakeover p s) s

/-- A step of the time of day by `d` ns (R363, R364). -/
def State.timeStep (s : State) (d : Int) : State :=
  let s := { s with time := { s.time with stepNet := s.time.stepNet + d, stepped := true } }
  ((s.count .controlTimeStep).raise 0x0903 (natBe 10 (ofSigned 80 d))).stepEvents

/-- A slew of `d` ns begins (R363). -/
def State.timeSlew (s : State) (d : Int) : State :=
  if d = 0 then s else State.setFld { s with time := { s.time with slewLeft := d } } Reg.timeStatus Fld.timeStatus_slewing 1

/-- A saturated 32-bit offset. -/
def satOffset (o : Int) : Nat := ofSigned 32 (if o < -(2 ^ 31 : Nat) then -(2 ^ 31 : Nat) else if ((2 ^ 31 - 1 : Nat) : Int) < o then ((2 ^ 31 - 1 : Nat) : Int) else o)

/-- The lock count after a measurement; the 16th in a row within LOCK_THRESH locks (Table 15.2). -/
def State.lockCount (s : State) (offset : Int) : State :=
  let n := if offset.natAbs ≤ 256 * s.fld Reg.timeServo Fld.timeServo_lockThresh then s.time.lockRun + 1 else 0
  let s := { s with time := { s.time with lockRun := n } }
  if s.timeState = 1 ∧ 16 ≤ n then (s.setTime 2 s.timeSource).raise 0x0902 (natBe 1 s.timeSource) else s

/-- The correction of the first measurement of an acquisition (R363). -/
def State.acquire (s : State) (offset : Int) : State :=
  let valid := s.flag Reg.timeStatus Fld.timeStatus_todValid
  let far := s.time.acq == 1 || decide (256 * s.fld Reg.timeServo Fld.timeServo_stepThresh < offset.natAbs)
  let step := !valid || (far && !s.flag Reg.timeServo Fld.timeServo_noStep)
  let s := State.setFld { s with time := { s.time with acq := 0 } } Reg.timeStatus Fld.timeStatus_todValid 1
  if step then s.timeStep (-(offset / 256)) else s.timeSlew (-(offset / 256))

/-- The servo would need `steer` ppb (R371): beyond 200 ppm the steering is held, counted once per second, and LOCKED is left. -/
def State.steerLimit (s : State) (steer : Int) : State :=
  if steer.natAbs ≤ 200000 then { s with time := { s.time with limited := false } }
  else
    let sec := s.tod / 1000000000
    let s := if s.time.limited && s.time.limSecond == sec then s else s.count .controlTimeFreqLimit
    let was := s.time.limited
    let s := { s with time := { s.time with limited := true, limSecond := sec } }
    if was then s
    else
      let s := s.raise 0x090A (natBe 4 (ofSigned 32 steer))
      if s.timeState = 2 then State.setTime { s with time := { s.time with lockRun := 0 } } 1 s.timeSource else s

/-- A measurement of source `src` (R361, R363): discarded when a step fell in its interval. -/
def State.measure (s : State) (src : Nat) (offset : Int) (steer : Int) : State :=
  if !(s.timeInUse && s.timeSource == src) then s
  else if s.time.stepped then State.count { s with time := { s.time with stepped := false } } .controlTimeMeasDiscard
  else
    let s := s.setFld Reg.timeStatus Fld.timeStatus_offset (satOffset offset)
    let s := if s.time.acq = 0 then s else s.acquire offset
    (s.lockCount offset).steerLimit steer

/-- PPS_IN_EDGE (R361): an edge inside the window is a measurement of EXT or PPS. -/
def ppsInEdge (offset : Int) (inWindow : Bool) (steer : Int) (s : State) : State :=
  if !inWindow then s else if s.timeSource = 1 then s.measure 1 offset steer else s.measure 2 offset steer

/-- TOD_IN_MESSAGE (R368). -/
def todInMessage (m : TodMsg) (s : State) : State :=
  if !m.crcOk then s.count .controlTimeTodMissing
  else if s.timeState = 2 ∧ (s.timeSource = 1 ∨ s.timeSource = 2) ∧ m.seconds ≠ s.tod / 1000000000 then
    if s.time.todRun < 2 then { s with time := { s.time with todRun := s.time.todRun + 1 } }
    else
      let d : Int := (m.seconds : Int) - ((s.tod / 1000000000 : Nat) : Int)
      let s := { s with time := { s.time with todRun := 0 } }
      ((s.timeStep (1000000000 * d)).count .controlTimeTodMismatch).raise 0x0907 (natBe 7 (ofSigned 56 d))
  else { s with time := { s.time with todRun := 0 } }

/-- SOURCE_QUALIFIED (R360): its measurement is the first of an acquisition it begins. -/
def sourceQualified (src : TimeSource) (offset : Int) (s : State) : State :=
  let n := srcNum src
  if !s.timeList.contains n then s
  else
    let q := s.time.qualified.filter (fun x => x != n) ++ [n]
    let s := State.timeReselect { s with time := { s.time with qualified := q } }
    if s.timeInUse && s.timeSource == n && s.time.acq != 0 && n != 4 then s.measure n offset 0 else s

/-- SOURCE_LOSS (R360): another qualified source is selected at once, else HOLDOVER. -/
def sourceLoss (src : TimeSource) (cause : Nat) (s : State) : State :=
  let n := srcNum src
  let s := { s with time := { s.time with qualified := s.time.qualified.filter (fun x => x != n) } }
  if s.timeInUse && s.timeSource == n then
    let s := s.raise 0x0906 (natBe 1 n ++ natBe 1 cause)
    match s.timeBest with
    | some b => s.timeSelect b
    | none => (State.setTime { s with time := { s.time with acq := 0 } } 3 n).raise 0x0904 (natBe 1 n)
  else s

/-- HOLDOVER_LIMIT_EXPIRY (R361). -/
def holdoverLimitExpiry (s : State) : State := if s.timeState = 3 then (s.setTime 0 s.timeSource).raise 0x0905 else s

/-- SLEW_DONE (R363): the offset is removed; a slew moves intervals as it moves the time of day (R364). -/
def slewDone (s : State) : State :=
  if s.flag Reg.timeStatus Fld.timeStatus_slewing then
    State.setFld { s with time := { s.time with stepFree := ((s.time.stepFree : Int) + s.time.slewLeft).toNat, slewLeft := 0 } } Reg.timeStatus Fld.timeStatus_slewing 0
  else s

/-- A write of TIME_ADJ or TIME_FREQ refused (R366). -/
def State.adjRefuse (s : State) : State := (s.count .controlTimeAdjRefused).raise 0x0909

/-- Whether a write steers the clock (R366): SOFT is in use, or no source is selected. -/
def State.softMay (s : State) : Bool := !s.timeInUse || s.timeSource == 4

/-- TIME_ADJ_START (R366): PHASE applied as a step or a slew; with SOFT in use it is a measurement. -/
def timeAdjStart (slew : Bool) (phase : Int) (s : State) : State :=
  if !s.softMay then s.adjRefuse
  else
    let s := (s.setFlag Reg.timeAdj Fld.timeAdj_mode slew).setFld Reg.timeAdj Fld.timeAdj_phase (ofSigned 40 phase)
    let s :=
      if s.timeInUse then
        if s.time.stepped then State.count { s with time := { s.time with stepped := false } } .controlTimeMeasDiscard
        else State.lockCount (State.setFld { s with time := { s.time with acq := 0 } } Reg.timeStatus Fld.timeStatus_offset (satOffset (-256 * phase))) (256 * phase)
      else s
    let s := s.setFld Reg.timeStatus Fld.timeStatus_todValid 1
    if slew then s.timeSlew phase else s.timeStep phase

/-- TIME_FREQ_WRITE (R366): steers the clock, or only qualifies SOFT, or is refused. -/
def timeFreqWrite (steer : Int) (s : State) : State :=
  if 51200000 < steer.natAbs then s
  else
    let listed := s.timeList.contains 4
    if !s.softMay && !listed then s.adjRefuse
    else
      let s := if s.softMay then s.setFld Reg.timeFreq Fld.timeFreq_steer (ofSigned 32 steer) else s
      let s := { s with time := { s.time with softSteer := steer } }
      if listed then
        State.timeReselect { s with time := { s.time with qualified := s.time.qualified.filter (fun x => x != 4) ++ [4] } }
      else s

/-- TIME_CELL_RX (R365): a follower takes a newer cell of FOLLOW_DEV as a measurement and shows its origin's quality. -/
def timeCellRx (c : TimeCell) (steer : Int) (s : State) : State :=
  let newer := match s.time.lastSeq with
    | none => true
    | some q => let g := (c.seq + 65536 - q) % 65536; decide (1 ≤ g) && decide (g ≤ 32767)
  if s.fld Reg.timeSrcCfg Fld.timeSrcCfg_role ≠ 2 then s
  else if c.originDev ≠ s.fld Reg.timeSrcCfg Fld.timeSrcCfg_followDev ∨ !newer then s.count .controlTimeCellIgnored
  else
    let s := State.setFld { s with time := { s.time with lastSeq := some c.seq } } Reg.timeStatus Fld.timeStatus_upstreamQ c.quality
    s.measure 3 (256 * ((s.tod : Int) - ((c.originNs : Int) + c.correction))) steer

/-- TIME_NOW_READ (R359): the whole time of day is latched for TIME_NOW_NS. -/
def timeNowRead (h : FcpHdr) (s : State) : State :=
  s.fcpServe h 0x10 privWrite (fun s =>
    let p := match s.session h.session with | some x => x.priv | none => 0
    let s := s.filterCount 1 p (h.session - 1) (some Reg.timeNow) none
    let s := (s.setFld Reg.timeNow Fld.timeNow_seconds (s.tod / 1000000000)).setFld Reg.timeNowNs Fld.timeNowNs_nanoseconds (s.tod % 1000000000)
    (s, 0, natBe 8 (s.reg Reg.timeNow).toNat))

/-- Whether the outputs run (R367). -/
def State.outRuns (s : State) : Bool :=
  let q := s.fld Reg.timeOutCfg Fld.timeOutCfg_outSquelch
  decide (3 ≤ s.fld Reg.bootStatus Fld.bootStatus_step) && (q == 0 || (q == 1 && s.timeState != 0) || s.timeState == 2)

/-- PPS_OUT_EDGE (R367). -/
def ppsOutEdge (s : State) : State := if s.outRuns then { s with pins := { s.pins with ppsOut := true } } else s

/-- PPS_OUT_FALL (R367). -/
def ppsOutFall (s : State) : State := { s with pins := { s.pins with ppsOut := false } }

/-- The CRC-16 of R318. -/
def crc16 (bs : Bytes) : Nat :=
  (bs.foldl (fun (r : BitVec 16) b => (List.range 8).foldl (fun (r : BitVec 16) i => let fb := r.msb != b.getLsbD (7 - i); if fb then (r <<< 1) ^^^ 0x1021 else r <<< 1) r) 0xFFFF).toNat

/-- The TOD message for second `sec` (Table 15.3). -/
def State.todMessage (s : State) (sec : Nat) : Bytes :=
  let b := [0x46, 0x54, 1, 20] ++ natBe 6 sec ++ natBe 1 (s.fld Reg.timeStatus Fld.timeStatus_quality) ++ [0] ++ natBe 2 (s.fld Reg.timeUtc Fld.timeUtc_utcOffset)
    ++ natBe 1 (s.fld Reg.timeUtc Fld.timeUtc_flags) ++ [0] ++ natBe 2 s.time.todSeq
  b ++ natBe 2 (crc16 b)

/-- TOD_OUT_SEND (R367). -/
def todOutSend (s : State) : State :=
  if s.outRuns && s.flag Reg.timeOutCfg Fld.timeOutCfg_todOutEn then
    { s with time := { s.time with todSeq := (s.time.todSeq + 1) % 65536, todSent := s.time.todSent ++ [s.todMessage (s.tod / 1000000000)] } }
  else s

/-- REF_25M_FAULT (R371): the clock alarm fires, TOD_VALID clears and the time unit runs free. -/
def ref25mFault (s : State) : State :=
  let s := s.fireAlarm .clock
  State.setTime (State.setFld { s with time := { s.time with acq := 0, lockRun := 0 } } Reg.timeStatus Fld.timeStatus_todValid 0) 0 s.timeSource

def execPpsInEdge (o : Int) (w : Bool) (t : Int) (s : State) : Out := s.act (ppsInEdge o w t s)
def execTodInMessage (m : TodMsg) (s : State) : Out := s.act (todInMessage m s)
def execSourceQualified (x : TimeSource) (o : Int) (s : State) : Out := s.act (sourceQualified x o s)
def execSourceLoss (x : TimeSource) (c : Nat) (s : State) : Out := s.act (sourceLoss x c s)
def execHoldoverLimitExpiry (s : State) : Out := s.act (holdoverLimitExpiry s)
def execSlewDone (s : State) : Out := s.act (slewDone s)
def execTimeAdjStart (w : Bool) (p : Int) (s : State) : Out := s.act (timeAdjStart w p s)
def execTimeFreqWrite (f : Int) (s : State) : Out := s.act (timeFreqWrite f s)
def execTimeCellRx (c : TimeCell) (f : Int) (s : State) : Out := s.act (timeCellRx c f s)
def execTimeNowRead (h : FcpHdr) (s : State) : Out := s.act (timeNowRead h s)
def execPpsOutEdge (s : State) : Out := s.act (ppsOutEdge s)
def execPpsOutFall (s : State) : Out := s.act (ppsOutFall s)
def execTodOutSend (s : State) : Out := s.act (todOutSend s)
def execRef25mFault (s : State) : Out := s.act (ref25mFault s)

end Sys2Proof.Machine
end

