-- ==== Sys2Proof/Machine/Bist.lean ====
section
/-! DEFINITION. Built-in self-test in service (chapter 19). -/

namespace Sys2Proof.Machine

/-! ### Segments (Table 19.1) -/

/-- A segment's logic time at level 3 and memory time in ms, and its test power in 0.1 W. -/
def segRow (g : Nat) : Nat × Nat × Nat :=
  if g < 12 then (30, 10, 36) else if g < 24 then (40, 20, 117) else if g < 34 then (30, 10, 40) else if g < 50 then (10, 20, 47) else if g < 52 then (30, 10, 18)
  else if g < 60 then (30, 15, 68) else if g < 124 then (8, 2, 9) else if g < 136 then (15, 5, 14) else if g < 152 then (40, 20, 90) else if g < 160 then (20, 10, 36)
  else if g < 168 then (30, 10, 45) else (30, 10, 18)

/-- The number of MISRs of a segment. -/
def segMisrs (g : Nat) : Nat := if (34 ≤ g ∧ g < 50) ∨ (60 ≤ g ∧ g < 124) then 8 else 1

/-- The class-3 cost of an epoch of a segment's run in pJ (Table 16.2). -/
def segCost (g : Nat) : Nat := 10000 * (segRow g).2.2

/-- The golden signature of a segment and level; 0 none (R434). -/
def State.golden (s : State) (g l : Nat) : Word := s.reg (Reg.bistGolden g l)

/-- The MISRs that differ from the golden, as FAIL_MASK (R435). -/
def misrMask (golden : Word) (l : List Word) : Nat := ((List.range l.length).map (fun i => if l[i]? = some golden then 0 else 2 ^ i)).sum

/-- The signature recorded: of the lowest mismatching MISR, or of MISR 0. -/
def misrSig (golden : Word) (l : List Word) : Word := (l.find? (fun w => w != golden)).getD (l.headD 0)

/-- Segments tested in service (Table 19.2, code 3). -/
def segInService (g : Nat) : Bool := (decide (34 ≤ g) && decide (g < 50)) || (decide (52 ≤ g) && decide (g < 60)) || (decide (76 ≤ g) && decide (g < 124))

/-- The first HBM controller of an HBM block. -/
def segCtl (g : Nat) : Nat := if g < 76 then 8 * (g - 60) else 128 + 8 * (g - 76)

/-- The units a segment covers, as `bist.barred` names them. -/
def segUnits (g : Nat) : List Nat :=
  if 34 ≤ g ∧ g < 50 then (List.range 8).map (fun j => 8 * (g - 34) + j)
  else if 52 ≤ g ∧ g < 60 then [500 + (g - 52)]
  else if 60 ≤ g ∧ g < 124 then (List.range 8).map (fun j => ctlUnit (segCtl g + j))
  else []

/-- Whether array `a` is enabled by its partition (R185). -/
def State.arrayEnabled (s : State) (a : Nat) : Bool := s.flag (Reg.assocArrayStatus a) Fld.assocArrayStatus_enabled

/-- Whether a segment's unit is idle (Table 19.2, code 2). -/
def State.segIdle (s : State) (g : Nat) : Bool :=
  if 34 ≤ g ∧ g < 50 then (List.range 8).all (fun j => !s.arrayEnabled (8 * (g - 34) + j))
  else if 52 ≤ g ∧ g < 60 then s.flag (Reg.engineClusterStatus (g - 52)) Fld.engineClusterStatus_drained
  else true

/-- The refusal code of Table 19.2, 0 for none. -/
def State.bistCode (s : State) (g l : Nat) : Nat :=
  if 179 < g ∨ 3 < l then 1
  else if !s.segIdle g then 2
  else if !segInService g then 3
  else if s.golden g l = 0 then 4
  else if (segUnits g).any (fun u => s.bist.disabled.contains u) ∨ (76 ≤ g ∧ g < 124 ∧ (List.range 8).any (fun j => s.hbmState (segCtl g + j) == 5)) then 5
  else 0

/-- Sets STATE of a segment. -/
def State.setSegState (s : State) (g st : Nat) : State := s.setFld (Reg.bistSegStatus g) Fld.bistSegStatus_state st

/-- QUEUED, RUNNING and BIST_RUN follow the lists. -/
def State.bistRegs (s : State) : State :=
  ((s.setFld Reg.bistCtrl Fld.bistCtrl_queued s.bist.queue.length).setFld Reg.bistCtrl Fld.bistCtrl_running s.bist.running.length).setFld
    Reg.govStatus Fld.govStatus_bistRun s.bist.running.length

/-- A buffer HBM block at the head of the queue is being emptied (R440). -/
def State.bistHead (s : State) : State :=
  match s.bist.queue with
  | [] => s
  | r :: _ => if 76 ≤ r.seg ∧ r.seg < 124 ∧ s.segState r.seg = 1 then s.setSegState r.seg 2 else s

/-- Replaces the queue. -/
def State.setBistQ (s : State) (l : List BistRun) : State := (State.bistRegs { s with bist := { s.bist with queue := l } }).bistHead

/-- UNDER_TEST of a segment's units (R441). -/
def State.setUnderTest (s : State) (g : Nat) (b : Bool) : State :=
  if 34 ≤ g ∧ g < 50 then (List.range 8).foldl (fun s j => s.setFlag (Reg.assocArrayStatus (8 * (g - 34) + j)) Fld.assocArrayStatus_underTest b) s
  else if 52 ≤ g ∧ g < 60 then s.setFlag (Reg.engineClusterStatus (g - 52)) Fld.engineClusterStatus_underTest b
  else s

/-- BIST_START (R439): queued, or refused with a code. -/
def bistStart (h : FcpHdr) (g l : Nat) (s : State) : State :=
  s.fcpServe h 0x48 privWrite (fun s =>
    if g ≤ 179 ∧ s.segState g ≠ 0 then (s, 4, [])
    else if 16 ≤ s.bist.queue.length then (s, 4, [])
    else
      let c := s.bistCode g l
      if c ≠ 0 then (if g ≤ 179 then s.setFld (Reg.bistSegStatus g) Fld.bistSegStatus_code c else s, 9, natBe 1 c)
      else ((s.setSegState g 1).setBistQ (s.bist.queue ++ [{ seg := g, level := l }]), 0, []))

/-- Whether every buffer of a buffer HBM block is free (R440). -/
def State.blockEmpty (s : State) (g : Nat) : Bool :=
  !(decide (76 ≤ g) && decide (g < 124)) || (List.range 8).all (fun j => s.pcFree (segCtl g - 128 + j) == 131072)

/-- BIST_SEGMENT_START (R436, R437, R440): the head of the queue starts when one of three places, an idle unit, and the class-3 purse allow,
never in T3 or under a power-fail warning. -/
def bistSegmentStart (s : State) : State :=
  match s.bist.queue with
  | [] => s
  | r :: rest =>
    if 3 ≤ s.bist.running.length ∨ s.fld Reg.govStatus Fld.govStatus_tier = 4 ∨ s.flag Reg.govStatus Fld.govStatus_pfw ∨ !s.segIdle r.seg ∨ !s.blockEmpty r.seg
        ∨ !s.canSpend 3 (segCost r.seg) then s
    else
      let s := (s.spend 3 (segCost r.seg)).setSegState r.seg 3
      let s := (s.setFld (Reg.bistSegStatus r.seg) Fld.bistSegStatus_level r.level).setUnderTest r.seg true
      State.setBistQ { s with bist := { s.bist with running := s.bist.running ++ [r] } } rest

/-- A run ends and its units' restore begins (R443). -/
def State.bistEnd (s : State) (e : BistEnd) : State :=
  State.bistRegs (State.setSegState { s with bist := { s.bist with running := s.bist.running.filter (fun r => r.seg != e.run.seg), restoring := s.bist.restoring ++ [e] } } e.run.seg 5)

/-- BIST_SEGMENT_DONE (R435): the MISRs are compared with the golden. A segment that holds has not completed. -/
def bistSegmentDone (g : Nat) (misr : List Word) (ms : Nat) (s : State) : State :=
  match s.bist.running.find? (fun r => r.seg == g) with
  | none => s
  | some r =>
    if s.segState g ≠ 3 then s
    else
      let l := misr.take (segMisrs g)
      s.bistEnd { run := r, mask := misrMask (s.golden g r.level) l, sig := misrSig (s.golden g r.level) l, ms := min ms 65535, aborted := false }

/-- Running segments are aborted (R437): cause 1 a power-fail warning, 2 boundary scan. -/
def State.bistAbort (s : State) (cause : Nat) : State :=
  s.bist.running.foldl (fun s r =>
    (s.bistEnd { run := r, mask := 0, sig := 0, ms := 0, aborted := true }).raise 0x0B03 (natBe 1 r.seg ++ natBe 1 cause)) s

/-- The bytes of a byte map outside [`lo`, `hi`). -/
def dropRange (m : List Host.Cell) (lo hi : Nat) : List Host.Cell := m.filter (fun c => decide (c.1 < lo) || decide (hi ≤ c.1))

/-- What restoring a segment's units leaves (R443): a drained cluster with its table zeroed and its sampling ring empty; rows without VALID;
retrained controllers, of which those that fail retire. -/
def State.segRestore (s : State) (g : Nat) (failed : List Nat) : State :=
  if 34 ≤ g ∧ g < 50 then
    (List.range 8).foldl (fun (s : State) j =>
      let a := 8 * (g - 34) + j
      State.setFld { s with mem := dropRange s.mem (rowAddr a 0) (rowAddr (a + 1) 0), lookup := { s.lookup with shadow := dropRange s.lookup.shadow (rowAddr a 0) (rowAddr (a + 1) 0) } }
        (Reg.assocArrayStatus a) Fld.assocArrayStatus_validRows 0) s
  else if 52 ≤ g ∧ g < 60 then
    let base := 0x0001_3000_0000 + 0x0010_0000 * (g - 52)
    let s := { s with mem := dropRange s.mem (base + 0x8_0000) (base + 0x10_0000) }
    (s.setFld (Reg.engineSamplePtr (g - 52)) Fld.engineSamplePtr_wr 0).setFld (Reg.engineSamplePtr (g - 52)) Fld.engineSamplePtr_rd 0
  else if 76 ≤ g ∧ g < 124 then
    (failed.filter (fun x => decide (segCtl g ≤ x) && decide (x < segCtl g + 8))).foldl (fun s x => (s.hbmRetire x 1).poolFence (x - 128)) s
  else s

/-- Bars the units that failed, or lifts the bar (R444). A buffer controller that is barred is fenced; one whose bar is lifted rejoins. -/
def State.segBar (s : State) (g mask : Nat) : State :=
  let us := segUnits g
  let bad := if us.length = 1 then (if mask = 0 then [] else us) else (List.range us.length).filterMap (fun i => if bit mask i then us[i]? else none)
  let old := s.bist.barred
  let new := if mask = 0 then old.filter (fun u => !us.contains u) else old ++ bad.filter (fun u => !old.contains u)
  let t := { s with bist := { s.bist with barred := new } }
  let ctls := (List.range 384).filter (fun c => us.contains (ctlUnit (128 + c)))
  ctls.foldl (fun t c =>
    let u := ctlUnit (128 + c)
    if new.contains u && !old.contains u && !s.poolFenced c then t.poolFence c
    else if old.contains u && !new.contains u && !t.poolFenced c then t.poolRejoin c else t) t

/-- BIST_RESTORE_DONE (R443, R444): the units are restored and the result is recorded. -/
def bistRestoreDone (g : Nat) (failed : List Nat) (s : State) : State :=
  match s.bist.restoring.find? (fun e => e.run.seg == g) with
  | none => s
  | some e =>
    let s := { s with bist := { s.bist with restoring := s.bist.restoring.filter (fun x => x.run.seg != g) } }
    let s := (s.segRestore g failed).setUnderTest g false
    let st := Reg.bistSegStatus g
    let s := (s.setSegState g 0).setFld st Fld.bistSegStatus_result (if e.aborted then 3 else if e.mask = 0 then 1 else 2)
    if e.aborted then s
    else
      let s := ((s.setFld st Fld.bistSegStatus_failMask e.mask).setFld st Fld.bistSegStatus_time e.ms).setReg (Reg.bistSig g) e.sig
      let s := s.segBar g e.mask
      if e.mask = 0 then s.raise 0x0B01 (natBe 1 g ++ natBe 1 e.run.level) else s.raise 0x0B02 (natBe 1 g ++ natBe 1 e.run.level ++ natBe 1 e.mask)

/-- BIST_DRAIN_WAIT_EXPIRY (R440): the block at the head of the queue did not empty, and its request is abandoned with code 6. -/
def bistDrainWaitExpiry (s : State) : State :=
  match s.bist.queue with
  | [] => s
  | r :: rest =>
    if s.segState r.seg ≠ 2 ∨ s.blockEmpty r.seg then s
    else
      let st := Reg.bistSegStatus r.seg
      let s := ((s.setSegState r.seg 0).setFld st Fld.bistSegStatus_result 3).setFld st Fld.bistSegStatus_code 6
      (s.setBistQ rest).raise 0x0B04 (natBe 1 r.seg ++ natBe 1 6)

def execBistStart (h : FcpHdr) (g l : Nat) (s : State) : Out := s.act (bistStart h g l s)
def execBistSegmentStart (s : State) : Out := s.act (bistSegmentStart s)
def execBistSegmentDone (g : Nat) (m : List Word) (ms : Nat) (s : State) : Out := s.act (bistSegmentDone g m ms s)
def execBistRestoreDone (g : Nat) (f : List Nat) (s : State) : Out := s.act (bistRestoreDone g f s)
def execBistDrainWaitExpiry (s : State) : Out := s.act (bistDrainWaitExpiry s)

end Sys2Proof.Machine
end

