-- ==== Sys2Proof/Machine/Gov.lean ====
section
/-! DEFINITION. The power and thermal governor (chapter 16): envelopes, energy credits, pacing, power-fail warning and sensors. -/

namespace Sys2Proof.Machine

/-! ### Budget (R380) -/

/-- The tier in force, 0 none, 1 T0 to 4 T3. -/
def State.tier (s : State) : Nat := s.fld Reg.govStatus Fld.govStatus_tier

/-- Whether load is shed under R378. -/
def State.shed (s : State) : Bool := s.flag Reg.govStatus Fld.govStatus_pfw

/-- Eighths of BUDGET that a tier leaves (Table 16.4). -/
def tierEighths (t : Nat) : Nat := if t = 4 then 5 else if t = 3 then 6 else if t = 2 then 7 else 8

/-- The effective budget in 1/8 W (R380). -/
def State.effEighths (s : State) : Nat :=
  let b := s.fld Reg.govBudget Fld.govBudget_budget * tierEighths s.tier
  if s.shed then Nat.min b (6 * (s.fld Reg.govPfw Fld.govPfw_targetF + s.fld Reg.govPfw Fld.govPfw_targetT)) else b

/-- EFFECTIVE follows; a change raises 0x0A01 with its cause: 1 write, 2 tier, 3 power-fail warning. -/
def State.effUpdate (s : State) (cause : Nat) : State :=
  let w := s.effEighths / 8
  if s.fld Reg.govStatus Fld.govStatus_effective = w then s
  else (s.setFld Reg.govStatus Fld.govStatus_effective w).raise 0x0A01 (natBe 2 w ++ natBe 1 cause)

/-! ### Pacing (R375, R378, R383) -/

/-- The cause of header pacing in force: 3 power-fail warning, 1 slew, 2 budget, 0 none. -/
def State.paceCause (s : State) : Nat :=
  if s.shed then 3 else if s.gov.levelF = 4 ∨ s.gov.levelT = 4 then 1 else if s.gov.paced then 2 else 0

/-- PACING follows its cause: 0x0A03 when pacing starts with a cause, 0x0A04 when it ends. -/
def State.paceUpdate (s : State) : State :=
  let c := s.paceCause
  if s.fld Reg.govStatus Fld.govStatus_pacing = c then s
  else
    let s := s.setFld Reg.govStatus Fld.govStatus_pacing c
    if c = 0 then s.raise 0x0A04 else s.raise 0x0A03 (natBe 1 c)

/-! ### The slew envelope (R374 to R376) -/

/-- A rail: its rated current and ballast capacity in 0.1 A units (Table 16.1). -/
def railRated (onF : Bool) : Nat := if onF then 2800 else 1800
def railBallast (onF : Bool) : Nat := if onF then 1000 else 600

/-- One epoch's move of envelope `e` toward `target`: by at most `up` rising, `down` falling. -/
def envMove (e target up down : Nat) : Nat := if e < target then Nat.min target (e + up) else Nat.max target (e - down)

/-- The steps of R375 that a rail has taken after an epoch: one more while demand exceeds the envelope, none when it does not. -/
def railLevel (level demand env : Nat) : Nat := if env < demand then Nat.min 4 (level + 1) else 0

/-- The classes frozen at a level: 3, then 2, then 1. -/
def levelFrozen (l : Nat) : Nat := (if 1 ≤ l then 8 else 0) + (if 2 ≤ l then 4 else 0) + (if 3 ≤ l then 2 else 0)

/-- One rail's epoch: envelope, ballast and measured current; a fall beyond the ballast's capacity is counted and reported (R376). -/
def State.railEpoch (s : State) (onF : Bool) (current demand : Nat) : State :=
  let d := 5 * demand
  let e := if onF then s.gov.envF else s.gov.envT
  let reserve := 10 * (if onF then s.fld Reg.govRail Fld.govRail_reserveF else s.fld Reg.govRail Fld.govRail_reserveT)
  let target := if s.shed then 10 * (if onF then s.fld Reg.govPfw Fld.govPfw_targetF else s.fld Reg.govPfw Fld.govPfw_targetT) else Nat.min (d + reserve) (railRated onF)
  let slew := s.fld Reg.govRail Fld.govRail_slew
  let down := if s.shed then s.fld Reg.govPfw Fld.govPfw_pfwSlew else slew
  let e1 := envMove e target slew down
  let excess := e1 - d - railBallast onF
  let e2 := e1 - excess
  let bal := e2 - d
  let level := railLevel (if onF then s.gov.levelF else s.gov.levelT) d e2
  let r := Reg.govRailStatus
  let s :=
    if onF then
      ((State.setFld { s with gov := { s.gov with envF := e2, levelF := level } } r Fld.govRailStatus_iF current).setFld r Fld.govRailStatus_envF (e2 / 5)).setFld r Fld.govRailStatus_balF (bal / 5)
    else
      ((State.setFld { s with gov := { s.gov with envT := e2, levelT := level } } r Fld.govRailStatus_iT current).setFld r Fld.govRailStatus_envT (e2 / 5)).setFld r Fld.govRailStatus_balT (bal / 5)
  if excess = 0 then s else (s.count .controlGovSlewExceed).raiseLimited 0x0A07 (b2n (!onF)) (natBe 1 (b2n (!onF)) ++ natBe 2 (ceilDiv excess 10))

/-! ### CREDIT_EPOCH (R382, R383) -/

/-- The ballast power of an epoch in pJ: 0.1 A at 0.75 V for 100 ns is 7,500 pJ. -/
def State.ballastPj (s : State) (m : EpochMeas) : Nat := 7500 * ((s.gov.envF - 5 * m.demandF) + (s.gov.envT - 5 * m.demandT))

/-- The gross pool G in pJ (R380). -/
def State.grossPool (s : State) (m : EpochMeas) : Nat := 12500 * s.effEighths - 100000 * s.fld Reg.govBudget Fld.govBudget_base - s.ballastPj m

/-- What an epoch grants classes 1 to 3, and what is left. -/
structure Grants where
  g1    : Nat
  g2    : Nat
  g3    : Nat
  avail : Nat

/-- The floors first, then strict order (R382); a class that may receive nothing has a want of 0. -/
def grantAll (avail f1 f2 f3 w1 w2 w3 : Nat) : Grants :=
  let a1 := Nat.min (Nat.min f1 w1) avail
  let v1 := avail - a1
  let a2 := Nat.min (Nat.min f2 w2) v1
  let v2 := v1 - a2
  let a3 := Nat.min (Nat.min f3 w3) v2
  let v3 := v2 - a3
  let x1 := Nat.min (w1 - a1) v3
  let x2 := Nat.min (w2 - a2) (v3 - x1)
  let x3 := Nat.min (w3 - a3) (v3 - x1 - x2)
  { g1 := a1 + x1, g2 := a2 + x2, g3 := a3 + x3, avail := v3 - x1 - x2 - x3 }

/-- A forced grant of class `c` (R382): the grant, the class's new starved time in ns, and what is forced. -/
def forcedGrant (g want starved starveNs floor : Nat) (may : Bool) : Nat × Nat × Nat :=
  let t := if g = 0 ∧ 0 < want then starved + 100 else 0
  if starveNs ≤ t ∧ 0 < t ∧ may then (Nat.min floor want, 0, Nat.min floor want) else (g, t, 0)

/-- Running segments are charged their epoch; one the purse cannot pay holds, and resumes when it pays (R436). -/
def State.chargeBist (s : State) : State :=
  s.bist.running.foldl (fun s r =>
    if s.canSpend 3 (segCost r.seg) then (s.spend 3 (segCost r.seg)).setSegState r.seg 3
    else if s.segState r.seg = 3 then (s.setSegState r.seg 4).count .controlBistPaused else s) s

/-- Budget pacing after an epoch (R383): it starts when class 0's set-aside has exceeded G for OVER_TIME, and ends when the input queues have stayed empty for OVER_TIME. -/
def State.budgetPace (s : State) (above empty : Bool) : State :=
  let lim := 10000 * s.fld Reg.govBudget Fld.govBudget_overTime
  let may := s.flag Reg.govBudget Fld.govBudget_paceEn || s.tier == 4
  let o := if above then s.gov.overNs + 100 else 0
  let e := if empty then s.gov.emptyNs + 100 else 0
  let s := if above && !may then s.count .controlGovOver else s
  let start := !s.gov.paced && may && decide (lim ≤ o)
  let stop := s.gov.paced && decide (lim ≤ e)
  { s with gov := { s.gov with overNs := if start then 0 else o, emptyNs := if stop then 0 else e, paced := (s.gov.paced || start) && !stop } }

/-- Counts a grant below the want (R382). -/
def State.countShort (s : State) (c : Ctr) (g w : Nat) : State := if g < w then s.count c else s

/-- Reports a forced grant. -/
def State.forced (s : State) (c x : Nat) : State := if x = 0 then s else (s.count .controlGovForced).raiseLimited 0x0A0A c (natBe 1 c)

/-- What an epoch gives classes 1 to 3 and forces on 1 and 3, with the new starved times (R382). -/
structure EpochGrant where
  g1 : Nat
  g2 : Nat
  g3 : Nat
  t1 : Nat
  t3 : Nat
  x1 : Nat
  x3 : Nat

/-- The grants of an epoch with gross pool `g`. T2 and above give class 2 nothing, T3 gives class 3 only forced grants (R386); while load is
shed classes 2 and 3 receive nothing, and only class 1 is forced (R378, R390). -/
def State.epochGrants (s : State) (m : EpochMeas) (g : Nat) : EpochGrant :=
  let f (c : Nat) : Nat := c * g / 1024
  let f1 := f (s.fld Reg.govClass Fld.govClass_floor1)
  let f2 := f (s.fld Reg.govClass Fld.govClass_floor2)
  let f3 := f (s.fld Reg.govClass Fld.govClass_floor3)
  let w2 := if s.shed ∨ 3 ≤ s.tier then 0 else m.want2
  let w3 := if s.shed ∨ s.tier = 4 then 0 else m.want3
  let gr := grantAll (g - s.gov.debt - s.gov.aside) f1 f2 f3 m.want1 w2 w3
  let starveNs := 1000 * s.fld Reg.govBudget Fld.govBudget_starveTime
  let a := forcedGrant gr.g1 m.want1 s.gov.starved1 starveNs f1 true
  let b := forcedGrant gr.g3 m.want3 s.gov.starved3 starveNs f3 (!s.shed)
  { g1 := a.1, g2 := gr.g2, g3 := b.1, t1 := a.2.1, t3 := b.2.1, x1 := a.2.2, x3 := b.2.2 }

/-- A purse after a grant, capped (R381). -/
def purseCap (p x : Nat) : Nat := Nat.min (p + x) 5000000

/-- The purses, starved times and debt after an epoch. -/
def State.grantIssue (s : State) (m : EpochMeas) (e : EpochGrant) : State :=
  { s with gov := { s.gov with
      purse1 := purseCap s.gov.purse1 e.g1, purse2 := purseCap s.gov.purse2 e.g2, purse3 := purseCap s.gov.purse3 e.g3, starved1 := e.t1, starved3 := e.t3,
      short1 := decide (e.g1 < m.want1), aside := m.spent0, debt := e.x1 + e.x3 + (m.spent0 - s.gov.aside) } }

/-- Energy in nJ as GOV_SPEND shows it. -/
def nanoJ (v : Nat) : Nat := Nat.min (v / 1000) 65535

/-- The status of an epoch: SHORT, DEBT and GOV_SPEND. -/
def State.epochRegs (s : State) (m : EpochMeas) (e : EpochGrant) : State :=
  let short := b2n (decide (e.g1 < m.want1)) + 2 * b2n (decide (e.g2 < m.want2)) + 4 * b2n (decide (e.g3 < m.want3))
  let s := (s.setFld Reg.govStatus Fld.govStatus_short short).setFld Reg.govStatus Fld.govStatus_debt (Nat.min s.gov.debt 4294967295)
  let s := (s.setFld Reg.govSpend Fld.govSpend_spent0 (nanoJ m.spent0)).setFld Reg.govSpend Fld.govSpend_grant1 (nanoJ e.g1)
  (s.setFld Reg.govSpend Fld.govSpend_grant2 (nanoJ e.g2)).setFld Reg.govSpend Fld.govSpend_grant3 (nanoJ e.g3)

/-- The envelopes' part of an epoch (R374, R375): both rails, and the purses frozen for the epoch. -/
def State.epochRails (s : State) (m : EpochMeas) : State :=
  let s := (s.railEpoch true m.currentF m.demandF).railEpoch false m.currentT m.demandT
  { s with gov := { s.gov with frozen := levelFrozen (Nat.max s.gov.levelF s.gov.levelT) } }

/-- A two-wire BUDGET write counts after any other write of the field in its epoch (R411). -/
def State.twiApply (s : State) : State :=
  match s.gov.twiBudget with
  | none => s
  | some v => State.setFld { s with gov := { s.gov with twiBudget := none } } Reg.govBudget Fld.govBudget_budget v

/-- CREDIT_EPOCH (R374 to R383): a governor epoch. -/
def creditEpoch (m : EpochMeas) (s : State) : State :=
  let s := (s.twiApply.effUpdate 1).epochRails m
  let g := s.grossPool m
  let e := s.epochGrants m g
  let aside := s.gov.aside
  let s := (s.grantIssue m e).epochRegs m e
  let s := ((s.countShort .controlGovC1Short e.g1 m.want1).countShort .controlGovC2Short e.g2 m.want2).countShort .controlGovC3Short e.g3 m.want3
  let s := (s.forced 1 e.x1).forced 3 e.x3
  ((s.chargeBist).retrainWaiting.budgetPace (decide (g < aside)) m.inputQueuesEmpty).paceUpdate

/-! ### Regions (R373) -/

/-- REGION_SWITCH_ON (R373): one region per rail at a time, at least 3 µs after the one before, when the envelope has room for its idle current. -/
def regionSwitchOn (onF : Bool) (region idleHalfA : Nat) (s : State) : State :=
  let on := if onF then s.gov.regionsF else s.gov.regionsT
  let next := if onF then s.gov.nextF else s.gov.nextT
  let room := if onF then s.fld Reg.govRailStatus Fld.govRailStatus_balF else s.fld Reg.govRailStatus Fld.govRailStatus_balT
  if s.fld Reg.bootStatus Fld.bootStatus_step < 3 ∨ on.contains region ∨ s.time.stepFree < next ∨ room < idleHalfA then s
  else if onF then { s with gov := { s.gov with regionsF := on ++ [region], nextF := s.time.stepFree + 3000 } }
  else { s with gov := { s.gov with regionsT := on ++ [region], nextT := s.time.stepFree + 3000 } }

/-! ### Power-fail warning (R57, R378, R379) -/

/-- Whether start-up has reached READY. -/
def State.started (s : State) : Bool := s.boot.stage == .running

/-- PFW_N_FALL: after READY load is shed and self-test aborted; before it start-up stops at its step for good. -/
def pfwNFall (s : State) : State :=
  let s := { s with pins := { s.pins with pfwLow := true }, gov := { s.gov with releasing := false } }
  if s.started then
    if s.shed then s
    else (((s.setFld Reg.govStatus Fld.govStatus_pfw 1).raise 0x0A05).bistAbort 1).effUpdate 3 |>.paceUpdate
  else if s.boot.stage = .coldReset then s
  else (State.setFld { s with boot := { s.boot with stopped := true } } Reg.govStatus Fld.govStatus_pfw 1).bistAbort 1

/-- PFW_N_RISE (R379): the release hold starts. -/
def pfwNRise (s : State) : State :=
  let s := { s with pins := { s.pins with pfwLow := false } }
  if s.shed ∧ !s.boot.stopped then { s with gov := { s.gov with releasing := true } } else s

/-- PFW_RELEASE_HOLD_EXPIRY (R379). -/
def pfwReleaseHoldExpiry (s : State) : State :=
  if s.gov.releasing then
    ((State.setFld { s with gov := { s.gov with releasing := false } } Reg.govStatus Fld.govStatus_pfw 0).raise 0x0A06).effUpdate 3 |>.paceUpdate
  else s

/-! ### Sensors (R386 to R389) -/

/-- TEMP of sensor `i` in °C. -/
def State.sensorTemp (s : State) (i : Nat) : Int := toSigned 8 (s.fld (Reg.govSensor i) Fld.govSensor_temp)

/-- Whether sensor `i` has been read and is not excluded. -/
def State.sensorValid (s : State) (i : Nat) : Bool := s.gov.seen.contains i && !s.flag (Reg.govSensor i) Fld.govSensor_fault

/-- The sensors next to `i` on its die that are valid, passing over excluded ones (R388). -/
def State.neighbours (s : State) (i : Nat) : List Nat :=
  let lo := if i < 16 then 0 else 16
  let hi := if i < 16 then 16 else 24
  let up := ((List.range hi).filter (fun j => decide (i < j))).find? (fun j => !s.flag (Reg.govSensor j) Fld.govSensor_fault)
  let down := (((List.range i).filter (fun j => decide (lo ≤ j))).reverse).find? (fun j => !s.flag (Reg.govSensor j) Fld.govSensor_fault)
  ((match up with | some j => [j] | none => []) ++ (match down with | some j => [j] | none => [])).filter (fun j => s.gov.seen.contains j)

/-- The hottest valid sensor and its reading. -/
def State.hottest (s : State) : Option (Nat × Int) :=
  ((List.range 24).filter (fun i => s.sensorValid i)).foldl (fun m i =>
    match m with | none => some (i, s.sensorTemp i) | some (j, t) => if t < s.sensorTemp i then some (i, s.sensorTemp i) else some (j, t)) none

/-- The threshold of tier 1 to 4, in °C. -/
def State.threshold (s : State) (t : Nat) : Int :=
  let r := Reg.govThermCfg
  ((if t = 1 then s.fld r Fld.govThermCfg_t0 else if t = 2 then s.fld r Fld.govThermCfg_t1 else if t = 3 then s.fld r Fld.govThermCfg_t2 else s.fld r Fld.govThermCfg_t3 : Nat) : Int)

/-- Whether more than four sensors are excluded, which forces T3 (R388). -/
def State.tierForced (s : State) : Bool := decide (4 < ((List.range 24).filter (fun i => s.flag (Reg.govSensor i) Fld.govSensor_fault)).length)

/-- The highest tier whose threshold less `h` the reading has reached; 0 none. -/
def State.tierOf (s : State) (t h : Int) : Nat := if s.threshold 4 - h ≤ t then 4 else if s.threshold 3 - h ≤ t then 3 else if s.threshold 2 - h ≤ t then 2 else if s.threshold 1 - h ≤ t then 1 else 0

/-- A change of tier (R386): 0x0A08 with the tier, the sensor and its reading; the effective budget follows. -/
def State.setTier (s : State) (t i : Nat) (temp : Int) : State :=
  ((s.setFld Reg.govStatus Fld.govStatus_tier t).raise 0x0A08 (natBe 1 t ++ natBe 1 i ++ natBe 1 (ofSigned 8 temp))).effUpdate 2

/-- A reading held to 8 bits. -/
def sat8 (t : Int) : Int := if t < -128 then -128 else if 127 < t then 127 else t

/-- SENSOR_READING (R386 to R388): the reading, exclusion, the temperature alarm at 112 °C, and entry into a higher tier. -/
def sensorReading (i : Nat) (t : Int) (s : State) : State :=
  if 24 ≤ i then s
  else
    let r := Reg.govSensor i
    let peak := toSigned 8 (s.fld r Fld.govSensor_peak)
    let s := (s.setFld r Fld.govSensor_temp (ofSigned 8 (sat8 t))).setFld r Fld.govSensor_peak (ofSigned 8 (if peak < sat8 t then sat8 t else peak))
    let s := { s with gov := { s.gov with seen := if s.gov.seen.contains i then s.gov.seen else s.gov.seen ++ [i] } }
    if s.flag r Fld.govSensor_fault then s
    else
      let ns := s.neighbours i
      let off := !ns.isEmpty && ns.all (fun j => decide (20 < (sat8 t - s.sensorTemp j).natAbs))
      let n := if off then mget (fun _ => 0) s.gov.badRuns i + 1 else 0
      let s := { s with gov := { s.gov with badRuns := mput (fun _ => 0) s.gov.badRuns i n } }
      let s := if t < -40 ∨ 130 < t ∨ 10 ≤ n then (s.setFld r Fld.govSensor_fault 1).raise 0x0A09 (natBe 1 i) else s
      let s := if !s.flag r Fld.govSensor_fault ∧ 112 ≤ t then s.fireAlarm .temperature else s
      match s.hottest with
      | none => if s.tierForced ∧ s.tier < 4 then s.setTier 4 i (sat8 t) else s
      | some (j, h) =>
        let k := if s.tierForced then 4 else s.tierOf h 0
        if s.tier < k then s.setTier k j h else s

/-- TIER_EXIT (R386): the hottest valid sensor has stayed below the threshold less HYST. -/
def tierExit (s : State) : State :=
  match s.hottest with
  | none => s
  | some (j, h) =>
    let k := s.tierOf h (s.fld Reg.govThermCfg Fld.govThermCfg_hyst : Nat)
    if s.tierForced ∨ s.tier ≤ k then s else s.setTier k j h

/-- THERMTRIP (R389): clocks stop, transmitters go idle and the MACsec keys are erased, in reset or out of it. -/
def thermtrip (s : State) : State :=
  State.eraseKeys { s with pins := { s.pins with thermtrip := true, clocksStopped := true, linkIdle := true } }

/-- PEAK_CLR. -/
def peakClr (i : Nat) (s : State) : State := if i < 24 then s.setFld (Reg.govSensor i) Fld.govSensor_peak (s.fld (Reg.govSensor i) Fld.govSensor_temp) else s

def execCreditEpoch (m : EpochMeas) (s : State) : Out := s.act (creditEpoch m s)
def execRegionSwitchOn (f : Bool) (r i : Nat) (s : State) : Out := s.act (regionSwitchOn f r i s)
def execPfwNFall (s : State) : Out := .next (pfwNFall s)
def execPfwNRise (s : State) : Out := .next (pfwNRise s)
def execPfwReleaseHoldExpiry (s : State) : Out := s.act (pfwReleaseHoldExpiry s)
def execSensorReading (i : Nat) (t : Int) (s : State) : Out := s.act (sensorReading i t s)
def execTierExit (s : State) : Out := s.act (tierExit s)
def execThermtrip (s : State) : Out := .next (thermtrip s)
def execPeakClr (i : Nat) (s : State) : Out := s.act (peakClr i s)

end Sys2Proof.Machine
end

