-- ==== Sys2Proof/Machine/Obs.lean ====
section
/-! DEFINITION. Counters, dumps and telemetry (chapter 18). -/

namespace Sys2Proof.Machine

/-! ### Counter numbers (R414, R415) -/

/-- The counters of a unit of a bank by ordinal, with their names (R415). The units with a bank of their own have none in bank 1. -/
def unitCtrs (bank ordinal : Nat) : List (Nat × String) :=
  if bank = 7 then
    if ordinal < 512 then hbmCtrs.map (fun p => (ctrKey p.1 ordinal, (if ordinal < 128 then "lookup.hbmctl." else "traffic.hbmctl.") ++ p.2)) else []
  else if 1 ≤ bank ∧ bank ≤ 11 then
    match ordinalRow (bankRows bank) ordinal with
    | none => []
    | some (r, i) =>
      if bank = 1 ∧ (r.name = "control.time" ∨ r.name = "control.gov" ∨ r.name = "control.bist") then [] else r.ctrs.map (fun p => (ctrKey p.1 i, p.2))
  else []

/-- The counters of a stored or numbered bank. -/
def bankLimit (bank : Nat) : Nat :=
  if bank = 0x100 then 2097152 else if bank = 0x101 then 3168 else if bank = 0x102 then 3145728 else if bank = 0x103 then 2097152 else if bank = 0x200 then 64 else 0

/-- The banks whose counters have a stored record in table HBM (R417). -/
def bankStored (bank : Nat) : Bool := bank == 0x100 || bank == 0x102 || bank == 0x103

/-- The key of counter `index` of a bank; none for a reserved bank or an index beyond its bank. -/
def counterKey (bank index : Nat) : Option Nat :=
  if bank < 0x100 then ((unitCtrs bank (index / 256))[index % 256]?).map (fun p => p.1)
  else if index < bankLimit bank then some (bankKey bank index) else none

/-! ### Values (R416 to R419) -/

/-- The amounts a counter has in flush queues. -/
def flushing (l : List Flush) (bank index : Nat) : Nat := ((l.filter (fun f => f.bank == bank && f.index == index)).map (fun f => f.amount)).sum

/-- A counter of a bank as it stands: stored value, flush entries in flight and accumulator; and whether its stored value is unavailable (R418, R420). -/
def State.counter (s : State) (bank index : Nat) : CtrVal × Bool :=
  if !bankStored bank then (match counterKey bank index with | some k => (s.ctr k, false) | none => (CtrVal.zero, false))
  else
    let k := bankKey bank index
    let x := s.recordPc bank index
    let n := flushing s.obs.flushF bank index + flushing s.obs.flushT bank index + mget (fun _ => 0) s.obs.acc k
    if s.copyGood x then ((mget (fun _ => CtrVal.zero) s.obs.stored0 k).bump n, false)
    else if s.copyGood (64 + x) then ((mget (fun _ => CtrVal.zero) s.obs.stored1 k).bump n, false)
    else (CtrVal.zero, true)

/-- A counter with its flags cleared. -/
def CtrVal.clear (v : CtrVal) : CtrVal := { v with ovf := false, inexact := false }

/-- COUNTER_READ operation 1 clears a counter's flags (R416, R419). -/
def State.clearFlags (s : State) (bank index : Nat) : State :=
  match counterKey bank index with
  | none => s
  | some k =>
    let z := fun (_ : Nat) => CtrVal.zero
    if bankStored bank then
      { s with obs := { s.obs with stored0 := mput z s.obs.stored0 k (mget z s.obs.stored0 k).clear, stored1 := mput z s.obs.stored1 k (mget z s.obs.stored1 k).clear } }
    else { s with ctrs := mput z s.ctrs k (s.ctr k).clear }

/-- ACCUMULATOR_FLUSH_APPLY (R417, R418): the oldest flush entry, of the F-die's queue first (log 22), is added to both copies of its record; a copy whose
controller does not serve waits to be rewritten, and with both fenced the entry waits. -/
def accumulatorFlushApply (s : State) : State :=
  let go (f : Flush) (o : Obs) : State :=
    let k := bankKey f.bank f.index
    let x := s.recordPc f.bank f.index
    let z := fun (_ : Nat) => CtrVal.zero
    let g0 := s.hbmServes x
    let g1 := s.hbmServes (64 + x)
    if !g0 && !g1 then s
    else
      let o := if g0 then { o with stored0 := mput z o.stored0 k ((mget z o.stored0 k).bump f.amount) } else { o with stale := if o.stale.contains x then o.stale else o.stale ++ [x] }
      let o := if g1 then { o with stored1 := mput z o.stored1 k ((mget z o.stored1 k).bump f.amount) } else { o with stale := if o.stale.contains (64 + x) then o.stale else o.stale ++ [64 + x] }
      { s with obs := o }
  match s.obs.flushF, s.obs.flushT with
  | f :: rest, _ => go f { s.obs with flushF := rest }
  | [], f :: rest => go f { s.obs with flushT := rest }
  | [], [] => s

/-! ### COUNTER_READ (R420, R421) -/

/-- The bit of a bank in CNT_ACCESS. -/
def visBit (bank : Nat) : Nat := if bank ≤ 11 then bank else if bank = 0x200 then 24 else if 0x100 ≤ bank ∧ bank ≤ 0x103 then 16 + (bank - 0x100) else 31

/-- Whether a session may read a bank: an observer only those of OBS_VIS. -/
def State.mayCount (s : State) (sid bank : Nat) : Bool :=
  match s.session sid with
  | some x => x.priv != 0 || ((bank ≤ 11 || bank == 0x200 || (0x100 ≤ bank && bank ≤ 0x103)) && bit (s.fld Reg.cntAccess Fld.cntAccess_obsVis) (visBit bank))
  | none => false

/-- The 16 bytes of a counter in a reply (Table 18.3). -/
def State.counterEntry (s : State) (c : CounterAddr) : Bytes :=
  let (v, miss) := s.counter c.bank c.index
  let pend := c.bank == 0x200 && s.flag (Reg.cntFilter c.index) Fld.cntFilter_pending
  natBe 8 v.value ++ natBe 1 (b2n v.ovf + 2 * b2n pend + 4 * b2n miss + 8 * b2n v.inexact) ++ List.replicate 7 0

/-- The first counter of a request that is refused: its position. -/
def badCounter (cs : List CounterAddr) : Option Nat := cs.findIdx? (fun c => (counterKey c.bank c.index).isNone)

/-- COUNTER_READ operations 0 and 1: counters are served one at a time, in order; nothing of a refused request is read or cleared. -/
def State.counters (s : State) (h : FcpHdr) (cs : List CounterAddr) (clear : Bool) : State × Nat × Bytes :=
  if cs.isEmpty ∨ 64 < cs.length then (s, 2, [])
  else if cs.any (fun c => !s.mayCount h.session c.bank) || (clear && (s.session h.session).any (fun x => x.priv == 0)) then (s, 1, [])
  else
    match badCounter cs with
    | some i => (s, 9, natBe 1 i)
    | none =>
      cs.foldl (fun (r : State × Nat × Bytes) c =>
        (if clear then r.1.clearFlags c.bank c.index else r.1, 0, r.2.2 ++ r.1.counterEntry c)) (s, 0, [])

/-- COUNTER_READ operation 0 (R420, R421). -/
def counterRead (h : FcpHdr) (cs : List CounterAddr) (s : State) : State := s.fcpServe h 0x50 privAll (fun s => s.counters h cs false)

/-- COUNTER_READ operation 1 (R420, R421). -/
def counterReadClear (h : FcpHdr) (cs : List CounterAddr) (s : State) : State := s.fcpServe h 0x50 privAll (fun s => s.counters h cs true)

/-- A name as the catalogue lists it: a length byte, then ASCII. -/
def nameBytes (n : String) : Bytes := natBe 1 n.length ++ n.toList.map (fun c => BitVec.ofNat 8 c.toNat)

/-- COUNTER_READ operation 2 (R415, R421): the names of the counters of the unit; a bank that is not a unit's has no names. -/
def counterListNames (h : FcpHdr) (c : CounterAddr) (s : State) : State :=
  s.fcpServe h 0x50 privAll (fun s =>
    if !s.mayCount h.session c.bank then (s, 1, [])
    else
      let l := unitCtrs c.bank (c.index / 256)
      if c.bank < 0x100 ∧ (c.bank = 0 ∨ 11 < c.bank ∨ (c.bank = 7 ∧ 512 ≤ c.index / 256) ∨ (c.bank ≠ 7 ∧ (ordinalRow (bankRows c.bank) (c.index / 256)).isNone)) then (s, 9, natBe 1 0)
      else if 0x100 ≤ c.bank ∧ bankLimit c.bank ≤ c.index then (s, 9, natBe 1 0)
      else (s, 0, (l.map (fun p => nameBytes p.2)).flatten))

/-! ### Filters (R422, R423) -/

/-- A filter that counts nothing. -/
def Filter.off : Filter := { kind := 0, priv := 0, tc := 0, mval := 0, mmask := 0, lo := 0, hi := 0 }

/-- CNT_FILTER_WRITE (R423): word 0, 1 or 2 of filter `f` is staged, and PENDING reads 1. -/
def cntFilterWrite (f word : Nat) (v : Word) (s : State) : State :=
  if 64 ≤ f ∨ 3 ≤ word then s
  else
    match s.hostWrite (Reg.cntFilter f + 8 * word) v with
    | none => s
    | some s => s.setFld (Reg.cntFilter f) Fld.cntFilter_pending 1

/-- The filter the staged words describe. -/
def State.stagedFilter (s : State) (f : Nat) : Filter :=
  let r := Reg.cntFilter f
  if s.flag r Fld.cntFilter_valid then
    { kind := s.fld r Fld.cntFilter_kind, priv := s.fld r Fld.cntFilter_priv, tc := s.fld r Fld.cntFilter_tc, mval := s.fld r Fld.cntFilter_masterValue,
      mmask := s.fld r Fld.cntFilter_masterMask, lo := s.fld (Reg.cntFilterLo f) Fld.cntFilterLo_addr, hi := s.fld (Reg.cntFilterHi f) Fld.cntFilterHi_addr }
  else Filter.off

/-- A staged filter comes into force: its counter and flags are zeroed and 0x0141 is raised (R423). -/
def State.applyFilter (s : State) (f : Nat) : State :=
  let s := { s with ctrs := mput (fun _ => CtrVal.zero) s.ctrs (bankKey 0x200 f) CtrVal.zero, obs := { s.obs with filters := mput (fun _ => Filter.off) s.obs.filters f (s.stagedFilter f) } }
  (s.setFld (Reg.cntFilter f) Fld.cntFilter_pending 0).raise 0x0141 (natBe 1 f)

/-! ### Snapshots (R424 to R426) -/

/-- The table-window address of slot `i` of the dump ring (R425). -/
def State.slotAddr (s : State) (i : Nat) : Nat := hbmAddr (1048576 * s.fld Reg.dumpCtrl Fld.dumpCtrl_base + 67108864 * i)

/-- Every counter's value and flags, by key: those held whole, and those with a stored record that have counted. -/
def State.allCounters (s : State) : AMap CtrVal × Bool :=
  let ks := s.obs.acc.map (fun p => p.1) ++ s.obs.stored0.map (fun p => p.1) ++ s.obs.stored1.map (fun p => p.1)
    ++ (s.obs.flushF ++ s.obs.flushT).map (fun f => bankKey f.bank f.index)
  (ks.foldl (fun m k => mput (fun _ => CtrVal.zero) m k (s.counter (k / 2 ^ 32 - 0x1000) (k % 2 ^ 32)).1) s.ctrs,
   (List.range 64).any (fun x => !s.copyGood x && !s.copyGood (64 + x)))

/-- SNAPSHOT_INSTANT (R424 to R426): with a walk running the snapshot is skipped; otherwise every counter is taken, the walk starts and staged filters apply. -/
def snapshotInstant (s : State) : State :=
  let seq := s.fld Reg.dumpStatus Fld.dumpStatus_seq
  if s.obs.walking then
    State.raiseLimited (State.count { s with obs := { s.obs with skippedBefore := true } } .controlDumpSkipped) 0x0140 0 (natBe 4 seq)
  else
    let (vals, miss) := s.allCounters
    let n := (seq + 1) % 2 ^ 32
    let old := s.obs.teleQ.filter (fun r => r.kind == 1 && beAt r.body 0 4 % 64 == n % 64)
    let s := { s with
      obs := { s.obs with walking := true, walkSeq := n, walkInstant := todBytes s.tod, walkEpoch := s.epoch, walkVals := vals, walkMissing := miss,
                          teleQ := s.obs.teleQ.filter (fun r => !(r.kind == 1 && beAt r.body 0 4 % 64 == n % 64)) },
      mem := memPut s.mem (s.slotAddr (n % 64) + 20) [1] }
    let s := old.foldl (fun s r => (s.teleLose r.dest).lostEvent r.dest 1) s
    let s := s.setFld Reg.dumpStatus Fld.dumpStatus_writing 1
    ((List.range 64).filter (fun f => s.flag (Reg.cntFilter f) Fld.cntFilter_pending)).foldl (fun s f => s.applyFilter f) s

/-- The banks of a slot, ascending. -/
def slotBanks : List Nat := [1, 2, 3, 4, 5, 6, 7, 8, 9, 10, 11, 0x100, 0x101, 0x102, 0x103, 0x200]

/-- The units of a bank of named counters. -/
def bankOrdinals (bank : Nat) : Nat := if bank = 7 then 512 else ((bankRows bank).map (fun r => r.count)).sum

/-- The keys of a bank of named counters, in index order. -/
def namedKeys (bank : Nat) : List Nat := ((List.range (bankOrdinals bank)).map (fun o => (unitCtrs bank o).map (fun p => p.1))).flatten

/-- How many counters a bank has. -/
def bankCount (bank : Nat) : Nat := if bank < 0x100 then (namedKeys bank).length else bankLimit bank

/-- The bytes a bank takes in a slot: values, then its bitmap. -/
def bankBytes (bank : Nat) : Nat := 8 * bankCount bank + 8 * ceilDiv (bankCount bank) 64

/-- The counters of a bank that do not read zero in a snapshot: position in the bank and value. -/
def bankValues (vals : AMap CtrVal) (bank : Nat) : List (Nat × CtrVal) :=
  if bank < 0x100 then
    let ks := namedKeys bank
    (List.range ks.length).filterMap (fun i => let v := mget (fun _ => CtrVal.zero) vals (ks.getD i 0); if v = CtrVal.zero then none else some (i, v))
  else (vals.filter (fun p => decide (bankKey bank 0 ≤ p.1) && decide (p.1 < bankKey bank 0 + bankLimit bank))).map (fun p => (p.1 - bankKey bank 0, p.2))

/-- A bank's values and overflow bitmap written at offset `off` of the slot at `a`. -/
def putBank (vals : AMap CtrVal) (a off bank : Nat) (m : List Host.Cell) : List Host.Cell :=
  let bm := a + off + 8 * bankCount bank
  (bankValues vals bank).foldl (fun m p =>
    let m := memPut m (a + off + 8 * p.1) (natBe 8 p.2.value)
    if p.2.ovf then memPut m (bm + p.1 / 8) [mget (fun _ => (0 : Byte)) m (bm + p.1 / 8) ||| BitVec.ofNat 8 (2 ^ (7 - p.1 % 8))] else m) m

/-- The directory of a slot and, with it, every bank's data (Table 18.6). -/
def putBanks (vals : AMap CtrVal) (a : Nat) : Nat → Nat → List Nat → List Host.Cell → List Host.Cell
  | _, _, [], m => m
  | j, off, b :: bs, m =>
    let e := natBe 2 b ++ natBe 2 0 ++ natBe 4 (bankCount b) ++ natBe 4 off ++ natBe 4 (off + 8 * bankCount b)
    putBanks vals a (j + 1) (off + bankBytes b) bs (putBank vals a off b (memPut m (a + 64 + 16 * j) e))

/-- How many values a snapshot record holds within the MTU. -/
def State.snapRun (s : State) : Nat := (s.fld Reg.teleCtrl Fld.teleCtrl_mtu - 104) * 8 / 65

/-- Snapshot records of `n` values each from position `first` on (Table 18.8). -/
def snapRecords (vals : List (Nat × CtrVal)) (seq bank n : Nat) : Nat → Nat → Nat → List Bytes
  | 0, _, _ => []
  | fuel + 1, first, total =>
    if total ≤ first then []
    else
      let c := min n (total - first)
      let at_ (i : Nat) : CtrVal := mget (fun _ => CtrVal.zero) vals (first + i)
      let flags := ((List.range c).map (fun i => if (at_ i).ovf then 2 ^ (64 * ceilDiv c 64 - 1 - i) else 0)).sum
      (natBe 4 seq ++ natBe 2 bank ++ natBe 2 c ++ natBe 4 first ++ natBe 4 0 ++ ((List.range c).map (fun i => natBe 8 (at_ i).value)).flatten
        ++ natBe (8 * ceilDiv c 64) flags) :: snapRecords vals seq bank n fuel (first + c) total

/-- The banks set in CNT_ACCESS.EXPORT. -/
def State.exportBanks (s : State) : List Nat := slotBanks.filter (fun b => bit (s.fld Reg.cntAccess Fld.cntAccess_export) (visBit b))

/-- DUMP_WALK_DONE (R425, R426, R428): the slot is written, its header last, and every SNAP_EVERY-th slot is exported. -/
def dumpWalkDone (us : Nat) (s : State) : State :=
  if !s.obs.walking then s
  else
    let o := s.obs
    let a := s.slotAddr (o.walkSeq % 64)
    let m := putBanks o.walkVals a 0 4096 slotBanks (dropRange s.mem a (a + 67108864))
    let hdr := natBe 4 0x44534C54 ++ natBe 4 o.walkSeq ++ o.walkInstant ++ natBe 1 2 ++ natBe 1 (b2n o.skippedBefore + 2 * b2n o.walkMissing)
      ++ natBe 2 o.walkEpoch ++ natBe 4 ((slotBanks.map bankCount).sum) ++ natBe 4 us
    let s := { s with mem := memPut m a hdr, obs := { o with walking := false, skippedBefore := false, walkVals := [] } }
    let r := Reg.dumpStatus
    let s := ((s.setFld r Fld.dumpStatus_seq o.walkSeq).setFld r Fld.dumpStatus_slot (o.walkSeq % 64)).setFld r Fld.dumpStatus_walk (min (us / 10) 1023)
    let s := s.setFld r Fld.dumpStatus_writing 0
    let ev := s.fld Reg.teleCtrl Fld.teleCtrl_snapEvery
    if o.walkSeq % ev = 0 then
      s.exportBanks.foldl (fun s b => (snapRecords (bankValues o.walkVals b) o.walkSeq b s.snapRun (bankCount b) 0 (bankCount b)).foldl (fun s body => s.tele 1 0 body) s) s
    else s

/-! ### Export (R427 to R430) -/

/-- The lookup traces and the engine samples are drained, whether or not a collector takes them (R428, R431). -/
def State.drainRings (s : State) : State :=
  let s := (List.range 12).foldl (fun s k =>
    let l := mget (fun _ => []) s.lookup.traceRing k
    l.foldl (fun s b => s.tele 5 4 b) { s with lookup := { s.lookup with traceRing := mput (fun _ => []) s.lookup.traceRing k [] } }) s
  (List.range 8).foldl (fun s c =>
    let p := Reg.engineSamplePtr c
    let rd := s.fld p Fld.engineSamplePtr_rd
    let n := (s.fld p Fld.engineSamplePtr_wr + 4096 - rd) % 4096
    let s := (List.range n).foldl (fun s i =>
      let a := 0x0001_3000_0000 + 0x0010_0000 * c + 0x000C_0000 + 16 * ((rd + i) % 4096)
      s.tele 4 3 ((List.range 16).map (fun j => s.memByte (a + j)))) s
    s.setFld p Fld.engineSamplePtr_rd (s.fld p Fld.engineSamplePtr_wr)) s

/-- The order of priority of R429: events, traces, samples, engine samples, mirror copies, snapshots. -/
def telePriority : List Nat := [3, 5, 2, 7, 4, 6, 1]

/-- A mirror copy's record cut to `room` bytes (Table 18.8). -/
def cutMirror (room : Nat) (b : Bytes) : Bytes :=
  if b.length ≤ room then b else b.take 4 ++ natBe 2 (room - 8) ++ [0, 0] ++ (b.drop 8).take (room - 8)

/-- The leading bodies that fit in `room`. -/
def fitting (room : Nat) : List Bytes → List Bytes
  | [] => []
  | b :: bs => if b.length ≤ room then b :: fitting (room - b.length) bs else []

/-- Takes the first `n` records of a kind for a collector off the queue. -/
def dropTele (i kind : Nat) : Nat → List TeleRec → List TeleRec
  | 0, l => l
  | _, [] => []
  | n + 1, r :: l => if r.dest = i ∧ r.kind = kind then dropTele i kind n l else r :: dropTele i kind (n + 1) l

/-- TELEMETRY_SEND (R427 to R430): the next datagram of collector `i`: records of one kind, the first in priority that has any, as many as the MTU takes.
A record no datagram can hold is discarded. -/
def telemetrySend (i : Nat) (s : State) : State :=
  let r := Reg.teleCollector i
  if 4 ≤ i ∨ !s.boot.fwRunning ∨ !s.flag Reg.teleCtrl Fld.teleCtrl_enable then s
  else
    let s := s.drainRings
    match telePriority.find? (fun k => s.obs.teleQ.any (fun t => t.dest == i && t.kind == k)) with
    | none => s
    | some kind =>
      let v6 := s.flag r Fld.teleCollector_ipv6
      let src := 2 ^ 64 * (s.reg Reg.teleSrcHi).toNat + (s.reg Reg.teleSrcLo).toNat
      let ip := (if v6 then 40 else 20) + 8
      let own := if kind = 7 then (if v6 then 40 else 28) else 32
      let room := s.fld Reg.teleCtrl Fld.teleCtrl_mtu - ip - own
      let bodies := (s.obs.teleQ.filter (fun t => t.dest == i && t.kind == kind)).map (fun t => if kind = 6 then cutMirror room t.body else t.body)
      let take := fitting room bodies
      if take.isEmpty then
        (State.teleLose { s with obs := { s.obs with teleQ := dropTele i kind 1 s.obs.teleQ } } i).lostEvent i kind
      else
        let gap := mget (fun _ => false) s.obs.teleGap i
        let seqs := if kind = 7 then s.obs.sflowSeq else s.obs.teleSeq
        let seq := mget (fun _ => 0) seqs i
        let body := take.flatten
        let head :=
          if kind = 7 then
            natBe 4 5 ++ natBe 4 (if v6 then 2 else 1) ++ (if v6 then natBe 16 src else natBe 4 src) ++ natBe 4 0 ++ natBe 4 seq
              ++ natBe 4 ((s.time.stepFree - s.boot.readyAt) / 1000000) ++ natBe 4 take.length
          else
            natBe 2 0x464C ++ natBe 1 2 ++ natBe 1 kind ++ natBe 2 s.self ++ natBe 2 take.length ++ natBe 8 seq ++ todBytes s.tod
              ++ natBe 2 (b2n gap) ++ natBe 2 body.length
        let d := TeleSent.mk i kind seq gap (s.fld r Fld.teleCollector_port) (s.fld Reg.teleCtrl Fld.teleCtrl_tc) (s.fld r Fld.teleCollector_dmac)
          (s.fld Reg.fcpCfg Fld.fcpCfg_mac) v6 src (2 ^ 64 * (s.reg (Reg.teleCollectorAddrHi i)).toNat + (s.reg (Reg.teleCollectorAddrLo i)).toNat)
          (s.fld Reg.teleCtrl Fld.teleCtrl_srcUdp) (s.fld (Reg.teleCollectorUdp i) Fld.teleCollectorUdp_udp) (head ++ body)
        let o := s.obs
        { s with obs := { o with
            teleQ := dropTele i kind take.length o.teleQ, teleSent := o.teleSent ++ [d],
            teleSeq := if kind = 7 then o.teleSeq else mput (fun _ => 0) o.teleSeq i (seq + 1),
            sflowSeq := if kind = 7 then mput (fun _ => 0) o.sflowSeq i (seq + 1) else o.sflowSeq,
            teleGap := if kind = 7 then o.teleGap else mput (fun _ => false) o.teleGap i false } }

def execCounterRead (h : FcpHdr) (cs : List CounterAddr) (s : State) : Out := s.act (counterRead h cs s)
def execCounterReadClear (h : FcpHdr) (cs : List CounterAddr) (s : State) : Out := s.act (counterReadClear h cs s)
def execCounterListNames (h : FcpHdr) (c : CounterAddr) (s : State) : Out := s.act (counterListNames h c s)
def execSnapshotInstant (s : State) : Out := s.act (snapshotInstant s)
def execDumpWalkDone (us : Nat) (s : State) : Out := s.act (dumpWalkDone us s)
def execAccumulatorFlushApply (s : State) : Out := s.act (accumulatorFlushApply s)
def execCntFilterWrite (f w : Nat) (v : Word) (s : State) : Out := s.act (cntFilterWrite f w v s)
def execTelemetrySend (i : Nat) (s : State) : Out := s.act (telemetrySend i s)

end Sys2Proof.Machine
end

