-- ==== Sys2Proof/Machine/Windows.lean ====
section
/-! DEFINITION. The management address space (Table 17.7): where table windows lie, what a read of a window returns, the formats of the
tables' words, and what the image and the firmware write there (R42, R270, R293, R309, R465). -/

namespace Sys2Proof.Machine

/-! ### Where the windows lie -/

/-- The table windows below the table-HBM window. -/
inductive Win where
  | hash | stash | assoc | label | nextHop | encap | bridgeDomain | ipv6Src | profile | ecmp | lag | member | meterProfile | meterState
  | patDesc | patSlot | cluster | sample | queue | group | queueShaper | replGroup | replElem | replCtx
  deriving DecidableEq, Repr

/-- A window: first address, bytes of an entry, entries. -/
structure WinRow where
  win   : Win
  base  : Nat
  size  : Nat
  count : Nat

/-- The windows that stand once (Tables 6.11a and 8.1, R293, R309, Table 12.11). -/
def winRows : List WinRow := [
  ⟨.hash, 0x0001_0000_0000, 16, 4194304⟩, ⟨.stash, 0x0001_0400_0000, 16, 1024⟩, ⟨.assoc, 0x0001_1000_0000, 0x20, 4194304⟩,
  ⟨.label, 0x0001_2000_0000, 8, 1048576⟩, ⟨.nextHop, 0x0001_2080_0000, 8, 1048576⟩, ⟨.encap, 0x0001_2100_0000, 16, 524288⟩,
  ⟨.bridgeDomain, 0x0001_2180_0000, 16, 65536⟩, ⟨.ipv6Src, 0x0001_2190_0000, 16, 256⟩, ⟨.profile, 0x0001_2200_0000, 16, 4096⟩,
  ⟨.ecmp, 0x0001_2210_0000, 8, 16384⟩, ⟨.lag, 0x0001_2220_0000, 8, 256⟩, ⟨.member, 0x0001_2280_0000, 8, 1048576⟩,
  ⟨.meterProfile, 0x0001_2300_0000, 16, 1024⟩, ⟨.meterState, 0x0001_2400_0000, 16, 1048576⟩,
  ⟨.queue, 0x0001_5000_0000, 0x20, 524288⟩, ⟨.group, 0x0001_5100_0000, 0x20, 65536⟩, ⟨.queueShaper, 0x0001_5120_0000, 16, 16384⟩,
  ⟨.replGroup, 0x0001_5140_0000, 16, 65536⟩, ⟨.replElem, 0x0001_5150_0000, 8, 1048576⟩, ⟨.replCtx, 0x0001_51E0_0000, 16, 262144⟩]

/-- The windows of an engine cluster, by offset in its 1 MiB. -/
def engRows : List WinRow := [
  ⟨.patDesc, 0, 8, 8192⟩, ⟨.patSlot, 0x1_0000, 32, 8192⟩, ⟨.cluster, 0x8_0000, 8, 16384⟩, ⟨.sample, 0xC_0000, 16, 4096⟩]

/-- The window at address `a`, the entry and the byte within it. -/
def winOf (a : Nat) : Option (Win × Nat × Nat) :=
  let pick (l : List WinRow) (o : Nat) : Option (Win × Nat × Nat) :=
    l.findSome? (fun r => if r.base ≤ o ∧ o < r.base + r.size * r.count then some (r.win, (o - r.base) / r.size, (o - r.base) % r.size) else none)
  if 0x0001_3000_0000 ≤ a ∧ a < 0x0001_3080_0000 then
    (pick engRows ((a - 0x0001_3000_0000) % 0x0010_0000)).map (fun x => (x.1, 65536 * ((a - 0x0001_3000_0000) / 0x0010_0000) + x.2.1, x.2.2))
  else pick winRows a

/-- Table HBM below the firmware region (R270). -/
def inTableHbm (a : Nat) : Bool := decide (0x0100_0000_0000 ≤ a) && decide (a < 0x0100_0000_0000 + 32704 * 1048576)

/-- The firmware region of table HBM (R60). -/
def inFwRegion (a : Nat) : Bool := decide (0x0100_0000_0000 + 32704 * 1048576 ≤ a) && decide (a < 0x0108_0000_0000)

/-- A buffer pseudo-channel's window (R270). -/
def inBufferHbm (a : Nat) : Bool := decide (0x0200_0000_0000 ≤ a) && decide (a < 0x0200_0000_0000 + 384 * 2 ^ 28)

/-- The shaper state of a port node, beside its scheduling word: node and which word. -/
def portShaperWord (a : Nat) : Option (Nat × Bool) :=
  if 0x5006_0000 ≤ a ∧ a < 0x5006_4000 ∧ 0x10 ≤ a % 0x20 then some ((a - 0x5006_0000) / 0x20, a % 0x20 == 0x10) else none

/-! ### Composed words (R293, Tables 12.1, 12.4, 12.11) -/

/-- The 192 state bits of queue `q` (Table 12.1). -/
def State.queueBits (s : State) (q : Nat) : Nat :=
  let x := s.queue q
  let head := match x.recs with | r :: _ => r.start | [] => (0, 0)
  let tail := match x.open_ with
    | some (h, o) => (h, if 2016 ≤ o then 63 else o / 32)
    | none => (((x.recs.getLast?).bind (fun r => r.bufs.getLast?)).getD 0, 63)
  2 ^ 165 * head.1 + 2 ^ 159 * (head.2 / 32) + (if x.recs.isEmpty && x.open_.isNone then 0 else 2 ^ 132 * tail.1 + 2 ^ 126 * tail.2)
    + 2 ^ 94 * (x.bytes / 32 % 2 ^ 32) + 2 ^ 64 * (x.recs.length % 2 ^ 30) + 2 ^ 48 * (s.qGroup q).getD 0 + 2 ^ 36 * s.qProfile q + 2 ^ 34 * s.qKind q
    + 2 ^ 33 * b2n (s.qClosed q) + 2 ^ 32 * b2n x.open_.isSome + 2 ^ 14 * ofSigned 18 x.deficit + 2 ^ 4 * x.headMs

/-- The 128 bits of a shaper state (Table 12.4). -/
def Shaper.bits (x : Shaper) : Nat :=
  2 ^ 92 * ofSigned 36 x.cb + 2 ^ 56 * ofSigned 36 x.pb + 2 ^ 36 * (x.last % 2 ^ 20) + 2 ^ 24 * (x.profile % 2 ^ 12) + 2 ^ 6 * ofSigned 18 x.deficit

/-- The 128 bits of a replication context (Table 12.11). -/
def State.ctxBits (s : State) (c : Nat) : Nat :=
  let x := s.repl c
  if x = ReplCtx.free then 0
  else 2 ^ 127 + 2 ^ 126 * b2n x.walking + 2 ^ 99 * (x.chain.headD 0 % 2 ^ 27) + 2 ^ 79 * (x.remaining % 2 ^ 20) + 2 ^ 63 * (x.d.stamp.dest % 2 ^ 16) + 2 ^ 62 * (x.stage % 2)

/-- Word `w` of `n` words, the first the most significant. -/
def wordOf (v n w : Nat) : Nat := v / 2 ^ (64 * (n - 1 - w)) % 2 ^ 64

/-! ### Reads -/

/-- A stored table word as a window shows it: while the current epoch is odd, VIC and VIN exchange their places (R339). -/
def State.tblShown (s : State) (a : Nat) : Nat :=
  let w := tblWord s.mem a
  match if s.curOdd then s.visEntry a else none with
  | some (_, vic) => setBits w (vic - 1) 2 (b2n (bit w (vic - 1)) * 2 + b2n (bit w vic))
  | none => w

/-- What a read of window word `a` returns. -/
def State.winRead (s : State) (a : Nat) : Word :=
  BitVec.ofNat 64 (match winOf a with
    | some (.queue, q, o) => if o = 0x18 then s.qWord q 3 % 2 ^ 16 else wordOf (s.queueBits q) 3 (o / 8)
    | some (.group, g, o) => if o = 0 then s.grpWord g else if o = 0x18 then 0 else wordOf (s.shaper 1 g).bits 2 (o / 8 - 1)
    | some (.queueShaper, i, o) => wordOf (s.shaper 0 i).bits 2 (o / 8)
    | some (.replCtx, c, o) => wordOf (s.ctxBits c) 2 (o / 8)
    | some (.assoc, _, 0x10) => let r := a - 0x10; tblWord s.mem a + Config.rowParity [tblWord s.mem r, tblWord s.mem (r + 8), tblWord s.mem a, tblWord s.mem (r + 0x18)] % 4
    | some _ => s.tblShown a
    | none => 0)

/-- What a read of register `a` returns (Table 0.4): write-only fields read zero, epoch-banked words the current copy (R340). -/
def State.regShown (s : State) (d : RegDesc) (a : Nat) : Word :=
  d.fields.foldl (fun w f => if f.acc == .wo then putField f.field 0 w else w) (if a = Reg.timeNow then s.reg a else s.regPar s.curOdd a)

/-- Whether `a` lies in the line registers of a lane position whose port does not exist, because a wider port took the lane (R63). -/
def State.covered (s : State) (a : Nat) : Bool :=
  let foreign (p : Nat) : Bool := match s.laneOwner p with | some q => q != p | none => false
  if 0x1000_0000 ≤ a ∧ a < 0x1006_0000 then foreign ((a - 0x1000_0000) / 0x1000)
  else if 0x1020_0000 ≤ a ∧ a < 0x1080_0000 then foreign ((a - 0x1020_0000) / 0x1_0000) else false

/-- The register at `a`, when it exists. -/
def State.regAt (s : State) (a : Nat) : Option RegDesc := if s.covered a then none else findReg a

/-- The value of word `a` of the management address space; an address that maps to nothing reads as zero (Table 17.7). -/
def State.mgmtRead (s : State) (a : Nat) : Word :=
  if a % 8 ≠ 0 then 0 else
  match s.regAt a with
  | some d => if a = Reg.epochBankSelNext then s.regPar (!s.curOdd) Reg.epochBankSel else s.regShown d a
  | none =>
    match portShaperWord a with
    | some (n, hi) => BitVec.ofNat 64 (wordOf (s.shaper 2 n).bits 2 (b2n (!hi)))
    | none =>
      if (winOf a).isSome then s.winRead a
      else if inTableHbm a then BitVec.ofNat 64 (s.tblShown a)
      else 0

/-! ### Formats -/

/-- Whether a short result has an OP of Table 6.2 and an ARG in its range (R132). -/
def shortOk (r : Nat) : Bool :=
  let a := bits r 31 0
  match bits r 47 44 with
  | 0 => a == 0
  | 1 => decide (a < 2 ^ 20)
  | 2 => decide (a < 2 ^ 14)
  | 3 => decide (a < 2 ^ 8)
  | 4 => decide (a < 2 ^ 19) && decide (a % 128 < 96)
  | 5 => decide (a < 2 ^ 20)
  | 6 => decide (a < 2 ^ 16)
  | 7 => decide (a < 2 ^ 16)
  | 8 => decide (a < 2 ^ 16)
  | 9 => true
  | _ => false

/-- The bits of word `o` of an entry that the format assigns; reserved bits ignore writes (R10). -/
def Win.mask (x : Win) (o : Nat) : Nat :=
  match x, o with
  | .assoc, 0x10 => 0xFFFF_FFFF_0000_0000
  | .assoc, 0x18 => 0xE000_0FFF_000F_FFFF
  | .label, _ => 0xFFFF_FFFF_FFFF_FFC0
  | .encap, 8 => 0xFFFF_FFFF_FFFF_FFE0
  | .bridgeDomain, 0 => 0xFFFF_FFFF_FFFF_0000
  | .bridgeDomain, _ => 0
  | .profile, 0 => 0xFEFF_FFFF_FFFF_FFFF
  | .profile, _ => 0xFF80_0000_0000_0000
  | .ecmp, _ => 0xFFFF_FFFF_FC00_0000
  | .lag, _ => 0xFFFF_FFFF_FC00_0000
  | .member, _ => 0x0000_0000_00CF_FFFF
  | .meterProfile, 8 => 0xFFFF_FFFF_FFF8_0000
  | .patDesc, _ => 0xFFFF_FFFF_E000_0000
  | .group, 0 => 0xFFFF_FFFF_FFFF_FFF8
  | .queue, 0x18 => 0xFFFF
  | .queue, 0x10 => 0x0000_FFFC_0000_0000
  | .replGroup, 0 => 0xFFFF_FFFF_FF80_0000
  | .replGroup, _ => 0
  | .replElem, _ => 0xFFFF_FFFF_FFFF_FFFC
  | _, _ => 0xFFFF_FFFF_FFFF_FFFF

/-- A word with its reserved bits cleared. -/
def Win.clean (x : Win) (o w : Nat) : Nat := w &&& x.mask o

/-- Whether the fields of word `o` of an entry lie in the ranges its format gives; an entry without VALID is in any case. -/
def Win.ok (x : Win) (o w : Nat) : Bool :=
  match x, o with
  | .label, _ => !bit w 63 || decide (bits w 60 58 ≤ 3)
  | .nextHop, _ => !bit w 63 || (match bits w 60 59 with
      | 0 => decide (bits w 6 0 < 96) | 1 => decide (bits w 18 0 < 16384) | 2 => decide (bits w 18 0 < 256) | _ => decide (bits w 18 0 < 65536))
  | .encap, 0 => !bit w 63 || decide (bits w 54 52 ≤ 4)
  | .bridgeDomain, 0 => !bit w 63 || (decide (bits w 51 50 ≠ 3) && decide (bits w 49 48 ≠ 3))
  | .profile, 0 => decide (bits w 36 35 ≠ 3)
  | .ecmp, _ => !bit w 63 || (decide (1 ≤ bits w 38 26) && decide (bits w 38 26 ≤ 4096) && decide (bits w 58 39 + bits w 38 26 ≤ 1048575))
  | .lag, _ => !bit w 63 || (decide (1 ≤ bits w 38 26) && decide (bits w 38 26 ≤ 256) && decide (bits w 58 39 + bits w 38 26 ≤ 1048575))
  | .member, _ => decide (bits w 23 22 ≠ 3) && (bits w 23 22 != 2 || (decide (bits w 19 0 < 2 ^ 19) && decide (bits w 6 0 < 96)))
  | .meterProfile, 0 => decide (1 ≤ bits w 63 32) && decide (bits w 63 32 ≤ 4000000000) && decide (bits w 63 32 ≤ bits w 31 0) && decide (bits w 31 0 ≤ 4000000000)
  | .meterProfile, _ => decide (1 ≤ bits w 63 44) && decide (1 ≤ bits w 43 24) && decide (bits w 22 21 ≤ 1) && decide (bits w 20 19 ≤ 1)
  | .queue, 0x10 => decide (bits w 35 34 ≠ 3)
  | .queue, 0x18 => bits w 13 4 == 0 || bits w 15 14 == 0
  | .group, 0 => !bit w 63 || (decide (bits w 62 44 + bits w 43 38 < 524288) && (bits w 26 17 == 0 || bits w 28 27 == 0))
  | .replElem, _ => !bit w 63 || bit w 62 || decide (bits w 55 49 < 96)
  | _, _ => true

/-! ### Writes by the image (R42) -/

/-- A meter state written by the image or a batch (R153): only PROFILE is taken, both buckets are filled, and LAST is now. -/
def State.meterLoad (s : State) (fw : Bool) (m prof : Nat) : State :=
  let p := tbl128 s.mem (meterProfAddr prof)
  s.put128 fw (meterAddr m) (2 ^ 76 * (2 ^ 24 * bits p 63 44) + 2 ^ 32 * (2 ^ 24 * bits p 43 24) + 2 ^ 10 * (s.time.stepFree / 1024 % 2 ^ 22) + prof)

/-- The PROFILE of shaper `i` of a kind, set by the image. -/
def State.shaperProfile (s : State) (kind i w : Nat) : State := s.setShaper kind i { s.shaper kind i with profile := bits w 35 24 }

/-- Word `w` written to window word `a` by the image: the table holds it and so does the firmware's shadow; state words that only hardware writes ignore it. -/
def State.winLoad (s : State) (a w : Nat) : State :=
  match winOf a with
  | some (.meterState, m, o) => if o = 8 then s.meterLoad true m (bits w 9 0) else s
  | some (.queueShaper, i, o) => if o = 8 then s.shaperProfile 0 i w else s
  | some (.replCtx, _, _) => s
  | some (.sample, _, _) => s
  | some (.group, g, o) => if o = 0 then s.put true a (Win.group.clean 0 w) else if o = 0x10 then s.shaperProfile 1 g w else s
  | some (.queue, _, o) => if o = 0x18 ∨ o = 0x10 then s.put true a (Win.queue.clean o w) else s
  | some (x, _, o) => s.put true a (x.clean o w)
  | none => s

/-- What a word of the image does to a register: IMG and RW fields take it, in both copies of an epoch-banked word (R42, R340); so does EPOCH_BANK_SEL, which the image sets too. -/
def State.regLoad (s : State) (d : RegDesc) (a : Nat) (w : Word) : State :=
  let set (old : Word) : Word := d.fields.foldl (fun acc f => if f.acc == .img || f.acc == .rw || a = Reg.epochBankSel then putField f.field (getField f.field w) acc else acc) old
  let s := s.setReg a (set (s.reg a))
  if (bankedLow a).isSome then { s with bankOdd := mput resetOf s.bankOdd a (set (s.oddCopy a)) } else s

/-- Whether a register word keeps what ties its fields together: short results in format (Table 6.2), no error action 3 (R117), and a comparator's field within the batt (RANGE_CMP). -/
def crossOk (a w : Nat) : Bool :=
  let o := a % 0x10_0000
  !(0x2000_0000 ≤ a && a < 0x20C0_0000) ||
    (if (0x2_0000 ≤ o && o < 0x2_0100 && o % 0x20 == 8) || (0x4_0000 ≤ o && o < 0x4_0080 && o % 0x20 == 8) || (0x3_1000 ≤ o && o < 0x3_2000) then shortOk w
     else if 0x3_0000 ≤ o && o < 0x3_1000 then decide (bits w 60 51 + bits w 50 47 ≤ 1023)
     else if 0x100 ≤ o && o < 0x180 && o % 0x10 == 0 then (List.range 9).all (fun c => decide (bits w (19 + 2 * c) (18 + 2 * c) ≠ 3))
     else true)

/-- Whether every IMG and RW field of a register's word from the image is in its range (R7). -/
def RegDesc.imageOk (d : RegDesc) (a : Nat) (w : Word) : Bool := crossOk a w.toNat && d.fields.all (fun f => !(f.acc == .img || f.acc == .rw) || f.ok (getField f.field w))

/-- The addresses a section may write (Table 2.4). -/
def sectionMay (type a : Nat) : Bool :=
  let reg := (findReg a).isSome
  let between (lo hi : Nat) := decide (lo ≤ a) && decide (a < hi)
  match type with
  | 0x0002 => reg && between 0 0x1000_0000
  | 0x000A => reg && between 0 0x1000_0000
  | 0x0003 => reg && between 0x1000_0000 0x2000_0000
  | 0x0004 => reg && between 0x2000_0000 0x3000_0000
  | 0x0005 => reg && between 0x3000_0000 0x4000_0000
  | 0x0006 => (reg && between 0x4000_0000 0x5000_0000) || (match winOf a with | some (.patDesc, _, _) => true | some (.patSlot, _, _) => true | _ => false)
  | 0x0007 => (reg && between 0x5000_0000 0x6000_0000) || (portShaperWord a).isSome || (match winOf a with
      | some (.queue, _, o) => o == 0x10 || o == 0x18
      | some (.group, _, o) => o == 0 || o == 0x10
      | some (.queueShaper, _, o) => o == 8
      | _ => false)
  | 0x0008 => reg && between 0x6000_0000 0x7000_0000
  | 0x0009 => reg && between 0x7000_0000 0x8000_0000
  | 0x0010 => (winOf a).isSome
  | 0x0011 => inTableHbm a
  | 0x0012 => (match winOf a with | some (.assoc, _, _) => true | _ => false)
  | _ => false

/-- A word of a section of type `type` applied at `a` (R42): the new state, or the reason it is refused. -/
def State.imageWord (s : State) (type a : Nat) (w : Word) : Except Nat State :=
  if !sectionMay type a then .error 0x0B
  else
    match findReg a with
    | some d => if d.imageOk a w then .ok (s.regLoad d a w) else .error 0x0C
    | none =>
      match portShaperWord a with
      | some (n, hi) => .ok (if hi then s else s.shaperProfile 2 n w.toNat)
      | none =>
        match winOf a with
        | some (x, i, o) => if (x = .profile ∧ i = 0) ∨ !x.ok o w.toNat then .error 0x0C else .ok (s.winLoad a w.toNat)
        | none => .ok (s.put true a w.toNat)

end Sys2Proof.Machine
end

