-- ==== Sys2Proof/Machine/Image.lean ====
section
/-! DEFINITION. What the loader checks of a configuration as a whole (check 8 of R48): the rules of the chapters that refuse an image
with reason 0x0C, or 0x0B for a table-HBM structure in the firmware region (R270). -/

namespace Sys2Proof.Machine

/-- The addresses in [`lo`, `hi`) of registers that hold a value of their own; the others hold the value of an image that says nothing of them. -/
def State.listed (s : State) (lo hi : Nat) : List Nat := (s.regs.map (fun c => c.1)).filter (fun a => decide (lo ≤ a) && decide (a < hi))

/-- Whether no two of a list are equal. -/
def distinct : List Nat → Bool
  | [] => true
  | x :: l => !l.contains x && distinct l

/-- Whether two half-open ranges are apart. -/
def apart (a n b m : Nat) : Bool := decide (a + n ≤ b) || decide (b + m ≤ a)

/-- Whether the ranges of a list lie apart. -/
def allApart : List (Nat × Nat) → Bool
  | [] => true
  | x :: l => l.all (fun y => apart x.1 x.2 y.1 y.2) && allApart l

/-! ### Line (R62, R64, R78, R79, R88) -/

/-- The FEC choices of a mode (Table 3.1). -/
def fecOk (mode fec : Nat) : Bool :=
  if mode = 0 then true else if mode = 1 then decide (fec ≤ 1) else if mode = 2 then decide (fec ≤ 2) else decide (mode ≤ 11) && fec == 3

/-- The ports of the image, by their configuration words. -/
def State.imagePorts (s : State) : List Nat :=
  ((s.listed 0x1000_0000 0x1006_0000).filter (fun a => a % 0x1000 == 0)).map (fun a => (a - 0x1000_0000) / 0x1000) |>.filter (fun p => s.portMode p != 0)

/-- Ports: mode and FEC, alignment within the slice, lanes of their own, and no SecY or hatband on a FlexE PHY. -/
def State.portsOk (s : State) : Bool :=
  let ps := s.imagePorts
  ps.all (fun p =>
    let n := modeLanes (s.portMode p)
    fecOk (s.portMode p) (s.fld (Reg.linePortCfg p) Fld.linePortCfg_fec) && p % n == 0
      && !(s.flexePort p && (s.flag (Reg.macsecSecyCfg p) Fld.macsecSecyCfg_enable || s.flag (Reg.hatbandCfg p) Fld.hatbandCfg_enable))
      && decide (s.fld (Reg.macsecSecyCfg p) Fld.macsecSecyCfg_maxFrame ≤ s.fld (Reg.linePortCfg p) Fld.linePortCfg_maxFrame))
    && allApart (ps.map (fun p => (p, modeLanes (s.portMode p))))

/-- FlexE instances of a PHY's mode; none where the mode is no PHY type. -/
def flexeInst (m : Nat) : Option Nat := if m = 4 then some 1 else if m = 5 ∨ m = 6 then some 2 else if m = 7 ∨ m = 8 then some 4 else none

/-- The slots of a calendar. -/
def State.calSlots (s : State) (k : Nat) (b : Bool) : List Nat :=
  ((List.range 40).map (fun j => (List.range 8).map (fun i => bits (s.reg (if b then Reg.lineFlexeCalB k j else Reg.lineFlexeCalA k j)).toNat (8 * i + 7) (8 * i)))).flatten

/-- Whether a client may have `n` slots: 10, 40 or m × 25 Gb/s (R79). -/
def clientSlots (n : Nat) : Bool := n == 0 || n == 2 || n == 8 || (n % 5 == 0 && decide (n ≤ 320))

/-- A calendar of a group of `n` instances. -/
def calOk (l : List Nat) (n : Nat) : Bool :=
  l.all (fun v => v == 255 || decide (v < 32)) && (l.drop (20 * n)).all (fun v => v == 255)
    && (List.range 32).all (fun c => clientSlots (l.filter (fun v => v == c)).length)

/-- FlexE groups (R78, R79). -/
def State.flexeOk (s : State) : Bool :=
  (List.range 12).all (fun k =>
    let js := s.phyLanes k
    js.isEmpty ||
      (let is := js.map (fun j => flexeInst (s.portMode (8 * k + j)))
       let n := (is.map (fun i => i.getD 0)).sum
       js.all (fun j => s.flexePort (8 * k + j)) && is.all (fun i => i.isSome && i == is.headD none) && decide (n ≤ 16)
         && calOk (s.calSlots k false) n && calOk (s.calSlots k true) n))

/-! ### Parser forms (R110) -/

/-- Whether an extraction command fits a form of `len` bytes. -/
def extractOk (len c : Nat) : Bool :=
  !bit c 31 ||
    (let n := bits c 16 13 + 1
     let dst := bits c 12 6
     let last := if bits c 30 29 = 2 then dst + (bits c 28 26 - 1) * n else dst
     decide (bits c 30 29 ≠ 3) && (bits c 30 29 != 2 || decide (1 ≤ bits c 28 26)) && decide (bits c 22 17 + n ≤ len) && decide (16 ≤ dst) && decide (last + n ≤ 128))

/-- A form descriptor whose first word is at `a`. -/
def State.formOk (s : State) (a : Nat) : Bool :=
  let w0 := (s.reg a).toNat
  let w1 := (s.reg (a + 8)).toNat
  let len := bits w0 62 56
  !bit w0 63 ||
    (decide (1 ≤ len) && decide (len ≤ 64) && decide (bits w0 55 53 ≤ 4) && decide (bits w0 52 51 ≤ 2) && decide (bits w0 48 46 ≤ 2)
      && (!bit w1 63 || decide (1 ≤ bits w1 45 42))
      && (List.range 4).all (fun i => let w := (s.reg (a + 16 + 8 * i)).toNat; extractOk len (bits w 63 32) && extractOk len (bits w 31 0)))

/-- Every form of every slice. -/
def State.formsOk (s : State) : Bool :=
  (List.range 12).all (fun k => ((s.listed (Reg.parserFormWord k 0 0) (Reg.parserFormWord k 255 0)).filter (fun a => a % 0x80 == 0)).all s.formOk)

/-! ### Classification chains and keys (R134 to R136, R166, R193) -/

/-- The chain from stage `st` on: every NEXT beyond its own stage, at most `h` more hash stages and `f` more flow stages on any path. -/
def State.chainOk (s : State) (k : Nat) : Nat → Nat → Nat → Nat → Bool
  | 0, st, _, _ => st == 15
  | fuel + 1, st, h, f =>
    if st = 15 then true
    else if 7 < st then false
    else
      let r := Reg.classStageCfg k st
      let t := s.fld r Fld.classStageCfg_type
      let a := s.fld r Fld.classStageCfg_nextHit
      let b := s.fld r Fld.classStageCfg_nextMiss
      decide (st < a) && decide (st < b) && !(t == 1 && h == 0) && !(t == 2 && f == 0)
        && s.chainOk k fuel a (if t = 1 then h - 1 else h) (if t = 2 then f - 1 else f)
        && s.chainOk k fuel b (if t = 1 then h - 1 else h) (if t = 2 then f - 1 else f)

/-- The chains of every port. -/
def State.chainsOk (s : State) : Bool :=
  s.imagePorts.all (fun p =>
    let r := Reg.classPortCfg (p / 8) (p % 8)
    let h := if s.flag (Reg.ditPortCfg (p / 8) (p % 8)) Fld.ditPortCfg_bridge then 2 else 4
    s.chainOk (p / 8) 9 (s.fld r Fld.classPortCfg_firstStage) h 1 && s.chainOk (p / 8) 9 (s.fld r Fld.classPortCfg_recircStage) h 1)

/-- The segments of two key words. -/
def keySegs (w0 w1 : Nat) : List Nat := (List.range 4).map (fun i => bits w0 (16 * i + 15) (16 * i)) ++ (List.range 4).map (fun i => bits w1 (16 * i + 15) (16 * i))

/-- Whether a segment's source exists and holds it; SRC 2 only in associative keys. -/
def segOk (assoc : Bool) (g : Nat) : Bool :=
  let n := bits g 6 2
  n == 0 || (decide (n ≤ 16) && (match bits g 15 14 with
    | 0 => decide (bits g 13 7 + n ≤ 128) | 1 => decide (bits g 13 7 + n ≤ 64) | 2 => assoc && decide (bits g 13 7 + n ≤ 4) | _ => false))

/-- Whether a key fits a table of `width` bytes. -/
def keyOk (assoc : Bool) (w0 w1 width : Nat) : Bool :=
  (keySegs w0 w1).all (segOk assoc) && decide (((keySegs w0 w1).map (fun g => bits g 6 2)).sum ≤ width)

/-- The keys and miss results of every stage and search. -/
def State.keysOk (s : State) : Bool :=
  (List.range 12).all (fun k =>
    ((s.listed (Reg.classStageCfg k 0) (Reg.classStageCfg k 8)).filter (fun a => a % 0x20 == 0)).all (fun a =>
      let t := s.fld a Fld.classStageCfg_type
      let n := s.fld a Fld.classStageCfg_table
      shortOk (s.reg (a + 8)).toNat && (t != 1 && t != 2 ||
        keyOk false (s.reg (a + 16)).toNat (s.reg (a + 24)).toNat (if t = 1 then widthBytes (s.fld (Reg.emhashTableCfg n) Fld.emhashTableCfg_width) else s.fld (Reg.flowTableCfg (n % 16)) Fld.flowTableCfg_keyLen)))
    && ((s.listed (Reg.assocSearch k 0) (Reg.assocSearch k 4)).filter (fun a => a % 0x20 == 0 && s.flag a Fld.assocSearch_valid)).all (fun a =>
      let t := Reg.assocTableCfg (s.fld a Fld.assocSearch_table)
      let u := Reg.assocTableCfg (s.fld a Fld.assocSearch_tableAlt)
      shortOk (s.reg (a + 8)).toNat && keyOk true (s.reg (a + 16)).toNat (s.reg (a + 24)).toNat (10 * 2 ^ s.fld t Fld.assocTableCfg_width)
        && (!s.flag a Fld.assocSearch_altValid || (s.fld t Fld.assocTableCfg_kind == s.fld u Fld.assocTableCfg_kind && s.fld t Fld.assocTableCfg_width == s.fld u Fld.assocTableCfg_width
            && s.fld t Fld.assocTableCfg_resultMode == s.fld u Fld.assocTableCfg_resultMode)))
    && (s.listed (Reg.rangeResult k 0) (Reg.rangeResult k 512)).all (fun a => shortOk (s.reg a).toNat))

/-! ### Associative arrays and static rows (Table 7.2, R163 to R165, R169 to R172) -/

/-- The arrays the image puts in service. -/
def State.arraysOn (s : State) : List Nat :=
  ((s.listed (Reg.assocPartHi 0) (Reg.assocPartHi 128)).filter (fun a => a % 0x40 == 0)).map (fun a => (a - Reg.assocPartHi 0) / 0x40) |>.filter (fun a => bit (s.part a) 127)

/-- A partition descriptor. -/
def State.partOk (s : State) (a : Nat) : Bool :=
  let v := s.part a
  let t := Reg.assocTableCfg (bits v 126 121)
  let n := 2 ^ s.fld t Fld.assocTableCfg_width
  let lpm := s.fld t Fld.assocTableCfg_kind == 1
  let lo := bits v 88 81
  let hi := bits v 80 73
  let lead := bits v 60 54
  let base := bits v 72 61
  let vrole := bits v 52 51
  let same (x : Nat) : Bool := bit (s.part x) 127 && bits (s.part x) 126 121 == bits v 126 121
  (if lpm then decide (lo ≤ hi) && decide (hi ≤ 128) && decide (base + hi ≤ 4095) else lo == 0 && hi == 0 && base == 0)
    && decide (vrole ≠ 3) && decide (lead ≤ a) && (lead == a || bit v 53 || vrole == 2 || (same lead && bits (s.part lead) 120 61 == bits v 120 61))
    && (if a % n = 0 then !bit v 53 && (vrole != 2 || (decide (n ≤ a % 8) && same (a - n) && decide (1 ≤ bits (s.part (a - n)) 52 51))) else bit v 53 && same (a - a % n))

/-- The valid rows of an array: row and control word. -/
def State.rowsOf (s : State) (a : Nat) : List (Nat × Nat) :=
  (wordsOf (s.mem.filter (fun c => decide (rowAddr a 0 ≤ c.1) && decide (c.1 < rowAddr (a + 1) 0))) none).filterMap (fun w =>
    if (validWordArray w).isSome && bit (tblWord s.mem w) 63 then some ((w - rowAddr a 0) / 0x20, tblWord s.mem w) else none)

/-- Whether priorities never rise along a list of control words. -/
def neverRises : List Nat → Bool
  | x :: y :: l => decide (bits y 43 32 ≤ bits x 43 32) && neverRises (y :: l)
  | _ => true

/-- Whether a row's RESULT gives a short result in the formats of Table 6.2, or an index in the indirect store (R169). -/
def State.rowResultOk (s : State) (t res : Nat) : Bool :=
  let tm := (s.reg (Reg.assocTableTemplate t)).toNat
  match s.fld (Reg.assocTableCfg t) Fld.assocTableCfg_resultMode with
  | 0 => shortOk (2 ^ 20 * bits tm 47 20 + res)
  | 1 => bits res 15 12 == 0 && shortOk (2 ^ 44 * bits res 19 16 + bits tm 31 0)
  | 2 => decide (res + bits tm 21 0 ≤ 4194303)
  | _ => false

/-- Whether a row of array `a` lies where its partition puts it, at the priority the table's kind allows, with a result in format (R163, R169). -/
def State.rowOk (s : State) (a r ctl : Nat) : Bool :=
  let v := s.part a
  let t := bits v 126 121
  let pm := bits v 104 89
  let m := rowMask s.mem a r / 2 ^ 64
  let pr := bits ctl 43 32
  (m &&& pm) == pm && (rowValue s.mem a r / 2 ^ 64 &&& pm) == (bits v 120 105 &&& pm)
    && (s.fld (Reg.assocTableCfg t) Fld.assocTableCfg_kind != 1 || (decide (bits v 88 81 + bits v 72 61 ≤ pr) && decide (pr ≤ bits v 80 73 + bits v 72 61)))
    && s.rowResultOk t (bits ctl 19 0)

/-- Partition descriptors, and the rows of every array that heads a unit. -/
def State.assocOk (s : State) : Bool :=
  let on := s.arraysOn
  on.all s.partOk
    && (on.filter (fun a => !bit (s.part a) 53)).all (fun a =>
      (s.rowsOf a).all (fun x => s.rowOk (s.chainHead a) x.1 x.2 || (bits (s.part a) 52 51 == 2 && s.rowResultOk (s.partTable a) (bits x.2 19 0))))
    && (on.filter (fun a => !bit (s.part a) 53 && bits (s.part a) 52 51 != 2)).all (fun a =>
      neverRises (((s.unitList (s.partTable a) a).map (fun u => (s.rowsOf u).map (fun x => x.2))).flatten))
    && (on.filter (fun a => !bit (s.part a) 53)).all (fun a =>
      let l := bits (s.part a) 60 54
      let rows (b : Nat) := (s.rowsOf b).map (fun x => (x.1, x.2, rowValue s.mem b x.1, rowMask s.mem b x.1))
      l == a || bits (s.part a) 52 51 == 2 || (List.range (s.cascade (s.partTable a))).all (fun j => rows (a + j) == rows (l + j)))

/-- Whether a result stands in hash table `t` (R132, R138): in an aged table its low 32 bits with AGED_OP, in a learning table any. -/
def State.hashResOk (s : State) (t res : Nat) : Bool :=
  let c := Reg.emhashTableCfg t
  if s.flag c Fld.emhashTableCfg_aged then s.flag (Reg.tableAgeCfg t) Fld.tableAgeCfg_learnTable || shortOk (2 ^ 44 * s.fld c Fld.emhashTableCfg_agedOp + res % 2 ^ 32)
  else shortOk res

/-- Every hash entry of the image: a width of Table 6.5, and a result that stands in its table. -/
def State.hashOk (s : State) : Bool :=
  (allHeads s.mem).all (fun a =>
    let h := tbl128 s.mem a
    decide (bits h 126 125 ≠ 3) && s.hashResOk (bits h 119 112) (h / 2 ^ 64 % 2 ^ 48))

/-! ### Meters (R150) -/

/-- Whether meter profile `i` is in range with bursts of at least 2.048 µs at its rates, or has never been written. -/
def meterProfOk (m : List Host.Cell) (i : Nat) : Bool :=
  let hi := tblWord m (meterProfAddr i)
  let lo := tblWord m (meterProfAddr i + 8)
  (hi == 0 && lo == 0) || (Win.meterProfile.ok 0 hi && Win.meterProfile.ok 8 lo
    && decide (2048 * bits hi 63 32 ≤ 1000000000 * bits lo 63 44) && decide (2048 * bits hi 31 0 ≤ 1000000000 * bits lo 43 24))

/-- Every meter profile of the image. -/
def State.metersOk (s : State) : Bool :=
  (wordsOf (s.mem.filter (fun c => decide (meterProfAddr 0 ≤ c.1) && decide (c.1 < meterProfAddr 1024))) none).all (fun a => meterProfOk s.mem ((a - meterProfAddr 0) / 16))

/-! ### Forwarding tables (R188, R198, R199) -/

/-- The flow tables, as (BASE in bytes, bytes in each stack). -/
def State.flowRanges (s : State) : List (Nat × Nat) :=
  ((List.range 16).filter (fun f => s.flag (Reg.flowTableCfg f) Fld.flowTableCfg_valid)).map (fun f =>
    (1048576 * s.fld (Reg.flowTableCfg f) Fld.flowTableCfg_base, 512 * 2 ^ (s.fld (Reg.flowTableCfg f) Fld.flowTableCfg_log2Buckets - 1)))

/-- Flow tables lie apart and total at most 8,388,608 buckets. -/
def State.flowOk (s : State) : Bool := allApart s.flowRanges && decide ((s.flowRanges.map (fun x => x.2 / 256)).sum ≤ 8388608)

/-- Whether hash table `t` has the layout of a MAC table (R198). -/
def State.macTableOk (s : State) (t : Nat) : Bool :=
  let c := Reg.emhashTableCfg t
  s.fld c Fld.emhashTableCfg_width == 0 && s.flag c Fld.emhashTableCfg_aged && s.fld c Fld.emhashTableCfg_agedOp == 1

/-- The bridge domains of the image that learn name a MAC table. -/
def State.bridgesOk (s : State) : Bool :=
  (wordsOf (s.mem.filter (fun c => decide (bdAddr 0 ≤ c.1) && decide (c.1 < bdAddr 65536))) none).all (fun a =>
    a % 16 != 0 || (let w := tblWord s.mem a; !bit w 63 || !bit w 52 || s.macTableOk (bits w 60 53)))

/-- Whether encapsulation entry `i` has the extensions its KIND needs, with its GEN (R188). -/
def encapOk (m : List Host.Cell) (i : Nat) : Bool :=
  let w := tblWord m (encapAddr i)
  let ext (j : Nat) : Bool := let x := tblWord m (encapAddr (i + j)); bit x 63 && bits x 54 52 == 4 && bits x 62 55 == bits w 62 55
  !bit w 63 || (match bits w 54 52 with | 2 => ext 1 | 3 => ext 1 && ext 2 | _ => true)

/-- Every encapsulation entry of the image. -/
def State.encapsOk (s : State) : Bool :=
  (wordsOf (s.mem.filter (fun c => decide (encapAddr 0 ≤ c.1) && decide (c.1 < encapAddr 524288))) none).all (fun a => a % 16 != 0 || encapOk s.mem ((a - encapAddr 0) / 16))

/-! ### Engine programs (R220, R225 to R228) -/

/-- Whether a 32-bit instruction is one of Table 9.5 in its format, with a branch target in [`lo`, `hi`) and a verdict of Table 9.6. -/
def engineInsOk (w lo hi : Nat) : Bool :=
  let op := bits w 31 26
  let target := decide (lo ≤ bits w 11 0) && decide (bits w 11 0 < hi) && bits w 17 12 == 0
  if (1 ≤ op ∧ op ≤ 0x0A) ∨ op = 0x22 then bits w 13 0 == 0
  else if op = 0x0B then bits w 17 0 == 0
  else if (0x10 ≤ op ∧ op ≤ 0x15) ∨ op = 0x20 ∨ op = 0x21 then true
  else if op = 0x16 ∨ op = 0x17 then bits w 21 18 == 0
  else if 0x30 ≤ op ∧ op ≤ 0x33 then target
  else if op = 0x34 then target && bits w 25 18 == 0
  else if op = 0x35 then target
  else if op = 0x36 then bits w 25 0 == 0
  else if op = 0x38 then bits w 13 10 == 0
  else if op = 0x39 then bits w 17 10 == 0
  else if op = 0x3C then decide (bits w 25 22 ≤ 3) && !bit w 20 && decide (bits w 19 18 ≠ 3) && (bits w 25 22 != 3 || decide (bits w 15 0 < 96))
  else if op = 0x3D ∨ op = 0x3E then bits w 25 0 == 0
  else false

/-- Instruction `i` of the program store of cluster `c`. -/
def State.engineIns (s : State) (c i : Nat) : Nat :=
  let w := (s.reg (Reg.engineStoreWord c (i / 2))).toNat
  if i % 2 = 0 then bits w 63 32 else bits w 31 0

/-- The programs of the image: where they lie in the store, and that every instruction stands. -/
def State.programsOk (s : State) : Bool :=
  let ps := ((s.listed (Reg.engineProg 0) (Reg.engineProg 255)).filter (fun a => s.flag a Fld.engineProg_valid))
  let lo (a : Nat) := s.fld a Fld.engineProg_entry
  let n (a : Nat) := s.fld a Fld.engineProg_length
  let cs (a : Nat) := (List.range 8).filter (fun c => bit (s.fld a Fld.engineProg_clusters) c)
  ps.all (fun a => decide (lo a + n a ≤ 4096) && (cs a).all (fun c => (List.range (n a)).all (fun i => engineInsOk (s.engineIns c (lo a + i)) (lo a) (lo a + n a))))
    && (List.range 8).all (fun c => allApart ((ps.filter (fun a => (cs a).contains c)).map (fun a => (lo a, n a))))

/-! ### Traffic (R242, R257, R292, R295, R297) -/

/-- Spare requesters have no quota. -/
def State.quotasOk (s : State) : Bool :=
  (List.range 7).all (fun i => s.fld (Reg.trafficQuota (17 + i)) Fld.trafficQuota_ondieQuota == 0 && s.fld (Reg.trafficQuota (17 + i)) Fld.trafficQuota_hbmQuota == 0)

/-- Admission profiles: red at most yellow at most green. -/
def State.admitOk (s : State) : Bool :=
  ((s.listed (Reg.trafficAdmitProfileHi 0) (Reg.trafficAdmitProfileHi 4096)).map (fun a => (a - Reg.trafficAdmitProfileHi 0) / 16)).all (fun i =>
    decide (s.limitOf i 2 ≤ s.limitOf i 1) && decide (s.limitOf i 1 ≤ s.limitOf i 0))

/-- Whether a queue that port node `n` can select lies in a group of it, or of a client of its FlexE group. -/
def State.selectOk (s : State) (n q : Nat) : Bool :=
  match s.qGroup q with
  | none => false
  | some g => s.grpNode g == n || (decide (n < 96) && s.flexePort n && decide (96 + 32 * (n / 8) ≤ s.grpNode g) && decide (s.grpNode g < 128 + 32 * (n / 8)))

/-- The queues a valid port node selects. -/
def State.selectsOk (s : State) : Bool :=
  ((s.listed (Reg.trafficSchedPort 0) (Reg.trafficSchedPort 512)).filter (fun a => a % 0x20 == 0 && s.flag a Fld.trafficSchedPort_valid)).all (fun a =>
    let n := (a - Reg.trafficSchedPort 0) / 0x20
    let b := s.fld a Fld.trafficSchedPort_qbase
    let k := if s.fld a Fld.trafficSchedPort_qselMode = 0 then 1 else s.fld a Fld.trafficSchedPort_qspan + 1
    (96 ≤ n && n < 480) || (List.range (8 * k)).all (fun i => s.selectOk n (b + i)))

/-- The egress queues of a group. -/
def State.grpMembers (s : State) (g : Nat) : List Nat := ((List.range (s.grpQueues g).2).map (fun i => (s.grpQueues g).1 + i)).filter (fun q => s.qKind q == 2)

/-- No two children of a node share a strict rank; no two queues name one shaper. -/
def State.treeOk (s : State) : Bool :=
  let gs := s.groups
  let strict (l : List Nat) (w : Nat → Nat) (r : Nat → Nat) : Bool := distinct ((l.filter (fun x => w x == 0)).map r)
  gs.all (fun g => decide (s.grpNode g < 482) && strict (s.grpMembers g) (fun q => bits (s.qWord q 3) 13 4) (fun q => bits (s.qWord q 3) 15 14))
    && (gs.map s.grpNode).all (fun n => strict (gs.filter (fun g => s.grpNode g == n)) (fun g => bits (s.grpWord g) 26 17) (fun g => bits (s.grpWord g) 28 27))
    && distinct ((gs.map (fun g => ((s.grpMembers g).filter (fun q => bit (s.qWord q 3) 3)).map (fun q => bits (s.grpWord g) 16 3 + (q - (s.grpQueues g).1)))).flatten)

/-- Queue kinds (R289): the queues of a virtual output queue block are of that kind, and an egress queue lies in one group alone. -/
def State.kindsOk (s : State) : Bool :=
  s.voqMaps.all (fun m => (List.range (8 * m.2.2 + 8)).all (fun i => s.qKind (m.2.1 + i) == 1))
    && (wordsOf (s.mem.filter (fun c => decide (0x0001_5000_0000 ≤ c.1) && decide (c.1 < 0x0001_5100_0000))) none).all (fun a =>
      let q := (a - 0x0001_5000_0000) / 0x20
      s.qKind q != 2 || (s.groups.filter (fun g => decide ((s.grpQueues g).1 ≤ q) && decide (q < (s.grpQueues g).1 + (s.grpQueues g).2))).length == 1)

/-- Shaper profiles of the image (Table 12.5). -/
def State.shapersOk (s : State) : Bool :=
  (s.listed (Reg.trafficShaperProfileHi 1) (Reg.trafficShaperProfileHi 4096)).all (fun a =>
    let i := (a - Reg.trafficShaperProfileHi 0) / 16
    profLegal (s.reg (Reg.trafficShaperProfileHi i)).toNat (s.reg (Reg.trafficShaperProfileLo i)).toNat)

/-! ### Fabric (R314) -/

/-- Link groups lie within the 120 lanes, apart. -/
def State.groupsOk (s : State) : Bool :=
  let gs := (List.range 60).filter (fun g => s.flag (Reg.fabricGroupCfg g) Fld.fabricGroupCfg_enable)
  let r := gs.map (fun g => (s.fld (Reg.fabricGroupCfg g) Fld.fabricGroupCfg_firstLane, s.fld (Reg.fabricGroupCfg g) Fld.fabricGroupCfg_lanes + 1))
  r.all (fun x => decide (x.1 + x.2 ≤ 120)) && allApart r

/-! ### Table HBM (R270) -/

/-- No structure of the image lies in the firmware region: flow tables in h1, the indirect store, the learn log, the dump ring with the export store, counter records. -/
def State.hbmPlaced (s : State) : Bool :=
  let top := 32704
  let half := 16384
  (s.flowRanges.all (fun x => decide (x.1 / 1048576 + half + ceilDiv x.2 1048576 ≤ top)))
    && decide (s.fld Reg.assocCtrl Fld.assocCtrl_indBase + 32 ≤ top) && decide (s.fld Reg.learnLogPtr Fld.learnLogPtr_base + 1 ≤ top)
    && decide (s.fld Reg.dumpCtrl Fld.dumpCtrl_base + 4112 ≤ top) && decide (s.fld Reg.dumpCtrl Fld.dumpCtrl_countBase % half + half + 112 ≤ top)

/-- Check 8 over the configuration as a whole: the reason of the first rule it breaks. -/
def State.imageFault (s : State) : Option Nat :=
  if !s.hbmPlaced then some 0x0B
  else if s.portsOk && s.flexeOk && s.formsOk && s.chainsOk && s.keysOk && s.assocOk && s.hashOk && s.metersOk && s.flowOk && s.bridgesOk && s.encapsOk && s.programsOk
    && s.quotasOk && s.admitOk && s.selectsOk && s.kindsOk && s.treeOk && s.shapersOk && s.groupsOk then none
  else some 0x0C

end Sys2Proof.Machine
end

