-- ==== Sys2Proof/Machine/Slot.lean ====
section
/-! DEFINITION. The image of a slot (R37 to R48): its header, section table and records, and checks 1 to 8. Reasons are those of Table 2.7, 0 for none. -/

namespace Sys2Proof.Machine

/-! ### Checks 1 to 3: the header (Table 2.1) -/

/-- Whether bytes `lo` to `hi` - 1 are zero. -/
def zeroBytes (b : Bytes) (lo hi : Nat) : Bool := ((b.take hi).drop lo).all (fun x => x == 0)

/-- HEADER_LENGTH, IMAGE_LENGTH and SECTION_COUNT of a header. -/
def hdrLength (h : Bytes) : Nat := beAt h 0x06 2
def imgLength (h : Bytes) : Nat := beAt h 0x08 4
def secCount (h : Bytes) : Nat := beAt h 0x1A 2

/-- Whether an image was made for minor 0, where what is reserved is zero (R39). -/
def minor0 (h : Bytes) : Bool := beAt h 0x05 1 == 0

/-- Check 2. -/
def hdrCheck2 (h : Bytes) : Nat :=
  if beAt h 0 4 ≠ 0x534B5A46 then 0x02 else if beAt h 4 1 ≠ 2 then 0x03 else if beAt h 0x0C 2 ≠ 0xF096 ∨ beAt h 0x0E 2 ≠ 0x00C1 then 0x04 else 0

/-- Whether the lengths agree, and the image lies in its slot and in a flash of `mib` MiB. -/
def hdrLengthsOk (slot mib : Nat) (h : Bytes) : Bool :=
  decide (1 ≤ secCount h) && decide (secCount h ≤ 256) && hdrLength h == 512 + 32 * secCount h && decide (hdrLength h ≤ imgLength h)
    && decide (imgLength h ≤ 67108864) && decide (67108864 * slot + imgLength h ≤ 1048576 * mib)

/-- Check 3, in its order. -/
def hdrCheck3 (slot mib : Nat) (h : Bytes) : Nat :=
  if !hdrLengthsOk slot mib h then 0x05
  else if 2 < beAt h 0x1E 1 ∨ (minor0 h ∧ (2 ≤ beAt h 0x1F 1 ∨ !zeroBytes h 0x22 0x30 ∨ !zeroBytes h 0xC1 0x1A0)) then 0x0A
  else if beAt h 0x1D 1 < 12 ∨ 120 < beAt h 0x1D 1 ∨ 64 < beAt h 0x18 2 then 0x0C
  else 0

/-- Checks 1 to 3 of slot `slot` of a flash of `mib` MiB. -/
def hdrCheck (flashOk : Bool) (slot mib : Nat) (h : Bytes) : Nat :=
  if !flashOk then 0x01 else if slot = 1 ∧ mib < 128 then 0x0E else if hdrCheck2 h ≠ 0 then hdrCheck2 h else hdrCheck3 slot mib h

/-! ### Check 4: the key (R45) -/

/-- Whether the key that `slot` names, with the hash `k`, may sign an image: programmed or permitted, not revoked, its hash equal (check 4). -/
def State.keyOkay (s : State) (slot : Nat) (k : BitVec 384) : Bool :=
  if slot ≤ 3 then s.fuses.programmed slot && !bit s.fuses.ownerRevoked slot && mget (fun _ => (0 : BitVec 384)) s.fuses.ownerHash slot == k
  else if slot = 0x80 ∨ slot = 0x81 then !s.fuses.anyOwner && !bit s.fuses.provRevoked (slot - 0x80) && Config.provHash (slot - 0x80) == k
  else false

/-- KEY_SLOT of a header. -/
def keySlot (h : Bytes) : Nat := beAt h 0x1C 1

/-! ### Check 8: the section table (R41) and the records (R42) -/

/-- An entry of the section table (Table 2.3). -/
structure Section where
  type   : Nat
  flags  : Nat
  offset : Nat
  length : Nat

/-- The section table. -/
def sectionsOf (h tbl : Bytes) : List Section :=
  (List.range (secCount h)).map (fun i => { type := beAt tbl (32 * i) 2, flags := beAt tbl (32 * i + 2) 2, offset := beAt tbl (32 * i + 4) 4, length := beAt tbl (32 * i + 8) 4 })

/-- Whether a section type is one of Table 2.4. -/
def knownType (t : Nat) : Bool := (decide (1 ≤ t) && decide (t ≤ 0x0A)) || (decide (0x10 ≤ t) && decide (t ≤ 0x12)) || t == 0x20 || t == 0x30

/-- Whether the section table stands (R39, R41, Table 2.4). -/
def sectionsOk (h tbl : Bytes) : Bool :=
  let l := sectionsOf h tbl
  let count (t : Nat) : Nat := (l.filter (fun x => x.type == t)).length
  l.all (fun x => x.offset % 64 == 0 && decide (hdrLength h ≤ x.offset) && decide (x.offset + x.length ≤ imgLength h) && (knownType x.type || bit x.flags 0)
      && (x.type != 1 || decide (x.length ≤ 8388608)) && (!minor0 h || decide (x.flags ≤ 1)))
    && (!minor0 h || (List.range (secCount h)).all (fun i => zeroBytes tbl (32 * i + 12) (32 * i + 32)))
    && allApart (l.map (fun x => (x.offset, x.length))) && count 1 == 1 && decide (count 2 ≤ 1) && decide (count 0x0A ≤ 1)

/-- The bytes of a section, `body` being the image from HEADER_LENGTH on. -/
def sectionBytes (h body : Bytes) (x : Section) : Bytes := (body.drop (x.offset - hdrLength h)).take x.length

/-- The words of `n` times 8 bytes. -/
def wordsIn : Nat → Bytes → List Word
  | 0, _ => []
  | n + 1, b => BitVec.ofNat 64 (beAt b 0 8) :: wordsIn n (b.drop 8)

/-- The records of a section up to the first that is malformed, and whether none is (Table 2.5). -/
def recordsOf (m0 : Bool) : Nat → Bytes → List WordRun × Bool
  | 0, b => ([], b.isEmpty)
  | f + 1, b =>
    if b.isEmpty then ([], true)
    else
      let kind := beAt b 0 2
      let n := beAt b 8 4
      let words := if kind = 0 then n else 1
      if 1 < kind ∨ n = 0 ∨ 16777216 < n ∨ b.length < 16 + 8 * words ∨ beAt b 2 6 % 8 ≠ 0 ∨ (m0 ∧ beAt b 12 4 ≠ 0) then ([], false)
      else
        let ws := wordsIn words (b.drop 16)
        let r := recordsOf m0 f (b.drop (16 + 8 * words))
        ({ addr := beAt b 2 6, words := if kind = 0 then ws else List.replicate n (ws.headD 0) } :: r.1, r.2)

/-- Whether a section holds records (R42). -/
def recordType (t : Nat) : Bool := knownType t && t != 1 && t != 0x20 && t != 0x30

/-- The records of an image in application order, each section's with whether its format stands. -/
def imageRecords (h tbl body : Bytes) : List (Nat × List WordRun × Bool) :=
  ((sectionsOf h tbl).filter (fun x => recordType x.type)).map (fun x =>
    let b := sectionBytes h body x
    (x.type, recordsOf (minor0 h) (b.length / 24 + 1) b))

/-- The words of a record applied in a section of type `type` from address `a` on. -/
def State.applyWords (type : Nat) : Nat → List Word → State → Except Nat State
  | _, [], s => .ok s
  | a, w :: ws, s => match s.imageWord type a w with | .ok t => State.applyWords type (a + 8) ws t | .error e => .error e

/-- Records applied in order. -/
def State.applyRuns (type : Nat) : List WordRun → State → Except Nat State
  | [], s => .ok s
  | r :: l, s => match State.applyWords type r.addr r.words s with | .ok t => State.applyRuns type l t | .error e => .error e

/-- Sections applied in order: the state, or the reason of the first record refused. -/
def State.applySections : List (Nat × List WordRun × Bool) → State → Except Nat State
  | [], s => .ok s
  | x :: l, s =>
    match State.applyRuns x.1 x.2.1 s with
    | .ok t => if x.2.2 then State.applySections l t else .error 0x0A
    | .error e => .error e

/-- Whether a section is applied only at step 9 (Table 2.8). -/
def staticType (t : Nat) : Bool := decide (0x10 ≤ t) && decide (t ≤ 0x12)

/-- The firmware section of an image. -/
def imageFirmware (h tbl body : Bytes) : Bytes := (((sectionsOf h tbl).find? (fun x => x.type == 1)).map (sectionBytes h body)).getD []

/-- Check 8 of an image over the configuration of `s`: the state with everything but the static tables applied, or the reason. The static tables are
checked with the rest and applied at step 9. -/
def State.imageApply (s : State) (h tbl body : Bytes) : Except Nat State :=
  if !sectionsOk h tbl then .error 0x0A
  else
    let l := imageRecords h tbl body
    match State.applySections l s with
    | .error e => .error e
    | .ok t => match t.imageFault with
      | some e => .error e
      | none => State.applySections (l.filter (fun x => !staticType x.1)) s

end Sys2Proof.Machine
end

