-- ==== Sys2Proof/Machine/Boot.lean ====
section
/-! DEFINITION. Reset and start-up (R34 to R61, R389, R451): cold reset, the boot ROM's two slots, training, self-test, the fabric wait and READY. -/

namespace Sys2Proof.Machine

/-! ### Cold reset -/

/-- A complete cold reset (R35): transmitters idle, keys erased, READY low, FAULT_N asserted, all other state lost; the fuses and the flash stay, and the
level of PFW_N is the board's. THERMTRIP_N and the stopped clocks outlast a reset (R389). -/
def State.coldReset (s : State) : State :=
  let t := State.cold s.fuses s.boot.flash s.pending
  { t with freeCtr := s.freeCtr, pins := { t.pins with pfwLow := s.pins.pfwLow, thermtrip := s.pins.thermtrip, clocksStopped := s.pins.clocksStopped } }

/-- PWR_GOOD_LOW (R34, R389, R451): also ends THERMTRIP. -/
def pwrGoodLow (ns : Nat) (railLow : Bool) (s : State) : State :=
  if 100 ≤ ns ∨ railLow then let t := s.coldReset; { t with pins := { t.pins with thermtrip := false, clocksStopped := false } } else s

/-- RST_N_LOW (R35): a low pulse under 100 ns is ignored. -/
def rstNLow (ns : Nat) (s : State) : State := if 100 ≤ ns then s.coldReset else s

/-- Sets BOOT_STATUS.STEP. -/
def State.setStep (s : State) (n : Nat) : State := s.setFld Reg.bootStatus Fld.bootStatus_step n

/-- Sets where start-up stands. -/
def State.setStage (s : State) (g : Stage) : State := { s with boot := { s.boot with stage := g } }

/-- LEAVE_COLD_RESET (R34). -/
def leaveColdReset (s : State) : State := if s.boot.stage = .coldReset ∧ !s.pins.clocksStopped then (s.setStage .released).setStep 2 else s

/-- FUSE_STATUS as the fuses are. -/
def State.fuseRegs (s : State) : State :=
  let f := s.fuses
  let r := Reg.fuseStatus
  let present := ((List.range 4).map (fun k => if f.programmed k then 2 ^ k else 0)).sum
  let s := ((s.setFld r Fld.fuseStatus_identityValid (b2n f.identity)).setFld r Fld.fuseStatus_jtagLevel f.jtag).setFld r Fld.fuseStatus_secFloor f.secFloor
  ((s.setFld r Fld.fuseStatus_provRevoked f.provRevoked).setFld r Fld.fuseStatus_keyRevoked f.ownerRevoked).setFld r Fld.fuseStatus_keyPresent present

/-- BOOT_ROM_START (step 3 of Table 2.8). -/
def bootRomStart (s : State) : State :=
  if s.boot.stage = .released ∧ !s.boot.stopped then
    State.fuseRegs (State.setStep (State.setStage { s with pins := { s.pins with faultReset := false } } .header) 3)
  else s

/-! ### The two slots (R48, R49) -/

/-- Every complex back in its cold-reset state before the next slot is tried (R48); start-up's own record, the events and counters, and the clock stay. -/
def State.complexReset (s : State) : State :=
  let t := State.cold s.fuses s.boot.flash s.pending
  State.fuseRegs (State.setReg { t with
    freeCtr := s.freeCtr, ctrs := s.ctrs, pins := s.pins, ev := s.ev, time := s.time,
    boot := { t.boot with stage := s.boot.stage, slot := s.boot.slot, flashMiB := s.boot.flashMiB, hdr := s.boot.hdr, tbl := s.boot.tbl, keyHash := s.boot.keyHash } }
    Reg.bootStatus (s.reg Reg.bootStatus))

/-- The boot log enters the ring, in order, when the firmware starts (R405), or when the recovery state is entered (log 23). -/
def State.bootLogOut (s : State) : State :=
  let l := s.ev.bootLog
  l.foldl (fun s r => let p := s.ringPut r.code r.held r.time r.data; ((p.1.sendEvent p.2).telePut 3 2 p.2.bytes).1) { s with ev := { s.ev with bootLog := [] } }

/-- The attempt on the slot in hand ends with a reason (R49): slot B follows slot A, and the recovery state follows slot B. -/
def State.slotFail (s : State) (reason : Nat) : State :=
  let s := s.complexReset
  if s.boot.slot = 0 then
    State.raise (State.setFld { s with boot := { s.boot with slot := 1, stage := .header } } Reg.bootStatus Fld.bootStatus_failA reason) 0x0111 (natBe 1 reason)
  else
    let s := (s.setFld Reg.bootStatus Fld.bootStatus_failB reason).raise 0x0112
    State.bootLogOut (State.setStep { s with boot := { s.boot with stage := .recovery }, pins := { s.pins with faultRecovery := true } } 0xF0)

/-- SLOT_HEADER_READ (R464): checks 1 to 3. -/
def slotHeaderRead (flashOk : Bool) (mib : Nat) (hdr : Bytes) (s : State) : State :=
  if s.boot.stage = .header ∧ !s.boot.stopped then
    let s := State.setStep { s with boot := { s.boot with flashMiB := mib, hdr := hdr, tbl := [], keyHash := 0 } } 4
    let r := hdrCheck flashOk s.boot.slot mib hdr
    if r = 0 then s.setStage .sectionTable else s.slotFail r
  else s

/-- SECTION_TABLE_READ (R464): check 4. `k` is the SHA-384 of PUBLIC_KEY. -/
def sectionTableRead (tbl : Bytes) (k : BitVec 384) (s : State) : State :=
  if s.boot.stage = .sectionTable ∧ !s.boot.stopped then
    let s := { s with boot := { s.boot with tbl := tbl, keyHash := k } }
    if s.keyOkay (keySlot s.boot.hdr) k then s.setStage .signature else s.slotFail 0x06
  else s

/-- Checks 5 and 6 of the image with header `h`. -/
def State.check56 (s : State) (h : Bytes) (ok : Bool) : Nat := if !ok then 0x07 else if secVersionOf h < s.fuses.secFloor then 0x08 else 0

/-- SIGNATURE_VERIFIED (R464): checks 5 and 6; the body is read and staged in the on-die pool (R38). -/
def signatureVerified (ok : Bool) (s : State) : State :=
  if s.boot.stage = .signature ∧ !s.boot.stopped then
    if s.check56 s.boot.hdr ok = 0 then State.setStep { s with boot := { s.boot with stage := .body, stagingBusy := true } } 5 else s.slotFail (s.check56 s.boot.hdr ok)
  else s

/-- What follows the loading of the configuration by itself: arrays in service by their partitions (R185), clusters eligible, and the budget in force (R380). -/
def State.afterLoad (s : State) : State :=
  let s := (List.range 128).foldl (fun s a => s.setFlag (Reg.assocArrayStatus a) Fld.assocArrayStatus_enabled (bit (s.part a) 127)) s
  let s := (List.range 8).foldl (fun s c => s.clusterEval c) s
  s.setFld Reg.govStatus Fld.govStatus_effective (s.effEighths / 8)

/-- BODY_READ_DONE (R48): check 7, then check 8 with the records; the firmware is kept and started (R60). -/
def bodyReadDone (digestOk : Bool) (body : Bytes) (s : State) : State :=
  if s.boot.stage = .body ∧ !s.boot.stopped then
    if !digestOk then s.slotFail 0x09
    else
      let h := s.boot.hdr
      let l := imageRecords h s.boot.tbl body
      let runs (st : Bool) : List WordRun := ((l.filter (fun x => staticType x.1 == st)).map (fun x => x.2.1)).flatten
      match s.imageApply h s.boot.tbl body with
      | .error e => s.slotFail e
      | .ok t => State.afterLoad { t with boot := { t.boot with stage := .fwStart, statics := runs true, records := runs false, firmware := imageFirmware h s.boot.tbl body } }
  else s

/-- FLASH_READ_STALL (R464). -/
def flashReadStall (s : State) : State :=
  if (s.boot.stage = .header ∨ s.boot.stage = .sectionTable ∨ s.boot.stage = .body) ∧ !s.boot.stopped then s.slotFail 0x01 else s

/-- FIRMWARE_START_TIMEOUT (check 9). -/
def firmwareStartTimeout (s : State) : State := if s.boot.stage = .fwStart ∧ !s.boot.stopped then s.slotFail 0x0D else s

/-- The firmware runs after a warm restart (R60, R397): 0x0119, 0x0127 when it came with an image change (R356), and the sessions that closed. -/
def State.warmDone (s : State) : State :=
  let s := State.bootLogOut { s with boot := { s.boot with fwRunning := true, warm := false, wdogAt := s.time.stepFree, heartAt := s.time.stepFree } }
  let s := s.raise 0x0119
  let s := match s.boot.staged with
    | some g => if g.switched && g.firmware.isSome then State.raise { s with boot := { s.boot with staged := none } } 0x0127 (natBe 4 (buildLow g.hdr)) else s
    | none => s
  s.fcp.closedByWarm.foldl (fun s id => s.raise 0x0131 (natBe 4 id ++ natBe 1 3)) { s with fcp := { s.fcp with closedByWarm := [] } }

/-- FIRMWARE_REPORTS_RUNNING: check 9 passed at cold start (R48), or a warm restart completed, where the re-hashed firmware must match (R60). -/
def firmwareReportsRunning (digestOk : Bool) (s : State) : State :=
  if s.boot.warm then (if digestOk then s.warmDone else s.warmFail)
  else if s.boot.stage = .fwStart ∧ !s.boot.stopped then
    let s := State.bootLogOut { s with boot := { s.boot with fwRunning := true, stage := .training, wdogAt := s.time.stepFree, heartAt := s.time.stepFree } }
    let s := ((s.setFld Reg.bootStatus Fld.bootStatus_slot (s.boot.slot + 1)).setFld Reg.bootStatus Fld.bootStatus_secVersion (secVersionOf s.boot.hdr)).setStep 6
    s.raise 0x0110 (natBe 1 (s.boot.slot + 1))
  else s

/-! ### Training, self-test, fabric, static tables (R53 to R55) -/

/-- Start-up halts at its step: FAULT_N, READY low (R53, R54). -/
def State.halt (s : State) (code : Nat) : State :=
  State.setStep (State.raise { s with boot := { s.boot with stage := .halted }, pins := { s.pins with faultHalt := true } } code) 0xFF

/-- The pseudo-channels of a stack that are fenced at start-up. -/
def State.stackFenced (s : State) (k : Nat) : Nat := ((List.range 64).filter (fun i => s.hbmState (64 * k + i) == 5)).length

/-- Whether any stack has more fenced than HBM_FENCE_LIMIT. -/
def State.fenceOver (s : State) : Bool := (List.range 8).any (fun k => decide (s.fld Reg.bootPolicy Fld.bootPolicy_hbmFenceLimit < s.stackFenced k))

/-- FENCED and HBM_FREE at start-up, when every buffer is free. -/
def State.poolStart (s : State) : State :=
  let n := ((List.range 384).filter (fun c => s.hbmState (128 + c) == 5)).length
  (s.setFld Reg.trafficPoolStatus Fld.trafficPoolStatus_fenced n).setFld Reg.trafficPoolStatus Fld.trafficPoolStatus_hbmFree (131072 * (384 - n))

/-- STACK_TRAINING_DONE (R53, R278). -/
def stackTrainingDone (failed : List Nat) (s : State) : State :=
  if s.boot.stage = .training ∧ !s.boot.stopped then
    let f := (List.range 512).filter (fun x => failed.contains x)
    let s := (List.range 512).foldl (fun s x => if f.contains x then s else s.setHbmState x 1) s
    let s := (f.foldl (fun s x => (s.raise 0x0113 (pcBytes x)).hbmRetire x 3) s).poolStart
    if s.fenceOver then s.halt 0x0114 else (s.setStage .bist).setStep 7
  else s

/-- The time of a segment at a level in ms (R433). -/
def segTime (g l : Nat) : Nat := (segRow g).1 / 2 ^ (3 - l) + (segRow g).2.1

/-- The result of one segment of the start-up sequence (R435, R438): skipped without a golden, else compared; a failure raises 0x0115. -/
def State.bistStartSeg (s : State) (l : Nat) (misr : List (Nat × List Word)) (g : Nat) : State :=
  let st := Reg.bistSegStatus g
  let gold := s.golden g l
  let s := s.setFld st Fld.bistSegStatus_level l
  if gold = 0 then (s.setFld st Fld.bistSegStatus_result 4).count .controlBistSkipped
  else
    let sigs := (mget (fun _ => []) misr g).take (segMisrs g)
    let mask := misrMask gold sigs
    let s := ((s.setFld st Fld.bistSegStatus_result (if mask = 0 then 1 else 2)).setFld st Fld.bistSegStatus_failMask mask).setFld st Fld.bistSegStatus_time (segTime g l)
    let s := s.setReg (Reg.bistSig g) (misrSig gold sigs)
    if mask = 0 then s else s.raise 0x0115 (natBe 1 g)

/-- The units of a segment that failed at start-up. -/
def State.failedUnits (s : State) (g : Nat) : List Nat :=
  let m := s.fld (Reg.bistSegStatus g) Fld.bistSegStatus_failMask
  let us := segUnits g
  if s.fld (Reg.bistSegStatus g) Fld.bistSegStatus_result ≠ 2 then []
  else if us.length = 1 then us else (List.range us.length).filterMap (fun i => if bit m i then us[i]? else none)

/-- A replicated unit disabled at start-up (R54, R438): an array, a cluster, or a pseudo-channel that is fenced. -/
def State.disableUnit (s : State) (u : Nat) : State :=
  let s := { s with bist := { s.bist with disabled := s.bist.disabled ++ [u] } }
  if u < 128 then
    (s.setReg (Reg.assocPartHi u) (BitVec.ofNat 64 (setBits (s.reg (Reg.assocPartHi u)).toNat 63 1 0))).setFlag (Reg.assocArrayStatus u) Fld.assocArrayStatus_enabled false
  else if u < 508 then (s.setFlag (Reg.engineClusterStatus (u - 500)) Fld.engineClusterStatus_disabled true).clusterEval (u - 500)
  else (s.setHbmState (u - 1000) 5).poolStart

/-- STARTUP_BIST_DONE (R54, R438): the results; then step 8, in which the transmitters leave electrical idle (R36). -/
def startupBistDone (misr : List (Nat × List Word)) (s : State) : State :=
  if s.boot.stage = .bist ∧ !s.boot.stopped then
    let l := s.fld Reg.bistCtrl Fld.bistCtrl_startLevel
    let s := (List.range 180).foldl (fun s g => s.bistStartSeg l misr g) s
    let bad := (List.range 180).filter (fun g => s.fld (Reg.bistSegStatus g) Fld.bistSegStatus_result == 2)
    if !bad.isEmpty ∧ (!s.flag Reg.bootPolicy Fld.bootPolicy_bistMode ∨ bad.any (fun g => (segUnits g).isEmpty)) then s.halt 0x0116
    else
      let s := ((bad.map (fun g => s.failedUnits g)).flatten).foldl (fun s u => s.disableUnit u) s
      if s.fenceOver then s.halt 0x0114
      else
        let s := State.setStep { s with boot := { s.boot with stage := .fabric }, pins := { s.pins with linkIdle := false } } 8
        let s := ((List.range 120).filter (fun x => (s.laneGroup x).isNone)).foldl (fun s x => s.setFld (Reg.fabricLaneStatus x) Fld.fabricLaneStatus_state 3) s
        s.portsEval.fabricStep
  else s

/-- FABRIC_WAIT_EXPIRY (R55): 0x0117 names the groups not aligned, bit g for group g, and start-up goes on. -/
def fabricWaitExpiry (s : State) : State :=
  if s.boot.stage = .fabric ∧ !s.boot.stopped then
    let mask := ((s.fabGroups.filter (fun g => !s.groupAligned g)).map (fun g => 2 ^ g)).sum
    ((s.raise 0x0117 (natBe 8 mask)).setStage .statics).setStep 9
  else s

/-- A word of the image written whatever section it came in; it has passed check 8. -/
def State.loadWord (s : State) (a : Nat) (w : Word) : State :=
  match findReg a with
  | some d => s.regLoad d a w
  | none => match portShaperWord a with
    | some (n, hi) => if hi then s else s.shaperProfile 2 n w.toNat
    | none => if (winOf a).isSome then s.winLoad a w.toNat else s.put true a w.toNat

/-- The words of a record. -/
def State.loadRun (s : State) (r : WordRun) : State := (List.range r.words.length).foldl (fun s i => s.loadWord (r.addr + 8 * i) (r.words.getD i 0)) s

/-- STATIC_TABLES_DONE (step 9 and 10 of Table 2.8): the static tables stand, the staging area returns to the pool, and READY rises. -/
def staticTablesDone (s : State) : State :=
  if s.boot.stage = .statics ∧ !s.boot.stopped then
    let s := s.boot.statics.foldl (fun s r => s.loadRun r) s
    let s := { s with boot := { s.boot with stage := .running, statics := [], stagingBusy := false, readyAt := s.time.stepFree }, pins := { s.pins with ready := true } }
    let s := (s.setFld Reg.trafficPoolStatus Fld.trafficPoolStatus_ondieFree 32768).setStep 11
    (s.raise 0x0118).portsEval
  else s

def execPwrGoodLow (ns : Nat) (r : Bool) (s : State) : Out := .next (pwrGoodLow ns r s)
def execRstNLow (ns : Nat) (s : State) : Out := .next (rstNLow ns s)
def execLeaveColdReset (s : State) : Out := .next (leaveColdReset s)
def execBootRomStart (s : State) : Out := s.act (bootRomStart s)
def execSlotHeaderRead (ok : Bool) (m : Nat) (h : Bytes) (s : State) : Out := s.act (slotHeaderRead ok m h s)
def execSectionTableRead (t : Bytes) (k : BitVec 384) (s : State) : Out := s.act (sectionTableRead t k s)
def execSignatureVerified (ok : Bool) (s : State) : Out := s.act (signatureVerified ok s)
def execBodyReadDone (ok : Bool) (b : Bytes) (s : State) : Out := s.act (bodyReadDone ok b s)
def execFlashReadStall (s : State) : Out := s.act (flashReadStall s)
def execFirmwareReportsRunning (ok : Bool) (s : State) : Out := s.act (firmwareReportsRunning ok s)
def execFirmwareStartTimeout (s : State) : Out := s.act (firmwareStartTimeout s)
def execStackTrainingDone (f : List Nat) (s : State) : Out := s.act (stackTrainingDone f s)
def execStartupBistDone (m : List (Nat × List Word)) (s : State) : Out := s.act (startupBistDone m s)
def execFabricWaitExpiry (s : State) : Out := s.act (fabricWaitExpiry s)
def execStaticTablesDone (s : State) : Out := s.act (staticTablesDone s)

end Sys2Proof.Machine
end

