-- ==== Sys2Proof/Machine/Change.lean ====
section
/-! DEFINITION. In-service image change and slice reload (R355 to R357, R442, R444). -/

namespace Sys2Proof.Machine

/-! ### Units under test (R441, R442) -/

/-- The test segment of the unit that register, store or window address `a` lies in, among the units tested in service (Table 19.2). -/
def unitSeg (a : Nat) : Option Nat :=
  if 0x3001_0000 ≤ a ∧ a < 0x3001_2000 then some (34 + (a - 0x3001_0000) / 0x40 / 8)
  else if 0x0001_1000_0000 ≤ a ∧ a < 0x0001_1800_0000 then some (34 + (a - 0x0001_1000_0000) / 0x0010_0000 / 8)
  else if 0x4010_0000 ≤ a ∧ a < 0x4018_0000 then some (52 + (a - 0x4010_0000) / 0x1_0000)
  else if 0x4100_0000 ≤ a ∧ a < 0x4108_0000 then some (52 + (a - 0x4100_0000) / 0x1_0000)
  else if 0x0001_3000_0000 ≤ a ∧ a < 0x0001_3080_0000 then some (52 + (a - 0x0001_3000_0000) / 0x0010_0000)
  else if 0x6020_0000 ≤ a ∧ a < 0x6080_0000 then some (ctlSeg ((a - 0x6000_0000) / 0x4000))
  else if inBufferHbm a then some (ctlSeg (128 + (a - 0x0200_0000_0000) / 2 ^ 28))
  else none

/-- Whether address `a` lies in a unit under test. -/
def State.underTest (s : State) (a : Nat) : Bool := match unitSeg a with | some g => s.segTested g | none => false

/-- Whether word `w` at `a` would return to service an array that failed a self-test (R444). -/
def State.returnsFailed (s : State) (a : Nat) (w : Word) : Bool :=
  (List.range 128).any (fun n => a == Reg.assocPartHi n && bit w.toNat 63 && (s.bist.barred.contains n || s.bist.disabled.contains n))

/-! ### What differs, and where it may (R355) -/

/-- Whether a word of an image differs from the running configuration. -/
def State.imageDiffers (s : State) (a : Nat) (w : Word) : Bool :=
  match findReg a with
  | some d => d.fields.any (fun f => (f.acc == .img || f.acc == .rw || a == Reg.epochBankSel) && getField f.field (s.regPar s.curOdd a) != getField f.field w)
  | none =>
    match portShaperWord a with
    | some (n, hi) => !hi && (s.shaper 2 n).profile != bits w.toNat 35 24
    | none =>
      let t := s.loadWord a w
      let hide (x : State) (v : Nat) : Nat := match x.visEntry a with | some (_, vic) => setBits v (vic - 1) 2 0 | none => v
      hide t (tblWord t.mem a) != hide s (tblWord s.mem a)

/-- An entry of the epoch-compatibility map (Table 14.5). -/
structure MapEntry where
  kind  : Nat
  slice : Nat
  addr  : Nat
  words : Nat

/-- The map of an image: BASE_BUILD_ID and its entries. -/
def compatMap (b : Bytes) : Nat × List MapEntry :=
  (beAt b 0 8, (List.range (beAt b 8 2)).map (fun i =>
    { kind := beAt b (16 + 16 * i) 1, slice := beAt b (17 + 16 * i) 1, addr := beAt b (18 + 16 * i) 6, words := beAt b (24 + 16 * i) 4 }))

/-- Whether `a` holds contents of an epoch-sensitive table (R339). -/
def sensitive (a : Nat) : Bool :=
  inTableHbm a || (match winOf a with
    | some (.hash, _, _) => true | some (.stash, _, _) => true | some (.assoc, _, _) => true | some (.label, _, _) => true | some (.nextHop, _, _) => true
    | some (.bridgeDomain, _, _) => true | some (.patDesc, _, _) => true | some (.patSlot, _, _) => true | some (.encap, _, _) => true | _ => false)

/-- The candidates of form `f` of slice `k` (Table 5.3). -/
def State.formNext (s : State) (k f : Nat) : List Nat :=
  (List.range 8).filterMap (fun i => let c := (s.reg (Reg.parserFormWord k f (6 + i))).toNat; if bit c 63 then some (c % 256) else none)

/-- The forms reached from a list of forms. -/
def State.formReach (s : State) (k : Nat) : Nat → List Nat → List Nat → List Nat
  | 0, _, seen => seen
  | _, [], seen => seen
  | n + 1, f :: l, seen => if seen.contains f then s.formReach k n l seen else s.formReach k n (s.formNext k f ++ l) (f :: seen)

/-- The forms of slice `k` that a banked entry form reaches, in either copy. -/
def State.liveForms (s : State) (k : Nat) : List Nat :=
  let entry (odd : Bool) : List Nat := (List.range 8).map (fun j => getField Fld.parserPortCfg_entryForm (s.regPar odd (Reg.parserPortCfg k j)))
  s.formReach k 4096 (entry false ++ entry true) []

/-- Whether a banked stage names table `t` of type `ty`, in either copy. -/
def State.stageNames (s : State) (ty t : Nat) : Bool :=
  (List.range 12).any (fun k => (List.range 8).any (fun i => [false, true].any (fun odd =>
    let w := s.regPar odd (Reg.classStageCfg k i)
    getField Fld.classStageCfg_type w == ty && getField Fld.classStageCfg_table w == t)))

/-- Whether a bank selects associative table `t`, in either copy (R350). -/
def State.bankSelects (s : State) (t : Nat) : Bool :=
  (List.range 12).any (fun k => (List.range 4).any (fun i => [false, true].any (fun odd =>
    let w := s.regPar odd (Reg.assocSearch k i)
    let alt := getField Fld.assocSearch_altValid w == 1 && bit (s.regPar odd Reg.epochBankSel).toNat (getField Fld.assocSearch_table w)
    getField Fld.assocSearch_valid w == 1 && getField (if alt then Fld.assocSearch_tableAlt else Fld.assocSearch_table) w == t)))

/-- Whether `a` belongs to an idle resource (R355). That a profile, a program or a pattern set is unused is the map's word. -/
def State.idleAt (s : State) (a : Nat) (w : Word) : Bool :=
  let in_ (base n size : Nat) : Option Nat := if base ≤ a ∧ a < base + n * size then some ((a - base) / size) else none
  let form := (List.range 12).findSome? (fun k => (in_ (Reg.parserFormWord k 0 0) 256 0x80).map (fun f => !(s.liveForms k).contains f))
  let part (n : Nat) (now : Nat) : Bool := (!bit (s.part n) 127 || !s.bankSelects (s.partTable n)) && !s.bankSelects now
  match form with
  | some b => b
  | none =>
    match in_ (Reg.emhashTableCfg 0) 256 8, in_ (Reg.flowTableCfg 0) 16 16, in_ (Reg.assocTableCfg 0) 64 16, in_ (Reg.assocPartHi 0) 128 0x40, in_ (Reg.engineProg 0) 256 8 with
    | some t, _, _, _, _ => !s.stageNames 1 t
    | _, some t, _, _, _ => !s.stageNames 2 t
    | _, _, some t, _, _ => !s.bankSelects t
    | _, _, _, some n, _ => part n (if a % 0x40 = 0 then bits w.toNat 62 57 else s.partTable n)
    | _, _, _, _, some _ => true
    | _, _, _, _, _ =>
      (in_ (Reg.engineStoreWord 0 0) 8 0x10000).isSome || (in_ (Reg.trafficShaperProfileHi 0) 4096 16).isSome
        || (match winOf a with
          | some (.assoc, i, _) => !s.bankSelects (s.partTable (i / 32768)) | some (.profile, _, _) => true | some (.meterProfile, _, _) => true
          | some (.patDesc, _, _) => true | some (.patSlot, _, _) => true | _ => false)

/-- The addresses through which slice `k` may be reloaded (R357). -/
def reloadMay (k a : Nat) : Bool :=
  let in_ (base n : Nat) : Bool := decide (base ≤ a) && decide (a < base + n)
  in_ (0x2000_0000 + 0x0010_0000 * k) 0x0010_0000 || in_ (Reg.linePortCfg (8 * k)) 0x8000 || in_ (Reg.macsecSecyCfg (8 * k)) 0x8_0000 || in_ (Reg.lineFlexeCfg k) 0x1000
    || in_ (Reg.trafficPortCfg (8 * k)) 64 || in_ (Reg.trafficPortTcLimit (8 * k) 0) 0x200 || in_ (Reg.hatbandCfg (8 * k)) 0x400 || in_ (Reg.hatbandEntryWord (8 * k) 0 0) 0x1_0000

/-- Whether a map entry allows the change of word `a` to `w`. -/
def State.mapAllows (s : State) (e : MapEntry) (a : Nat) (w : Word) : Bool :=
  decide (e.addr ≤ a) && decide (a < e.addr + 8 * e.words) &&
    (match e.kind with | 1 => sensitive a | 2 => (bankedLow a).isSome | 3 => s.idleAt a w | 4 => reloadMay e.slice a | _ => false)

/-- A word of a staged image that changes something, with the kind that allows it; 0 none. -/
structure Diff where
  kind : Nat
  addr : Nat
  word : Word

/-- What a staged image changes. -/
def State.imageDiffs (s : State) (h tbl body : Bytes) (m : List MapEntry) : List Diff :=
  let runs := ((imageRecords h tbl body).map (fun x => x.2.1)).flatten
  let ws := (runs.map (fun r => (List.range r.words.length).map (fun i => (r.addr + 8 * i, r.words.getD i 0)))).flatten
  (ws.filter (fun x => s.imageDiffers x.1 x.2)).map (fun x =>
    { kind := ((m.find? (fun e => s.mapAllows e x.1 x.2)).map (fun e => e.kind)).getD 0, addr := x.1, word := x.2 })

/-- The epoch-compatibility map of an image, none where it has no section 0x0020. -/
def imageMap (h tbl body : Bytes) : Option (Nat × List MapEntry) :=
  ((sectionsOf h tbl).find? (fun x => x.type == 0x20)).map (fun x => compatMap (sectionBytes h body x))

/-- The reason a staged image is refused (R355, R356, R442, R444), 0 none. -/
def State.stagedReason (s : State) (flashOk : Bool) (h tbl : Bytes) (k : BitVec 384) (sigOk digestOk : Bool) (body : Bytes) : Nat :=
  let c := hdrCheck flashOk 0 s.boot.flashMiB h
  if c ≠ 0 then c
  else if !s.keyOkay (keySlot h) k then 0x06
  else if s.check56 h sigOk ≠ 0 then s.check56 h sigOk
  else if !digestOk then 0x09
  else if !sectionsOk h tbl ∨ !(imageRecords h tbl body).all (fun x => x.2.2) then 0x0A
  else
    match imageMap h tbl body with
    | none => 0x0F
    | some (base, m) =>
      let ds := s.imageDiffs h tbl body m
      if ds.any (fun d => s.underTest d.addr || s.returnsFailed d.addr d.word) then 0x10
      else if beAt h 0x1F 1 % 2 = 0 ∨ base ≠ beAt s.boot.hdr 0x10 8 ∨ 4096 < m.length ∨ ds.any (fun d => d.kind == 0) then 0x0F
      else 0

/-! ### Writing it (R356) -/

/-- A word of an epoch-sensitive table as a next-epoch operation: an entry that was not there is seen by the next epoch only, one that goes leaves
the next epoch only, and one that stays keeps who sees it. -/
def State.nextWord (s : State) (a : Nat) (w : Word) : State :=
  let t := s.loadWord a w
  let v := tblWord t.mem a
  match t.visEntry a, s.visEntry a with
  | some (_, vic), none => t.put true a (setBits (setBits v (vic - 1) 2 0) (visPos vic (s.epoch + 1)) 1 1)
  | some (_, vic), some _ => t.put true a (setBits v (vic - 1) 2 (bits (tblWord s.mem a) vic (vic - 1)))
  | none, some (_, vic) => s.put true a (setBits (tblWord s.mem a) (visPos vic (s.epoch + 1)) 1 0)
  | none, none => t

/-- The next copy of an epoch-banked word. -/
def State.nextCopy (s : State) (a : Nat) (w : Word) : State :=
  match findReg a with
  | none => s
  | some d =>
    let odd := !s.curOdd
    s.setRegPar odd a (d.fields.foldl (fun acc f => if f.acc == .img || f.acc == .rw || a == Reg.epochBankSel then putField f.field (getField f.field w) acc else acc) (s.regPar odd a))

/-- One word of the change. -/
def State.writeDiff (s : State) (d : Diff) : State :=
  match d.kind with
  | 1 => s.nextWord d.addr d.word
  | 2 => s.nextCopy d.addr d.word
  | 3 => s.loadWord d.addr d.word
  | _ => s

/-- The switch of a staged change: at once, or at its time; a time too near is taken at once. -/
def State.stagedGo (s : State) (g : Staged) : State :=
  if g.switchNow then s.epochSwitchNowCmd.1
  else
    let t := (s.setFld Reg.epochSwitchTime Fld.epochSwitchTime_seconds g.seconds).setFld Reg.epochSwitchNs Fld.epochSwitchNs_nanoseconds g.ns
    match t.epochArmCmd with
    | (u, 0) => u
    | _ => t.epochSwitchNowCmd.1

/-- IMAGE_STAGE (R356): the loader starts to read the image of slot A. -/
def imageStage (h : FcpHdr) (switchNow : Bool) (seconds ns : Nat) (s : State) : State :=
  s.fcpServe h 0x31 privWrite (fun s =>
    if s.boot.staged.isSome then (s, 4, [])
    else if 2 ^ 48 ≤ seconds ∨ 1000000000 ≤ ns then (s, 5, [])
    else if s.epochPhase ≠ 0 then (s, 6, [])
    else ({ s with boot := { s.boot with staged := some { switchNow := switchNow, seconds := seconds, ns := ns, checked := false, switched := false, hdr := [], tbl := [], keyHash := 0, firmware := none } } }, 0, []))

/-- STAGED_IMAGE_CHECKS_DONE (R356): the image is refused with 0x0126, or the next epoch opens and takes what it changes. Words of kind 4 wait for
SLICE_RELOAD (R357). -/
def stagedImageChecksDone (flashOk : Bool) (hdr tbl : Bytes) (k : BitVec 384) (sigOk digestOk : Bool) (body : Bytes) (s : State) : State :=
  match s.boot.staged with
  | none => s
  | some g =>
    if g.checked then s
    else
      let r := s.stagedReason flashOk hdr tbl k sigOk digestOk body
      let s : State := { s with boot := { s.boot with staged := none } }
      if r ≠ 0 then s.raise 0x0126 (natBe 1 r)
      else
        let m := ((imageMap hdr tbl body).map (fun x => x.2)).getD []
        let ds := s.imageDiffs hdr tbl body m
        let fw := if m.any (fun e => e.kind == 5) then some (imageFirmware hdr tbl body) else none
        let s : State := { s with boot := { s.boot with records := s.boot.records ++ ds.map (fun d => { addr := d.addr, words := [d.word] }) } }
        if ds.all (fun d => d.kind == 4) ∧ fw.isNone then s
        else
          match s.epochOpenCmd with
          | (s, 0) =>
            let s := ds.foldl (fun s d => s.writeDiff d) s
            let g := { g with checked := true, hdr := hdr, tbl := tbl, keyHash := k, firmware := fw }
            State.stagedGo { s with boot := { s.boot with staged := some g } } g
          | (s, _) => s

/-! ### Slice reload (R357) -/

/-- The packets of slice `k` in its fragment holds, its recirculation queue and the engines are discarded and counted; the programs that ran for it stop. -/
def State.sliceDiscard (s : State) (k : Nat) : State :=
  let ps := s.recOf k ++ (s.holdOf k).map (fun x => x.pass)
  let ds := s.engOf k ++ s.engHold k ++ (s.outOf k).map (fun x => x.d)
  let s := ps.foldl (fun s x => ((s.unpark k x.park).count .lookupSliceReloadDrop k).epochLeave x.epoch) s
  let s := ds.foldl (fun s d => ((s.unpark k d.park).count .lookupSliceReloadDrop k).epochLeave d.epoch) s
  let s := ((s.setRec k []).setHold k []).setEngHold k []
  let s := (s.setOut k [])
  let s := { s with lookup := { s.lookup with
    engQ := mput (fun _ => []) s.lookup.engQ k [], fragPriv := s.lookup.fragPriv.filter (fun p => p.1 / 1024 != k) } }
  let s := (List.range 256).foldl (fun s e => if (s.eng e).run && (s.eng e).slice == k then (s.setEng e Engine.idle).busyEval (e / 32) else s) s
  (List.range 8).foldl (fun s c => s.setCq c ((s.cq c).filter (fun x => x.1 != k))) s

/-- The line units of slice `k`'s lanes are reset and its lanes retrain: a lane with signal waits or retrains as on its return (R76). -/
def State.sliceLines (s : State) (k : Nat) : State :=
  let s := (List.range 8).foldl (fun s j => s.setPort (8 * k + j) { LinePort.idle with downHold := false }) s
  let s := { s with line := { s.line with phys := s.line.phys.filter (fun p => p.1 / 8 != k), groups := s.line.groups.filter (fun p => p.1 != k) } }
  (List.range 8).foldl (fun s j => if s.lane (8 * k + j) = 0 then s else lineLaneSignalReturn (8 * k + j) (s.setLane (8 * k + j) 0)) s

/-- The words of the image through which slice `k` is reloaded. -/
def State.sliceWords (s : State) (k : Nat) : List (Nat × Word) :=
  ((s.boot.records.map (fun r => (List.range r.words.length).map (fun i => (r.addr + 8 * i, r.words.getD i 0)))).flatten).filter (fun x => reloadMay k x.1)

/-- SLICE_RELOAD (R357, R442): refused while a port of the slice has ADMIN_UP. -/
def sliceReload (h : FcpHdr) (k : Nat) (s : State) : State :=
  s.fcpServe h 0x32 privWrite (fun s =>
    if 12 ≤ k then (s, 5, [])
    else if (s.portList.filter (fun p => p / 8 == k)).any (fun p => s.flag (Reg.linePortCtrl p) Fld.linePortCtrl_adminUp) then (s, 9, [])
    else if (s.sliceWords k).any (fun x => s.underTest x.1) then (s.raise 0x0126 (natBe 1 0x10), 9, natBe 1 0x10)
    else
      let ws := s.sliceWords k
      let s := (s.sliceDiscard k).sliceLines k
      let s : State := { s with boot := { s.boot with reloading := s.boot.reloading.filter (fun x => x != k) ++ [k] } }
      (ws.foldl (fun s x => s.loadWord x.1 x.2) s, 0, []))

/-- SLICE_RELOAD_DONE (R357). -/
def sliceReloadDone (k : Nat) (s : State) : State :=
  if s.boot.reloading.contains k then State.raise { s with boot := { s.boot with reloading := s.boot.reloading.filter (fun x => x != k) } } 0x0128 (natBe 1 k) else s

def execImageStage (h : FcpHdr) (n : Bool) (a b : Nat) (s : State) : Out := s.act (imageStage h n a b s)
def execStagedImageChecksDone (f : Bool) (h t : Bytes) (k : BitVec 384) (g d : Bool) (b : Bytes) (s : State) : Out := s.act (stagedImageChecksDone f h t k g d b s)
def execSliceReload (h : FcpHdr) (k : Nat) (s : State) : Out := s.act (sliceReload h k s)
def execSliceReloadDone (k : Nat) (s : State) : Out := s.act (sliceReloadDone k s)

end Sys2Proof.Machine
end

