-- ==== Sys2Proof/Machine/BatchAssoc.lean ====
section
/-! DEFINITION. Operations of FCP batches on associative tables (R163 to R165, R176 to R181, R347; Table 17.6 target 3).
An operation answers the state after it, or the STATUS and reason of Table 17.14. -/

namespace Sys2Proof.Machine

/-- What an operation of a batch answers. -/
abbrev OpOut := Except (Nat × Nat) State

/-! ### Visibility to a batch (R347) -/

/-- The visibility bits of an entry a batch of the kind inserts, with its VIC bit at `vic`: both, or that of the next epoch. -/
def State.newVis (s : State) (nx : Bool) (vic : Nat) : Nat := if nx then 2 ^ visPos vic (s.epoch + 1) else 3 * 2 ^ (vic - 1)

/-- Whether a batch of the kind finds the entry with head word `w`: it is visible to an epoch the batch writes. -/
def State.opSees (s : State) (nx : Bool) (vic w : Nat) : Bool := visible w vic (s.epoch + 1) || (!nx && visible w vic s.epoch)

/-- Whether the two visibility bits differ. -/
def split (vic w : Nat) : Bool := bit w vic != bit w (vic - 1)

/-- Whether changing the result of an entry breaks the epoch rule: it is split in a neutral batch, or the current epoch sees it in a next-epoch one. -/
def State.opBars (s : State) (nx : Bool) (vic w : Nat) : Bool := if nx then visible w vic s.epoch else split vic w

/-- What a delete makes of a head word: nothing is left of the entry, unless the current epoch goes on to see it. -/
def State.opHide (s : State) (nx : Bool) (vic w : Nat) : Option Nat :=
  if nx && visible w vic s.epoch then some (setBits w (visPos vic (s.epoch + 1)) 1 0) else none

/-! ### Units of a table -/

/-- The heads of the replica set that the unit headed by `h` of table `t` lies in (R165). -/
def State.replicas (s : State) (t h : Nat) : List Nat := (List.range 128).filter (fun a => s.unitHead t a && bits (s.part a) 60 54 == bits (s.part h) 60 54)

/-- The replica sets of table `t`, each by its lowest head. -/
def State.unitSets (s : State) (t : Nat) : List Nat := (List.range 128).filter (fun a => s.unitHead t a && (s.replicas t a).head? == some a)

/-- The array that leads unit row `l` of the chain headed by `h`. -/
def State.rowArray (s : State) (t h l : Nat) : Nat := ((s.unitList t h)[l / 32768]?).getD h

/-- The valid rows of a chain, rising: logical row and control word. -/
def State.chainRows (s : State) (t h : Nat) : List (Nat × Nat) :=
  let us := s.unitList t h
  ((List.range us.length).map (fun i => (s.rowsOf ((us[i]?).getD h)).map (fun x => (32768 * i + x.1, x.2)))).flatten

/-- VALUE and MASK of a unit row of `n` arrays (R171). -/
def State.unitValue (s : State) (n a r : Nat) : Nat := (List.range n).foldl (fun v j => 2 ^ 80 * v + rowValue s.mem (a + j) r) 0
def State.unitMask (s : State) (n a r : Nat) : Nat := (List.range n).foldl (fun v j => 2 ^ 80 * v + rowMask s.mem (a + j) r) 0

/-- An entry of an associative operation. -/
structure AssocEntry where
  value : Nat
  mask  : Nat
  prio  : Nat
  res   : Nat

/-- The entry of an operation's data for a table `n` arrays wide. -/
def assocEntry (n : Nat) (d : Bytes) : AssocEntry :=
  { value := beAt d 0 (10 * n), mask := beAt d (10 * n) (10 * n), prio := beAt d (20 * n) 2, res := beAt d (20 * n + 2) 3 }

/-- Data bytes of an entry. -/
def assocLen (n : Nat) : Nat := 8 * ((20 * n + 12) / 8)

/-- The PRIORITY of an entry in the set of head `h`: an LPM table adds PRIO_BASE to the prefix length (R163). -/
def State.entryPrio (s : State) (t h : Nat) (e : AssocEntry) : Nat :=
  if s.fld (Reg.assocTableCfg t) Fld.assocTableCfg_kind = 1 then e.prio + bits (s.part h) 72 61 else e.prio

/-- Whether the partition of head `h` takes an entry (R163). -/
def State.setTakes (s : State) (t h : Nat) (e : AssocEntry) : Bool :=
  let p := s.part h
  let sh := 80 * s.cascade t - 16
  let pm := bits p 104 89
  (e.mask / 2 ^ sh &&& pm) == pm && (e.value / 2 ^ sh &&& pm) == (bits p 120 105 &&& pm)
    && (s.fld (Reg.assocTableCfg t) Fld.assocTableCfg_kind != 1 || (decide (bits p 88 81 ≤ e.prio) && decide (e.prio ≤ bits p 80 73)))

/-- The control word of array `j` of a unit: the associated word of a continuation array is reserved and left zero (R171). -/
def unitCtl (j ctl : Nat) : Nat := if j = 0 then ctl else 2 ^ 44 * (ctl / 2 ^ 44)

/-- Writes a row of a unit of `n` arrays with a control word. -/
def State.putRow (s : State) (n a r : Nat) (e : AssocEntry) (ctl : Nat) : State :=
  (List.range n).foldl (fun s j =>
    let v := e.value / 2 ^ (80 * (n - 1 - j)) % 2 ^ 80
    let m := e.mask / 2 ^ (80 * (n - 1 - j)) % 2 ^ 80
    let b := rowAddr (a + j) r
    (((s.put true b (v % 2 ^ 64)).put true (b + 8) (m % 2 ^ 64)).put true (b + 0x10) (2 ^ 48 * (v / 2 ^ 64) + 2 ^ 32 * (m / 2 ^ 64))).put true (b + 0x18) (unitCtl j ctl)) s

/-- Writes the control word of a unit row of every member of a set. -/
def State.putCtl (s : State) (t h l ctl : Nat) : State :=
  (s.replicas t h).foldl (fun s m => (List.range (s.cascade t)).foldl (fun s j => s.put true (rowAddr (s.rowArray t m l + j) (l % 32768) + 0x18) (unitCtl j ctl)) s) s

/-- Moves unit row `l` to `q` in every member of a set (R178); each row moved is counted. -/
def State.moveRow (s : State) (t h l q : Nat) : State :=
  (s.replicas t h).foldl (fun s m =>
    let n := s.cascade t
    let a := s.rowArray t m l
    ((s.copyRow n a (l % 32768) (s.rowArray t m q) (q % 32768)).clearRow n a (l % 32768)).count .associativeArrayMoves a) s

/-! ### Firmware placement (R176, R181) -/

/-- The place of a new entry of priority `p` among the valid rows `l` of a chain of `cap` rows, with the moves that make it, in order: the row after the last
of priority at least `p`; when it is taken, the first row of each lower priority group goes to the row after its group's end in an LPM table, and the
rows move down by one in an ACL table; with no free row below, the same upward. -/
def placeRow (l : List (Nat × Nat)) (cap p : Nat) (acl : Bool) : Option (Nat × List (Nat × Nat)) :=
  let prio (c : Nat) : Nat := bits c 43 32
  let at_ (r : Nat) : Option Nat := (l.find? (fun x => x.1 == r)).map (fun x => prio x.2)
  let pos := (l.filter (fun x => decide (p ≤ prio x.2))).foldl (fun m x => max m (x.1 + 1)) 0
  match ((List.range (l.length + 1)).map (fun i => pos + i)).find? (fun r => decide (r < cap) && (at_ r).isNone) with
  | some f =>
    let rows := (List.range (f - pos)).map (fun i => pos + i)
    if acl then some (pos, (rows.map (fun r => (r, r + 1))).reverse)
    else
      let hs := rows.filter (fun r => r == pos || at_ r != at_ (r - 1))
      some (pos, (hs.zip (hs.drop 1 ++ [f])).reverse)
  | none =>
    match ((List.range (min pos (l.length + 1))).map (fun i => pos - 1 - i)).find? (fun r => (at_ r).isNone) with
    | none => none
    | some f =>
      let rows := (List.range (pos - 1 - f)).map (fun i => f + 1 + i)
      if acl then some (pos - 1, rows.map (fun r => (r, r - 1)))
      else
        let ts := rows.filter (fun r => r + 1 == pos || at_ r != at_ (r + 1))
        some (pos - 1, ts.zip (f :: ts))

/-- The entry of a set that has the VALUE, MASK and PRIORITY given and that the batch finds: its logical row and control word. -/
def State.findRow (s : State) (nx : Bool) (t h : Nat) (e : AssocEntry) : Option (Nat × Nat) :=
  let n := s.cascade t
  (s.chainRows t h).find? (fun x =>
    bits x.2 43 32 == s.entryPrio t h e && s.opSees nx 62 x.2
      && s.unitValue n (s.rowArray t h x.1) (x.1 % 32768) == e.value && s.unitMask n (s.rowArray t h x.1) (x.1 % 32768) == e.mask)

/-- The control word of a new row. -/
def State.rowCtlNew (s : State) (nx : Bool) (t h : Nat) (e : AssocEntry) : Nat := 2 ^ 63 + s.newVis nx 62 + 2 ^ 32 * s.entryPrio t h e + e.res

/-- Writes an entry into unit row `l` of every member of a set. -/
def State.putEntryRow (s : State) (nx : Bool) (t h l : Nat) (e : AssocEntry) : State :=
  (s.replicas t h).foldl (fun s m => s.putRow (s.cascade t) (s.rowArray t m l) (l % 32768) e (s.rowCtlNew nx t h e)) s

/-- Whether priority and result of an entry are in range for the set of head `h`. -/
def State.entryOk (s : State) (t h : Nat) (e : AssocEntry) : Bool := decide (s.entryPrio t h e ≤ 4095) && decide (e.res < 2 ^ 20) && s.rowResultOk t e.res

/-- Among covering sets the one with the most partition mask bits, among equal ones the lowest (R176). -/
def State.bestSet (s : State) (l : List Nat) : Option Nat :=
  let ones (h : Nat) : Nat := popCount 16 (bits (s.part h) 104 89)
  l.find? (fun h => l.all (fun g => decide (ones g ≤ ones h)))

/-- An insert under firmware placement. -/
def State.assocInsert (s : State) (nx : Bool) (t : Nat) (e : AssocEntry) : OpOut :=
  let acl := s.fld (Reg.assocTableCfg t) Fld.assocTableCfg_kind != 1
  let sets := (s.unitSets t).filter (fun h => s.setTakes t h e)
  if sets.isEmpty then .error (9, 0x23)
  else if sets.any (fun h => !s.entryOk t h e) then .error (5, 0x0C)
  else if sets.any (fun h => (s.findRow nx t h e).isSome) then .error (9, 0x21)
  else
    let room (h : Nat) : Option (Nat × List (Nat × Nat)) := placeRow (s.chainRows t h) (32768 * (s.unitList t h).length) (s.entryPrio t h e) acl
    match s.bestSet (sets.filter (fun h => (room h).isSome)) with
    | none => .error (10, 0x22)
    | some h =>
      match room h with
      | none => .error (10, 0x22)
      | some (l, ms) => .ok ((ms.foldl (fun s m => s.moveRow t h m.1 m.2) s).putEntryRow nx t h l e)

/-- A delete of the entry in unit row `l` with control word `ctl`. -/
def State.assocDelete (s : State) (nx : Bool) (t h l ctl : Nat) : OpOut :=
  if !nx && split 62 ctl then .error (9, 0x24)
  else .ok (s.putCtl t h l (match s.opHide nx 62 ctl with | some c => c | none => setBits (setBits ctl 61 2 0) 63 1 0))

/-- A change of RESULT in unit row `l`. -/
def State.assocChange (s : State) (nx : Bool) (t h l ctl res : Nat) : OpOut :=
  if 2 ^ 20 ≤ res ∨ !s.rowResultOk t res then .error (5, 0x0C)
  else if s.opBars nx 62 ctl then .error (9, 0x24)
  else .ok (s.putCtl t h l (setBits ctl 0 20 res))

/-- An operation on table `t` under firmware placement. -/
def State.assocFirmware (s : State) (nx : Bool) (t : Nat) (o : BatchOp) : OpOut :=
  let e := assocEntry (s.cascade t) o.data
  if o.opcode = 5 then .error (9, 0x26)
  else if o.opcode = 1 then s.assocInsert nx t e
  else
    match (s.unitSets t).findSome? (fun h => (s.findRow nx t h e).map (fun x => (h, x))) with
    | none => .error (9, 0x20)
    | some (h, l, ctl) => if o.opcode = 2 then s.assocDelete nx t h l ctl else s.assocChange nx t h l ctl e.res

/-! ### Controller placement (R176, R180, R181) -/

/-- The logical row of row `r` of array `a` in the chain headed by `h`. -/
def State.logicalRow (s : State) (t h a r : Nat) : Nat := 32768 * (((s.unitList t h).findIdx? (fun x => x == a)).getD 0) + r

/-- Whether the priorities of a chain stand (R164). -/
def State.orderOk (s : State) (t h : Nat) : Bool := neverRises ((s.chainRows t h).map (fun x => x.2))

/-- A move of row `l` of the set of head `h` to row `q` of the set of head `g` (R178, R179): the copy, then the source cleared. -/
def State.moveAcross (s : State) (t h l g q : Nat) : State :=
  let n := s.cascade t
  let a := s.rowArray t h l
  let s1 := (s.replicas t g).foldl (fun s m => s.copyRow n a (l % 32768) (s.rowArray t m q) (q % 32768)) s
  (s1.replicas t h).foldl (fun s m => (s.clearRow n (s.rowArray t m l) (l % 32768)).count .associativeArrayMoves (s.rowArray t m l)) s1

/-- An operation on row INDEX of array `a` of table `t`. -/
def State.assocController (s : State) (nx : Bool) (t a : Nat) (o : BatchOp) : OpOut :=
  let h := s.chainHead a
  let l := s.logicalRow t h a o.index
  let ctl := rowCtl s.mem a o.index
  let acl := s.fld (Reg.assocTableCfg t) Fld.assocTableCfg_kind != 1
  let e := assocEntry (s.cascade t) o.data
  if 32768 ≤ o.index ∨ !(s.unitHead t h) then .error (9, 0x0B)
  else
    match o.opcode with
    | 1 =>
      if !s.entryOk t h e then .error (5, 0x0C)
      else if (s.findRow nx t h e).isSome then .error (9, 0x21)
      else if bit ctl 63 then .error (9, 0x26)
      else
        let u := s.putEntryRow nx t h l e
        if !s.setTakes t h e || !u.orderOk t h then .error (9, 0x23) else .ok u
    | 5 =>
      let b := beAt o.data 0 2
      let q := beAt o.data 2 4
      let g := s.chainHead b
      let q2 := s.logicalRow t g b q
      let x : AssocEntry := { value := s.unitValue (s.cascade t) a o.index, mask := s.unitMask (s.cascade t) a o.index, prio := bits ctl 43 32 - (if acl then 0 else bits (s.part g) 72 61), res := 0 }
      if !bit ctl 63 || !s.opSees nx 62 ctl then .error (9, 0x20)
      else if 128 ≤ b ∨ 32768 ≤ q then .error (9, 0x0B)
      else if !(s.unitHead t g) || bit (rowCtl s.mem b q) 63 || !s.setTakes t g x then .error (9, 0x23)
      else
        let lo := min l q2
        let hi := max l q2
        let crosses := acl && h == g && (s.chainRows t h).any (fun y => decide (lo < y.1) && decide (y.1 < hi) && bits y.2 43 32 == bits ctl 43 32)
        let u := s.moveAcross t h l g q2
        if crosses || !u.orderOk t g then .error (9, 0x23) else .ok u
    | _ =>
      if !bit ctl 63 || !s.opSees nx 62 ctl then .error (9, 0x20)
      else if o.opcode = 2 then s.assocDelete nx t h l ctl
      else s.assocChange nx t h l ctl e.res

/-- An operation of target 3. TABLE names an associative table under firmware placement, else an array of a table under controller placement. -/
def State.assocOp (s : State) (nx : Bool) (o : BatchOp) : OpOut :=
  let kind (t : Nat) : Nat := s.fld (Reg.assocTableCfg t) Fld.assocTableCfg_kind
  let placed (t : Nat) : Bool := s.flag (Reg.assocTableCfg t) Fld.assocTableCfg_placement
  let len (n : Nat) : Bool := if o.opcode = 5 then o.data.length == 8 else o.data.length == assocLen n
  if o.opcode = 0 ∨ o.opcode = 4 ∨ 5 < o.opcode then .error (2, 0x0A)
  else if o.table < 64 ∧ kind o.table ≠ 0 ∧ !placed o.table then
    if o.opcode ≠ 5 ∧ !len (s.cascade o.table) then .error (2, 0x0A) else s.assocFirmware nx o.table o
  else if o.table < 128 ∧ bit (s.part o.table) 127 ∧ placed (s.partTable o.table) then
    if !len (s.cascade (s.partTable o.table)) then .error (2, 0x0A) else s.assocController nx (s.partTable o.table) o.table o
  else .error (9, 0x0B)

end Sys2Proof.Machine
end

