-- ==== Sys2Proof/Machine/Batch.lean ====
section
/-! DEFINITION. FCP table batches (R347, R348, R353, R399 to R401, R465, R468): receiving, checking, the flip at the lookup boundary, and the batch log. -/

namespace Sys2Proof.Machine

/-! ### Hash and flow tables (Table 17.6 targets 1 and 2) -/

/-- The RESULT a batch writes: the firmware sets the timestamp of an aged table, and MSTART and MOVES of a learning one (R204, R400). -/
def State.hashResNew (s : State) (t res : Nat) : Nat :=
  if s.flag (Reg.emhashTableCfg t) Fld.emhashTableCfg_aged then
    if s.flag (Reg.tableAgeCfg t) Fld.tableAgeCfg_learnTable then macResult s.ageNow false 0 s.moveNow (res % 2 ^ 20) else 2 ^ 32 * s.ageNow + res % 2 ^ 32
  else res

/-- An operation of target 1. -/
def State.hashOp (s : State) (nx : Bool) (o : BatchOp) : OpOut :=
  let t := o.table
  let c := Reg.emhashTableCfg t
  let w := s.fld c Fld.emhashTableCfg_width
  let n := widthBytes w
  let key := o.data.take n
  let res := beAt o.data (n + 2) 6
  if o.opcode = 0 ∨ 3 < o.opcode ∨ !(o.data.length == n + 8 || (o.opcode == 2 && o.data.length == n)) then .error (2, 0x0A)
  else if 255 < t ∨ s.fld c Fld.emhashTableCfg_bankCnt = 0 then .error (9, 0x0B)
  else if o.opcode ≠ 2 ∧ !s.hashResOk t res then .error (5, 0x0C)
  else
    let ms := s.hashFind s.mem t none key
    if !nx ∧ ms.any (fun a => split 58 (tblWord s.mem a)) then .error (9, 0x24)
    else
      match o.opcode, ms.find? (fun a => s.opSees nx 58 (tblWord s.mem a)) with
      | 1, none =>
        match s.hashPlace true true t w key with
        | (none, _) => .error (10, 0x22)
        | (some a, s) => .ok (s.putEntry true a (entryWords (2 ^ 63 + 2 ^ 61 * w + 2 ^ 59 * b2n o.static + s.newVis nx 58 + 2 ^ 48 * t + s.hashResNew t res) w key))
      | 2, some a => .ok (match s.opHide nx 58 (tblWord s.mem a) with | some v => s.put true a v | none => s.hashRemove true a)
      | _, none => .error (9, 0x20)
      | _, some a =>
        let v := tblWord s.mem a
        if s.opBars nx 58 v then .error (9, 0x24)
        else .ok (s.put true a (setBits (setBits v 0 48 (s.hashResNew t res)) 59 1 (b2n (if o.opcode = 1 then o.static else bit v 59))))

/-- Every entry of flow table `f` with a key. -/
def State.flowAll (s : State) (f : Nat) (key : Bytes) : List Nat :=
  let c := s.flowCands f key
  ([c.1, c.2].flatMap (fun b => (List.range 8).map (fun w => hbmAddr (b + 64 * w)))).filter (fun a =>
    let h := tblWord s.mem a
    bit h 63 && bits h 55 48 == f && tblBytes s.mem (a + 8) 40 == flowKey key)

/-- An operation of target 2. -/
def State.flowOp (s : State) (nx : Bool) (o : BatchOp) : OpOut :=
  let f := o.table
  let key := o.data.take (s.fld (Reg.flowTableCfg f) Fld.flowTableCfg_keyLen)
  let res := beAt o.data 42 6
  if o.opcode = 0 ∨ 3 < o.opcode ∨ !(o.data.length == 48 || (o.opcode == 2 && o.data.length == 40)) then .error (2, 0x0A)
  else if 15 < f ∨ !s.flag (Reg.flowTableCfg f) Fld.flowTableCfg_valid then .error (9, 0x0B)
  else if o.opcode ≠ 2 ∧ !shortOk res then .error (5, 0x0C)
  else
    let ms := s.flowAll f key
    if !nx ∧ ms.any (fun a => split 59 (tblWord s.mem a)) then .error (9, 0x24)
    else
      match o.opcode, ms.find? (fun a => s.opSees nx 59 (tblWord s.mem a)) with
      | 1, none =>
        match s.flowPlace true f key with
        | (none, _) => .error (10, 0x22)
        | (some a, s) => .ok (s.putFlow true a (2 ^ 63 + 2 ^ 60 * b2n o.static + s.newVis nx 59 + 2 ^ 48 * f + res) key)
      | 2, some a => .ok (match s.opHide nx 59 (tblWord s.mem a) with | some v => s.put true a v | none => s.flowRemove true a)
      | _, none => .error (9, 0x20)
      | _, some a =>
        let v := tblWord s.mem a
        if s.opBars nx 59 v then .error (9, 0x24)
        else .ok (s.put true a (setBits (setBits v 0 48 res) 60 1 (b2n (if o.opcode = 1 then o.static else bit v 60))))

/-! ### Direct-index tables (target 4) -/

/-- Words of a table below `hi` from `lo` on that hold anything. -/
def State.heldWords (s : State) (lo hi : Nat) : List Nat := wordsOf (s.mem.filter (fun c => decide (lo ≤ c.1) && decide (c.1 < hi))) none

/-- Whether a visible next hop or a mirror session names encapsulation entry `i` (R195). -/
def State.encapNamed (s : State) (i : Nat) : Bool :=
  (s.heldWords (nhAddr 0) (nhAddr 1048576)).any (fun a => let w := tblWord s.mem a; bit w 63 && (visible w 62 s.epoch || (s.otherLive && visible w 62 s.epochOther)) && bits w 57 39 == i)
    || (List.range 64).any (fun m => s.flag (Reg.mirrorSession m) Fld.mirrorSession_valid && s.fld (Reg.mirrorSession m) Fld.mirrorSession_encap == i)

/-- The generation of an index goes into every next hop and replication element that names it (R195, R309). -/
def State.genCopy (s : State) (i g : Nat) : State :=
  let s := (s.heldWords (nhAddr 0) (nhAddr 1048576)).foldl (fun s a => let w := tblWord s.mem a; if bits w 57 39 = i then s.put true a (setBits w 31 8 g) else s) s
  (s.heldWords 0x0001_5150_0000 0x0001_51D0_0000).foldl (fun s a => let w := tblWord s.mem a; if bits w 48 30 = i then s.put true a (setBits w 22 8 g) else s) s

/-- The extensions a head of a KIND takes (R188). -/
def encapExts (w : Nat) : List Nat := match bits w 54 52 with | 2 => [1] | 3 => [1, 2] | _ => []

/-- An insert into the encapsulation table (R188, R195): GEN is the firmware's, one more on a reused index, and its extensions take it. -/
def State.encapInsert (s : State) (i w0 w1 : Nat) : OpOut :=
  let a := encapAddr i
  let old := tblWord s.mem a
  let isExt (j : Nat) : Bool := let x := tblWord s.mem (encapAddr (i + j)); bit x 63 && bits x 54 52 == 4 && !s.lookup.encapHold.contains (i + j)
  if bit old 63 then .error (9, 0x26)
  else if !Win.encap.ok 0 (setBits w0 63 1 1) ∨ i = 0 ∨ !(encapExts w0).all isExt then .error (5, 0x0C)
  else
    let g := if old = 0 ∧ tblWord s.mem (a + 8) = 0 then 0 else (bits old 62 55 + 1) % 256
    let s := (s.put true (a + 8) (Win.encap.clean 8 w1)).put true a (setBits (setBits w0 63 1 1) 55 8 g)
    let s := (encapExts w0).foldl (fun s j => let b := encapAddr (i + j); s.put true b (setBits (tblWord s.mem b) 55 8 g)) s
    .ok (s.genCopy i g)

/-- An operation of target 4 on the encapsulation table. A deleted entry stays readable for ENCAP_HOLD. -/
def State.encapOp (s : State) (o : BatchOp) : OpOut :=
  if 524288 ≤ o.index then .error (9, 0x0B)
  else if o.opcode ≠ 2 then s.encapInsert o.index (beAt o.data 0 8) (beAt o.data 8 8)
  else if !bit (tblWord s.mem (encapAddr o.index)) 63 || s.lookup.encapHold.contains o.index then .error (9, 0x20)
  else if s.encapNamed o.index then .error (9, 0x25)
  else .ok { s with lookup := { s.lookup with encapHold := s.lookup.encapHold ++ [o.index] } }

/-- A label, next-hop or bridge-domain table: its window, first address, bytes of an entry and entries. -/
def diTable (t : Nat) : Option (Win × Nat × Nat × Nat) :=
  if t = 0 then some (.label, labelAddr 0, 8, 1048576) else if t = 1 then some (.nextHop, nhAddr 0, 8, 1048576)
  else if t = 3 then some (.bridgeDomain, bdAddr 0, 16, 65536) else none

/-- An operation of target 4: an insert or a write of words writes the entry (log 25). -/
def State.diOp (s : State) (nx : Bool) (o : BatchOp) : OpOut :=
  let len := if o.table = 2 ∨ o.table = 3 then 16 else 8
  if !(o.opcode == 1 || o.opcode == 2 || o.opcode == 4) ∨ !(o.data.length == len || (o.opcode == 2 && o.data.isEmpty)) then .error (2, 0x0A)
  else if o.table = 2 then s.encapOp o
  else
    match diTable o.table with
    | none => .error (9, 0x0B)
    | some (win, base, size, n) =>
      if n ≤ o.index then .error (9, 0x0B)
      else
        let a := base + size * o.index
        let old := tblWord s.mem a
        if o.opcode ≠ 2 then
          let w := win.clean 0 (setBits (beAt o.data 0 8) 61 3 7)
          let w := if o.table = 1 then setBits w 31 8 (s.encapGen (bits w 57 39)) else w
          if !win.ok 0 w ∨ (o.table = 3 ∧ bit w 52 ∧ !s.macTableOk (bits w 60 53)) then .error (5, 0x0C)
          else if bit old 63 ∧ s.opBars nx 62 old then .error (9, 0x24)
          else .ok (s.put true a (setBits (setBits w 61 2 0) 61 2 (s.newVis nx 62 / 2 ^ 61)))
        else if !bit old 63 || !s.opSees nx 62 old then .error (9, 0x20)
        else if !nx ∧ split 62 old then .error (9, 0x24)
        else .ok (s.put true a (match s.opHide nx 62 old with | some v => v | none => setBits old 61 3 0))

/-! ### Patterns (target 5) -/

/-- The descriptor and the slot of pattern `i` of cluster `c` (Table 9.7). -/
def patDescAddr (c i : Nat) : Nat := 0x0001_3000_0000 + 0x0010_0000 * c + 8 * i
def patSlotAddr (c i : Nat) : Nat := 0x0001_3001_0000 + 0x0010_0000 * c + 32 * i

/-- An operation of target 5: TABLE is the cluster. The bytes, LEN and SET of a valid pattern do not change; TAG and NOCASE may (R233). -/
def State.patternOp (s : State) (nx : Bool) (o : BatchOp) : OpOut :=
  if o.opcode = 0 ∨ 3 < o.opcode ∨ !(o.data.length == 40 || (o.opcode == 2 && o.data.isEmpty)) then .error (2, 0x0A)
  else if 8 ≤ o.table ∨ 8192 ≤ o.index then .error (9, 0x0B)
  else
    let a := patDescAddr o.table o.index
    let old := tblWord s.mem a
    let w := Win.patDesc.clean 0 (beAt o.data 0 8)
    let n := bits old 59 55 + 1
    let same := bits old 59 45 == bits w 59 45 && (tblBytes s.mem (patSlotAddr o.table o.index) 32).take n == (o.data.drop 8).take n
    if o.opcode = 1 ∧ !bit old 63 then
      let s := (List.range 4).foldl (fun s j => s.put true (patSlotAddr o.table o.index + 8 * j) (beAt o.data (8 + 8 * j) 8)) s
      .ok (s.put true a (setBits (setBits w 61 3 4) 61 2 (s.newVis nx 62 / 2 ^ 61)))
    else if !bit old 63 || !s.opSees nx 62 old then .error (9, 0x20)
    else if o.opcode = 2 then
      if !nx ∧ split 62 old then .error (9, 0x24)
      else .ok (s.put true a (match s.opHide nx 62 old with | some v => v | none => setBits old 61 3 0))
    else if !same then .error (9, 0x26)
    else if s.opBars nx 62 old then .error (9, 0x24)
    else .ok (s.put true a (setBits (setBits old 29 16 (bits w 44 29)) 60 1 (bits w 60 60)))

/-! ### Words (target 6) -/

/-- Windows that target 6 writes (R309, R465, Table 8.6). -/
def Win.byBatch : Win → Bool
  | .profile | .ecmp | .lag | .member | .meterProfile | .meterState | .ipv6Src | .replGroup | .replElem => true
  | _ => false

/-- A word of target 6 at a register. -/
def State.batchReg (s : State) (nx : Bool) (d : RegDesc) (a : Nat) (w : Word) : OpOut :=
  match bankedLow a with
  | some lo =>
    let x := BitVec.ofNat 64 ((s.reg a).toNat % 2 ^ lo + 2 ^ lo * (w.toNat / 2 ^ lo))
    if !d.legalAll x ∨ !crossOk a x.toNat then .error (5, 0x0C)
    else if nx then .ok (s.setRegPar (!s.curOdd) a x)
    else if s.regPar true a ≠ s.regPar false a then .error (9, 0x24)
    else .ok ((s.setRegPar false a x).setRegPar true a x)
  | none =>
    if !d.fields.any (fun f => f.writer == .batch) then .error (9, 0x0B)
    else if !d.legalAll w ∨ !crossOk a w.toNat then .error (5, 0x0C)
    else if nx then .error (9, 0x24)
    else .ok (s.setReg a (d.fields.foldl (fun acc f => putField f.field (getField f.field w) acc) 0))

/-- A word of target 6. -/
def State.batchWord (s : State) (nx : Bool) (a : Nat) (w : Word) : OpOut :=
  match findReg a with
  | some d => s.batchReg nx d a w
  | none =>
    match winOf a with
    | some (x, i, o) =>
      if !x.byBatch then .error (9, 0x0B)
      else if (x = .profile ∧ i = 0) ∨ !x.ok o w.toNat then .error (5, 0x0C)
      else if nx then .error (9, 0x24)
      else .ok (s.winLoad a (if x = .replElem then setBits w.toNat 22 8 (s.encapGen (bits w.toNat 48 30)) else w.toNat))
    | none => .error (9, 0x0B)

/-- Words at consecutive addresses. -/
def State.batchWords (nx : Bool) : Nat → List Word → State → OpOut
  | _, [], s => .ok s
  | a, w :: ws, s => match s.batchWord nx a w with | .ok t => State.batchWords nx (a + 8) ws t | .error e => .error e

/-- An operation of target 6. -/
def State.wordsOp (s : State) (nx : Bool) (o : BatchOp) : OpOut :=
  let a := beAt o.data 0 6
  if o.opcode ≠ 4 ∨ o.data.length < 16 ∨ beAt o.data 6 2 ≠ 0 then .error (2, 0x0A)
  else if a % 8 ≠ 0 then .error (9, 0x0B)
  else State.batchWords nx a (Sys2Proof.Machine.wordsIn (o.data.length / 8 - 1) (o.data.drop 8)) s

/-! ### A batch -/

/-- The addresses by which an operation reaches a unit that may be under test (R441). -/
def opReaches (o : BatchOp) : Nat := if o.target = 5 then patDescAddr o.table o.index else if o.target = 3 ∧ o.table < 128 then rowAddr o.table o.index else if o.target = 6 then beAt o.data 0 6 else 0

/-- One operation. -/
def State.batchOp (s : State) (nx : Bool) (o : BatchOp) : OpOut :=
  if o.data.length % 8 ≠ 0 then .error (2, 0x0A)
  else if o.target ≠ 3 ∧ s.underTest (opReaches o) then .error (4, 0)
  else match o.target with
    | 1 => s.hashOp nx o
    | 2 => s.flowOp nx o
    | 3 => s.assocOp nx o
    | 4 => s.diOp nx o
    | 5 => s.patternOp nx o
    | 6 => s.wordsOp nx o
    | _ => .error (2, 0x0A)

/-- The operations of a batch in order: the state after all, or the number of the first that is refused with its status and reason. -/
def State.batchOps (nx : Bool) : Nat → List BatchOp → State → Except (Nat × Nat × Nat) State
  | _, [], s => .ok s
  | i, o :: l, s => match s.batchOp nx o with | .ok t => State.batchOps nx (i + 1) l t | .error e => .error (i, e)

/-- The operations of a batch, in the order of its segments, which are held by their numbers. -/
def Batch.ops (b : Batch) : List BatchOp := (b.segments.map (fun x => x.2)).flatten

/-- The meter profiles a word operation writes. -/
def opMeters (o : BatchOp) : List Nat :=
  if o.target ≠ 6 then [] else (List.range (o.data.length / 8 - 1)).filterMap (fun j => match winOf (beAt o.data 0 6 + 8 * j) with | some (.meterProfile, i, _) => some i | _ => none)

/-- The state after all the operations, unless one wrote a meter profile that the whole batch leaves short of R150. -/
def State.batchMeters (ops : List BatchOp) (t : State) : Except (Nat × Nat × Nat) State :=
  match ((List.range ops.length).zip ops).find? (fun x => (opMeters x.2).any (fun i => !meterProfOk t.mem i)) with
  | some x => .error (x.1, 5, 0x0C)
  | none => .ok t

/-- A whole batch (R347, R353, R399): a next-epoch batch stands only in OPEN. -/
def State.batchRun (s : State) (b : Batch) : Except (Nat × Nat × Nat) State :=
  if b.kind = 1 ∧ s.epochPhase ≠ 1 then .error (0, 6, 0) else match State.batchOps (b.kind == 1) 0 b.ops s with | .ok t => State.batchMeters b.ops t | .error e => .error e

/-- What table-full raises (R141, R176). -/
def State.batchFull (s : State) (b : Batch) (i : Nat) : State :=
  match b.ops[i]? with
  | some o => if o.target = 1 then s.insertFull o.table else if o.target = 3 then s.raise 0x0406 (natBe 1 o.table) else s
  | none => s

/-- The header by which a batch's reply names its request. -/
def Batch.header (b : Batch) : FcpHdr := { session := b.session, request := b.request, seq := 0, tagOk := true }

/-- BATCH_ACK (R468): batch number, first operation refused (numbered from 0), reason. -/
def ackBytes (number first reason : Nat) : Bytes := natBe 4 number ++ natBe 2 first ++ natBe 1 reason

/-- Sends BATCH_ACK. -/
def State.batchAck (s : State) (b : Batch) (status first reason : Nat) : State := s.answer b.header 0x23 status (ackBytes b.number first reason)

/-- A batch refused (R468): nothing of it applies. -/
def State.batchRefuse (s : State) (b : Batch) (e : Nat × Nat × Nat) : State :=
  let s := if e.2 = (10, 0x22) then s.batchFull b e.1 else if e.2.1 = 4 then s.count .controlBistBusyRefused else s
  s.batchAck b e.2.1 e.1 e.2.2

/-- The log of applied batches, 1,024 for each peer key (R401). -/
def State.logBatch (s : State) (b : Batch) : State :=
  let mine := s.fcp.log.filter (fun l => l.peer == b.peer)
  let old := if 1024 ≤ mine.length then (mine.head?).toList else []
  { s with fcp := { s.fcp with log := s.fcp.log.filter (fun l => !old.contains l) ++ [{ peer := b.peer, number := b.number, status := 0, reason := 0, firstBad := 0 }] } }

/-! ### Receiving (R399 to R401) -/

/-- A message of a batch, which is answered only when it is refused or answered from the log. -/
def State.batchMsg (s : State) (h : FcpHdr) (t : Nat) (act : State → Session → State) : State :=
  match s.fcpGate h with
  | (s, .drop) => s
  | (s, .again r) => s.send h.session r.type h.request r.status true false r.payload
  | (s, .take x) => match s.fcpDeny x t privWrite with | some st => s.answer h t st [] | none => act s x

/-- The most operations of a batch (R395, R399). -/
def Session.batchLimit (x : Session) : Nat := if x.version < 3 then 1024 else 4096

/-- BATCH_BEGIN (R399 to R401). -/
def batchBegin (h : FcpHdr) (number kind count : Nat) (s : State) : State :=
  s.batchMsg h 0x20 (fun s x =>
    match s.fcp.log.find? (fun l => l.peer == x.peer && l.number == number) with
    | some l => s.answer h 0x23 l.status (ackBytes number l.firstBad l.reason)
    | none =>
      if 1 < kind ∨ count = 0 ∨ x.batchLimit < count then s.answer h 0x23 2 (ackBytes number 0 0x0A)
      else if 8 ≤ (s.fcp.waiting.filter (fun b => b.session == x.id)).length then s.answer h 0x23 4 (ackBytes number 0 0)
      else
        let b : Batch := { session := x.id, request := h.request, peer := x.peer, number := number, kind := kind, count := count, segments := [], ended := none }
        { s with fcp := { s.fcp with open_ := s.fcp.open_.filter (fun (o : Batch) => !(o.session == x.id && o.number == number)) ++ [b] } })

/-- An open batch whose segments are all there joins the queue; one that holds another number of operations than announced is refused. -/
def State.batchSettle (s : State) (b : Batch) : State :=
  let others := s.fcp.open_.filter (fun (o : Batch) => !(o.session == b.session && o.number == b.number))
  match b.ended with
  | none => { s with fcp := { s.fcp with open_ := others ++ [b] } }
  | some n =>
    if b.segments.length < n then { s with fcp := { s.fcp with open_ := others ++ [b] } }
    else
      let s := { s with fcp := { s.fcp with open_ := others } }
      if b.ops.length ≠ b.count then s.batchAck b 2 0 0x0A
      else if 8 ≤ (s.fcp.waiting.filter (fun (o : Batch) => o.session == b.session)).length then s.batchAck b 4 0 0
      else { s with fcp := { s.fcp with waiting := s.fcp.waiting ++ [b] } }

/-- The open batch of a session by number. -/
def State.openBatch (s : State) (sid number : Nat) : Option Batch := s.fcp.open_.find? (fun b => b.session == sid && b.number == number)

/-- BATCH_DATA (R399). -/
def batchData (h : FcpHdr) (number segment : Nat) (ops : List BatchOp) (s : State) : State :=
  s.batchMsg h 0x21 (fun s x =>
    match s.openBatch x.id number with
    | none => s.answer h 0x23 2 (ackBytes number 0 0x0A)
    | some b => s.batchSettle { b with segments := minsert segment ops (mdrop segment b.segments) })

/-- BATCH_END (R399): the reply to it is BATCH_ACK. -/
def batchEnd (h : FcpHdr) (number segments : Nat) (s : State) : State :=
  s.batchMsg h 0x22 (fun s x =>
    match s.openBatch x.id number with
    | none => s.answer h 0x23 2 (ackBytes number 0 0x0A)
    | some b => s.batchSettle { b with request := h.request, ended := some segments })

/-- BATCH_SEGMENT_TIMEOUT (R399). -/
def batchSegmentTimeout (sid number : Nat) (s : State) : State :=
  match s.openBatch sid number with
  | none => s
  | some b => State.batchAck { s with fcp := { s.fcp with open_ := s.fcp.open_.filter (fun (o : Batch) => !(o.session == sid && o.number == number)) } } b 2 0 0

/-! ### Applying (R348, R353) -/

/-- The writes of a batch that no lookup can see (R348): rows that are not valid yet take VALUE, MASK, PRIORITY and RESULT, and slots of invalid patterns their
bytes, as the batch leaves them in `f`. -/
def State.unseen (s f : State) : State :=
  let rows := (f.heldWords 0x0001_1000_0000 0x0001_1800_0000).filter (fun a => a % 0x20 == 0x18 && bit (tblWord f.mem a) 63 && !bit (tblWord s.mem a) 63)
  let s1 := rows.foldl (fun u a =>
    (((u.put true (a - 0x18) (tblWord f.mem (a - 0x18))).put true (a - 0x10) (tblWord f.mem (a - 0x10))).put true (a - 8) (tblWord f.mem (a - 8))).put true a (setBits (tblWord f.mem a) 63 1 0)) s
  let descs := (f.heldWords 0x0001_3000_0000 0x0001_3080_0000).filter (fun a => decide ((a - 0x0001_3000_0000) % 0x0010_0000 < 0x1_0000) && bit (tblWord f.mem a) 63 && !bit (tblWord s.mem a) 63)
  descs.foldl (fun u a =>
    let slot := a - a % 0x0010_0000 + 0x1_0000 + 4 * (a % 0x0010_0000)
    (List.range 4).foldl (fun u j => u.put true (slot + 8 * j) (tblWord f.mem (slot + 8 * j))) u) s1

/-- BATCH_APPLY (R399, R400): the oldest batch that waits is checked whole; it is refused, or its flip waits for the boundary. -/
def batchApply (s : State) : State :=
  if s.fcp.flip.isSome ∨ !s.boot.fwRunning then s
  else
    match s.fcp.waiting with
    | [] => s
    | b :: rest =>
      let s := { s with fcp := { s.fcp with waiting := rest } }
      match s.batchRun b with
      | .error e => s.batchRefuse b e
      | .ok f => let s := s.unseen f; { s with fcp := { s.fcp with flip := some b } }

/-- Whether every pass that took its slot before the boundary has ended its ingress lookups. -/
def State.passesEnded (s : State) : Bool := s.lookup.flowWait.isEmpty && s.lookup.assocWait.isEmpty && s.lookup.lookQ.all (fun p => p.2.isEmpty)

/-- LOOKUP_BOUNDARY (R348, R353): the flip is applied, logged and acknowledged; a next-epoch batch whose boundary falls after the switch is refused. -/
def lookupBoundary (s : State) : State :=
  match s.fcp.flip with
  | none => s
  | some b =>
    if !s.boundaryDue || !s.passesEnded then s
    else
      let s := { s with fcp := { s.fcp with flip := none, lastFlip := some s.time.stepFree } }
      match s.batchRun b with
      | .error e => s.batchRefuse b e
      | .ok f => (f.logBatch b).batchAck b 0 0 0

def execBatchBegin (h : FcpHdr) (n k c : Nat) (s : State) : Out := s.act (batchBegin h n k c s)
def execBatchData (h : FcpHdr) (n g : Nat) (o : List BatchOp) (s : State) : Out := s.act (batchData h n g o s)
def execBatchEnd (h : FcpHdr) (n g : Nat) (s : State) : Out := s.act (batchEnd h n g s)
def execBatchApply (s : State) : Out := s.act (batchApply s)
def execBatchSegmentTimeout (i n : Nat) (s : State) : Out := s.act (batchSegmentTimeout i n s)
def execLookupBoundary (s : State) : Out := s.act (lookupBoundary s)

end Sys2Proof.Machine
end

