-- ==== Sys2Proof/Machine/RegOps.lean ====
section
/-! DEFINITION. Register access by FCP and JTAG (R8, R63, R270, R359, R403, R441): what a read returns, when a write is refused, and what a write starts. -/

namespace Sys2Proof.Machine

/-! ### Reads -/

/-- The status words of units that a unit under test answers as ever (R441). -/
def unitStatus (a : Nat) : Bool :=
  (decide (0x3001_0010 ≤ a) && decide (a < 0x3001_2010) && (a - 0x3001_0010) % 0x40 == 0)
    || (decide (0x4010_0008 ≤ a) && decide (a < 0x4018_0008) && (a - 0x4010_0008) % 0x1_0000 == 0)
    || (decide (0x6000_0008 ≤ a) && decide (a < 0x6080_0008) && (a - 0x6000_0008) % 0x4000 == 0)

/-- The HBM controller a window address reaches (R270). -/
def windowCtl (a : Nat) : Option Nat :=
  if inTableHbm a then some (tableCtl (a - 0x0100_0000_0000)) else if inBufferHbm a then some (128 + (a - 0x0200_0000_0000) / 2 ^ 28) else none

/-- Why word `a` cannot be read, as a status: 9 in the firmware region or where the pseudo-channel does not serve, 4 in a unit under test, else 0. -/
def State.readBar (s : State) (a : Nat) : Nat :=
  if inFwRegion a then 9
  else if s.underTest a && !unitStatus a then 4
  else match windowCtl a with | some x => if s.hbmServes x then 0 else 9 | none => 0

/-- The controller whose HBM_SYNDROME is at `a`. -/
def syndromeOf (a : Nat) : Option Nat :=
  if 0x6000_0010 ≤ a ∧ a < 0x6080_0010 ∧ (a - 0x6000_0010) % 0x4000 = 0 then some ((a - 0x6000_0010) / 0x4000) else none

/-- A word read (R403): TIME_NOW latches the time of day (R359), a read of HBM_SYNDROME by a session is the diagnosis read (R284), and buffer memory, which
the model does not hold, reads as a free value. -/
def State.readWord (s : State) (diag : Bool) (a : Nat) : Word × State :=
  if a = Reg.timeNow then
    let s := (s.setFld Reg.timeNow Fld.timeNow_seconds (s.tod / 1000000000)).setFld Reg.timeNowNs Fld.timeNowNs_nanoseconds (s.tod % 1000000000)
    (s.reg a, s)
  else if inBufferHbm a then (Config.freeWord s.draw.1, s.draw.2)
  else match syndromeOf a with
    | some x => (s.mgmtRead a, if diag then s.hbmDiagnosis x else s)
    | none => (s.mgmtRead a, s)

/-- `n` words from `a` on, each counted in the filters of its master and privilege (R422). -/
def State.readWords (s : State) (diag : Bool) (priv master : Nat) : Nat → Nat → List Word × State
  | _, 0 => ([], s)
  | a, n + 1 =>
    let r := (s.filterCount 1 priv master (some a) none).readWord diag a
    let t := State.readWords r.2 diag priv master (a + 8) n
    (r.1 :: t.1, t.2)

/-- The first status that is not 0. -/
def firstBar : List Nat → Nat
  | [] => 0
  | n :: l => if n = 0 then firstBar l else n

/-- A refusal because of a unit under test is counted (R441). -/
def State.countBusy (s : State) (st : Nat) : State := if st = 4 then s.count .controlBistBusyRefused else s

/-- The privilege of the session of a request. -/
def State.privOf (s : State) (h : FcpHdr) : Nat := match s.session h.session with | some x => x.priv | none => 0

/-- REG_READ (R403). -/
def regRead (h : FcpHdr) (addr count : Nat) (s : State) : State :=
  s.fcpServe h 0x10 privWrite (fun s =>
    if count = 0 ∨ 64 < count then (s, 2, [])
    else
      let bar := firstBar ((List.range count).map (fun i => s.readBar (addr + 8 * i)))
      if bar ≠ 0 then (s.countBusy bar, bar, [])
      else
        let r := s.readWords true (s.privOf h) (h.session - 1) addr count
        (r.2, 0, (r.1.map (fun w => natBe 8 w.toNat)).flatten))

/-! ### Which writes are refused -/

/-- The bits a mask leaves of a word, over the old one. -/
def masked (old v mask : Word) : Word := (old &&& ~~~mask) ||| (v &&& mask)

/-- Whether a mask touches a field. -/
def FieldDesc.touched (f : FieldDesc) (mask : Word) : Bool := getField f.field mask != 0

/-- The bits of a register that some field holds. -/
def RegDesc.held (d : RegDesc) : Word := d.fields.foldl (fun w f => putField f.field (2 ^ f.field.width - 1) w) 0

/-- The register's word after a masked write (Table 0.4). -/
def RegDesc.maskedWrite (d : RegDesc) (old v mask : Word) : Word :=
  d.fields.foldl (fun acc f =>
    let o := getField f.field old
    let x := getField f.field (v &&& mask)
    putField f.field (match f.acc with | .rw | .wo => getField f.field (masked old v mask) | .w1c => o &&& (2 ^ f.field.width - 1 - x) | .w1s => o ||| x | _ => o) acc) 0

/-- The index of `a` among `n` registers `st` bytes apart from `b` on. -/
def nth (b n st a : Nat) : Option Nat := if b ≤ a ∧ (a - b) % st = 0 ∧ (a - b) / st < n then some ((a - b) / st) else none

/-- Whether a field of a shaper assignment names a shaper (Table 12.4). -/
def assignOk (w : Nat) : Bool := match bits w 63 62 with | 0 => decide (bits w 61 45 < 16384) | 1 => decide (bits w 61 45 < 65536) | 2 => decide (bits w 61 45 < 512) | _ => false

/-- Rules on whole words: the sum of the floors of GOV_CLASS, the thresholds of R387, shaper words (Table 12.5) and assignments. `w` is the word as it
would stand, `x` the bits written as 1. -/
def wordRule (a : Nat) (w x : Nat) : Bool :=
  if a = Reg.govClass then decide (bits w 63 53 + bits w 52 42 + bits w 41 31 ≤ 1024)
  else if a = Reg.govThermCfg then decide (bits w 63 56 + 2 ≤ bits w 55 48) && decide (bits w 55 48 + 2 ≤ bits w 47 40) && decide (bits w 47 40 + 2 ≤ bits w 39 32)
  else if a = Reg.trafficShaperAssign then !bit x 0 || assignOk w
  else match nth (Reg.trafficShaperProfileHi 0) 4096 0x10 a with
    | some i => i == 0 || profHiOk w
    | none => match nth (Reg.trafficShaperProfileLo 0) 4096 0x10 a with
      | some i => i == 0 || profLoOk w
      | none => true

/-- Whether a write starts a shaper sweep (R304). -/
def startsSweep (a x : Nat) : Bool :=
  (a == Reg.trafficShaperAssign && bit x 0) || (match nth (Reg.trafficShaperProfileHi 1) 4095 0x10 a with | some _ => true | none => false)
    || (match nth (Reg.trafficShaperProfileLo 1) 4095 0x10 a with | some _ => true | none => false)

/-- Whether the time unit takes a write at `a` (R366). -/
def State.timeTakes (s : State) (a : Nat) : Bool :=
  if a = Reg.timeAdj then s.softMay else if a = Reg.timeFreq then s.softMay || s.timeList.contains 4 else true

/-- The status with which a masked word is refused, 0 when it is not (R403, R304, R366, R441). -/
def State.writeBar (s : State) (a : Nat) (m : MaskedWord) : Nat :=
  match s.regAt a with
  | none => 9
  | some d =>
    if s.underTest a && (nth (Reg.engineClusterCtrl 0) 8 0x1_0000 a).isNone then 4
    else if m.mask &&& ~~~d.held ≠ 0 ∨ d.fields.any (fun f => f.touched m.mask && !(f.writable && f.writer == .host)) then 9
    else
      let w := masked (s.reg a) m.value m.mask
      if d.fields.any (fun f => f.touched m.mask && (f.acc == .rw || f.acc == .wo) && !f.ok (getField f.field w)) then 5
      else if !wordRule a w.toNat (m.value &&& m.mask).toNat then 5
      else if m.mask ≠ 0 ∧ ((s.flag Reg.trafficShaperSweep Fld.trafficShaperSweep_busy ∧ startsSweep a (m.value &&& m.mask).toNat) ∨ !s.timeTakes a) then 9
      else 0

/-! ### What a write starts -/

/-- A register's word as a masked write leaves it. -/
def State.storeReg (s : State) (a : Nat) (m : MaskedWord) : State :=
  match s.regAt a with | some d => s.setReg a (d.maskedWrite (s.reg a) m.value m.mask) | none => s

/-- Key `i` of the staging registers of an SA (Table 4.1): KEY0 holds the most significant bytes. -/
def State.saStageKey (s : State) (p c a i : Nat) (m : MaskedWord) : State :=
  let x := s.sa p c a
  let lo := 64 * (3 - i)
  s.setSa p c a { x with keyStage := setBits x.keyStage lo 64 (masked (BitVec.ofNat 64 (x.keyStage / 2 ^ lo)) m.value m.mask).toNat }

/-- Word `i` of the salt: SALT1 holds the last 32 bits in its upper half. -/
def State.saStageSalt (s : State) (p c a i : Nat) (m : MaskedWord) : State :=
  let x := s.sa p c a
  if i = 0 then s.setSa p c a { x with saltStage := setBits x.saltStage 32 64 (masked (BitVec.ofNat 64 (x.saltStage / 2 ^ 32)) m.value m.mask).toNat }
  else s.setSa p c a { x with saltStage := setBits x.saltStage 0 32 ((masked (BitVec.ofNat 64 (2 ^ 32 * (x.saltStage % 2 ^ 32))) m.value m.mask).toNat / 2 ^ 32) }

/-- A word of an SA (R94 to R96): keys, salt and PN are staged, the PN only in state 0; INSTALL and RETIRE act. -/
def State.writeSa (s : State) (p c a o : Nat) (m : MaskedWord) : State :=
  let x := (m.value &&& m.mask).toNat
  if o < 0x20 then s.saStageKey p c a (o / 8) m
  else if o < 0x30 then s.saStageSalt p c a ((o - 0x20) / 8) m
  else if o = 0x30 then
    let s := s.storeReg (Reg.macsecSaCtrl p c a) m
    let s := if bit x 0 then install p c a s else s
    if bit x 1 then retire p c a s else s
  else if s.fld (Reg.macsecSaCtrl p c a) Fld.macsecSaCtrl_state ≠ 0 then s
  else
    let y := s.sa p c a
    s.setSa p c a { y with pnStage := some (masked (BitVec.ofNat 64 (y.pnStage.getD (s.saPn p c a))) m.value m.mask).toNat }

/-- The SA word at `a`: port, channel, AN and offset. -/
def saAt (a : Nat) : Option (Nat × Nat × Nat × Nat) :=
  if 0x1020_1000 ≤ a ∧ a < 0x1080_1000 then
    let o := (a - 0x1020_1000) % 0x1_0000
    if o < 0x8000 ∧ 0x40 ≤ o % 0x200 ∧ o % 0x200 < 0x140 then some ((a - 0x1020_1000) / 0x1_0000, o / 0x200, (o % 0x200 - 0x40) / 0x40, (o % 0x200 - 0x40) % 0x40) else none
  else none

/-- A word of a hatband (R308): its port and, of a bank's words, the bank. -/
def hatbandAt (a : Nat) : Option (Nat × Nat) :=
  if 0x5010_0000 ≤ a ∧ a < 0x501C_0000 then some ((a - 0x5010_0000) / 0x2000, (a - 0x5010_0000) % 0x2000 / 0x1000)
  else if 0x5008_0000 ≤ a ∧ a < 0x5008_3000 ∧ 0x20 ≤ (a - 0x5008_0000) % 0x80 ∧ (a - 0x5008_0000) % 0x80 < 0x60 then
    some ((a - 0x5008_0000) / 0x80, ((a - 0x5008_0000) % 0x80 - 0x20) / 0x20)
  else none

/-- A write to a line register that acts beyond its word. -/
def State.writeLine (s : State) (a : Nat) (m : MaskedWord) : Option State :=
  let x := (m.value &&& m.mask).toNat
  (nth (Reg.linePortCtrl 0) 96 0x1000 a).map (fun p =>
    let t := s.storeReg a m
    let t := if getField Fld.linePortCtrl_degThresh m.mask ≠ 0 then degThreshWrite p (t.fld a Fld.linePortCtrl_degThresh) t else t
    if bit m.mask.toNat 0 then adminUpWrite p (bit x 0) t else t)
  <|> (nth (Reg.lineFlexeCtrl 0) 12 0x1000 a).map (fun k => if bit x 0 then flexeSwitchWrite k s else s)
  <|> (if a = Reg.macsecAlarm then some (macsecAlarmClear (x % 32) s) else none)
  <|> (saAt a).map (fun q => s.writeSa q.1 q.2.1 q.2.2.1 q.2.2.2 m)

/-- A write to a register of the lookup, engine or HBM complexes that acts beyond its word. -/
def State.writeMid (s : State) (a : Nat) (m : MaskedWord) : Option State :=
  let x := (m.value &&& m.mask).toNat
  (if a = Reg.bridgeCtrl then some (if getField Fld.bridgeCtrl_retrain (m.value &&& m.mask) ≠ 0 then bridgeRetrainWrite (bits x 35 24) (s.storeReg a m) else s.storeReg a m) else none)
  <|> (nth (Reg.samplerCfg 1) 1023 8 a).map (fun n => (s.storeReg a m).samplerReload (n + 1))
  <|> (nth (Reg.engineClusterCtrl 0) 8 0x1_0000 a).map (fun c =>
    let t := s.storeReg a { m with mask := m.mask &&& ~~~1 }
    if bit m.mask.toNat 0 then engineDrainWrite c (bit x 0) t else t)
  <|> (nth (Reg.hbmCtrl 0) 512 0x4000 a).map (fun y => if bit x 23 then hbmRelease y (s.storeReg a m) else s.storeReg a m)
  <|> (nth (Reg.hbmStackCfg 0) 8 0x100 a).map (fun n => if bit x 0 then trainNowWrite n (s.storeReg a m) else s.storeReg a m)

/-- A write to a traffic register that acts beyond its word. The first word of a shaper profile waits for the second (Table 12.5). -/
def State.writeTraffic (s : State) (a : Nat) (m : MaskedWord) : Option State :=
  let x := (m.value &&& m.mask).toNat
  let w := masked (s.reg a) m.value m.mask
  (nth (Reg.trafficQuota 0) 24 0x10 a).map (fun r => quotaWrite r (getField Fld.trafficQuota_ondieQuota w) (getField Fld.trafficQuota_hbmQuota w) s)
  <|> (if a = Reg.trafficShaperAssign then
      let t := s.storeReg a m
      some (if bit x 0 then shaperAssignStart (bits w.toNat 63 62) (bits w.toNat 61 45) (bits w.toNat 44 33) t else t)
    else none)
  <|> (nth (Reg.trafficShaperProfileHi 0) 4096 0x10 a).map (fun i =>
    if i = 0 then s else { s with traffic := { s.traffic with profStage := mput (fun _ => none) s.traffic.profStage i (some w) } })
  <|> (nth (Reg.trafficShaperProfileLo 0) 4096 0x10 a).map (fun i =>
    let hi := (mget (fun _ => none) s.traffic.profStage i).getD (s.reg (Reg.trafficShaperProfileHi i))
    shaperProfileWrite i hi w { s with traffic := { s.traffic with profStage := mput (fun _ => none) s.traffic.profStage i none } })
  <|> (nth (Reg.hatbandCfg 0) 96 0x80 a).map (fun p =>
    let t := s.storeReg a m
    let t := if getField Fld.hatbandCfg_commit (m.value &&& m.mask) ≠ 0 then hatbandCommit p t else t
    if getField Fld.hatbandCfg_cancel (m.value &&& m.mask) ≠ 0 then hatbandCancel p t else t)
  <|> (hatbandAt a).map (fun q =>
    if s.flag (Reg.hatbandCfg q.1) Fld.hatbandCfg_pending && q.2 != s.fld (Reg.hatbandCfg q.1) Fld.hatbandCfg_activeBank then s.count .trafficGatePendWriteIgnored
    else s.storeReg a m)

/-- A write to a control register that acts beyond its word. Several commands written together in EPOCH_CTRL are taken from bit 0 on. -/
def State.writeControl (s : State) (a : Nat) (m : MaskedWord) : Option State :=
  let x := (m.value &&& m.mask).toNat
  let w := masked (s.reg a) m.value m.mask
  if a = Reg.epochCtrl then
    let t := s.storeReg a m
    let t := if bit x 0 then t.epochOpenCmd.1 else t
    let t := if bit x 1 then t.epochArmCmd.1 else t
    let t := if bit x 2 then t.epochSwitchNowCmd.1 else t
    some (if bit x 3 then t.epochAbortCmd.1 else t)
  else if a = Reg.timeSrcCfg then some (s.storeReg a m).timeReselect
  else if a = Reg.timeAdj then some (if bit x 63 then timeAdjStart (bit w.toNat 62) (toSigned 40 (bits w.toNat 39 0)) s else s.storeReg a m)
  else if a = Reg.timeFreq then some (timeFreqWrite (toSigned 32 (bits w.toNat 31 0)) s)
  else (nth (Reg.govSensor 0) 24 8 a).map (fun i => if bit x 1 then peakClr i s else s)
    <|> (if 0x6400 ≤ a ∧ a < 0x6C00 ∧ a % 0x20 < 0x18 then some ((s.storeReg a m).setFld (Reg.cntFilter ((a - 0x6400) / 0x20)) Fld.cntFilter_pending 1) else none)

/-- A word that has passed its checks is written, and starts what it starts. -/
def State.writeWord (s : State) (a : Nat) (m : MaskedWord) : State :=
  if m.mask = 0 then s
  else (s.writeLine a m <|> s.writeMid a m <|> s.writeTraffic a m <|> s.writeControl a m).getD (s.storeReg a m)

/-- Words at consecutive addresses. -/
def State.writeWords (s : State) (priv master : Nat) : Nat → List MaskedWord → State
  | _, [] => s
  | a, m :: l => State.writeWords ((s.filterCount 1 priv master (some a) none).writeWord a m) priv master (a + 8) l

/-- The status with which a request of several words is refused (R403): that of its first refused word, or 9 for a second sweep. -/
def State.writesBar (s : State) (a : Nat) (l : List MaskedWord) : Nat :=
  let bar := firstBar ((List.range l.length).map (fun i => s.writeBar (a + 8 * i) (l.getD i { value := 0, mask := 0 })))
  let sweeps := ((List.range l.length).filter (fun i => let m := l.getD i { value := 0, mask := 0 }
    m.mask != 0 && startsSweep (a + 8 * i) (m.value &&& m.mask).toNat && (nth (Reg.trafficShaperProfileHi 0) 4096 0x10 (a + 8 * i)).isNone)).length
  if bar ≠ 0 then bar else if 1 < sweeps then 9 else 0

/-- A refused write to TIME_ADJ or TIME_FREQ is counted and reported (R366). -/
def State.refuseTime (s : State) (a : Nat) (l : List MaskedWord) : State :=
  if (List.range l.length).any (fun i => (l.getD i { value := 0, mask := 0 }).mask != 0 && !s.timeTakes (a + 8 * i)) then s.adjRefuse else s

/-- REG_WRITE (R403). -/
def regWrite (h : FcpHdr) (addr : Nat) (words : List MaskedWord) (s : State) : State :=
  s.fcpServe h 0x11 privWrite (fun s =>
    if words.length = 0 ∨ 64 < words.length then (s, 2, [])
    else
      let bar := s.writesBar addr words
      if bar ≠ 0 then ((s.refuseTime addr words).countBusy bar, bar, [])
      else (s.writeWords (s.privOf h) (h.session - 1) addr words, 0, []))

/-! ### Transactions that get no answer -/

/-- The agent whose die complex holds `a`: line, lookup, associative, engine (Table 1.1). -/
def agentOf (a : Nat) : Nat :=
  if a < 0x2000_0000 then 0 else if a < 0x3000_0000 then 1 else if a < 0x4000_0000 then 2 else if a < 0x5000_0000 then 3
  else if a < 0x0001_1000_0000 then 1 else if a < 0x0001_2000_0000 then 2 else if a < 0x0001_3000_0000 then 1 else if a < 0x0001_4000_0000 then 3 else 1

/-- REG_TXN_TIMEOUT (R403): status 8, 0x0133; the agent's port is reset. -/
def regTxnTimeout (h : FcpHdr) (write : Bool) (addr : Nat) (s : State) : State :=
  s.fcpServe h (if write then 0x11 else 0x10) privWrite (fun s => ((s.count .controlAgentRegTimeout (agentOf addr)).raise 0x0133 (natBe 6 addr), 8, []))

/-- BRIDGE_REQ_TIMEOUT (R23). -/
def bridgeReqTimeout (h : FcpHdr) (write : Bool) (s : State) : State :=
  s.fcpServe h (if write then 0x11 else 0x10) privWrite (fun s => (s.count .controlAgentBridgeTimeout 0, 8, []))

/-- HBM_SYNDROME_READ (R284): REG_READ of HBM_SYNDROME, which starts the return of a frozen controller. -/
def hbmSyndromeRead (h : FcpHdr) (x : Nat) (s : State) : State := regRead h (Reg.hbmSyndrome x) 1 s

def execRegRead (h : FcpHdr) (a n : Nat) (s : State) : Out := s.act (regRead h a n s)
def execRegWrite (h : FcpHdr) (a : Nat) (l : List MaskedWord) (s : State) : Out := s.act (regWrite h a l s)
def execRegTxnTimeout (h : FcpHdr) (w : Bool) (a : Nat) (s : State) : Out := s.act (regTxnTimeout h w a s)
def execBridgeReqTimeout (h : FcpHdr) (w : Bool) (s : State) : Out := s.act (bridgeReqTimeout h w s)
def execHbmSyndromeRead (h : FcpHdr) (x : Nat) (s : State) : Out := s.act (hbmSyndromeRead h x s)

end Sys2Proof.Machine
end

