-- ==== Sys2Proof/Machine/Mgmt.lean ====
section
/-! DEFINITION. The rest of control.fcp (R51, R402, R47, R398, R408 to R410): flash, reset, attestation, fuses, learn reports, the watchdog and the heartbeat. -/

namespace Sys2Proof.Machine

/-! ### Frames that are no control frames -/

/-- MGMT_OTHER_FRAME (R391): discarded and counted. -/
def mgmtOtherFrame (m : Nat) (s : State) : State := if m < 2 then s.count .controlMgmtRxOther m else s

/-! ### The learn log (R408) -/

/-- Copies `n` words of table memory to the shadow. -/
def State.shadowCopy (s : State) (a n : Nat) : State := (List.range n).foldl (fun s i => s.shPut (a + 8 * i) (tblWord s.mem (a + 8 * i))) s

/-- The shadow's entries of a key in hash table `t` become those of the table. -/
def State.shadowKey (s : State) (t : Nat) (key : Bytes) : State :=
  let slots (m : List Host.Cell) (a : Nat) : Nat := 2 * widthSlots (bits (tbl128 m a) 126 125)
  let s := (s.hashFind s.lookup.shadow t none key).foldl (fun s a => (List.range (slots s.lookup.shadow a)).foldl (fun s i => s.shPut (a + 8 * i) 0) s) s
  (s.hashFind s.mem t none key).foldl (fun s a => s.shadowCopy a (slots s.mem a)) s

/-- A drained record in the shadow: the entry it names, as the table holds it; a removed flow entry's way. -/
def State.shadowTake (s : State) (r : Bytes) : State :=
  if beAt r 0 1 = 5 then
    let b := 2 ^ 34 * (beAt r 8 1 / 8) + 512 * beAt r 4 4
    s.shadowCopy (hbmAddr (b + 64 * (beAt r 8 1 % 8))) 8
  else if beAt r 0 1 = 6 ∨ beAt r 0 1 = 7 then s
  else s.shadowKey (beAt r 1 1) ((r.drop 2).take 8)

/-- A session is sent learn records, at most 256 in a message. -/
def State.learnReport (s : State) (rs : List Bytes) (x : Session) : State :=
  let n := (rs.length + 255) / 256
  let s := (List.range n).foldl (fun s i => s.send x.id 0x2B 0 0 false false (((rs.drop (256 * i)).take 256).flatten)) s
  match s.session x.id with
  | some y => s.setSession { y with learnSent := y.learnSent + rs.length }
  | none => s

/-- LEARN_LOG_DRAIN (R408): up to `n` records, oldest first; RD advances whatever the sessions acknowledge. -/
def learnLogDrain (n : Nat) (s : State) : State :=
  let rd := s.fld Reg.learnLogPtr Fld.learnLogPtr_rd
  let held := (s.fld Reg.learnLogPtr Fld.learnLogPtr_wr + 65536 - rd) % 65536
  let k := min n held
  if !s.boot.fwRunning ∨ k = 0 then s
  else
    let rs := (List.range k).map (fun i => tblBytes s.mem (hbmAddr (s.logOffset ((rd + i) % 65536))) 16)
    let s := rs.foldl (fun s r => s.shadowTake r) s
    let s := s.setFld Reg.learnLogPtr Fld.learnLogPtr_rd ((rd + k) % 65536)
    let s : State := { s with lookup := { s.lookup with mismatches := s.lookup.mismatches.map (fun (m : Mismatch) => { m with logLeft := m.logLeft - k }) } }
    (s.fcp.sessions.filter (fun x => x.auth && x.priv == 1)).foldl (fun s x => s.learnReport rs x) s

/-- LEARN_ACK (R408). -/
def learnAck (h : FcpHdr) (s : State) : State :=
  match s.fcpGate h with
  | (s, .take x) => if s.boot.stage == .recovery then s.answer h 0x2C 1 [] else if x.auth then s.setSession { x with learnAcked := x.learnSent } else s
  | (s, _) => s

/-- SHADOW_RELOAD_DONE (R408): the shadow of table `t` is its table, STALE clears, 0x0134. -/
def shadowReloadDone (t : Nat) (s : State) : State :=
  if !s.boot.fwRunning ∨ !s.flag (Reg.tableAgeCfg t) Fld.tableAgeCfg_stale then s
  else
    let of (m : List Host.Cell) : List Nat := (allHeads m).filter (fun a => bits (tbl128 m a) 119 112 == t)
    let slots (m : List Host.Cell) (a : Nat) : Nat := 2 * widthSlots (bits (tbl128 m a) 126 125)
    let s := (of s.lookup.shadow).foldl (fun s a => (List.range (slots s.lookup.shadow a)).foldl (fun s i => s.shPut (a + 8 * i) 0) s) s
    let s := (of s.mem).foldl (fun s a => s.shadowCopy a (slots s.mem a)) s
    (s.setFlag (Reg.tableAgeCfg t) Fld.tableAgeCfg_stale false).raise 0x0134 (natBe 1 t)

/-! ### Flash and reset -/

/-- FLASH_WRITE (R398, Table 17.3): 4,096 bytes at a flash address. -/
def flashWrite (h : FcpHdr) (addr : Nat) (data : Bytes) (s : State) : State :=
  s.fcpServe h 0x33 privWrite (fun s =>
    if data.length ≠ 4096 ∨ addr % 4096 ≠ 0 then (s, 2, [])
    else if 1048576 * s.boot.flashMiB < addr + 4096 then (s, 5, [])
    else ({ s with boot := { s.boot with flash := mput (fun _ => []) s.boot.flash (addr / 4096) data } }, 0, []))

/-- RESET (R398): the cold reset follows the reply by 10 ms. -/
def reset (h : FcpHdr) (s : State) : State := s.fcpServe h 0x35 privWrite (fun s => ({ s with boot := { s.boot with resetDue := true } }, 0, []))

/-- RESET_DELAY_EXPIRY (R398). -/
def resetDelayExpiry (s : State) : State := if s.boot.resetDue then s.coldReset else s

/-! ### Attestation (R51) -/

/-- Bytes 0 to 239 of the report (Table 2.9). -/
def State.reportBody (s : State) (nonce : Bytes) : Bytes :=
  let h := s.boot.hdr
  let f := s.fuses
  let present := ((List.range 4).map (fun k => if f.programmed k then 2 ^ k else 0)).sum
  let flags := b2n (s.boot.stage == .recovery) + 2 * b2n (keySlot h == 0x80 || keySlot h == 0x81) + 4 * b2n (!s.bist.disabled.isEmpty || !s.bist.barred.isEmpty)
  natBe 4 0x41545354 ++ natBe 2 1 ++ natBe 2 336 ++ natBe 2 0xF096 ++ natBe 2 0x00C1 ++ natBe 16 f.serial.toNat
    ++ natBe 1 (s.fld Reg.bootStatus Fld.bootStatus_slot) ++ natBe 1 (16 * f.ownerRevoked + present) ++ natBe 1 f.secFloor ++ natBe 1 flags
    ++ natBe 8 (beAt h 0x10 8) ++ natBe 2 (secVersionOf h) ++ natBe 2 (s.fld Reg.bootStatus Fld.bootStatus_warmCount) ++ natBe 2 s.epoch ++ natBe 2 0
    ++ natBe 48 (Config.sha384 (h.take 0x1A0 ++ s.boot.tbl)).toNat ++ natBe 48 (beAt h 0x30 48) ++ natBe 48 s.boot.keyHash.toNat ++ nonce
    ++ todBytes s.tod ++ natBe 4 0

/-- ATTEST (R51): the identity certificate and the signed report. -/
def attest (h : FcpHdr) (nonce : Bytes) (s : State) : State :=
  s.fcpServe h 0x40 privAll (fun s =>
    if nonce.length ≠ 32 then (s, 2, [])
    else let b := s.reportBody nonce; (s, 0, Config.identityCert ++ b ++ (List.range 96).map (Config.signByte b)))

/-- BOOT_STATUS (R398). -/
def bootStatus (h : FcpHdr) (s : State) : State := s.fcpServe h 0x41 privAll (fun s => (s, 0, natBe 8 (s.reg Reg.bootStatus).toNat))

/-! ### Fuses (R402, R44 to R47, R412) -/

/-- The fuses after an operation, with the new FUSE_STATUS in the reply and 0x011C; or, when the read-back differs, reason 4. -/
def State.fuseDone (s : State) (f : Fuses) (kind slot : Nat) (ok : Bool) : State × Nat × Bytes :=
  let s := State.fuseRegs { s with fuses := f }
  if ok then (s.raise 0x011C (natBe 1 slot ++ natBe 1 kind), 0, natBe 8 (s.reg Reg.fuseStatus).toNat) else (s, 9, natBe 1 4)

/-- FUSE kind 1. Of bits that did not read back, which stay programmed is free. -/
def fuseOwnerKey (h : FcpHdr) (slot : Nat) (hash : BitVec 384) (readBackOk : Bool) (s : State) : State :=
  s.fcpServe h 0x42 privOwner (fun s =>
    if 3 < slot then (s, 5, [])
    else if s.fuses.programmed slot then (s, 9, natBe 1 1)
    else
      let d := s.draw
      let part := hash &&& BitVec.ofNat 384 (Config.freeNat d.1)
      let v := if readBackOk then hash else if part = hash then 0 else part
      State.fuseDone (if readBackOk then s else d.2) { s.fuses with ownerHash := mput (fun _ => (0 : BitVec 384)) s.fuses.ownerHash slot v } 1 slot readBackOk)

/-- FUSE kind 2: not the last programmed key that is not revoked. -/
def fuseRevokeOwner (h : FcpHdr) (slot : Nat) (readBackOk : Bool) (s : State) : State :=
  s.fcpServe h 0x42 privOwner (fun s =>
    let live := (List.range 4).filter (fun k => s.fuses.programmed k && !bit s.fuses.ownerRevoked k)
    if 3 < slot then (s, 5, [])
    else if bit s.fuses.ownerRevoked slot then (s, 9, natBe 1 1)
    else if live = [slot] then (s, 9, natBe 1 2)
    else s.fuseDone { s.fuses with ownerRevoked := if readBackOk then s.fuses.ownerRevoked + 2 ^ slot else s.fuses.ownerRevoked } 2 slot readBackOk)

/-- FUSE kind 3. -/
def fuseRevokeProvisioning (h : FcpHdr) (key : Nat) (readBackOk : Bool) (s : State) : State :=
  s.fcpServe h 0x42 privWrite (fun s =>
    if 1 < key then (s, 5, [])
    else if bit s.fuses.provRevoked key then (s, 9, natBe 1 1)
    else s.fuseDone { s.fuses with provRevoked := if readBackOk then s.fuses.provRevoked + 2 ^ key else s.fuses.provRevoked } 3 key readBackOk)

/-- What the JTAG level reads as when one asked for did not read back: any level between by bits that is not the one asked for. -/
def jtagPart (old new n : Nat) : Nat :=
  let l := (List.range 4).filter (fun v => v &&& old == old && v &&& new == v && v != new)
  (l[n % l.length]?).getD old

/-- FUSE kind 4: a higher level, reached by setting bits alone. -/
def fuseJtagLevel (h : FcpHdr) (level : Nat) (readBackOk : Bool) (s : State) : State :=
  s.fcpServe h 0x42 privWrite (fun s =>
    if level = 0 ∨ 3 < level then (s, 5, [])
    else if level ≤ s.fuses.jtag ∨ level &&& s.fuses.jtag ≠ s.fuses.jtag then (s, 9, natBe 1 3)
    else
      let d := s.draw
      State.fuseDone (if readBackOk then s else d.2) { s.fuses with jtag := if readBackOk then level else jtagPart s.fuses.jtag level (Config.freeNat d.1) } 4 level readBackOk)

/-- SECFLOOR_RAISE (R47): the floor rises to the SECURITY_VERSION of the image that runs. -/
def secfloorRaise (h : FcpHdr) (s : State) : State :=
  s.fcpServe h 0x43 privOwner (fun s =>
    let v := secVersionOf s.boot.hdr
    if v ≤ s.fuses.secFloor then (s, 0, [])
    else ((State.fuseRegs { s with fuses := { s.fuses with secFloor := v } }).raise 0x011B, 0, []))

/-! ### Watchdog and heartbeat (R409, R410) -/

/-- An access by the firmware, as the filters count it (R422). -/
def State.fwAccess (s : State) (a : Nat) : State := s.filterCount 1 3 10 (some a) none

/-- KICK (R409): the period restarts. -/
def kick (s : State) : State :=
  if s.boot.fwRunning then State.fwAccess { s with boot := { s.boot with wdogAt := s.time.stepFree } } Reg.wdogCtrl else s

/-- BOARD_HEARTBEAT_WRITE (R410): the count rises and FAULT_N of a stopped heartbeat is released. -/
def boardHeartbeatWrite (s : State) : State :=
  if s.boot.fwRunning then
    let n := (s.fld Reg.boardHeartbeat Fld.boardHeartbeat_count + 1) % 4294967296
    (State.setFld { s with boot := { s.boot with heartAt := s.time.stepFree }, pins := { s.pins with faultHeartbeat := false } } Reg.boardHeartbeat Fld.boardHeartbeat_count n).fwAccess
      Reg.boardHeartbeat
  else s

/-- Whether the firmware has been started since cold reset. -/
def State.fwStarted (s : State) : Bool := match s.boot.stage with | .training | .bist | .fabric | .statics | .running | .halted => true | _ => false

/-- HEARTBEAT_TIMEOUT (R410): the count has stood for HB_TIMEOUT. -/
def heartbeatTimeout (s : State) : State :=
  if s.fwStarted ∧ !s.pins.faultHeartbeat ∧ s.boot.heartAt + 1000000000 * s.fld Reg.boardCfg Fld.boardCfg_hbTimeout ≤ s.time.stepFree then
    State.raise { s with pins := { s.pins with faultHeartbeat := true } } 0x0135
  else s

def execMgmtOtherFrame (m : Nat) (s : State) : Out := s.act (mgmtOtherFrame m s)
def execLearnAck (h : FcpHdr) (s : State) : Out := s.act (learnAck h s)
def execLearnLogDrain (n : Nat) (s : State) : Out := s.act (learnLogDrain n s)
def execShadowReloadDone (t : Nat) (s : State) : Out := s.act (shadowReloadDone t s)
def execFlashWrite (h : FcpHdr) (a : Nat) (d : Bytes) (s : State) : Out := s.act (flashWrite h a d s)
def execReset (h : FcpHdr) (s : State) : Out := s.act (reset h s)
def execResetDelayExpiry (s : State) : Out := s.act (resetDelayExpiry s)
def execAttest (h : FcpHdr) (n : Bytes) (s : State) : Out := s.act (attest h n s)
def execBootStatus (h : FcpHdr) (s : State) : Out := s.act (bootStatus h s)
def execFuseOwnerKey (h : FcpHdr) (k : Nat) (x : BitVec 384) (ok : Bool) (s : State) : Out := s.act (fuseOwnerKey h k x ok s)
def execFuseRevokeOwner (h : FcpHdr) (k : Nat) (ok : Bool) (s : State) : Out := s.act (fuseRevokeOwner h k ok s)
def execFuseRevokeProvisioning (h : FcpHdr) (k : Nat) (ok : Bool) (s : State) : Out := s.act (fuseRevokeProvisioning h k ok s)
def execFuseJtagLevel (h : FcpHdr) (l : Nat) (ok : Bool) (s : State) : Out := s.act (fuseJtagLevel h l ok s)
def execSecfloorRaise (h : FcpHdr) (s : State) : Out := s.act (secfloorRaise h s)
def execKick (s : State) : Out := s.act (kick s)
def execBoardHeartbeatWrite (s : State) : Out := s.act (boardHeartbeatWrite s)
def execHeartbeatTimeout (s : State) : Out := s.act (heartbeatTimeout s)

end Sys2Proof.Machine
end

