-- ==== Sys2Proof/Machine/Jtag.lean ====
section
/-! DEFINITION. The two-wire target (R411) and the JTAG port (R412, R413). -/

namespace Sys2Proof.Machine

/-! ### Two-wire (R411, Table 17.10) -/

/-- The fields of the two-wire map: pointer and bytes. Each sensor is a field of its own. -/
def State.twiFields (s : State) : List (Nat × Bytes) :=
  let st := b2n s.pins.ready + 2 * b2n s.pins.fault + 4 * b2n s.pins.faultHeartbeat + 8 * b2n s.boot.warmStopped + 16 * s.fld Reg.govStatus Fld.govStatus_pfw
  [(0x0000, natBe 2 0xF096 ++ natBe 2 0x00C1), (0x0004, natBe 16 s.fuses.serial.toNat), (0x0014, natBe 8 (s.reg Reg.bootStatus).toNat), (0x001C, natBe 1 st),
    (0x001D, natBe 1 (s.fld Reg.govStatus Fld.govStatus_tier))]
  ++ (List.range 24).map (fun i => (0x0020 + i, natBe 1 (s.fld (Reg.govSensor i) Fld.govSensor_temp)))
  ++ [(0x0038, natBe 8 (s.reg Reg.govRailStatus).toNat), (0x0040, natBe 2 (s.fld Reg.govStatus Fld.govStatus_effective)),
    (0x0042, natBe 2 (s.fld Reg.govBudget Fld.govBudget_budget)), (0x0044, natBe 4 (s.fld Reg.boardHeartbeat Fld.boardHeartbeat_count))]

/-- A byte read: the first byte of a field latches it whole, a later one comes from the latch; outside the map the byte is free. -/
def State.twiByte (s : State) (p : Nat) : Byte × State :=
  match s.twiFields.find? (fun f => f.1 == p) with
  | some (_, bs) =>
    let l := (List.range bs.length).foldl (fun m i => mput (fun _ => (0 : Byte)) m (p + i) (bs.getD i 0)) s.fcp.twiLatch
    (bs.headD 0, { s with fcp := { s.fcp with twiLatch := l } })
  | none =>
    if s.twiFields.any (fun f => decide (f.1 ≤ p) && decide (p < f.1 + f.2.length)) then (mget (fun _ => (0 : Byte)) s.fcp.twiLatch p, s)
    else (Config.freeByte s.draw.1, s.draw.2)

/-- `n` bytes read from pointer `p` on. -/
def State.twiRead (s : State) : Nat → Nat → Bytes × State
  | _, 0 => ([], s)
  | p, n + 1 =>
    let r := s.twiByte p
    let t := State.twiRead r.2 ((p + 1) % 65536) n
    (r.1 :: t.1, t.2)

/-- BUDGET written by the board controller: as a write of GOV_BUDGET.BUDGET, refused outside its range (R7, R411). -/
def State.twiBudgetWrite (s : State) (v : Nat) : State :=
  let s := s.filterCount 1 4 9 (some Reg.govBudget) none
  if 200 ≤ v ∧ v ≤ 600 then (State.setFld { s with gov := { s.gov with twiBudget := some v } } Reg.govBudget Fld.govBudget_budget v) else s

/-- Bytes written from pointer `p` on: those of BUDGET are acknowledged, and the first that is not ends the transfer. -/
def State.twiWrite (s : State) : Nat → Bytes → Nat × State
  | _, [] => (0, s)
  | p, b :: bs =>
    if p = 0x42 then
      let t := State.twiWrite { s with fcp := { s.fcp with twiHigh := b.toNat } } (p + 1) bs
      (t.1 + 1, t.2)
    else if p = 0x43 then
      let t := State.twiWrite (s.twiBudgetWrite (s.fcp.twiHigh * 256 + b.toNat)) (p + 1) bs
      (t.1 + 1, t.2)
    else (0, s)

/-- Whether the two-wire target answers: from step 3 of Table 2.8 on, not in reset. -/
def State.twiUp (s : State) : Bool := match s.boot.stage with | .coldReset | .released => false | _ => true

/-- TWI_TRANSFER (R411): the pointer, then bytes written or read. -/
def twiTransfer (write : Bool) (pointer : Nat) (data : Bytes) (count : Nat) (s : State) : State :=
  if !s.twiUp then s
  else
    let p := pointer % 65536
    if write then
      let r := s.twiWrite p data
      { r.2 with fcp := { r.2.fcp with twiPointer := (p + r.1) % 65536, twiAcked := r.1 } }
    else
      let r := s.twiRead p count
      { r.2 with fcp := { r.2.fcp with twiPointer := (p + count) % 65536, twiOut := r.1 } }

/-! ### JTAG (R412, R413) -/

/-- The highest JTAG level that keeps an instruction: 0 BYPASS, 1 IDCODE, 2 SAMPLE/PRELOAD, 3 EXTEST, 4 CLAMP, 5 HIGHZ, 6 MGMT. -/
def tapTop (i : Nat) : Nat := if i ≤ 1 then 3 else if i = 6 then 1 else 2

/-- An instruction selected: one the level removes selects the bypass register. -/
def State.tap (s : State) (i : Nat) : State := { s with pins := { s.pins with tapInstr := if s.fuses.jtag ≤ tapTop i then i else 0, tapData := 0 } }

/-- BYPASS, IDCODE, SAMPLE/PRELOAD (R412). -/
def bypass (s : State) : State := s.tap 0
def idcode (s : State) : State := let s := s.tap 1; { s with pins := { s.pins with tapData := 0x3F09656B } }
def samplePreload (s : State) : State := s.tap 2

/-- The entry into boundary scan (R413): READY low, FAULT_N asserted, keys erased, self-tests aborted (R437), 0x0136. -/
def State.scanEnter (s : State) : State :=
  if s.pins.scanMode then s
  else ((State.eraseKeys { s with pins := { s.pins with ready := false, faultScan := true, scanMode := true } }).bistAbort 2).raise 0x0136

/-- A boundary-scan instruction. -/
def State.scan (s : State) (i : Nat) : State := if s.fuses.jtag ≤ 2 then (s.tap i).scanEnter else s.tap i

/-- EXTEST, CLAMP, HIGHZ (R413). -/
def extest (s : State) : State := s.scan 3
def clamp (s : State) : State := s.scan 4
def highz (s : State) : State := s.scan 5

/-- The bits of a register that an operator may write: MGMT, which carries no mask, writes these. -/
def State.hostBits (s : State) (a : Nat) : Word :=
  match s.regAt a with
  | some d => d.fields.foldl (fun w f => if f.writable && f.writer == .host then putField f.field (2 ^ f.field.width - 1) w else w) 0
  | none => BitVec.allOnes 64

/-- MGMT (R412): one register read or written whole, under the operator rules of R403; level 1 leaves reads, level 2 nothing. -/
def mgmt (write : Bool) (addr : Nat) (value : Word) (s : State) : State :=
  let s := s.tap 6
  if s.pins.tapInstr ≠ 6 ∨ s.pins.scanMode ∨ s.pins.clocksStopped ∨ s.boot.stage = .coldReset then s
  else if write then
    let l : List MaskedWord := [{ value := value, mask := if s.hostBits addr = 0 then BitVec.allOnes 64 else s.hostBits addr }]
    if s.fuses.jtag ≠ 0 then s
    else
      let bar := s.writesBar addr l
      if bar ≠ 0 then (s.refuseTime addr l).countBusy bar else s.writeWords 1 8 addr l
  else
    let bar := s.readBar addr
    if bar ≠ 0 then s.countBusy bar
    else
      let r := s.readWords false 1 8 addr 1
      { r.2 with pins := { r.2.pins with tapData := r.1.headD 0 } }

def execTwiTransfer (w : Bool) (p : Nat) (d : Bytes) (n : Nat) (s : State) : Out := s.act (twiTransfer w p d n s)
def execBypass (s : State) : Out := .next (bypass s)
def execIdcode (s : State) : Out := .next (idcode s)
def execSamplePreload (s : State) : Out := .next (samplePreload s)
def execExtest (s : State) : Out := .next (extest s)
def execClamp (s : State) : Out := .next (clamp s)
def execHighz (s : State) : Out := .next (highz s)
def execMgmt (w : Bool) (a : Nat) (v : Word) (s : State) : Out := .next (mgmt w a v s)

end Sys2Proof.Machine
end

