-- ==== Sys2Proof/Machine/Dispatch.lean ====
section
/-! DEFINITION. The dispatcher: one arm per row of the opcode table, each a direct call of its meaning. -/

namespace Sys2Proof.Machine

/-- The effect of a command on everything but the queue. -/
def exec (i : Instr) (s : State) : Host.Outcome State Fault Refusal :=
  match i with
  | .pwrGoodLow ns railLow => Sys2Proof.Machine.execPwrGoodLow ns railLow s
  | .rstNLow ns => Sys2Proof.Machine.execRstNLow ns s
  | .leaveColdReset => Sys2Proof.Machine.execLeaveColdReset s
  | .bootRomStart => Sys2Proof.Machine.execBootRomStart s
  | .slotHeaderRead flashOk flashMiB hdr => Sys2Proof.Machine.execSlotHeaderRead flashOk flashMiB hdr s
  | .sectionTableRead tbl keyHash => Sys2Proof.Machine.execSectionTableRead tbl keyHash s
  | .signatureVerified ok => Sys2Proof.Machine.execSignatureVerified ok s
  | .bodyReadDone digestOk body => Sys2Proof.Machine.execBodyReadDone digestOk body s
  | .flashReadStall => Sys2Proof.Machine.execFlashReadStall s
  | .firmwareReportsRunning digestOk => Sys2Proof.Machine.execFirmwareReportsRunning digestOk s
  | .firmwareStartTimeout => Sys2Proof.Machine.execFirmwareStartTimeout s
  | .stackTrainingDone failed => Sys2Proof.Machine.execStackTrainingDone failed s
  | .startupBistDone misr => Sys2Proof.Machine.execStartupBistDone misr s
  | .fabricWaitExpiry => Sys2Proof.Machine.execFabricWaitExpiry s
  | .staticTablesDone => Sys2Proof.Machine.execStaticTablesDone s
  | .firmwareWarmRestart => Sys2Proof.Machine.execFirmwareWarmRestart s
  | .warmRestartTimeout => Sys2Proof.Machine.execWarmRestartTimeout s
  | .rxFrame p frame marks => Sys2Proof.Machine.execRxFrame p frame marks s
  | .lineLaneSignalLoss lane => Sys2Proof.Machine.execLineLaneSignalLoss lane s
  | .lineLaneSignalReturn lane => Sys2Proof.Machine.execLineLaneSignalReturn lane s
  | .laneRetrainDone lane => Sys2Proof.Machine.execLaneRetrainDone lane s
  | .linkFaultChange p c => Sys2Proof.Machine.execLinkFaultChange p c s
  | .linkDownHoldExpiry p => Sys2Proof.Machine.execLinkDownHoldExpiry p s
  | .linkUpHoldExpiry p => Sys2Proof.Machine.execLinkUpHoldExpiry p s
  | .adminUpWrite p up => Sys2Proof.Machine.execAdminUpWrite p up s
  | .degThreshWrite p v => Sys2Proof.Machine.execDegThreshWrite p v s
  | .fecWindowEnd p corrected uncorrectable evaluated => Sys2Proof.Machine.execFecWindowEnd p corrected uncorrectable evaluated s
  | .txFrameEnd p => Sys2Proof.Machine.execTxFrameEnd p s
  | .flexeOverheadBlock k j ohGood mfGood group phy cal skewNs => Sys2Proof.Machine.execFlexeOverheadBlock k j ohGood mfGood group phy cal skewNs s
  | .flexeCalendarRequest k cal => Sys2Proof.Machine.execFlexeCalendarRequest k cal s
  | .flexeSwitchWrite k => Sys2Proof.Machine.execFlexeSwitchWrite k s
  | .flexeCalendarSwitch k => Sys2Proof.Machine.execFlexeCalendarSwitch k s
  | .flexeSwitchAbandon k => Sys2Proof.Machine.execFlexeSwitchAbandon k s
  | .macsecRxFrame p icvOk plain => Sys2Proof.Machine.execMacsecRxFrame p icvOk plain s
  | .macsecTxFrame p => Sys2Proof.Machine.execMacsecTxFrame p s
  | .install p c a => Sys2Proof.Machine.execInstall p c a s
  | .retire p c a => Sys2Proof.Machine.execRetire p c a s
  | .saRetireDone p c a => Sys2Proof.Machine.execSaRetireDone p c a s
  | .txAnWrite p an => Sys2Proof.Machine.execTxAnWrite p an s
  | .macsecAlarmFire src => Sys2Proof.Machine.execMacsecAlarmFire src s
  | .macsecAlarmClear mask => Sys2Proof.Machine.execMacsecAlarmClear mask s
  | .voltageExcursion ns => Sys2Proof.Machine.execVoltageExcursion ns s
  | .ref25mFault => Sys2Proof.Machine.execRef25mFault s
  | .faultInjectionDetect => Sys2Proof.Machine.execFaultInjectionDetect s
  | .bridgeBeatError k toF replayOk => Sys2Proof.Machine.execBridgeBeatError k toF replayOk s
  | .bridgeRetrainDone k toF ok => Sys2Proof.Machine.execBridgeRetrainDone k toF ok s
  | .bridgeRetrainWrite mask => Sys2Proof.Machine.execBridgeRetrainWrite mask s
  | .bridgeReqTimeout h write => Sys2Proof.Machine.execBridgeReqTimeout h write s
  | .headerParse k => Sys2Proof.Machine.execHeaderParse k s
  | .fragHoldTimeout k => Sys2Proof.Machine.execFragHoldTimeout k s
  | .fragEntryExpiry k shared idx => Sys2Proof.Machine.execFragEntryExpiry k shared idx s
  | .ingressLookup k errs => Sys2Proof.Machine.execIngressLookup k errs s
  | .emhashBankRead bank waited => Sys2Proof.Machine.execEmhashBankRead bank waited s
  | .flowLookupResponse pid uncorrectable => Sys2Proof.Machine.execFlowLookupResponse pid uncorrectable s
  | .flowLookupTimeout pid => Sys2Proof.Machine.execFlowLookupTimeout pid s
  | .assocKeyQueued k => Sys2Proof.Machine.execAssocKeyQueued k s
  | .assocSearchResult pid idx ecc => Sys2Proof.Machine.execAssocSearchResult pid idx ecc s
  | .assocDispatchTimeout pid idx => Sys2Proof.Machine.execAssocDispatchTimeout pid idx s
  | .meterRefresh m => Sys2Proof.Machine.execMeterRefresh m s
  | .samplerCfgWrite n v => Sys2Proof.Machine.execSamplerCfgWrite n v s
  | .assocMoveStart a src dst count dstArray => Sys2Proof.Machine.execAssocMoveStart a src dst count dstArray s
  | .assocRowMove a => Sys2Proof.Machine.execAssocRowMove a s
  | .assocMoveSourceClear a => Sys2Proof.Machine.execAssocMoveSourceClear a s
  | .assocScrubRead a parityOk => Sys2Proof.Machine.execAssocScrubRead a parityOk s
  | .assocRowRepair a r => Sys2Proof.Machine.execAssocRowRepair a r s
  | .learnArbiterServe l => Sys2Proof.Machine.execLearnArbiterServe l s
  | .learnHandoffInsert => Sys2Proof.Machine.execLearnHandoffInsert s
  | .pouncerPortFlush p => Sys2Proof.Machine.execPouncerPortFlush p s
  | .pouncerAgeVisit slot => Sys2Proof.Machine.execPouncerAgeVisit slot s
  | .pouncerIdlePass f bucketAddr way => Sys2Proof.Machine.execPouncerIdlePass f bucketAddr way s
  | .compareWalkRead addr => Sys2Proof.Machine.execCompareWalkRead addr s
  | .compareConfirm addr => Sys2Proof.Machine.execCompareConfirm addr s
  | .comparePeriodOverrun => Sys2Proof.Machine.execComparePeriodOverrun s
  | .encapHoldExpiry idx => Sys2Proof.Machine.execEncapHoldExpiry idx s
  | .egressProcess k underrun aclDrop ts => Sys2Proof.Machine.execEgressProcess k underrun aclDrop ts s
  | .engineDispatch k => Sys2Proof.Machine.execEngineDispatch k s
  | .engineHoldRetry k => Sys2Proof.Machine.execEngineHoldRetry k s
  | .engineWaitExpiry k => Sys2Proof.Machine.execEngineWaitExpiry k s
  | .programStart e => Sys2Proof.Machine.execProgramStart e s
  | .add idx rd ra rb => Sys2Proof.Machine.execAdd idx rd ra rb s
  | .sub idx rd ra rb => Sys2Proof.Machine.execSub idx rd ra rb s
  | .and idx rd ra rb => Sys2Proof.Machine.execAnd idx rd ra rb s
  | .or idx rd ra rb => Sys2Proof.Machine.execOr idx rd ra rb s
  | .xor idx rd ra rb => Sys2Proof.Machine.execXor idx rd ra rb s
  | .shl idx rd ra rb => Sys2Proof.Machine.execShl idx rd ra rb s
  | .shr idx rd ra rb => Sys2Proof.Machine.execShr idx rd ra rb s
  | .min idx rd ra rb => Sys2Proof.Machine.execMin idx rd ra rb s
  | .max idx rd ra rb => Sys2Proof.Machine.execMax idx rd ra rb s
  | .crc idx rd ra rb => Sys2Proof.Machine.execCrc idx rd ra rb s
  | .clz idx rd ra => Sys2Proof.Machine.execClz idx rd ra s
  | .addi idx rd ra imm => Sys2Proof.Machine.execAddi idx rd ra imm s
  | .andi idx rd ra imm => Sys2Proof.Machine.execAndi idx rd ra imm s
  | .ori idx rd ra imm => Sys2Proof.Machine.execOri idx rd ra imm s
  | .xori idx rd ra imm => Sys2Proof.Machine.execXori idx rd ra imm s
  | .shli idx rd ra imm => Sys2Proof.Machine.execShli idx rd ra imm s
  | .shri idx rd ra imm => Sys2Proof.Machine.execShri idx rd ra imm s
  | .movi idx rd imm => Sys2Proof.Machine.execMovi idx rd imm s
  | .insh idx rd sz imm => Sys2Proof.Machine.execInsh idx rd sz imm s
  | .ld idx rd ra sz imm => Sys2Proof.Machine.execLd idx rd ra sz imm s
  | .st idx rd ra sz imm => Sys2Proof.Machine.execSt idx rd ra sz imm s
  | .xadd idx rd ra rb => Sys2Proof.Machine.execXadd idx rd ra rb s
  | .beq idx ra rb target => Sys2Proof.Machine.execBeq idx ra rb target s
  | .bne idx ra rb target => Sys2Proof.Machine.execBne idx ra rb target s
  | .blt idx ra rb target => Sys2Proof.Machine.execBlt idx ra rb target s
  | .bge idx ra rb target => Sys2Proof.Machine.execBge idx ra rb target s
  | .jmp idx target => Sys2Proof.Machine.execJmp idx target s
  | .call idx target => Sys2Proof.Machine.execCall idx target s
  | .ret idx => Sys2Proof.Machine.execRet idx s
  | .pfind idx rd ra rb set => Sys2Proof.Machine.execPfind idx rd ra rb set s
  | .pfindScanDone e wait => Sys2Proof.Machine.execPfindScanDone e wait s
  | .pmatch idx rd ra set => Sys2Proof.Machine.execPmatch idx rd ra set s
  | .verdict idx action colourSet colour value => Sys2Proof.Machine.execVerdict idx action colourSet colour value s
  | .endProg idx => Sys2Proof.Machine.execEndProg idx s
  | .nop idx => Sys2Proof.Machine.execNop idx s
  | .programBudgetExpiry e => Sys2Proof.Machine.execProgramBudgetExpiry e s
  | .engineResultReturn k => Sys2Proof.Machine.execEngineResultReturn k s
  | .engineDrainWrite c v => Sys2Proof.Machine.execEngineDrainWrite c v s
  | .clusterDrained c => Sys2Proof.Machine.execClusterDrained c s
  | .packetAdmit k fromFabric => Sys2Proof.Machine.execPacketAdmit k fromFabric s
  | .streamTail k bad => Sys2Proof.Machine.execStreamTail k bad s
  | .packetDepart n => Sys2Proof.Machine.execPacketDepart n s
  | .bufferReadError voq n status => Sys2Proof.Machine.execBufferReadError voq n status s
  | .quotaWrite r onDie hbm => Sys2Proof.Machine.execQuotaWrite r onDie hbm s
  | .portQueuesClose p => Sys2Proof.Machine.execPortQueuesClose p s
  | .portNoticeSend p => Sys2Proof.Machine.execPortNoticeSend p s
  | .noticeRx n => Sys2Proof.Machine.execNoticeRx n s
  | .voqCloseOnNotice dev port => Sys2Proof.Machine.execVoqCloseOnNotice dev port s
  | .flushChainFree => Sys2Proof.Machine.execFlushChainFree s
  | .flushListAdmit => Sys2Proof.Machine.execFlushListAdmit s
  | .hbmRequest x r => Sys2Proof.Machine.execHbmRequest x r s
  | .hbmResponse x tag ecc => Sys2Proof.Machine.execHbmResponse x tag ecc s
  | .openRowTimeout x bank => Sys2Proof.Machine.execOpenRowTimeout x bank s
  | .fz24WriteAge x => Sys2Proof.Machine.execFz24WriteAge x s
  | .refreshDue x bank => Sys2Proof.Machine.execRefreshDue x bank s
  | .trainPassStart stack tempC => Sys2Proof.Machine.execTrainPassStart stack tempC s
  | .trainNowWrite stack => Sys2Proof.Machine.execTrainNowWrite stack s
  | .trainPause x ok => Sys2Proof.Machine.execTrainPause x ok s
  | .hbmCaParity x => Sys2Proof.Machine.execHbmCaParity x s
  | .hbmCmdTimeout x tag => Sys2Proof.Machine.execHbmCmdTimeout x tag s
  | .hbmSyndromeRead h x => Sys2Proof.Machine.execHbmSyndromeRead h x s
  | .hbmFreezeTimeout x => Sys2Proof.Machine.execHbmFreezeTimeout x s
  | .hbmRelease x => Sys2Proof.Machine.execHbmRelease x s
  | .hbmRetrainDone x ok us => Sys2Proof.Machine.execHbmRetrainDone x ok us s
  | .schedDecision n => Sys2Proof.Machine.execSchedDecision n s
  | .shaperRefresh kind idx => Sys2Proof.Machine.execShaperRefresh kind idx s
  | .shaperProfileWrite idx hi lo => Sys2Proof.Machine.execShaperProfileWrite idx hi lo s
  | .shaperAssignStart kind index profile => Sys2Proof.Machine.execShaperAssignStart kind index profile s
  | .shaperSweepDone => Sys2Proof.Machine.execShaperSweepDone s
  | .gateIntervalEnd p => Sys2Proof.Machine.execGateIntervalEnd p s
  | .hatbandCommit p => Sys2Proof.Machine.execHatbandCommit p s
  | .hatbandCancel p => Sys2Proof.Machine.execHatbandCancel p s
  | .hatbandTakeover p => Sys2Proof.Machine.execHatbandTakeover p s
  | .replWalk c => Sys2Proof.Machine.execReplWalk c s
  | .replWalkTimeout c => Sys2Proof.Machine.execReplWalkTimeout c s
  | .stuckQueueVisit q => Sys2Proof.Machine.execStuckQueueVisit q s
  | .fabricLaneSignalLoss l => Sys2Proof.Machine.execFabricLaneSignalLoss l s
  | .malythFrameRx l o => Sys2Proof.Machine.execMalythFrameRx l o s
  | .cellRx l c cdcOverrun => Sys2Proof.Machine.execCellRx l c cdcOverrun s
  | .reasmTimeout srcDev type port tc => Sys2Proof.Machine.execReasmTimeout srcDev type port tc s
  | .reasmContextIdle srcDev type port tc => Sys2Proof.Machine.execReasmContextIdle srcDev type port tc s
  | .cellSend q => Sys2Proof.Machine.execCellSend q s
  | .creditRequestSend q => Sys2Proof.Machine.execCreditRequestSend q s
  | .creditRequestRx r => Sys2Proof.Machine.execCreditRequestRx r s
  | .creditGrantIssue port tc => Sys2Proof.Machine.execCreditGrantIssue port tc s
  | .creditGrantRx q units => Sys2Proof.Machine.execCreditGrantRx q units s
  | .standingCreditExpiry q => Sys2Proof.Machine.execStandingCreditExpiry q s
  | .starveTimeout q => Sys2Proof.Machine.execStarveTimeout q s
  | .timeCellSend => Sys2Proof.Machine.execTimeCellSend s
  | .timeCellRx c steer => Sys2Proof.Machine.execTimeCellRx c steer s
  | .noticeRepeat p => Sys2Proof.Machine.execNoticeRepeat p s
  | .noticeAckRx dev port seq => Sys2Proof.Machine.execNoticeAckRx dev port seq s
  | .heartbeatSend => Sys2Proof.Machine.execHeartbeatSend s
  | .devTimeoutExpiry d => Sys2Proof.Machine.execDevTimeoutExpiry d s
  | .quietPeriodEnd => Sys2Proof.Machine.execQuietPeriodEnd s
  | .epochOpen h => Sys2Proof.Machine.execEpochOpen h s
  | .epochArm h seconds ns => Sys2Proof.Machine.execEpochArm h seconds ns s
  | .epochSwitchNow h => Sys2Proof.Machine.execEpochSwitchNow h s
  | .epochAbort h => Sys2Proof.Machine.execEpochAbort h s
  | .epochSwitch => Sys2Proof.Machine.execEpochSwitch s
  | .epochDrainTimeout => Sys2Proof.Machine.execEpochDrainTimeout s
  | .epochSweepDone => Sys2Proof.Machine.execEpochSweepDone s
  | .lookupBoundary => Sys2Proof.Machine.execLookupBoundary s
  | .sliceReloadDone k => Sys2Proof.Machine.execSliceReloadDone k s
  | .ppsInEdge offset inWindow steer => Sys2Proof.Machine.execPpsInEdge offset inWindow steer s
  | .todInMessage m => Sys2Proof.Machine.execTodInMessage m s
  | .sourceQualified src offset => Sys2Proof.Machine.execSourceQualified src offset s
  | .sourceLoss src cause => Sys2Proof.Machine.execSourceLoss src cause s
  | .holdoverLimitExpiry => Sys2Proof.Machine.execHoldoverLimitExpiry s
  | .slewDone => Sys2Proof.Machine.execSlewDone s
  | .timeAdjStart slew phase => Sys2Proof.Machine.execTimeAdjStart slew phase s
  | .timeFreqWrite steer => Sys2Proof.Machine.execTimeFreqWrite steer s
  | .timeNowRead h => Sys2Proof.Machine.execTimeNowRead h s
  | .ppsOutEdge => Sys2Proof.Machine.execPpsOutEdge s
  | .todOutSend => Sys2Proof.Machine.execTodOutSend s
  | .creditEpoch m => Sys2Proof.Machine.execCreditEpoch m s
  | .regionSwitchOn onF region idleHalfA => Sys2Proof.Machine.execRegionSwitchOn onF region idleHalfA s
  | .pfwNFall => Sys2Proof.Machine.execPfwNFall s
  | .pfwNRise => Sys2Proof.Machine.execPfwNRise s
  | .pfwReleaseHoldExpiry => Sys2Proof.Machine.execPfwReleaseHoldExpiry s
  | .sensorReading idx t => Sys2Proof.Machine.execSensorReading idx t s
  | .tierExit => Sys2Proof.Machine.execTierExit s
  | .thermtrip => Sys2Proof.Machine.execThermtrip s
  | .peakClr idx => Sys2Proof.Machine.execPeakClr idx s
  | .mgmtOtherFrame m => Sys2Proof.Machine.execMgmtOtherFrame m s
  | .hello port req verLo verHi keyHash => Sys2Proof.Machine.execHello port req verLo verHi keyHash s
  | .auth h sigOk => Sys2Proof.Machine.execAuth h sigOk s
  | .keepalive h => Sys2Proof.Machine.execKeepalive h s
  | .close h => Sys2Proof.Machine.execClose h s
  | .keepaliveSend sid => Sys2Proof.Machine.execKeepaliveSend sid s
  | .sessionKeepaliveTimeout sid => Sys2Proof.Machine.execSessionKeepaliveTimeout sid s
  | .regRead h addr count => Sys2Proof.Machine.execRegRead h addr count s
  | .regWrite h addr words => Sys2Proof.Machine.execRegWrite h addr words s
  | .regTxnTimeout h write addr => Sys2Proof.Machine.execRegTxnTimeout h write addr s
  | .batchBegin h batch kind count => Sys2Proof.Machine.execBatchBegin h batch kind count s
  | .batchData h batch segment ops => Sys2Proof.Machine.execBatchData h batch segment ops s
  | .batchEnd h batch segments => Sys2Proof.Machine.execBatchEnd h batch segments s
  | .batchApply => Sys2Proof.Machine.execBatchApply s
  | .batchSegmentTimeout sid batch => Sys2Proof.Machine.execBatchSegmentTimeout sid batch s
  | .eventAck h seq => Sys2Proof.Machine.execEventAck h seq s
  | .eventResume h seq => Sys2Proof.Machine.execEventResume h seq s
  | .eventResend sid => Sys2Proof.Machine.execEventResend sid s
  | .eventWindowClose code key => Sys2Proof.Machine.execEventWindowClose code key s
  | .learnAck h => Sys2Proof.Machine.execLearnAck h s
  | .learnLogDrain n => Sys2Proof.Machine.execLearnLogDrain n s
  | .shadowReloadDone t => Sys2Proof.Machine.execShadowReloadDone t s
  | .imageStage h switchNow seconds ns => Sys2Proof.Machine.execImageStage h switchNow seconds ns s
  | .sliceReload h k => Sys2Proof.Machine.execSliceReload h k s
  | .flashWrite h addr data => Sys2Proof.Machine.execFlashWrite h addr data s
  | .restart h => Sys2Proof.Machine.execRestart h s
  | .reset h => Sys2Proof.Machine.execReset h s
  | .resetDelayExpiry => Sys2Proof.Machine.execResetDelayExpiry s
  | .attest h nonce => Sys2Proof.Machine.execAttest h nonce s
  | .bootStatus h => Sys2Proof.Machine.execBootStatus h s
  | .fuseOwnerKey h slot hash readBackOk => Sys2Proof.Machine.execFuseOwnerKey h slot hash readBackOk s
  | .fuseRevokeOwner h slot readBackOk => Sys2Proof.Machine.execFuseRevokeOwner h slot readBackOk s
  | .fuseRevokeProvisioning h key readBackOk => Sys2Proof.Machine.execFuseRevokeProvisioning h key readBackOk s
  | .fuseJtagLevel h level readBackOk => Sys2Proof.Machine.execFuseJtagLevel h level readBackOk s
  | .secfloorRaise h => Sys2Proof.Machine.execSecfloorRaise h s
  | .bistStart h segment level => Sys2Proof.Machine.execBistStart h segment level s
  | .counterRead h cs => Sys2Proof.Machine.execCounterRead h cs s
  | .counterReadClear h cs => Sys2Proof.Machine.execCounterReadClear h cs s
  | .counterListNames h c => Sys2Proof.Machine.execCounterListNames h c s
  | .kick => Sys2Proof.Machine.execKick s
  | .watchdogExpiry => Sys2Proof.Machine.execWatchdogExpiry s
  | .boardHeartbeatWrite => Sys2Proof.Machine.execBoardHeartbeatWrite s
  | .heartbeatTimeout => Sys2Proof.Machine.execHeartbeatTimeout s
  | .twiTransfer write pointer data count => Sys2Proof.Machine.execTwiTransfer write pointer data count s
  | .bypass => Sys2Proof.Machine.execBypass s
  | .idcode => Sys2Proof.Machine.execIdcode s
  | .samplePreload => Sys2Proof.Machine.execSamplePreload s
  | .extest => Sys2Proof.Machine.execExtest s
  | .clamp => Sys2Proof.Machine.execClamp s
  | .highz => Sys2Proof.Machine.execHighz s
  | .mgmt write addr value => Sys2Proof.Machine.execMgmt write addr value s
  | .snapshotInstant => Sys2Proof.Machine.execSnapshotInstant s
  | .dumpWalkDone us => Sys2Proof.Machine.execDumpWalkDone us s
  | .accumulatorFlushApply => Sys2Proof.Machine.execAccumulatorFlushApply s
  | .cntFilterWrite f word v => Sys2Proof.Machine.execCntFilterWrite f word v s
  | .telemetrySend idx => Sys2Proof.Machine.execTelemetrySend idx s
  | .bistSegmentStart => Sys2Proof.Machine.execBistSegmentStart s
  | .bistSegmentDone seg misr ms => Sys2Proof.Machine.execBistSegmentDone seg misr ms s
  | .bistRestoreDone seg retrainFailed => Sys2Proof.Machine.execBistRestoreDone seg retrainFailed s
  | .bistDrainWaitExpiry => Sys2Proof.Machine.execBistDrainWaitExpiry s
  | .pllOutputDeparts => Sys2Proof.Machine.execPllOutputDeparts s
  | .alarmSourceStopsFiring src => Sys2Proof.Machine.execAlarmSourceStopsFiring src s
  | .trainingPauseEnds x => Sys2Proof.Machine.execTrainingPauseEnds x s
  | .ppsOutFall => Sys2Proof.Machine.execPpsOutFall s
  | .stagedImageChecksDone flashOk hdr tbl keyHash sigOk digestOk body => Sys2Proof.Machine.execStagedImageChecksDone flashOk hdr tbl keyHash sigOk digestOk body s

end Sys2Proof.Machine
end

