-- ==== Sys2Proof/Machine/Step.lean ====
section
/-! DEFINITION. One step: the command at the front of the queue, or, on an empty queue, one nanosecond of the clock. -/

namespace Sys2Proof.Machine

/-- Nothing is commanded: where the time clock runs (from step 3 of Table 2.8 on, R358), its nanosecond counter advances by one (DESIGN CHOICE, log 1). -/
def State.idle (s : State) : State :=
  if s.clocked && s.boot.stage != .released then { s with time := { s.time with stepFree := s.time.stepFree + 1 } } else s

/-- One step of the block: the oldest waiting command, on the state with the rest of the queue. -/
def step (s : State) : Host.Outcome State Fault Refusal :=
  match s.pending with
  | [] => .next s.idle
  | c :: rest => exec c { s with pending := rest }

/-- The state with the command that a word spells at the front of its queue; no word spells one. -/
def State.withFetchWord (s : State) (nbits w : Nat) : State :=
  match Sys2Proof.decodeTableWord nbits w with
  | some c => { s with pending := c :: s.pending }
  | none => s

end Sys2Proof.Machine
end

