-- ==== Sys2Proof/Safety.lean ====
section
/-! DEFINITION. The terms that statements about the FZ96 use: the parts of its state, what a command leaves alone, an event recorded, a counter counted,
and the canonical form of what is held sparsely. -/

namespace Sys2Proof.Machine

/-- The parts of the state, one for each field of `State`. -/
inductive Part where
  | regs | mem | banks | counters | pins | fuses | boot | events | fcp | obs | bist | line | headers | lookup | engine | traffic | hbm | fabric | gov | bridge
  | time | free | queue
  deriving DecidableEq, Repr

/-- Whether a part is the same in two states. -/
def Part.same (s t : State) : Part → Prop
  | .regs => t.regs = s.regs
  | .mem => t.mem = s.mem
  | .banks => t.bankOdd = s.bankOdd
  | .counters => t.ctrs = s.ctrs
  | .pins => t.pins = s.pins
  | .fuses => t.fuses = s.fuses
  | .boot => t.boot = s.boot
  | .events => t.ev = s.ev
  | .fcp => t.fcp = s.fcp
  | .obs => t.obs = s.obs
  | .bist => t.bist = s.bist
  | .line => t.line = s.line
  | .headers => t.hdrQ = s.hdrQ
  | .lookup => t.lookup = s.lookup
  | .engine => t.engine = s.engine
  | .traffic => t.traffic = s.traffic
  | .hbm => t.hbm = s.hbm
  | .fabric => t.fabric = s.fabric
  | .gov => t.gov = s.gov
  | .bridge => t.bridge = s.bridge
  | .time => t.time = s.time
  | .free => t.freeCtr = s.freeCtr
  | .queue => t.pending = s.pending

/-- From `s` to `t` only the parts of `l` may have changed. -/
structure Only (l : List Part) (s t : State) : Prop where
  same : ∀ p, p ∉ l → p.same s t

/-- The parts that recording an event may change: the ring or the boot log, the sessions it is sent to, the records for collectors, and the counters of events lost and of filters. -/
def eventParts : List Part := [.counters, .events, .fcp, .obs]

/-- From `s` to `t` only the registers at the addresses of `l` may have changed. -/
structure RegsOnly (l : List Nat) (s t : State) : Prop where
  same : ∀ a, a ∉ l → t.reg a = s.reg a

/-- From `s` to `t` only the bytes of table memory in the ranges of `l` (first address, number of bytes) may have changed. -/
structure MemOnly (l : List (Nat × Nat)) (s t : State) : Prop where
  same : ∀ a, (∀ r ∈ l, a < r.1 ∨ r.1 + r.2 ≤ a) → mget (fun _ => (0 : Byte)) t.mem a = mget (fun _ => (0 : Byte)) s.mem a

/-- Where events go: to the ring while the firmware runs or in the recovery state, to the boot log before (R58, R404). -/
def State.ringing (s : State) : Bool := s.boot.fwRunning || s.boot.stage == .recovery

/-- The event records that state `s` holds. -/
def State.eventLog (s : State) : List EventRec := if s.ringing then s.ev.ring else s.ev.bootLog

/-- `t` holds a record of event `code` with data `data`, made at the time of day of `s`. -/
def Recorded (s t : State) (code : Nat) (data : Bytes) : Prop :=
  ∃ r ∈ t.eventLog, r.code = code ∧ r.data = data ∧ r.time = todBytes s.tod

/-- From `s` to `t` counter `c` of unit `i` has counted `n`. -/
def Counted (s t : State) (c : Ctr) (i n : Nat) : Prop := t.ctr (ctrKey c i) = (s.ctr (ctrKey c i)).bump n

/-- No rate-limit window of an event and key is open (R467). -/
def State.noWindow (s : State) (code key : Nat) : Prop := s.ev.windows.all (fun w => !(w.code == code && w.key == key)) = true

/-- `t` is the device of `s` held in a complete cold reset (R35): all state lost but the fuses, the flash and the commands that wait. -/
structure ColdReset (s t : State) : Prop where
  stage : t.boot.stage = .coldReset
  ready : t.pins.ready = false
  fault : t.pins.fault = true
  idle : t.pins.linkIdle = true
  scan : t.pins.scanMode = false
  keys : t.line.sas = []
  sessions : t.fcp.sessions = []
  regs : ∀ a, t.reg a = resetOf a
  ctrs : ∀ k, t.ctr k = CtrVal.zero
  mem : t.mem = []
  events : t.ev = Events.cold
  traffic : t.traffic = Traffic.cold
  fuses : t.fuses = s.fuses
  flash : t.boot.flash = s.boot.flash
  queue : t.pending = s.pending

/-- The slot in hand is refused with `reason` (R48, R49). -/
structure SlotRefused (s t : State) (reason : Nat) : Prop where
  slotA : s.boot.slot = 0 → t.boot.slot = 1 ∧ t.boot.stage = .header ∧ t.fld Reg.bootStatus Fld.bootStatus_failA = reason % 256 ∧ Recorded s t 0x0111 (natBe 1 reason)
    ∧ t.pins = s.pins
  slotB : s.boot.slot ≠ 0 → t.boot.stage = .recovery ∧ t.fld Reg.bootStatus Fld.bootStatus_failB = reason % 256 ∧ Recorded s t 0x0112 []
    ∧ t.fld Reg.bootStatus Fld.bootStatus_step = 0xF0 ∧ t.pins = { s.pins with faultRecovery := true }
  keys : t.line.sas = []
  mem : t.mem = []
  regs : ∀ a, a ≠ Reg.bootStatus → a ≠ Reg.fuseStatus → t.reg a = resetOf a
  fuses : t.fuses = s.fuses
  time : t.time = s.time
  queue : t.pending = s.pending

/-- A frame of session `x` that passes the checks of R394 and is no repetition of a request whose reply is kept (R398). -/
structure Accepted (s : State) (h : FcpHdr) (x : Session) : Prop where
  known : s.session h.session = some x
  up : s.fcpUp = true
  tag : h.tagOk = true
  seq : x.rxSeq < h.seq
  new : x.replies.find? (fun r => r.request == h.request) = none

/-- A request of type `type` that passes the checks of R394 and that the session's state, version and privilege allow (R395, R398). -/
structure Granted (s : State) (h : FcpHdr) (x : Session) (type priv : Nat) : Prop where
  accepted : Accepted s h x
  allowed : s.fcpDeny x type priv = none

/-- The last message sent is the reply to request `h`, with a status and a payload. -/
def Replied (t : State) (h : FcpHdr) (type status : Nat) (payload : Bytes) : Prop :=
  ∃ m, t.fcp.sent.getLast? = some m ∧ m.session = h.session ∧ m.type = type ∧ m.request = h.request ∧ m.reply = true ∧ m.status = status ∧ m.payload = payload

/-- No MACsec association holds a key or a salt, installed or staged (R104). -/
def State.keyless (s : State) : Prop := ∀ p c a, (s.sa p c a).key = 0 ∧ (s.sa p c a).salt = 0 ∧ (s.sa p c a).keyStage = 0 ∧ (s.sa p c a).saltStage = 0

/-- The program of engine `e` ended with a fault of `kind` (R235): the engine is idle, the fault counted and reported, and its packet waits for its return
with inspection status 3. -/
structure EngineFaulted (s t : State) (e kind : Nat) : Prop where
  idle : t.eng e = Engine.idle
  counted : Counted s t .engineClusterFault (e / 32) 1
  reported : s.noWindow 0x0502 (s.eng e).program → Recorded s t 0x0502 (natBe 1 (s.eng e).program ++ natBe 1 e ++ natBe 2 (s.eng e).pc ++ natBe 1 kind)
  ended : ∀ o ∈ t.outOf (s.eng e).slice, o.seq = (s.eng e).seq → o.ended = true ∧ o.d.inspect = 3

/-- The issue of an engine instruction. -/
def issueOf : Instr → Option Issue
  | .add i _ _ _ | .sub i _ _ _ | .and i _ _ _ | .or i _ _ _ | .xor i _ _ _ | .shl i _ _ _ | .shr i _ _ _ | .min i _ _ _ | .max i _ _ _ | .crc i _ _ _ => some i
  | .clz i _ _ | .addi i _ _ _ | .andi i _ _ _ | .ori i _ _ _ | .xori i _ _ _ | .shli i _ _ _ | .shri i _ _ _ | .movi i _ _ | .insh i _ _ _ => some i
  | .ld i _ _ _ _ | .st i _ _ _ _ | .xadd i _ _ _ | .beq i _ _ _ | .bne i _ _ _ | .blt i _ _ _ | .bge i _ _ _ | .jmp i _ | .call i _ | .ret i => some i
  | .pfind i _ _ _ _ | .pmatch i _ _ _ | .verdict i _ _ _ _ | .endProg i | .nop i => some i
  | _ => none

/-- The program store range of the program that engine `e` runs: its first instruction and the one after its last. -/
def State.progEnds (s : State) (e : Nat) : Nat := s.fld (Reg.engineProg (s.eng e).program) Fld.engineProg_entry + s.fld (Reg.engineProg (s.eng e).program) Fld.engineProg_length

/-- Engine `e` issues: it runs a program, has no search in hand, and its budget lasts for another cycle (R221, R234). -/
structure Issues (s : State) (e : Nat) : Prop where
  clocked : s.clocked = true
  run : (s.eng e).run = true
  free : (s.eng e).scan = none
  budget : (s.eng e).cycles + 1 < s.fld (Reg.engineProg (s.eng e).program) Fld.engineProg_budget

/-- The issue `i` completes but for what its instruction does: the engine issues, inside its program, and no memory read is uncorrectable (R227, R236). -/
structure Completes (s : State) (i : Issue) : Prop where
  issues : Issues s i.e
  inside : (s.eng i.e).pc < s.progEnds i.e
  clean : i.ecc = .good ∨ i.ecc = .corrected

/-- Of the engines only engine `e` may have changed, and of memory only the sampling ring of its cluster and the ranges of `l`. -/
structure EngineOnly (e : Nat) (l : List (Nat × Nat)) (s t : State) : Prop where
  engines : ∀ f, f ≠ e → t.eng f = s.eng f
  mem : MemOnly ((0x0001_3000_0000 + 0x0010_0000 * (e / 32) + 0x000C_0000, 65536) :: l) s t

/-- Table memory in its canonical form. -/
abbrev Memory.wf (m : List Host.Cell) : Bool := mwf (fun _ => (0 : Byte)) m

/-- Registers, the odd copies, counters and table memory stand in their canonical forms. -/
def State.canonical (s : State) : Bool :=
  mwf resetOf s.regs && mwf resetOf s.bankOdd && mwf (fun _ => CtrVal.zero) s.ctrs && Memory.wf s.mem

end Sys2Proof.Machine
end

