-- ==== Sys2Proof/Certificates/Slice0/Obligations.lean ====
section
/-! DEFINITION. The statements about the FZ96 for the provers. A statement about a command says, under conditions on the state and the operands alone,
that `exec` answers a next state, what that state holds, and which parts and registers are as before. -/

open Sys2Proof Sys2Proof.Machine

/-- R34, R35, R389, R451: a complete cold reset, and a pulse too short to be one. -/
def Obligations.ColdResetLosesAllButFusesAndFlash : Prop :=
  (∀ (ns : Nat) (rail : Bool) (s : State), (100 ≤ ns ∨ rail = true) → ∃ t, exec (.pwrGoodLow ns rail) s = .next t ∧ ColdReset s t
    ∧ t.pins.thermtrip = false ∧ t.pins.clocksStopped = false)
  ∧ (∀ (ns : Nat) (s : State), 100 ≤ ns → ∃ t, exec (.rstNLow ns) s = .next t ∧ ColdReset s t ∧ t.pins.thermtrip = s.pins.thermtrip ∧ t.pins.clocksStopped = s.pins.clocksStopped)
  ∧ (∀ (ns : Nat) (s : State), ns < 100 → exec (.rstNLow ns) s = .next s)

/-- Table 2.8 and R48, checks 1 to 6 passed. -/
def Obligations.StartUpPassesEachCheck : Prop :=
  (∀ s : State, s.boot.stage = .coldReset → s.pins.clocksStopped = false → ∃ t, exec .leaveColdReset s = .next t ∧ t.boot = { s.boot with stage := .released }
    ∧ t.fld Reg.bootStatus Fld.bootStatus_step = 2 ∧ Only [.regs, .boot] s t ∧ RegsOnly [Reg.bootStatus] s t)
  ∧ (∀ s : State, s.clocked = true → s.boot.stage = .released → s.boot.stopped = false → ∃ t, exec .bootRomStart s = .next t ∧ t.boot = { s.boot with stage := .header }
    ∧ t.pins = { s.pins with faultReset := false } ∧ t.fld Reg.bootStatus Fld.bootStatus_step = 3
    ∧ t.fld Reg.fuseStatus Fld.fuseStatus_secFloor = s.fuses.secFloor % 128 ∧ t.fld Reg.fuseStatus Fld.fuseStatus_jtagLevel = s.fuses.jtag % 4
    ∧ t.fld Reg.fuseStatus Fld.fuseStatus_keyRevoked = s.fuses.ownerRevoked % 16 ∧ t.fld Reg.fuseStatus Fld.fuseStatus_provRevoked = s.fuses.provRevoked % 4
    ∧ Only [.regs, .boot, .pins] s t ∧ RegsOnly [Reg.bootStatus, Reg.fuseStatus] s t)
  ∧ (∀ (ok : Bool) (mib : Nat) (hdr : Bytes) (s : State), s.clocked = true → s.boot.stage = .header → s.boot.stopped = false → hdrCheck ok s.boot.slot mib hdr = 0 →
    ∃ t, exec (.slotHeaderRead ok mib hdr) s = .next t ∧ t.boot = { s.boot with stage := .sectionTable, flashMiB := mib, hdr := hdr, tbl := [], keyHash := 0 }
    ∧ t.fld Reg.bootStatus Fld.bootStatus_step = 4 ∧ Only [.regs, .boot] s t ∧ RegsOnly [Reg.bootStatus] s t)
  ∧ (∀ (tbl : Bytes) (k : BitVec 384) (s : State), s.clocked = true → s.boot.stage = .sectionTable → s.boot.stopped = false → s.keyOkay (keySlot s.boot.hdr) k = true →
    ∃ t, exec (.sectionTableRead tbl k) s = .next t ∧ t.boot = { s.boot with stage := .signature, tbl := tbl, keyHash := k } ∧ Only [.boot] s t)
  ∧ (∀ s : State, s.clocked = true → s.boot.stage = .signature → s.boot.stopped = false → s.fuses.secFloor ≤ secVersionOf s.boot.hdr →
    ∃ t, exec (.signatureVerified true) s = .next t ∧ t.boot = { s.boot with stage := .body, stagingBusy := true }
    ∧ t.fld Reg.bootStatus Fld.bootStatus_step = 5 ∧ Only [.regs, .boot] s t ∧ RegsOnly [Reg.bootStatus] s t)

/-- R48 and R49: each failing check. -/
def Obligations.RefusedSlotFallsBack : Prop :=
  (∀ (ok : Bool) (mib : Nat) (hdr : Bytes) (s : State), s.clocked = true → s.boot.stage = .header → s.boot.stopped = false → hdrCheck ok s.boot.slot mib hdr ≠ 0 →
    ∃ t, exec (.slotHeaderRead ok mib hdr) s = .next t ∧ SlotRefused s t (hdrCheck ok s.boot.slot mib hdr))
  ∧ (∀ (tbl : Bytes) (k : BitVec 384) (s : State), s.clocked = true → s.boot.stage = .sectionTable → s.boot.stopped = false → s.keyOkay (keySlot s.boot.hdr) k = false →
    ∃ t, exec (.sectionTableRead tbl k) s = .next t ∧ SlotRefused s t 0x06)
  ∧ (∀ (ok : Bool) (s : State), s.clocked = true → s.boot.stage = .signature → s.boot.stopped = false → (ok = false ∨ secVersionOf s.boot.hdr < s.fuses.secFloor) →
    ∃ t, exec (.signatureVerified ok) s = .next t ∧ SlotRefused s t (if ok then 0x08 else 0x07))
  ∧ (∀ (body : Bytes) (s : State), s.clocked = true → s.boot.stage = .body → s.boot.stopped = false →
    ∃ t, exec (.bodyReadDone false body) s = .next t ∧ SlotRefused s t 0x09)
  ∧ (∀ (body : Bytes) (r : Nat) (s : State), s.clocked = true → s.boot.stage = .body → s.boot.stopped = false → s.imageApply s.boot.hdr s.boot.tbl body = .error r → ∃ t, exec (.bodyReadDone true body) s = .next t ∧ SlotRefused s t r)
  ∧ (∀ s : State, s.clocked = true → (s.boot.stage = .header ∨ s.boot.stage = .sectionTable ∨ s.boot.stage = .body) → s.boot.stopped = false →
    ∃ t, exec .flashReadStall s = .next t ∧ SlotRefused s t 0x01)
  ∧ (∀ s : State, s.clocked = true → s.boot.stage = .fwStart → s.boot.stopped = false → ∃ t, exec .firmwareStartTimeout s = .next t ∧ SlotRefused s t 0x0D)

/-- Table 2.8 from step 5 on. -/
def Obligations.StartUpReachesReady : Prop :=
  (∀ (body : Bytes) (u s : State), s.clocked = true → s.boot.stage = .body → s.boot.stopped = false → s.imageApply s.boot.hdr s.boot.tbl body = .ok u →
    ∃ t, exec (.bodyReadDone true body) s = .next t ∧ t.boot.stage = .fwStart ∧ t.boot.firmware = imageFirmware s.boot.hdr s.boot.tbl body ∧ t.mem = u.mem)
  ∧ (∀ s : State, s.clocked = true → s.boot.stage = .fwStart → s.boot.stopped = false → s.boot.warm = false → ∃ t, exec (.firmwareReportsRunning true) s = .next t
    ∧ t.boot = { s.boot with fwRunning := true, stage := .training, wdogAt := s.time.stepFree, heartAt := s.time.stepFree }
    ∧ t.fld Reg.bootStatus Fld.bootStatus_step = 6 ∧ t.fld Reg.bootStatus Fld.bootStatus_slot = (s.boot.slot + 1) % 4
    ∧ t.fld Reg.bootStatus Fld.bootStatus_secVersion = secVersionOf s.boot.hdr % 256 ∧ Recorded s t 0x0110 (natBe 1 (s.boot.slot + 1))
    ∧ Only ([.regs, .boot] ++ eventParts) s t ∧ RegsOnly [Reg.bootStatus] s t)
  ∧ (∀ (failed : List Nat) (s : State), s.clocked = true → s.boot.stage = .training → s.boot.stopped = false → ∃ t, exec (.stackTrainingDone failed) s = .next t
    ∧ (∀ x, x < 512 → t.hbmState x = if failed.contains x then 5 else 1)
    ∧ (if (List.range 8).any (fun k => decide (s.fld Reg.bootPolicy Fld.bootPolicy_hbmFenceLimit < ((List.range 64).filter (fun i => failed.contains (64 * k + i))).length)) then
        t.boot.stage = .halted ∧ t.pins = { s.pins with faultHalt := true } ∧ t.fld Reg.bootStatus Fld.bootStatus_step = 0xFF ∧ Recorded s t 0x0114 []
      else t.boot.stage = .bist ∧ t.pins = s.pins ∧ t.fld Reg.bootStatus Fld.bootStatus_step = 7)
    ∧ Only ([.regs, .boot, .pins] ++ eventParts) s t)
  ∧ (∀ s : State, s.clocked = true → s.boot.stage = .fabric → s.boot.stopped = false → ∃ t, exec .fabricWaitExpiry s = .next t ∧ t.boot = { s.boot with stage := .statics }
    ∧ t.fld Reg.bootStatus Fld.bootStatus_step = 9 ∧ Recorded s t 0x0117 (natBe 8 ((s.fabGroups.filter (fun g => !s.groupAligned g)).map (fun g => 2 ^ g)).sum)
    ∧ Only ([.regs, .boot] ++ eventParts) s t ∧ RegsOnly [Reg.bootStatus] s t)
  ∧ (∀ s : State, s.clocked = true → s.boot.stage = .statics → s.boot.stopped = false → s.boot.fwRunning = true → ∃ t, exec .staticTablesDone s = .next t ∧ t.pins.ready = true ∧ t.boot.stage = .running
    ∧ t.boot.stagingBusy = false ∧ t.boot.statics = [] ∧ t.boot.readyAt = s.time.stepFree ∧ t.fld Reg.bootStatus Fld.bootStatus_step = 11
    ∧ Recorded s t 0x0118 [])

/-- R59, R61, R397, R409: warm restarts. -/
def Obligations.WarmRestartKeepsTheDevice : Prop :=
  (∀ s : State, s.clocked = true → s.boot.fwRunning = true → s.boot.warmStopped = false → ∃ t, exec .firmwareWarmRestart s = .next t
    ∧ t.boot.fwRunning = false ∧ t.boot.warm = true ∧ t.boot.warmAt = s.time.stepFree ∧ t.fcp.sessions = [] ∧ t.obs.teleQ = []
    ∧ t.fld Reg.bootStatus Fld.bootStatus_warmCount = min (s.fld Reg.bootStatus Fld.bootStatus_warmCount + 1) 255
    ∧ Counted s t .controlCoreWarmRestart 0 1 ∧ Only [.regs, .counters, .boot, .fcp, .obs] s t ∧ RegsOnly [Reg.bootStatus, Reg.fcpCtrl] s t)
  ∧ (∀ (h : FcpHdr) (x : Session) (s : State), s.clocked = true → Granted s h x 0x34 privWrite → s.boot.fwRunning = true → s.boot.warmStopped = false →
    ∃ t, exec (.restart h) s = .next t ∧ Replied t h 0x34 0 [] ∧ t.boot.fwRunning = false ∧ t.boot.warm = true ∧ t.fcp.sessions = []
    ∧ Only [.regs, .counters, .boot, .fcp, .obs] s t ∧ RegsOnly [Reg.bootStatus, Reg.fcpCtrl] s t)
  ∧ (∀ s : State, s.clocked = true → s.boot.warm = true → s.boot.warmFails + 1 < s.fld Reg.bootPolicy Fld.bootPolicy_warmLimit → ∃ t, exec .warmRestartTimeout s = .next t
    ∧ t.boot.warm = true ∧ t.boot.warmFails = s.boot.warmFails + 1 ∧ Counted s t .controlCoreWarmRestart 0 1 ∧ t.pins = s.pins)
  ∧ (∀ s : State, s.clocked = true → s.boot.warm = true → s.fld Reg.bootPolicy Fld.bootPolicy_warmLimit ≤ s.boot.warmFails + 1 → ∃ t, exec .warmRestartTimeout s = .next t
    ∧ t.boot.warmStopped = true ∧ t.pins.fault = true ∧ Recorded s t 0x011A [] ∧ Only ([.boot, .pins] ++ eventParts) s t)
  ∧ (∀ s : State, s.clocked = true → s.boot.fwRunning = true → s.boot.warmStopped = false → s.boot.wdogAt + 1000000 * s.fld Reg.wdogCtrl Fld.wdogCtrl_period ≤ s.time.stepFree →
    s.fld Reg.bootStatus Fld.bootStatus_warmCount = 0 → ∃ t, exec .watchdogExpiry s = .next t ∧ t.keyless ∧ t.boot.warm = true ∧ t.boot.fwRunning = false
    ∧ Counted s t .controlCoreWdogExpired 0 1 ∧ Only [.regs, .counters, .pins, .boot, .events, .fcp, .obs, .line] s t)

/-- R68, R69 and Table 3.2. -/
def Obligations.ReceivedFramesAreCheckedInOrder : Prop :=
  let marked (s : State) (p : Nat) (f : Bytes) (m : RxMarks) (c : Ctr) (bs : Bytes) : Prop := ∃ t, exec (.rxFrame p f m) s = .next t ∧ Counted s t c p 1
    ∧ t.hdrOf (p / 8) = s.hdrOf (p / 8) ++ [s.rxPkt p bs true] ∧ Only [.counters, .headers] s t
  (∀ (p : Nat) (f : Bytes) (m : RxMarks) (s : State), s.clocked = true → s.portUp p = false → exec (.rxFrame p f m) s = .next (s.count .lineMacRxPortDown p))
  ∧ (∀ (p : Nat) (f : Bytes) (m : RxMarks) (s : State), s.clocked = true → s.portUp p = true → f.length < 64 → exec (.rxFrame p f m) s = .next (s.count .lineMacRxRunt p))
  ∧ (∀ (p : Nat) (f : Bytes) (m : RxMarks) (s : State), s.clocked = true → s.portUp p = true → 64 ≤ f.length → s.flag (Reg.macsecSecyCfg p) Fld.macsecSecyCfg_enable = false → m.cutByLinkDown = true →
    marked s p f m .lineMacRxTruncated f)
  ∧ (∀ (p : Nat) (f : Bytes) (m : RxMarks) (s : State), s.clocked = true → s.portUp p = true → 64 ≤ f.length → s.flag (Reg.macsecSecyCfg p) Fld.macsecSecyCfg_enable = false → m.cutByLinkDown = false → m.cdcOverrun = true →
    marked s p f m .lineMacRxCdcOverrun f)
  ∧ (∀ (p : Nat) (f : Bytes) (m : RxMarks) (s : State), s.clocked = true → s.portUp p = true → 64 ≤ f.length → s.flag (Reg.macsecSecyCfg p) Fld.macsecSecyCfg_enable = false → m.cutByLinkDown = false → m.cdcOverrun = false → m.fecBad = true →
    marked s p f m .lineMacRxFecBad f)
  ∧ (∀ (p : Nat) (f : Bytes) (m : RxMarks) (s : State), s.clocked = true → s.portUp p = true → 64 ≤ f.length → s.flag (Reg.macsecSecyCfg p) Fld.macsecSecyCfg_enable = false → m.cutByLinkDown = false → m.cdcOverrun = false → m.fecBad = false → s.fld (Reg.linePortCfg p) Fld.linePortCfg_maxFrame < f.length →
    marked s p f m .lineMacRxOversize (f.take (s.fld (Reg.linePortCfg p) Fld.linePortCfg_maxFrame + 1)))
  ∧ (∀ (p : Nat) (f : Bytes) (m : RxMarks) (s : State), s.clocked = true → s.portUp p = true → 64 ≤ f.length → s.flag (Reg.macsecSecyCfg p) Fld.macsecSecyCfg_enable = false → m.cutByLinkDown = false → m.cdcOverrun = false → m.fecBad = false → f.length ≤ s.fld (Reg.linePortCfg p) Fld.linePortCfg_maxFrame → f.drop (f.length - 4) = stompedFcs (f.take (f.length - 4)) →
    marked s p f m .lineMacRxStomped f)
  ∧ (∀ (p : Nat) (f : Bytes) (m : RxMarks) (s : State), s.clocked = true → s.portUp p = true → 64 ≤ f.length → s.flag (Reg.macsecSecyCfg p) Fld.macsecSecyCfg_enable = false → m.cutByLinkDown = false → m.cdcOverrun = false → m.fecBad = false → f.length ≤ s.fld (Reg.linePortCfg p) Fld.linePortCfg_maxFrame → f.drop (f.length - 4) ≠ stompedFcs (f.take (f.length - 4)) → f.drop (f.length - 4) ≠ fcsOf (f.take (f.length - 4)) →
    marked s p f m .lineMacRxFcsErr f)
  ∧ (∀ (p : Nat) (f : Bytes) (m : RxMarks) (s : State), s.clocked = true → s.portUp p = true → 64 ≤ f.length → s.flag (Reg.macsecSecyCfg p) Fld.macsecSecyCfg_enable = false → m.cutByLinkDown = false → m.cdcOverrun = false → m.fecBad = false → f.length ≤ s.fld (Reg.linePortCfg p) Fld.linePortCfg_maxFrame → f.drop (f.length - 4) ≠ stompedFcs (f.take (f.length - 4)) → f.drop (f.length - 4) = fcsOf (f.take (f.length - 4)) → beAt f 12 2 = 0x8808 →
    exec (.rxFrame p f m) s = .next (s.count .lineMacRxMacctl p))
  ∧ (∀ (p : Nat) (f : Bytes) (m : RxMarks) (s : State), s.clocked = true → s.portUp p = true → 64 ≤ f.length → s.flag (Reg.macsecSecyCfg p) Fld.macsecSecyCfg_enable = false → m.cutByLinkDown = false → m.cdcOverrun = false → m.fecBad = false → f.length ≤ s.fld (Reg.linePortCfg p) Fld.linePortCfg_maxFrame → f.drop (f.length - 4) ≠ stompedFcs (f.take (f.length - 4)) → f.drop (f.length - 4) = fcsOf (f.take (f.length - 4)) → beAt f 12 2 ≠ 0x8808 → s.isControl f = false →
    ∃ t, exec (.rxFrame p f m) s = .next t ∧ Counted s t .lineMacRxFrames p 1 ∧ Counted s t .lineMacRxBytes p f.length
    ∧ t.hdrOf (p / 8) = s.hdrOf (p / 8) ++ [s.rxPkt p f false] ∧ Only [.counters, .headers] s t)

/-- R71, R72, R76: lanes. -/
def Obligations.LaneChangesReachThePort : Prop :=
  (∀ (l : Nat) (s : State), s.clocked = true → l < 96 → ∃ t, exec (.lineLaneSignalLoss l) s = .next t ∧ t.lane l = 0 ∧ (∀ k, k ≠ l → t.lane k = s.lane k)
    ∧ (∀ p, s.laneOwner l = some p → t.flag (Reg.linePortStatus p) Fld.linePortStatus_signal = false) ∧ Only [.regs, .counters, .events, .fcp, .obs, .line, .traffic] s t
    ∧ (∀ a, t.reg a ≠ s.reg a → (0x10000000 ≤ a ∧ a < 0x20000000) ∨ (0x50000000 ≤ a ∧ a < 0x60000000) ∨ a = Reg.epochInflight ∨ a = Reg.epochState))
  ∧ (∀ (l : Nat) (s : State), s.clocked = true → l < 96 → s.lane l = 0 → s.canSpend 3 retrainCost = true → ∃ t, exec (.lineLaneSignalReturn l) s = .next t ∧ t.lane l = 3
    ∧ t.gov.purse3 = s.gov.purse3 - retrainCost ∧ Only [.regs, .counters, .events, .fcp, .obs, .line, .traffic, .gov] s t)
  ∧ (∀ (l : Nat) (s : State), s.clocked = true → l < 96 → s.lane l = 0 → s.canSpend 3 retrainCost = false → ∃ t, exec (.lineLaneSignalReturn l) s = .next t ∧ t.lane l = 2
    ∧ t.gov = s.gov ∧ Counted s t .lineSerdesRetrainWait l 1)
  ∧ (∀ (l : Nat) (s : State), s.clocked = true → l < 96 → s.lane l = 3 → ∃ t, exec (.laneRetrainDone l) s = .next t ∧ t.lane l = 1 ∧ (∀ k, k ≠ l → t.lane k = s.lane k)
    ∧ Only [.regs, .counters, .events, .fcp, .obs, .line, .traffic] s t)

/-- R71, R72, R74: port state. -/
def Obligations.PortsGoDownAndComeUp : Prop :=
  let down (s t : State) (p cause : Nat) : Prop := t.portUp p = false ∧ t.fld (Reg.linePortStatus p) Fld.linePortStatus_downCause = cause ∧ Recorded s t 0x0202 (natBe 1 p ++ natBe 1 cause)
    ∧ Counted s t .lineMacLinkDown p 1 ∧ p ∈ t.line.closeDue ∧ (p, false) ∈ t.line.noticeDue ∧ Only [.regs, .counters, .events, .fcp, .obs, .line, .traffic] s t
  (∀ (p : Nat) (s : State), s.clocked = true → p < 96 → s.portUp p = true → (s.port p).downHold = true → s.portCause p ≠ 0 →
    ∃ t, exec (.linkDownHoldExpiry p) s = .next t ∧ down s t p (s.portCause p))
  ∧ (∀ (p : Nat) (s : State), s.clocked = true → p < 96 → s.portUp p = false → (s.port p).upHold = true → s.portCause p = 0 → ∃ t, exec (.linkUpHoldExpiry p) s = .next t
    ∧ t.portUp p = true ∧ t.fld (Reg.linePortStatus p) Fld.linePortStatus_downCause = 0 ∧ t.fld (Reg.trafficPortCfg p) Fld.trafficPortCfg_closed = 0
    ∧ Recorded s t 0x0201 (natBe 1 p) ∧ Only [.regs, .counters, .events, .fcp, .obs, .line] s t ∧ RegsOnly [Reg.linePortStatus p, Reg.trafficPortCfg p] s t)
  ∧ (∀ (p : Nat) (s : State), s.clocked = true → p < 96 → s.portUp p = true → s.flexePort p = false → s.portFaults p = [] → s.fld (Reg.linePortCfg p) Fld.linePortCfg_linkDownHold ≠ 0 →
    ∃ t, exec (.linkFaultChange p (.remoteFault true)) s = .next t ∧ t.portUp p = true ∧ (t.port p).downHold = true
    ∧ t.fld (Reg.linePortStatus p) Fld.linePortStatus_hold = 1 ∧ t.fld (Reg.linePortStatus p) Fld.linePortStatus_remoteFault = 1
    ∧ Only [.regs, .line] s t ∧ RegsOnly [Reg.linePortStatus p] s t)
  ∧ (∀ (p : Nat) (s : State), s.clocked = true → p < 96 → s.portUp p = true → s.flexePort p = false → s.portFaults p = [] → s.fld (Reg.linePortCfg p) Fld.linePortCfg_linkDownHold = 0 →
    ∃ t, exec (.linkFaultChange p (.remoteFault true)) s = .next t ∧ down s t p 5)
  ∧ (∀ (p : Nat) (s : State), s.clocked = true → p < 96 → s.portMode p ≠ 0 → s.portUp p = true → s.flexePort p = false →
    ∃ t, exec (.adminUpWrite p false) s = .next t ∧ down s t p 1 ∧ t.fld (Reg.linePortCtrl p) Fld.linePortCtrl_adminUp = 0)

/-- R75: FEC degrade. -/
def Obligations.FecDegradeSetsAndClears : Prop :=
  (∀ (p v : Nat) (s : State), s.clocked = true → p < 96 → s.portMode p ≠ 0 → v ≤ 16777215 → (v ≠ 0 ∨ s.flag (Reg.linePortStatus p) Fld.linePortStatus_fecDegrade = false) →
    exec (.degThreshWrite p v) s = .next (s.setFld (Reg.linePortCtrl p) Fld.linePortCtrl_degThresh v))
  ∧ (∀ (p : Nat) (s : State), s.clocked = true → p < 96 → s.portMode p ≠ 0 → s.ringing = true → s.flag (Reg.linePortStatus p) Fld.linePortStatus_fecDegrade = true →
    ∃ t, exec (.degThreshWrite p 0) s = .next t ∧ t.flag (Reg.linePortStatus p) Fld.linePortStatus_fecDegrade = false ∧ t.fld (Reg.linePortCtrl p) Fld.linePortCtrl_degThresh = 0
    ∧ Recorded s t 0x0204 (natBe 1 p) ∧ Only [.regs, .counters, .events, .fcp, .obs, .line, .traffic] s t)
  ∧ (∀ (p c u : Nat) (s : State), s.clocked = true → p < 96 → ∃ t, exec (.fecWindowEnd p c u false) s = .next t ∧ Counted s t .lineMacFecSymCorr p c ∧ Counted s t .lineMacFecCwBad p u
    ∧ t.port p = { s.port p with degWin := s.fld (Reg.linePortCtrl p) Fld.linePortCtrl_degThresh } ∧ (∀ q, q ≠ p → t.port q = s.port q) ∧ Only [.counters, .line] s t)
  ∧ (∀ (p c u : Nat) (s : State), s.clocked = true → p < 96 → s.ringing = true → s.flag (Reg.linePortStatus p) Fld.linePortStatus_fecDegrade = false → (s.port p).degWin ≠ 0 → (s.port p).degWin < c →
    ∃ t, exec (.fecWindowEnd p c u true) s = .next t ∧ t.flag (Reg.linePortStatus p) Fld.linePortStatus_fecDegrade = true ∧ Recorded s t 0x0203 (natBe 1 p)
    ∧ Only [.regs, .counters, .events, .fcp, .obs, .line, .traffic] s t)
  ∧ (∀ (p c u : Nat) (s : State), s.clocked = true → p < 96 → s.ringing = true → s.flag (Reg.linePortStatus p) Fld.linePortStatus_fecDegrade = true → c ≤ (s.port p).degWin / 2 → (s.port p).goodWins = 9 →
    ∃ t, exec (.fecWindowEnd p c u true) s = .next t ∧ t.flag (Reg.linePortStatus p) Fld.linePortStatus_fecDegrade = false ∧ Recorded s t 0x0204 (natBe 1 p))

/-- R86, R87: departure. -/
def Obligations.SentFramesLeaveThePort : Prop :=
  ∀ (p : Nat) (f : TxPkt) (rest : List TxPkt) (s : State), s.clocked = true → p < 96 → s.portUp p = true → (s.port p).txQ = f :: rest → f.stomp = false → f.tc < 8 → f.counted = false →
    let ptr := Reg.lineTspRingPtr p
    let wr := s.fld ptr Fld.lineTspRingPtr_wr
    ∃ t, exec (.txFrameEnd p) s = .next t ∧ t.line.sent = s.line.sent ++ [⟨p, f.bytes, false⟩] ∧ (t.port p).txQ = rest
      ∧ t.ctr (bankKey 0x101 (4 * (8 * p + f.tc) + 2)) = (s.ctr (bankKey 0x101 (4 * (8 * p + f.tc) + 2))).bump 1
      ∧ t.ctr (bankKey 0x101 (4 * (8 * p + f.tc) + 3)) = (s.ctr (bankKey 0x101 (4 * (8 * p + f.tc) + 3))).bump f.bytes.length
      ∧ mget (fun _ => 0) t.traffic.inflight f.node = mget (fun _ => 0) s.traffic.inflight f.node - f.win
      ∧ (f.twoStep = false → t.regs = s.regs)
      ∧ (f.twoStep = true → (wr + 1) % 64 ≠ s.fld ptr Fld.lineTspRingPtr_rd → t.fld ptr Fld.lineTspRingPtr_wr = (wr + 1) % 64
        ∧ RegsOnly [ptr, Reg.lineTspRingWord p (2 * wr), Reg.lineTspRingWord p (2 * wr + 1)] s t)
      ∧ (f.twoStep = true → (wr + 1) % 64 = s.fld ptr Fld.lineTspRingPtr_rd → t.regs = s.regs ∧ Counted s t .lineTspTxRingFull p 1)
      ∧ Only [.regs, .counters, .events, .fcp, .obs, .line, .traffic] s t

/-- R80 to R83: FlexE groups. -/
def Obligations.FlexeLocksAndCalendars : Prop :=
  (∀ (k j g ph cal sk : Nat) (mf : Bool) (s : State), s.clocked = true → k < 12 → j < 8 → bit (s.fld (Reg.lineFlexeCfg k) Fld.lineFlexeCfg_phyMap) j = true → 1 ≤ (s.phy k j).ohGood →
    ∃ t, exec (.flexeOverheadBlock k j true mf g ph cal sk) s = .next t ∧ bit (t.fld (Reg.lineFlexeStatus k) Fld.lineFlexeStatus_ohLock) j = true
    ∧ t.fld (Reg.lineFlexeStatus k) Fld.lineFlexeStatus_skew = min sk 1023
    ∧ (t.phy k j).mismatch = (g != s.fld (Reg.lineFlexeCfg k) Fld.lineFlexeCfg_groupNum || ph != s.phyNumber k j || cal != s.fld (Reg.lineFlexeStatus k) Fld.lineFlexeStatus_activeCal)
    ∧ ((t.phy k j).mismatch = true → t.flag (Reg.lineFlexeStatus k) Fld.lineFlexeStatus_mismatch = true) ∧ Only [.regs, .counters, .events, .fcp, .obs, .line, .traffic] s t)
  ∧ (∀ (k cal : Nat) (s : State), s.clocked = true → cal < 2 → cal ≠ s.fld (Reg.lineFlexeStatus k) Fld.lineFlexeStatus_activeCal → ∃ t, exec (.flexeCalendarRequest k cal) s = .next t
    ∧ t.group k = { s.group k with acked := true } ∧ (∀ i, i ≠ k → t.group i = s.group i) ∧ Only [.line] s t)
  ∧ (∀ (k cal : Nat) (s : State), s.clocked = true → (2 ≤ cal ∨ cal = s.fld (Reg.lineFlexeStatus k) Fld.lineFlexeStatus_activeCal) → ∃ t, exec (.flexeCalendarRequest k cal) s = .next t
    ∧ Recorded s t 0x0206 (natBe 1 k ++ natBe 1 0) ∧ t.line = s.line ∧ Only eventParts s t)
  ∧ (∀ (k : Nat) (s : State), s.clocked = true → ∃ t, exec (.flexeSwitchWrite k) s = .next t ∧ (t.group k).reqSent = true ∧ t.fld (Reg.lineFlexeCtrl k) Fld.lineFlexeCtrl_switch = 1
    ∧ Only [.regs, .line] s t ∧ RegsOnly [Reg.lineFlexeCtrl k] s t)
  ∧ (∀ (k : Nat) (s : State), s.clocked = true → k < 12 → (s.group k).reqSent = true ∨ (s.group k).acked = true → ∃ t, exec (.flexeCalendarSwitch k) s = .next t
    ∧ t.fld (Reg.lineFlexeStatus k) Fld.lineFlexeStatus_activeCal = 1 - s.fld (Reg.lineFlexeStatus k) Fld.lineFlexeStatus_activeCal ∧ t.group k = FlexeGroup.idle
    ∧ t.fld (Reg.lineFlexeCtrl k) Fld.lineFlexeCtrl_switch = 0 ∧ Only [.regs, .line] s t ∧ RegsOnly [Reg.lineFlexeStatus k, Reg.lineFlexeCtrl k] s t)
  ∧ (∀ (k : Nat) (s : State), s.clocked = true → ∃ t, exec (.flexeSwitchAbandon k) s = .next t ∧ (t.group k).reqSent = false ∧ t.fld (Reg.lineFlexeCtrl k) Fld.lineFlexeCtrl_switch = 0
    ∧ Only [.regs, .line] s t ∧ RegsOnly [Reg.lineFlexeCtrl k] s t)

/-- R98 to R100 and Table 4.2. -/
def Obligations.MacsecReceiveFollowsTable42 : Prop :=
  let an (x : RxPkt) : Nat := (secTagOf x.bytes).an
  let held (s : State) (p : Nat) (x : RxPkt) (rest : List RxPkt) : Prop := s.clocked = true ∧ (s.port p).macRx = x :: rest
  let dropped (s : State) (p : Nat) (rest : List RxPkt) (ok : Bool) (plain : Bytes) (c : Ctr) : Prop := ∃ t, exec (.macsecRxFrame p ok plain) s = .next t ∧ (t.port p).macRx = rest
    ∧ Counted s t c p 1 ∧ Only [.counters, .line] s t
  let passed (s : State) (p : Nat) (x : RxPkt) (rest : List RxPkt) (ok : Bool) (plain : Bytes) (c : Ctr) (y : RxPkt) : Prop := ∃ t, exec (.macsecRxFrame p ok plain) s = .next t
    ∧ (t.port p).macRx = rest ∧ Counted s t c p 1 ∧ t.hdrOf (x.port / 8) = s.hdrOf (x.port / 8) ++ [y] ∧ Only [.counters, .line, .headers] s t
  let tagged (s : State) (p : Nat) (x : RxPkt) : Prop := x.bad = false ∧ beAt x.bytes 12 2 = 0x88E5 ∧ badTag x.bytes (secTagOf x.bytes) = false
    ∧ x.bytes.length ≤ s.fld (Reg.macsecSecyCfg p) Fld.macsecSecyCfg_maxFrame
  let fresh (s : State) (p c : Nat) (x : RxPkt) : Prop := s.scOf p (secTagOf x.bytes).sci = some c ∧ s.saMarked p c (secTagOf x.bytes).an = false
    ∧ (s.saState p c (secTagOf x.bytes).an = 1 ∨ s.saState p c (secTagOf x.bytes).an = 2)
    ∧ (s.flag (Reg.macsecSecyCtrl p) Fld.macsecSecyCtrl_replayProtect = false ∨ s.saPn p c (secTagOf x.bytes).an ≤ recoverPn (s.xpn p) (s.saPn p c (secTagOf x.bytes).an) (secTagOf x.bytes).pn)
  (∀ (p : Nat) (ok : Bool) (plain : Bytes) (s : State) (x : RxPkt) (rest : List RxPkt), held s p x rest → x.bad = true → dropped s p rest ok plain .lineMacsecRxMacBad)
  ∧ (∀ (p : Nat) (ok : Bool) (plain : Bytes) (s : State) (x : RxPkt) (rest : List RxPkt), held s p x rest → x.bad = false → beAt x.bytes 12 2 ≠ 0x88E5 → s.macBypass p x.bytes = false → s.flag (Reg.macsecSecyCfg p) Fld.macsecSecyCfg_validate = false →
    dropped s p rest ok plain .lineMacsecRxUntagged)
  ∧ (∀ (p : Nat) (ok : Bool) (plain : Bytes) (s : State) (x : RxPkt) (rest : List RxPkt), held s p x rest → x.bad = false → beAt x.bytes 12 2 = 0x88E5 → badTag x.bytes (secTagOf x.bytes) = true →
    dropped s p rest ok plain .lineMacsecRxBadTag)
  ∧ (∀ (p : Nat) (ok : Bool) (plain : Bytes) (s : State) (x : RxPkt) (rest : List RxPkt), held s p x rest → x.bad = false → beAt x.bytes 12 2 = 0x88E5 → badTag x.bytes (secTagOf x.bytes) = false → s.fld (Reg.macsecSecyCfg p) Fld.macsecSecyCfg_maxFrame < x.bytes.length →
    dropped s p rest ok plain .lineMacsecRxTooLong)
  ∧ (∀ (p : Nat) (ok : Bool) (plain : Bytes) (s : State) (x : RxPkt) (rest : List RxPkt), held s p x rest → tagged s p x → s.scOf p (secTagOf x.bytes).sci = none → dropped s p rest ok plain .lineMacsecRxNoSci)
  ∧ (∀ (p c : Nat) (ok : Bool) (plain : Bytes) (s : State) (x : RxPkt) (rest : List RxPkt), held s p x rest → tagged s p x → s.scOf p (secTagOf x.bytes).sci = some c → s.saMarked p c (secTagOf x.bytes).an = true →
    dropped s p rest ok plain .lineMacsecRxNoKey)
  ∧ (∀ (p c : Nat) (ok : Bool) (plain : Bytes) (s : State) (x : RxPkt) (rest : List RxPkt), held s p x rest → tagged s p x → s.scOf p (secTagOf x.bytes).sci = some c → s.saMarked p c (secTagOf x.bytes).an = false → s.saState p c (secTagOf x.bytes).an ≠ 1 → s.saState p c (secTagOf x.bytes).an ≠ 2 → s.saState p c (secTagOf x.bytes).an ≤ 4 →
    dropped s p rest ok plain .lineMacsecRxNoSa)
  ∧ (∀ (p c : Nat) (ok : Bool) (plain : Bytes) (s : State) (x : RxPkt) (rest : List RxPkt), held s p x rest → tagged s p x → s.scOf p (secTagOf x.bytes).sci = some c → s.saMarked p c (secTagOf x.bytes).an = false → (s.saState p c (secTagOf x.bytes).an = 1 ∨ s.saState p c (secTagOf x.bytes).an = 2) → s.flag (Reg.macsecSecyCtrl p) Fld.macsecSecyCtrl_replayProtect = true → recoverPn (s.xpn p) (s.saPn p c (secTagOf x.bytes).an) (secTagOf x.bytes).pn < s.saPn p c (secTagOf x.bytes).an →
    dropped s p rest ok plain .lineMacsecRxLate)
  ∧ (∀ (p c : Nat) (plain : Bytes) (s : State) (x : RxPkt) (rest : List RxPkt), held s p x rest → tagged s p x → fresh s p c x → ((secTagOf x.bytes).e = true ∨ s.flag (Reg.macsecSecyCfg p) Fld.macsecSecyCfg_validate = false) →
    dropped s p rest false plain .lineMacsecRxAuthFail)
  ∧ (∀ (p : Nat) (ok : Bool) (plain : Bytes) (s : State) (x : RxPkt) (rest : List RxPkt), held s p x rest → x.bad = false → s.isControl x.bytes = false → beAt x.bytes 12 2 ≠ 0x88E5 → s.macBypass p x.bytes = true →
    passed s p x rest ok plain .lineMacsecRxBypass { x with msec := 0, msecSc := 0 })
  ∧ (∀ (p : Nat) (ok : Bool) (plain : Bytes) (s : State) (x : RxPkt) (rest : List RxPkt), held s p x rest → x.bad = false → s.isControl x.bytes = false → beAt x.bytes 12 2 ≠ 0x88E5 → s.macBypass p x.bytes = false → s.flag (Reg.macsecSecyCfg p) Fld.macsecSecyCfg_validate = true →
    passed s p x rest ok plain .lineMacsecRxUntaggedPass { x with msec := 1, msecSc := 0 })
  ∧ (∀ (p c : Nat) (plain : Bytes) (s : State) (x : RxPkt) (rest : List RxPkt), held s p x rest → tagged s p x → s.isControl x.bytes = false → fresh s p c x → (secTagOf x.bytes).e = false → s.flag (Reg.macsecSecyCfg p) Fld.macsecSecyCfg_validate = true →
    passed s p x rest false plain .lineMacsecRxInvalid { x with msec := 2, msecSc := c })
  ∧ (∀ (p c : Nat) (plain : Bytes) (s : State) (x : RxPkt) (rest : List RxPkt), held s p x rest → tagged s p x → s.isControl (macStrip x.bytes (secTagOf x.bytes) plain) = false → fresh s p c x →
    ∃ t, exec (.macsecRxFrame p true plain) s = .next t ∧ (t.port p).macRx = rest ∧ Counted s t .lineMacsecRxOk p 1
    ∧ t.hdrOf (x.port / 8) = s.hdrOf (x.port / 8) ++ [{ x with bytes := macStrip x.bytes (secTagOf x.bytes) plain, msec := 3, msecSc := c }]
    ∧ t.reg (Reg.macsecSaPn p c (an x)) = BitVec.ofNat 64 (max (s.saPn p c (an x)) (recoverPn (s.xpn p) (s.saPn p c (an x)) (secTagOf x.bytes).pn + 1 - s.fld (Reg.macsecSecyCtrl p) Fld.macsecSecyCtrl_replayWindow))
    ∧ t.saState p c (an x) = 2 ∧ (s.saState p c (an x) = 1 → Recorded s t 0x0215 (natBe 1 p ++ natBe 1 c ++ natBe 1 (an x))) ∧ RegsOnly [Reg.macsecSaPn p c (an x), Reg.macsecSaCtrl p c (an x)] s t ∧ Only [.regs, .counters, .events, .fcp, .obs, .line, .headers] s t)

/-- R97, R102, R103 and Table 4.3. The association in force at this frame is the one TX_AN names. -/
def Obligations.MacsecTransmitFollowsTable43 : Prop :=
  let front (s : State) (p : Nat) (f : TxPkt) (rest : List TxPkt) : Prop := s.clocked = true ∧ (s.port p).macTx = f :: rest
  let an (s : State) (p : Nat) : Nat := s.fld (Reg.macsecSecyCtrl p) Fld.macsecSecyCtrl_txAn
  let clear (s : State) (p : Nat) (f : TxPkt) (rest : List TxPkt) (c : Ctr) : Prop := ∃ t, exec (.macsecTxFrame p) s = .next t ∧ (t.port p).macTx = rest ∧ (t.port p).txQ = (s.port p).txQ ++ [f]
    ∧ Counted s t c p 1 ∧ t.txAnNow p = an s p ∧ Only [.regs, .counters, .line] s t ∧ RegsOnly [Reg.macsecSaCtrl p 0 (an s p), Reg.macsecSaCtrl p 0 (s.txAnNow p)] s t
  let dropped (s : State) (p : Nat) (rest : List TxPkt) (c : Ctr) : Prop := ∃ t, exec (.macsecTxFrame p) s = .next t ∧ (t.port p).macTx = rest ∧ (t.port p).txQ = (s.port p).txQ
    ∧ Counted s t c p 1 ∧ t.txAnNow p = an s p ∧ Only [.regs, .counters, .events, .fcp, .obs, .line, .traffic] s t
  let guarded (s : State) (p : Nat) (f : TxPkt) : Prop := s.macBypass p f.bytes = false ∧ s.flag (Reg.macsecSecyCfg p) Fld.macsecSecyCfg_protect = true
  let len (s : State) (p : Nat) (f : TxPkt) : Nat := f.bytes.length + (if s.flag (Reg.macsecSecyCfg p) Fld.macsecSecyCfg_includeSci then 32 else 24)
  (∀ (p a : Nat) (s : State), s.clocked = true → a < 4 → ∃ t, exec (.txAnWrite p a) s = .next t ∧ an t p = a ∧ Only [.regs] s t ∧ RegsOnly [Reg.macsecSecyCtrl p] s t)
  ∧ (∀ (p : Nat) (f : TxPkt) (rest : List TxPkt) (s : State), front s p f rest → s.macBypass p f.bytes = true → clear s p f rest .lineMacsecTxBypass)
  ∧ (∀ (p : Nat) (f : TxPkt) (rest : List TxPkt) (s : State), front s p f rest → s.macBypass p f.bytes = false → s.flag (Reg.macsecSecyCfg p) Fld.macsecSecyCfg_protect = false → clear s p f rest .lineMacsecTxClear)
  ∧ (∀ (p : Nat) (f : TxPkt) (rest : List TxPkt) (s : State), front s p f rest → guarded s p f → s.saMarked p 0 (an s p) = true → dropped s p rest .lineMacsecTxNoKey)
  ∧ (∀ (p : Nat) (f : TxPkt) (rest : List TxPkt) (s : State), front s p f rest → guarded s p f → s.saMarked p 0 (an s p) = false → s.saState p 0 (an s p) = 4 → dropped s p rest .lineMacsecTxPnExhausted)
  ∧ (∀ (p : Nat) (f : TxPkt) (rest : List TxPkt) (s : State), front s p f rest → guarded s p f → s.saMarked p 0 (an s p) = false → (s.saState p 0 (an s p) = 0 ∨ s.saState p 0 (an s p) = 3) → dropped s p rest .lineMacsecTxNoSa)
  ∧ (∀ (p : Nat) (f : TxPkt) (rest : List TxPkt) (s : State), front s p f rest → guarded s p f → s.saMarked p 0 (an s p) = false → (s.saState p 0 (an s p) = 1 ∨ s.saState p 0 (an s p) = 2) → s.fld (Reg.macsecSecyCfg p) Fld.macsecSecyCfg_maxFrame < len s p f →
    dropped s p rest .lineMacsecTxTooLong)
  ∧ (∀ (p : Nat) (f : TxPkt) (rest : List TxPkt) (s : State), front s p f rest → guarded s p f → s.saMarked p 0 (an s p) = false → (s.saState p 0 (an s p) = 1 ∨ s.saState p 0 (an s p) = 2) → len s p f ≤ s.fld (Reg.macsecSecyCfg p) Fld.macsecSecyCfg_maxFrame →
    ∃ t, exec (.macsecTxFrame p) s = .next t ∧ (t.port p).macTx = rest ∧ (t.port p).txQ = (s.port p).txQ ++ [{ f with bytes := s.protect p (an s p) f.bytes }] ∧ Counted s t .lineMacsecTxProtected p 1
    ∧ (s.flag (Reg.macsecSecyCfg p) Fld.macsecSecyCfg_confidential = true → Counted s t .lineMacsecTxEncrypted p 1) ∧ t.txAnNow p = an s p
    ∧ (s.saPn p 0 (an s p) ≠ s.pnMax p → t.reg (Reg.macsecSaPn p 0 (an s p)) = BitVec.ofNat 64 (s.saPn p 0 (an s p) + 1) ∧ t.saState p 0 (an s p) = 2)
    ∧ (s.saPn p 0 (an s p) = s.pnMax p → t.saState p 0 (an s p) = 4 ∧ Recorded s t 0x0212 (natBe 1 p ++ natBe 1 (an s p)))
    ∧ RegsOnly [Reg.macsecSaPn p 0 (an s p), Reg.macsecSaCtrl p 0 (an s p), Reg.macsecSaCtrl p 0 (s.txAnNow p)] s t ∧ Only [.regs, .counters, .events, .fcp, .obs, .line] s t)

/-- R94 to R96; `pn` is the packet number an installation takes: the staged one, or the one that stands. -/
def Obligations.KeysAreInstalledWholeOrRefused : Prop :=
  let pn (s : State) (p c a : Nat) : Nat := ((s.sa p c a).pnStage).getD (s.saPn p c a)
  (∀ (p c a : Nat) (s : State), s.clocked = true → s.saState p c a = 0 → s.fld Reg.macsecAlarm Fld.macsecAlarm_source = 0 →
    0 < pn s p c a → pn s p c a < (if s.xpn p then 2 ^ 64 else 2 ^ 32) → ∃ t, exec (.install p c a) s = .next t
    ∧ t.sa p c a = { MacsecSa.idle with key := (s.sa p c a).keyStage, salt := (s.sa p c a).saltStage, ssci := s.fld (Reg.macsecSaCtrl p c a) Fld.macsecSaCtrl_ssci, present := true, instGen := s.line.alarmGen }
    ∧ t.saState p c a = 1 ∧ t.saPn p c a = pn s p c a ∧ t.saMarked p c a = false ∧ RegsOnly [Reg.macsecSaPn p c a, Reg.macsecSaCtrl p c a] s t ∧ Only [.regs, .line] s t)
  ∧ (∀ (p c a : Nat) (s : State), s.clocked = true → s.installReason p c a ≠ 0 → ∃ t, exec (.install p c a) s = .next t
    ∧ t.sa p c a = { s.sa p c a with keyStage := 0, saltStage := 0, pnStage := none } ∧ t.saState p c a = s.saState p c a ∧ Counted s t .lineMacsecKeyRefused p 1
    ∧ Recorded s t 0x0213 (natBe 1 p ++ natBe 1 c ++ natBe 1 a ++ natBe 1 (s.installReason p c a)) ∧ RegsOnly [Reg.macsecSaCtrl p c a] s t ∧ Only [.regs, .counters, .events, .fcp, .obs, .line] s t)
  ∧ (∀ (p c a : Nat) (s : State), s.clocked = true → ∃ t, exec (.retire p c a) s = .next t ∧ t.saState p c a = 3 ∧ (t.sa p c a).key = (s.sa p c a).key
    ∧ RegsOnly [Reg.macsecSaCtrl p c a] s t ∧ Only [.regs, .line] s t)
  ∧ (∀ (p c a : Nat) (s : State), s.clocked = true → s.saState p c a = 3 → ∃ t, exec (.saRetireDone p c a) s = .next t ∧ t.saState p c a = 0 ∧ (t.sa p c a).key = 0
    ∧ (t.sa p c a).salt = 0 ∧ (t.sa p c a).ssci = 0 ∧ t.saMarked p c a = s.saMarked p c a ∧ RegsOnly [Reg.macsecSaCtrl p c a] s t ∧ Only [.regs, .line] s t)

/-- R104, R105, R448. -/
def Obligations.AlarmsEraseEveryKey : Prop :=
  let erased (s t : State) (b : Nat) : Prop := t.keyless ∧ (∀ p c a, t.saMarked p c a = true) ∧ t.line.firing = setBits s.line.firing b 1 1
    ∧ t.fld Reg.macsecAlarm Fld.macsecAlarm_source = setBits (s.fld Reg.macsecAlarm Fld.macsecAlarm_source) b 1 1 ∧ Recorded s t 0x0210 (natBe 1 (setBits (s.fld Reg.macsecAlarm Fld.macsecAlarm_source) b 1 1))
  (∀ (x : AlarmSource) (s : State), s.clocked = true → ∃ t, exec (.macsecAlarmFire x) s = .next t ∧ erased s t (alarmBit x) ∧ Only [.regs, .counters, .events, .fcp, .obs, .line] s t)
  ∧ (∀ (s : State), s.clocked = true → ∃ t, exec .faultInjectionDetect s = .next t ∧ erased s t 3 ∧ Only [.regs, .counters, .events, .fcp, .obs, .line] s t)
  ∧ (∀ (s : State), s.clocked = true → ∃ t, exec .pllOutputDeparts s = .next t ∧ erased s t 1 ∧ Only [.regs, .counters, .events, .fcp, .obs, .line] s t)
  ∧ (∀ (s : State), s.clocked = true → ∃ t, exec .ref25mFault s = .next t ∧ erased s t 1 ∧ t.flag Reg.timeStatus Fld.timeStatus_todValid = false ∧ Only [.regs, .counters, .events, .fcp, .obs, .line, .time] s t)
  ∧ (∀ (ns : Nat) (s : State), s.clocked = true → 200 < ns → 3 ≤ s.fld Reg.bootStatus Fld.bootStatus_step → ∃ t, exec (.voltageExcursion ns) s = .next t ∧ erased s t 0 ∧ Only [.regs, .counters, .events, .fcp, .obs, .line] s t)
  ∧ (∀ (ns : Nat) (s : State), ns ≤ 200 ∨ s.fld Reg.bootStatus Fld.bootStatus_step < 3 → exec (.voltageExcursion ns) s = .next s)
  ∧ (∀ (x : AlarmSource) (s : State), s.clocked = true → exec (.alarmSourceStopsFiring x) s = .next { s with line := { s.line with firing := setBits s.line.firing (alarmBit x) 1 0 } })
  ∧ (∀ (m : Nat) (s : State), s.clocked = true → ∃ t, exec (.macsecAlarmClear m) s = .next t
    ∧ (∀ i, bit (t.fld Reg.macsecAlarm Fld.macsecAlarm_source) i = (bit (s.fld Reg.macsecAlarm Fld.macsecAlarm_source) i && decide (i < 5) && !(bit m i && !bit s.line.firing i)))
    ∧ (s.fld Reg.macsecAlarm Fld.macsecAlarm_source ≠ 0 → t.fld Reg.macsecAlarm Fld.macsecAlarm_source = 0 → Recorded s t 0x0214 []) ∧ RegsOnly [Reg.macsecAlarm] s t ∧ Only [.regs, .counters, .events, .fcp, .obs] s t)

/-- R22, R23. -/
def Obligations.BridgeReplaysRetrainsAndFences : Prop :=
  (∀ (k : Nat) (d : Bool) (s : State), s.clocked = true → s.bridgeCarries k d = true → ∃ t, exec (.bridgeBeatError k d true) s = .next t ∧ t.chan k d = { s.chan k d with failed := 0 } ∧ Only [.bridge] s t)
  ∧ (∀ (k : Nat) (d : Bool) (s : State), s.clocked = true → s.bridgeCarries k d = true → s.fld Reg.bridgeCtrl Fld.bridgeCtrl_retryLimit ≤ (s.chan k d).failed + 1 → ∃ t, exec (.bridgeBeatError k d false) s = .next t
    ∧ (t.chan k d).retrain = true ∧ t.bridgeCarries k d = false ∧ Only [.bridge] s t)
  ∧ (∀ (k : Nat) (d : Bool) (s : State), s.clocked = true → s.bridgeCarries k d = true → (s.chan k d).failed + 1 < s.fld Reg.bridgeCtrl Fld.bridgeCtrl_retryLimit → ∃ t, exec (.bridgeBeatError k d false) s = .next t
    ∧ t.chan k d = { s.chan k d with failed := (s.chan k d).failed + 1 } ∧ t.bridgeCarries k d = true ∧ Only [.bridge] s t)
  ∧ (∀ (k : Nat) (d : Bool) (s : State), s.clocked = true → (s.chan k d).retrain = true → ∃ t, exec (.bridgeRetrainDone k d true) s = .next t ∧ t.bridgeCarries k d = true
    ∧ Recorded s t (if d then 0x03F0 else 0x06F0) [] ∧ Only [.regs, .counters, .events, .fcp, .obs, .line, .traffic, .bridge] s t)
  ∧ (∀ (k : Nat) (d : Bool) (s : State), s.clocked = true → k < 12 → (s.chan k d).retrain = true → ∃ t, exec (.bridgeRetrainDone k d false) s = .next t ∧ (t.chan k d).fenced = true ∧ t.bridgeCarries k d = false
    ∧ bit (t.fld Reg.bridgeCtrl Fld.bridgeCtrl_fenced) k = true ∧ Recorded s t (if d then 0x03F1 else 0x06F1) [] ∧ Only [.regs, .counters, .events, .fcp, .obs, .line, .traffic, .bridge] s t)
  ∧ (∀ (m k : Nat) (d : Bool) (s : State), s.clocked = true → k < 12 → ∃ t, exec (.bridgeRetrainWrite m) s = .next t
    ∧ ((t.chan k d).retrain = true ↔ bit m k = true ∨ (s.chan k d).retrain = true) ∧ RegsOnly [Reg.bridgeCtrl] s t ∧ Only [.regs, .bridge] s t)
  ∧ (∀ (h : FcpHdr) (x : Session) (w : Bool) (s : State), s.clocked = true → Granted s h x (if w then 0x11 else 0x10) privWrite → ∃ t, exec (.bridgeReqTimeout h w) s = .next t
    ∧ Replied t h (if w then 0x11 else 0x10) 8 [] ∧ Counted s t .controlAgentBridgeTimeout 0 1 ∧ Only [.counters, .fcp] s t)

/-- R111, R115, R117. -/
def Obligations.ParsesStayInTheirBounds : Prop :=
  ∀ (fs : FormStore) (f : Nat) (fr : Bytes), (parseFrame fs f fr).visits ≤ 32 ∧ (parseFrame fs f fr).vlan ≤ 4 ∧ (parseFrame fs f fr).mpls ≤ 12 ∧ (parseFrame fs f fr).ext ≤ 6
    ∧ (parseFrame fs f fr).tunnel ≤ 3 ∧ (parseFrame fs f fr).pos ≤ 256 ∧ (parseFrame fs f fr).pos ≤ fr.length ∧ (parseFrame fs f fr).batt.length = 128 ∧ (parseFrame fs f fr).err ≤ 9

/-- R19, R109, R117 to R120; `y` is the first pass of frame `r` and `w` its walk. -/
def Obligations.HeadersAreParsedInTheirSlots : Prop :=
  let y (s : State) (r : RxPkt) : Pass := (s.parsePass (s.firstPass s.lookup.nextPid r)).1
  let w (s : State) (r : RxPkt) : Walk := (s.parsePass (s.firstPass s.lookup.nextPid r)).2
  let action (s : State) (r : RxPkt) : Nat := bits (s.fldEp s.epoch (Reg.parserPortCfg (r.port / 8) (r.port % 8)) Fld.parserPortCfg_errAction) (2 * (w s r).err - 1) (2 * (w s r).err - 2)
  let entered (s t : State) : Prop := t.fld Reg.epochInflight Fld.epochInflight_current = min (s.fld Reg.epochInflight Fld.epochInflight_current + 1) 4294967295
  (∀ (k : Nat) (s : State), s.boundaryDue = true → exec (.headerParse k) s = .next s)
  ∧ (∀ (k : Nat) (s : State), s.hdrOf k = [] → s.recOf k = [] → exec (.headerParse k) s = .next s)
  ∧ (∀ (k : Nat) (r : RxPkt) (rest : List RxPkt) (s : State), s.clocked = true → s.boundaryDue = false → s.hdrOf k = r :: rest → (w s r).err = 0 → (w s r).frag = 0 →
    ∃ t, exec (.headerParse k) s = .next t ∧ t.hdrOf k = rest ∧ (y s r).epoch = s.epoch ∧ (y s r).passNo = 1 ∧ (y s r).form = s.fldEp s.epoch (Reg.parserPortCfg (r.port / 8) (r.port % 8)) Fld.parserPortCfg_entryForm
    ∧ w s r = parseFrame (s.formStore (r.port / 8)) (y s r).form (r.bytes.take (r.bytes.length - 4)) ∧ t.lookOf (r.port / 8) = s.lookOf (r.port / 8) ++ [y s r] ∧ entered s t
    ∧ RegsOnly [Reg.epochInflight] s t ∧ Only [.regs, .headers, .lookup] s t)
  ∧ (∀ (k : Nat) (r : RxPkt) (rest : List RxPkt) (s : State), s.clocked = true → s.boundaryDue = false → s.hdrOf k = r :: rest → (w s r).err ≠ 0 → (w s r).frag = 0 → action s r = 0 →
    ∃ t, exec (.headerParse k) s = .next t ∧ t.hdrOf k = rest ∧ Counted s t (parseErrCtr (w s r).err) (r.port / 8) 1 ∧ t.lookOf (r.port / 8) = s.lookOf (r.port / 8) ++ [y s r] ∧ entered s t ∧ Only [.regs, .counters, .headers, .lookup] s t)
  ∧ (∀ (k : Nat) (r : RxPkt) (rest : List RxPkt) (s : State), s.clocked = true → s.boundaryDue = false → s.hdrOf k = r :: rest → (w s r).err ≠ 0 → (w s r).frag = 0 → action s r = 1 →
    ∃ t, exec (.headerParse k) s = .next t ∧ t.hdrOf k = rest ∧ Counted s t (parseErrCtr (w s r).err) (r.port / 8) 1 ∧ Counted s t .lookupParserDrop (r.port / 8) 1
    ∧ t.lookOf (r.port / 8) = s.lookOf (r.port / 8) ++ [(y s r).decided 3 (Config.freeNat s.freeCtr % 65536)] ∧ entered s t ∧ Only [.regs, .counters, .headers, .lookup, .free] s t)
  ∧ (∀ (k : Nat) (r : RxPkt) (rest : List RxPkt) (s : State), s.clocked = true → s.boundaryDue = false → s.hdrOf k = r :: rest → (w s r).err ≠ 0 → (w s r).frag = 0 → action s r = 2 →
    ∃ t, exec (.headerParse k) s = .next t ∧ t.hdrOf k = rest ∧ Counted s t (parseErrCtr (w s r).err) (r.port / 8) 1
    ∧ t.lookOf (r.port / 8) = s.lookOf (r.port / 8) ++ [(y s r).decided 2 (Config.freeNat s.freeCtr % 65536)] ∧ entered s t ∧ Only [.regs, .counters, .headers, .lookup, .free] s t)
  ∧ (∀ (k : Nat) (x : Pass) (rest : List Pass) (s : State), s.clocked = true → s.boundaryDue = false → s.hdrOf k = [] → s.recOf k = x :: rest → s.epochLive x.epoch = true → 1 < x.passNo → (s.parsePass x).2.err = 0 →
    ∃ t, exec (.headerParse k) s = .next t ∧ t.recOf k = rest ∧ t.lookOf x.slice = s.lookOf x.slice ++ [(s.parsePass x).1] ∧ RegsOnly [Reg.parserSliceStatus k] s t ∧ Only [.regs, .lookup] s t)
  ∧ (∀ (k : Nat) (x : Pass) (rest : List Pass) (s : State), s.clocked = true → s.boundaryDue = false → s.hdrOf k = [] → s.recOf k = x :: rest → s.epochLive x.epoch = false →
    ∃ t, exec (.headerParse k) s = .next t ∧ t.recOf k = rest ∧ t.lookup.lookQ = s.lookup.lookQ ∧ Counted s t .controlAgentEpochDrop 1 1 ∧ Only [.regs, .counters, .events, .fcp, .obs, .headers, .lookup, .traffic, .free] s t)

/-- R123 to R130; `y` is the first pass of frame `r` and `key` its fragment key. -/
def Obligations.FragmentsFollowTheFirst : Prop :=
  let y (s : State) (r : RxPkt) : Pass := (s.parsePass (s.firstPass s.lookup.nextPid r)).1
  let w (s : State) (r : RxPkt) : Walk := (s.parsePass (s.firstPass s.lookup.nextPid r)).2
  let key (s : State) (r : RxPkt) : List Nat := (w s r).fragKey ++ [(y s r).vrfTag]
  let scope (s : State) (r : RxPkt) : Nat := s.fldEp s.epoch (Reg.parserPortCfg (r.port / 8) (r.port % 8)) Fld.parserPortCfg_fragScope
  let policy (s : State) (x : Pass) : Nat := s.fldEp x.epoch (Reg.parserPortCfg x.slice (x.port % 8)) Fld.parserPortCfg_fragPolicy
  let taken (s : State) (k : Nat) (r : RxPkt) (rest : List RxPkt) (c : Nat) : Prop := s.clocked = true ∧ s.boundaryDue = false ∧ s.hdrOf k = r :: rest ∧ (w s r).err = 0 ∧ (w s r).frag = c
  (∀ (k i : Nat) (sh : Bool) (r : RxPkt) (rest : List RxPkt) (s : State), taken s k r rest 1 → s.fragFind (scope s r) (r.port / 8) (key s r) = none → s.fragFree (scope s r) (r.port / 8) (key s r) = some (sh, i) →
    ∃ t, exec (.headerParse k) s = .next t ∧ t.hdrOf k = rest ∧ t.frag sh (r.port / 8) i = { FragEntry.free with key := key s r, used := true, pending := true, epoch := s.epoch }
    ∧ t.lookOf (r.port / 8) = s.lookOf (r.port / 8) ++ [{ y s r with fragSlot := some (sh, i) }] ∧ RegsOnly [Reg.epochInflight, Reg.fragStatus, Reg.parserSliceStatus (r.port / 8)] s t ∧ Only [.regs, .headers, .lookup] s t)
  ∧ (∀ (k : Nat) (r : RxPkt) (rest : List RxPkt) (s : State), taken s k r rest 1 → s.fragFind (scope s r) (r.port / 8) (key s r) = none → s.fragFree (scope s r) (r.port / 8) (key s r) = none →
    ∃ t, exec (.headerParse k) s = .next t ∧ t.hdrOf k = rest ∧ Counted s t .lookupFragOverflow 0 1 ∧ t.lookOf (r.port / 8) = s.lookOf (r.port / 8) ++ [{ y s r with fragSlot := none }]
    ∧ (s.noWindow 0x0301 (r.port / 8) → Recorded s t 0x0301 (natBe 1 (r.port / 8))) ∧ Only [.regs, .counters, .events, .fcp, .obs, .headers, .lookup] s t)
  ∧ (∀ (k i : Nat) (sh : Bool) (r : RxPkt) (rest : List RxPkt) (s : State), taken s k r rest 2 → s.fragFind (scope s r) (r.port / 8) (key s r) = some (sh, i) → s.epochLive (s.frag sh (r.port / 8) i).epoch = true → (s.frag sh (r.port / 8) i).pending = false →
    ∃ t, exec (.headerParse k) s = .next t ∧ t.hdrOf k = rest ∧ Counted s t .lookupFragFollow 0 1 ∧ t.lookOf (r.port / 8) = s.lookOf (r.port / 8) ++ [(y s r).following (s.frag sh (r.port / 8) i)] ∧ Only [.regs, .counters, .headers, .lookup] s t)
  ∧ (∀ (k i : Nat) (sh : Bool) (r : RxPkt) (rest : List RxPkt) (s : State), taken s k r rest 2 → s.fragFind (scope s r) (r.port / 8) (key s r) = some (sh, i) → s.epochLive (s.frag sh (r.port / 8) i).epoch = true → (s.frag sh (r.port / 8) i).pending = true → (s.holdOf (r.port / 8)).length < 32 →
    ∃ t, exec (.headerParse k) s = .next t ∧ t.hdrOf k = rest ∧ t.holdOf (r.port / 8) = s.holdOf (r.port / 8) ++ [{ pass := y s r, shared := sh, slot := i }] ∧ t.lookup.lookQ = s.lookup.lookQ
    ∧ RegsOnly [Reg.epochInflight, Reg.parserSliceStatus (r.port / 8)] s t ∧ Only [.regs, .headers, .lookup] s t)
  ∧ (∀ (k : Nat) (r : RxPkt) (rest : List RxPkt) (s : State), taken s k r rest 2 → s.fragFind (scope s r) (r.port / 8) (key s r) = none → policy s (y s r) = 0 → ∃ t, exec (.headerParse k) s = .next t ∧ t.hdrOf k = rest
    ∧ Counted s t .lookupFragNoEntry 0 1 ∧ Counted s t .lookupFragPolicyDrop 0 1 ∧ t.lookOf (r.port / 8) = s.lookOf (r.port / 8) ++ [((y s r).setFrag 2).decided 3 (Config.freeNat s.freeCtr % 65536)] ∧ Only [.regs, .counters, .headers, .lookup, .free] s t)
  ∧ (∀ (k : Nat) (r : RxPkt) (rest : List RxPkt) (s : State), taken s k r rest 2 → s.fragFind (scope s r) (r.port / 8) (key s r) = none → policy s (y s r) = 1 → ∃ t, exec (.headerParse k) s = .next t ∧ t.hdrOf k = rest
    ∧ Counted s t .lookupFragNoEntry 0 1 ∧ Counted s t .lookupFragPolicyL3 0 1 ∧ t.lookOf (r.port / 8) = s.lookOf (r.port / 8) ++ [(y s r).setFrag 2] ∧ Only [.regs, .counters, .headers, .lookup, .free] s t)
  ∧ (∀ (k : Nat) (r : RxPkt) (rest : List RxPkt) (s : State), taken s k r rest 2 → s.fragFind (scope s r) (r.port / 8) (key s r) = none → policy s (y s r) = 2 → ∃ t, exec (.headerParse k) s = .next t ∧ t.hdrOf k = rest
    ∧ Counted s t .lookupFragNoEntry 0 1 ∧ Counted s t .lookupFragPolicyPunt 0 1 ∧ t.lookOf (r.port / 8) = s.lookOf (r.port / 8) ++ [((y s r).setFrag 2).decided 2 (Config.freeNat s.freeCtr % 65536)] ∧ Only [.regs, .counters, .headers, .lookup, .free] s t)
  ∧ (∀ (k : Nat) (s : State), s.holdOf k = [] → exec (.fragHoldTimeout k) s = .next s)
  ∧ (∀ (k : Nat) (h : Held) (rest : List Held) (s : State), s.clocked = true → s.holdOf k = h :: rest → (s.frag h.shared k h.slot).used = true → (s.frag h.shared k h.slot).pending = true → s.epochLive h.pass.epoch = true → policy s h.pass = 1 →
    ∃ t, exec (.fragHoldTimeout k) s = .next t ∧ t.holdOf k = rest ∧ t.frag h.shared k h.slot = FragEntry.free ∧ Counted s t .lookupFragPendingLost 0 1 ∧ Counted s t .lookupFragNoEntry 0 1
    ∧ t.lookOf h.pass.slice = s.lookOf h.pass.slice ++ [h.pass.setFrag 2] ∧ Only [.regs, .counters, .lookup, .free] s t)
  ∧ (∀ (k i : Nat) (sh : Bool) (s : State), s.clocked = true → (s.frag sh k i).used = true → (s.frag sh k i).pending = false → ∃ t, exec (.fragEntryExpiry k sh i) s = .next t ∧ t.frag sh k i = FragEntry.free
    ∧ RegsOnly [Reg.fragStatus, Reg.parserSliceStatus k] s t ∧ Only [.regs, .lookup] s t)
  ∧ (∀ (k i : Nat) (sh : Bool) (s : State), (s.frag sh k i).used = false ∨ (s.frag sh k i).pending = true → exec (.fragEntryExpiry k sh i) s = .next s)

/-- R133, R134, R190 to R194; `quiet` says that no meter, copy, sample or trace is taken of the pass. -/
def Obligations.PassesEndWithAStampedResult : Prop :=
  let quiet (s : State) (x : Pass) : Prop := x.m.meter = none ∧ x.m.mirror = 0 ∧ x.m.sampler = 0 ∧ s.fld (Reg.classPortCfg x.slice (x.port % 8)) Fld.classPortCfg_rxMirror = 0
    ∧ s.flag (Reg.traceCfg x.slice) Fld.traceCfg_valid = false ∧ x.fragSlot = none ∧ x.park = [] ∧ x.m.program = 255
  let ended (s : State) (x : Pass) : Prop := x.follow = none ∧ 8 ≤ x.stage ∧ (∀ i, i < 4 → s.searchMade x i = false)
  let noEcc : EccErrs := { hash := [], hashCorr := 0, dit := [], ditCorr := 0 }
  let left (s t : State) (k : Nat) (x : Pass) (rest : List Pass) : Prop := t.lookOf k = rest ∧ t.lookup.bridgeQ = s.lookup.bridgeQ
    ∧ (x.epoch = s.epoch → t.fld Reg.epochInflight Fld.epochInflight_current = s.fld Reg.epochInflight Fld.epochInflight_current - 1)
  let crossed (s t : State) (k : Nat) (rest : List Pass) (d : Desc) : Prop := t.lookOf k = rest ∧ t.bridgeOf d.slice = s.bridgeOf d.slice ++ [d] ∧ t.regs = s.regs
  (∀ (k : Nat) (e : EccErrs) (s : State), s.lookOf k = [] → exec (.ingressLookup k e) s = .next s)
  ∧ (∀ (k : Nat) (x : Pass) (rest : List Pass) (f : Stamp) (e : EccErrs) (s : State), s.clocked = true → s.lookOf k = x :: rest → x.follow = some f → f.dkind = 3 → quiet s x →
    ∃ t, exec (.ingressLookup k e) s = .next t ∧ left s t k x rest ∧ Only [.regs, .counters, .events, .fcp, .obs, .lookup, .traffic] s t)
  ∧ (∀ (k : Nat) (x : Pass) (rest : List Pass) (s : State), s.clocked = true → s.lookOf k = x :: rest → ended s x → quiet s x → x.m.op = 7 →
    ∃ t, exec (.ingressLookup k noEcc) s = .next t ∧ left s t k x rest ∧ Only [.regs, .counters, .events, .fcp, .obs, .lookup, .traffic] s t)
  ∧ (∀ (k : Nat) (x : Pass) (rest : List Pass) (s : State), s.clocked = true → s.lookOf k = x :: rest → ended s x → quiet s x → x.m.op = 0 → (s.flag Reg.ditCtrl Fld.ditCtrl_labelAuto && bit (x.battByte 3) 1) = false →
    ∃ t, exec (.ingressLookup k noEcc) s = .next t ∧ left s t k x rest ∧ Counted s t .lookupDitNoDecision 0 1 ∧ Only [.regs, .counters, .events, .fcp, .obs, .lookup, .traffic] s t)
  ∧ (∀ (k : Nat) (x : Pass) (rest : List Pass) (s : State), s.clocked = true → s.lookOf k = x :: rest → ended s x → quiet s x → x.m.op = 4 → ∃ t, exec (.ingressLookup k noEcc) s = .next t
    ∧ crossed s t k rest ({ x with errs := noEcc, searches := [Search.idle, Search.idle, Search.idle, Search.idle] }.desc
        { Stamp.none with dest := x.m.arg % 2 ^ 19, tc := x.m.tc, colour := x.m.colour, vrf := x.m.vrf, spread := s.spreadHash 0 x % 2 ^ 14 })
    ∧ Only [.counters, .obs, .lookup] s t)
  ∧ (∀ (k : Nat) (x : Pass) (rest : List Pass) (s : State), s.clocked = true → s.lookOf k = x :: rest → ended s x → quiet s x → x.m.op = 8 → ∃ t, exec (.ingressLookup k noEcc) s = .next t
    ∧ crossed s t k rest ({ x with errs := noEcc, searches := [Search.idle, Search.idle, Search.idle, Search.idle] }.desc
        { Stamp.none with dkind := 2, dest := x.m.arg % 65536, tc := x.m.tc, colour := x.m.colour, vrf := x.m.vrf, spread := s.spreadHash 0 x % 2 ^ 14 })
    ∧ Only [.lookup] s t)
  ∧ (∀ (k : Nat) (x : Pass) (rest : List Pass) (s : State), s.clocked = true → s.lookOf k = x :: rest → x.follow = none → x.stage < 8 → s.fldEp x.epoch (Reg.classStageCfg x.slice x.stage) Fld.classStageCfg_type = 2 →
    ∃ t, exec (.ingressLookup k noEcc) s = .next t ∧ t.lookOf k = rest ∧ t.lookup.flowWait = s.lookup.flowWait ++ [{ x with errs := noEcc }] ∧ Only [.lookup] s t)
  ∧ (∀ (k u : Nat) (x : Pass) (rest : List Pass) (s : State), s.clocked = true → s.lookOf k = x :: rest → x.follow = none → 8 ≤ x.stage → s.searchMade x 0 = true →
    s.covering (s.searchTable x 0) (beNat (padKey (10 * s.cascade (s.searchTable x 0)) (x.key (s.stageWord x (Reg.assocSearchKey0 x.slice 0)) (s.stageWord x (Reg.assocSearchKey1 x.slice 0))))) = [u] →
    (∀ i, i < 4 → 1 ≤ i → s.searchMade x i = false) →
    ∃ t, exec (.ingressLookup k noEcc) s = .next t ∧ t.lookOf k = rest ∧ t.lookup.assocWait.length = s.lookup.assocWait.length + 1 ∧ t.lookup.bridgeQ = s.lookup.bridgeQ ∧ Only [.lookup] s t)

/-- R168, R173, R182, R183, R200, R201. `runs` is a search whose key is queued, beside another that has not ended. -/
def Obligations.LookupAnswersMoveTheirPass : Prop :=
  let table (s : State) (x : Pass) : Nat := s.fldEp x.epoch (Reg.classStageCfg x.slice x.stage) Fld.classStageCfg_table
  let key (s : State) (x : Pass) : Bytes := padKey (s.fld (Reg.flowTableCfg (table s x)) Fld.flowTableCfg_keyLen) (s.stageKey x)
  let b0 (s : State) (x : Pass) : Nat := (s.flowCands (table s x) (key s x)).1
  let onward (h : State × Pass) : State := h.1.runChain h.2
  let failed (s : State) (pid : Nat) (x : Pass) : State := onward ((((s.flowTake pid).count .lookupFlowError).raiseLimited 0x0317 (table s x) (natBe 1 (table s x))).stageError x 2)
  let wait (s : State) (pid : Nat) (x : Pass) (i j : Nat) : Prop := s.waiting pid = some x ∧ i < x.searches.length ∧ i ≠ j ∧ (∃ q, x.searches[j]? = some q ∧ (q.phase = 1 ∨ q.phase = 2))
  let noted (s t : State) (x : Pass) (i : Nat) (q : Search) : Prop := t.lookup.assocWait = (s.setWaiting (x.setSearch i q)).lookup.assocWait
  (∀ (pid : Nat) (s : State), s.flowPass pid = none → exec (.flowLookupResponse pid false) s = .next s ∧ exec (.flowLookupTimeout pid) s = .next s)
  ∧ (∀ (pid a : Nat) (x : Pass) (s : State), s.clocked = true → s.flowPass pid = some x → s.hbmServes (tableCtl (b0 s x)) = true → flowFind s.mem (table s x) (b0 s x) (some x.epoch) (key s x) = some a →
    exec (.flowLookupResponse pid false) s = .next (onward (((s.flowTake pid).flowHit a).stageHit x 2 (bits (tblWord s.mem a) 47 0))))
  ∧ (∀ (pid : Nat) (x : Pass) (s : State), s.clocked = true → s.flowPass pid = some x → s.hbmServes (tableCtl (b0 s x)) = true → flowFind s.mem (table s x) (b0 s x) (some x.epoch) (key s x) = none → flowOvf s.mem (b0 s x) = 0 →
    exec (.flowLookupResponse pid false) s = .next (onward ((s.flowTake pid).stageMiss x 2)))
  ∧ (∀ (pid : Nat) (x : Pass) (s : State), s.clocked = true → s.flowPass pid = some x → s.hbmServes (tableCtl (b0 s x)) = false →
    exec (.flowLookupResponse pid false) s = .next (failed s pid x))
  ∧ (∀ (pid : Nat) (x : Pass) (s : State), s.clocked = true → s.flowPass pid = some x →
    exec (.flowLookupResponse pid true) s = .next (failed s pid x) ∧ exec (.flowLookupTimeout pid) s = .next (failed s pid x))
  ∧ (∀ (pid i : Nat) (e : EccResult) (s : State), s.waiting pid = none → exec (.assocSearchResult pid i e) s = .next s ∧ exec (.assocDispatchTimeout pid i) s = .next s)
  ∧ (∀ (k : Nat) (s : State), s.lookup.assocWait = [] → exec (.assocKeyQueued k) s = .next s)
  ∧ (∀ (k u : Nat) (x : Pass) (q : Search) (s : State), s.clocked = true → s.lookup.assocWait = [x] → x.slice = k → x.searches = [q] → q.phase = 1 → q.units = [u] → q.queued = [] → s.unitQueue u < 32 →
    ∃ t, exec (.assocKeyQueued k) s = .next t ∧ t.lookup.assocWait = [{ x with searches := [{ q with queued := [u], phase := 2 }] }] ∧ Only [.lookup] s t)
  ∧ (∀ (pid i j : Nat) (x : Pass) (q : Search) (e : EccResult) (s : State), s.clocked = true → wait s pid x i j → x.searches[i]? = some q → q.phase = 2 → bestHit (q.units.filterMap (fun u => s.unitSearch q.table u x.epoch q.key)) = none →
    ∃ t, exec (.assocSearchResult pid i e) s = .next t ∧ noted s t x i { q with phase := 3 } ∧ Only [.lookup] s t)
  ∧ (∀ (pid i j w : Nat) (x : Pass) (q : Search) (h : RowHit) (s : State), s.clocked = true → wait s pid x i j → x.searches[i]? = some q → q.phase = 2 → bestHit (q.units.filterMap (fun u => s.unitSearch q.table u x.epoch q.key)) = some h → s.assocResult q.table h.result = some w →
    ∃ t, exec (.assocSearchResult pid i .good) s = .next t ∧ noted s t x i { q with phase := 3, hit := true, result := w } ∧ Only [.lookup] s t)
  ∧ (∀ (pid i j n : Nat) (x : Pass) (q : Search) (h : RowHit) (s : State), s.clocked = true → wait s pid x i j → x.searches[i]? = some q → q.phase = 2 → bestHit (q.units.filterMap (fun u => s.unitSearch q.table u x.epoch q.key)) = some h →
    ∃ t, exec (.assocSearchResult pid i (.uncorrectable n)) s = .next t ∧ noted s t x i { q with phase := 3, err := true } ∧ t.lookup.rowRepair = s.lookup.rowRepair ++ [(h.array, h.row)]
    ∧ Counted s t .associativeArrayEccUncorr h.array 1 ∧ Recorded s t 0x0404 (natBe 1 h.array ++ natBe 2 h.row) ∧ Only [.counters, .events, .fcp, .obs, .lookup] s t)
  ∧ (∀ (pid i j : Nat) (x : Pass) (q : Search) (s : State), s.clocked = true → wait s pid x i j → x.searches[i]? = some q → (q.phase = 1 ∨ q.phase = 2) →
    ∃ t, exec (.assocDispatchTimeout pid i) s = .next t ∧ noted s t x i { q with phase := 3, err := true } ∧ Counted s t .associativeDispatchTimeout 0 1
    ∧ (s.noWindow 0x0401 q.table → Recorded s t 0x0401 (natBe 1 q.table ++ natBe 1 (q.units.headD 0))) ∧ Only [.counters, .events, .fcp, .obs, .lookup] s t)

/-- R133, R147, R168, R191, R192. -/
def Obligations.DecisionsFollowTheirOrders : Prop :=
  (∀ (l : List RowHit) (h : RowHit), bestHit l = some h → h ∈ l ∧ ∀ x ∈ l, h.before x = true)
  ∧ (∀ (s : State) (g h v : Nat), s.spreadLag g h = .slot 2 v → s.sysPortUp (v % 2 ^ 19) = true)
  ∧ (∀ (s : State) (m : Merged) (r : Nat), 7 ≤ m.op → m.op ≤ 9 → (s.mergeShort r m).op = m.op ∧ (s.mergeShort r m).arg = m.arg)
  ∧ (∀ (s : State) (x : Pass), x.m.op = 1 → bit (tblWord s.mem (nhAddr (x.m.arg % 2 ^ 20))) 63 = false → x.errs.dit = [] →
    (s.resolve x).1 = s.count .lookupDitNhMiss ∧ (s.resolve x).2.2 = .stop 3 0xFF03)
  ∧ (∀ (s : State) (x : Pass), x.m.op = 3 → bit (tblWord s.mem (lagAddr (x.m.arg % 256))) 63 = false → (s.resolve x).1 = s.count .lookupSpreadBadGroup ∧ (s.resolve x).2.2 = .stop 3 0xFF0C)
  ∧ (∀ (s : State) (x : Pass), x.m.op = 6 → bit (tbl128 s.mem (bdAddr (x.m.arg % 65536))) 127 = false → x.errs.dit = [] →
    (s.resolve x).1 = s.count .lookupDitBdMiss ∧ (s.resolve x).2.2 = .stop 3 0xFF04)

/-- R140, R151, R153, R156. -/
def Obligations.MetersRefillAndSamplersReload : Prop :=
  let prof (s : State) (m : Nat) : Nat := tbl128 s.mem (meterProfAddr (bits (tbl128 s.mem (meterAddr m)) 9 0))
  (∀ (m : Nat) (s : State), s.clocked = true → ∃ t, exec (.meterRefresh m) s = .next t ∧ bits (tbl128 t.mem (meterAddr m)) 9 0 = bits (tbl128 s.mem (meterAddr m)) 9 0
    ∧ bits (tbl128 t.mem (meterAddr m)) 31 10 = s.time.stepFree / 1024 % 2 ^ 22 ∧ bits (tbl128 t.mem (meterAddr m)) 119 76 = (s.meterRefill m).1
    ∧ bits (tbl128 t.mem (meterAddr m)) 75 32 = (s.meterRefill m).2.1 ∧ (s.meterRefill m).1 ≤ 2 ^ 24 * bits (prof s m) 63 44 ∧ (s.meterRefill m).2.1 ≤ 2 ^ 24 * bits (prof s m) 43 24
    ∧ MemOnly [(meterAddr m, 16)] s t ∧ Only [.mem] s t)
  ∧ (∀ (n : Nat) (v : Word) (s u : State), s.clocked = true → s.hostWrite (Reg.samplerCfg n) v = some u → ∃ t, exec (.samplerCfgWrite n v) s = .next t ∧ t.reg (Reg.samplerCfg n) = u.reg (Reg.samplerCfg n)
    ∧ (t.sampler n).pool = 0 ∧ (t.sampler n).drops = 0 ∧ (t.sampler n).seq = 0 ∧ (t.fld (Reg.samplerCfg n) Fld.samplerCfg_mode = 1 → (t.sampler n).count = t.fld (Reg.samplerCfg n) Fld.samplerCfg_n)
    ∧ (∀ j, j ≠ n → t.sampler j = s.sampler j) ∧ RegsOnly [Reg.samplerCfg n] s t ∧ Only [.regs, .lookup, .free] s t)
  ∧ (∀ (n : Nat) (v : Word) (s : State), s.hostWrite (Reg.samplerCfg n) v = none → exec (.samplerCfgWrite n v) s = .next s)
  ∧ (∀ (b w : Nat) (s : State), s.clocked = true → exec (.emhashBankRead b w) s = .next (if 8 < w then s.count .lookupEmhashBankStall else s))

/-- R178 to R180, R183, R184, for tables of one array a row. -/
def Obligations.RowsMoveAndAreRepaired : Prop :=
  let row (a r : Nat) : Nat × Nat := (rowAddr a r, 32)
  let valid (s : State) (a r : Nat) : Bool := bit (rowCtl s.mem a r) 63
  let down (s : State) (a : Nat) : Nat := if (s.move a).down then (s.move a).left - 1 else s.fld (Reg.assocMove a) Fld.assocMove_count - (s.move a).left
  let scrub (s : State) (a : Nat) : Nat := s.fld (Reg.assocArrayStatus a) Fld.assocArrayStatus_scrubRow
  let going (s : State) (a : Nat) : Prop := s.clocked = true ∧ a < 128 ∧ (s.move a).left ≠ 0 ∧ (s.move a).toClear = none ∧ s.cascade (s.partTable a) = 1 ∧ (s.move a).dstArray < 128
    ∧ (s.move a).src + down s a < 32768 ∧ (s.move a).dst + down s a < 32768
  (∀ (a src dst n d : Nat) (s : State), s.clocked = true → 32768 < src + n ∨ 32768 < dst + n → ∃ t, exec (.assocMoveStart a src dst n d) s = .next t
    ∧ t.fld (Reg.assocMoveStatus a) Fld.assocMoveStatus_code ≠ 0 ∧ t.lookup = s.lookup ∧ Recorded s t 0x0405 (natBe 1 a ++ natBe 1 (t.fld (Reg.assocMoveStatus a) Fld.assocMoveStatus_code))
    ∧ RegsOnly [Reg.assocMove a, Reg.assocMoveStatus a] s t ∧ Only [.regs, .counters, .events, .fcp, .obs] s t)
  ∧ (∀ (a src dst n : Nat) (s : State), s.clocked = true → 0 < n → src + n ≤ 32768 → dst + n ≤ 32768 → bit (s.part a) 127 = true → (∀ i, i < n → valid s a (dst + i) = true → src ≤ dst + i ∧ dst + i < src + n) →
    ∃ t, exec (.assocMoveStart a src dst n a) s = .next t ∧ t.move a = { src := src, dst := dst, dstArray := a, left := n, down := decide (src < dst), toClear := none }
    ∧ t.flag (Reg.assocMove a) Fld.assocMove_start = true ∧ t.fld (Reg.assocMoveStatus a) Fld.assocMoveStatus_code = 0 ∧ t.fld (Reg.assocMoveStatus a) Fld.assocMoveStatus_done = 0
    ∧ RegsOnly [Reg.assocMove a, Reg.assocMoveStatus a] s t ∧ Only [.regs, .lookup] s t)
  ∧ (∀ (a : Nat) (s : State), (s.move a).left = 0 ∨ (s.move a).toClear ≠ none → exec (.assocRowMove a) s = .next s)
  ∧ (∀ (a : Nat) (s : State), going s a → (s.move a).dstArray = a → (s.move a).src ≠ (s.move a).dst → ∃ t, exec (.assocRowMove a) s = .next t
    ∧ tblBytes t.mem (rowAddr a ((s.move a).dst + down s a)) 32 = tblBytes s.mem (rowAddr a ((s.move a).src + down s a)) 32 ∧ valid t a ((s.move a).src + down s a) = false
    ∧ MemOnly [row a ((s.move a).src + down s a), row a ((s.move a).dst + down s a)] s t ∧ Counted s t .associativeArrayMoves a 1
    ∧ (t.move a).left = (s.move a).left - 1 ∧ (t.flag (Reg.assocMove a) Fld.assocMove_start = true → (s.move a).left ≠ 1) ∧ Only [.regs, .mem, .counters, .lookup] s t)
  ∧ (∀ (a : Nat) (s : State), going s a → s.chainHead a ≠ s.chainHead (s.move a).dstArray → (s.move a).dstArray ≠ a → ∃ t, exec (.assocRowMove a) s = .next t
    ∧ tblBytes t.mem (rowAddr (s.move a).dstArray ((s.move a).dst + down s a)) 32 = tblBytes s.mem (rowAddr a ((s.move a).src + down s a)) 32
    ∧ t.move a = { s.move a with toClear := some ((s.move a).src + down s a) } ∧ MemOnly [row (s.move a).dstArray ((s.move a).dst + down s a)] s t ∧ Only [.regs, .mem, .lookup] s t)
  ∧ (∀ (a : Nat) (s : State), (s.move a).toClear = none → exec (.assocMoveSourceClear a) s = .next s)
  ∧ (∀ (a r : Nat) (s : State), s.clocked = true → a < 128 → r < 32768 → s.cascade (s.partTable a) = 1 → (s.move a).toClear = some r → 1 < (s.move a).left → ∃ t, exec (.assocMoveSourceClear a) s = .next t
    ∧ valid t a r = false ∧ (t.move a).left = (s.move a).left - 1 ∧ (t.move a).toClear = none ∧ Counted s t .associativeArrayMoves a 1 ∧ MemOnly [row a r] s t ∧ Only [.regs, .mem, .counters, .lookup] s t)
  ∧ (∀ (a : Nat) (ok : Bool) (s : State), bit (s.part a) 127 = false → exec (.assocScrubRead a ok) s = .next s)
  ∧ (∀ (a : Nat) (s : State), s.clocked = true → bit (s.part a) 127 = true → ∃ t, exec (.assocScrubRead a true) s = .next t
    ∧ t.fld (Reg.assocArrayStatus a) Fld.assocArrayStatus_scrubRow = (s.fld (Reg.assocArrayStatus a) Fld.assocArrayStatus_scrubRow + 1) % 32768 ∧ RegsOnly [Reg.assocArrayStatus a] s t ∧ Only [.regs] s t)
  ∧ (∀ (a : Nat) (s : State), s.clocked = true → a < 128 → bit (s.part a) 127 = true → ∃ t, exec (.assocScrubRead a false) s = .next t
    ∧ Counted s t .associativeArrayParityErr a 1 ∧ Recorded s t 0x0402 (natBe 1 a ++ natBe 2 (scrub s a)) ∧ t.flag (Reg.assocArrayStatus a) Fld.assocArrayStatus_paritySeen = true
    ∧ (s.flag (Reg.assocTableCfg (s.partTable a)) Fld.assocTableCfg_repair = true → t.lookup.rowRepair = s.lookup.rowRepair ++ [(a, scrub s a)] ∧ t.mem = s.mem)
    ∧ (s.flag (Reg.assocTableCfg (s.partTable a)) Fld.assocTableCfg_repair = false → valid t a (scrub s a) = false ∧ t.lookup = s.lookup ∧ MemOnly [row a (scrub s a)] s t) ∧ RegsOnly [Reg.assocArrayStatus a] s t ∧ Only [.regs, .mem, .counters, .events, .fcp, .obs, .lookup] s t)
  ∧ (∀ (a r : Nat) (s : State), s.lookup.rowRepair.contains (a, r) = false → exec (.assocRowRepair a r) s = .next s)
  ∧ (∀ (a r : Nat) (s : State), s.clocked = true → a < 128 → r < 32768 → s.lookup.rowRepair.contains (a, r) = true → ∃ t, exec (.assocRowRepair a r) s = .next t
    ∧ tblBytes t.mem (rowAddr a r) 32 = tblBytes s.lookup.shadow (rowAddr a r) 32 ∧ t.lookup.rowRepair = s.lookup.rowRepair.erase (a, r) ∧ Counted s t .associativeArrayRepaired a 1
    ∧ Recorded s t 0x0403 (natBe 1 a ++ natBe 2 r) ∧ MemOnly [row a r] s t ∧ RegsOnly [Reg.assocArrayStatus a] s t ∧ Only [.regs, .mem, .counters, .events, .fcp, .obs, .lookup] s t)

/-- R203 to R206; `q` is the request in hand. -/
def Obligations.LearnRequestsFollowTable810 : Prop :=
  let front (s : State) (l : Nat) (q : LearnReq) (rest : List LearnReq) : Prop := s.clocked = true ∧ s.learnOf l = q :: rest
  let absent (s : State) (q : LearnReq) : Prop := s.hashFind s.mem q.table none q.key = []
  let limit (s : State) (q : LearnReq) : Nat := s.fld (ditPort q.port) Fld.ditPortCfg_learnLimit
  let wr (s : State) : Nat := s.fld Reg.learnLogPtr Fld.learnLogPtr_wr
  let logged (s t : State) (q : LearnReq) (ty old : Nat) : Prop := (wr s + 1) % 65536 ≠ s.fld Reg.learnLogPtr Fld.learnLogPtr_rd → wr t = (wr s + 1) % 65536
    ∧ tblBytes t.mem (hbmAddr (s.logOffset (wr s))) 16 = natBe 1 ty ++ natBe 1 q.table ++ natBe 2 q.bd ++ natBe 6 q.mac ++ natBe 3 q.nh ++ natBe 3 old
  let learned (s t : State) (q : LearnReq) (a : Nat) : Prop := tblWord t.mem a = 2 ^ 63 + 3 * 2 ^ 57 + 2 ^ 48 * q.table + macResult s.ageNow false 0 s.moveNow q.nh ∧ tblBytes t.mem (a + 8) 8 = q.key
    ∧ logged s t q 1 0 ∧ MemOnly [(a, 16), (hbmAddr (s.logOffset (wr s)), 16)] s t
  (∀ (l : Nat) (s : State), s.learnOf l = [] → exec (.learnArbiterServe l) s = .next s)
  ∧ (∀ (l : Nat) (q : LearnReq) (rest : List LearnReq) (s : State), front s l q rest → absent s q → 0 < limit s q → limit s q ≤ s.fld (ditPort q.port) Fld.ditPortCfg_learned →
    ∃ t, exec (.learnArbiterServe l) s = .next t ∧ t.learnOf l = rest ∧ Counted s t .lookupLearnLimit (q.bd / 4096) 1 ∧ q.port ∈ t.lookup.limitSeen ∧ logged s t q 6 0
    ∧ MemOnly [(hbmAddr (s.logOffset (wr s)), 16)] s t ∧ Only [.regs, .mem, .counters, .events, .fcp, .obs, .lookup] s t)
  ∧ (∀ (l a : Nat) (q : LearnReq) (rest : List LearnReq) (s : State), front s l q rest → absent s q → (limit s q = 0 ∨ s.fld (ditPort q.port) Fld.ditPortCfg_learned < limit s q) → s.hashRoom q.table 0 q.key = some a → a < 0x0001_1000_0000 → q.table < 256 → q.nh < 2 ^ 20 →
    ∃ t, exec (.learnArbiterServe l) s = .next t ∧ t.learnOf l = rest ∧ learned s t q a ∧ Counted s t .lookupLearnLearned (q.bd / 4096) 1 ∧ Only [.regs, .mem, .counters, .events, .fcp, .obs, .lookup] s t)
  ∧ (∀ (l : Nat) (q : LearnReq) (rest : List LearnReq) (s : State), front s l q rest → absent s q → (limit s q = 0 ∨ s.fld (ditPort q.port) Fld.ditPortCfg_learned < limit s q) → s.hashRoom q.table 0 q.key = none → s.lookup.handoff.length < 256 →
    ∃ t, exec (.learnArbiterServe l) s = .next t ∧ t.learnOf l = rest ∧ t.lookup.handoff = s.lookup.handoff ++ [q] ∧ Only [.lookup] s t)
  ∧ (∀ (l a : Nat) (q : LearnReq) (rest : List LearnReq) (more : List Nat) (s : State), front s l q rest → s.hashFind s.mem q.table none q.key = a :: more → tblWord s.mem a % 2 ^ 20 = q.nh →
    ∃ t, exec (.learnArbiterServe l) s = .next t ∧ t.learnOf l = rest ∧ Counted s t .lookupLearnDuplicate (q.bd / 4096) 1 ∧ Only [.counters, .lookup] s t)
  ∧ (∀ (l a : Nat) (q : LearnReq) (rest : List LearnReq) (s : State), front s l q rest → s.hashFind s.mem q.table none q.key = [a] → tblWord s.mem a % 2 ^ 20 ≠ q.nh → (bit (tblWord s.mem a) 59 = true ∨ bit (tblWord s.mem a) 31 = true) →
    ∃ t, exec (.learnArbiterServe l) s = .next t ∧ t.learnOf l = rest ∧ Counted s t .lookupLearnConflict (q.bd / 4096) 1 ∧ Only [.counters, .lookup] s t)
  ∧ (∀ (l a : Nat) (q : LearnReq) (rest : List LearnReq) (s : State), front s l q rest → s.hashFind s.mem q.table none q.key = [a] → a < 0x0001_1000_0000 → tblWord s.mem a % 2 ^ 20 ≠ q.nh → bit (tblWord s.mem a) 59 = false → bit (tblWord s.mem a) 31 = false → s.flag Reg.learnCfg Fld.learnCfg_dampen = false → q.nh < 2 ^ 20 →
    ∃ t, exec (.learnArbiterServe l) s = .next t ∧ t.learnOf l = rest ∧ tblWord t.mem a % 2 ^ 20 = q.nh ∧ tblWord t.mem a / 2 ^ 48 = tblWord s.mem a / 2 ^ 48 ∧ logged s t q 2 (tblWord s.mem a % 2 ^ 20)
    ∧ Counted s t .lookupLearnMoved (q.bd / 4096) 1 ∧ MemOnly [(a, 8), (hbmAddr (s.logOffset (wr s)), 16)] s t ∧ Only [.regs, .mem, .counters, .events, .fcp, .obs, .lookup] s t)
  ∧ (∀ (s : State), s.lookup.handoff = [] → exec .learnHandoffInsert s = .next s)
  ∧ (∀ (a : Nat) (q : LearnReq) (rest : List LearnReq) (s : State), s.clocked = true → s.lookup.handoff = q :: rest → absent s q → (limit s q = 0 ∨ s.fld (ditPort q.port) Fld.ditPortCfg_learned < limit s q) → s.hashRoom q.table 0 q.key = some a → a < 0x0001_1000_0000 → q.table < 256 → q.nh < 2 ^ 20 →
    ∃ t, exec .learnHandoffInsert s = .next t ∧ t.lookup.handoff = rest ∧ learned s t q a ∧ Counted s t .lookupLearnLearned (q.bd / 4096) 1 ∧ Only [.regs, .mem, .counters, .events, .fcp, .obs, .lookup] s t)
  ∧ (∀ (a : Nat) (q : LearnReq) (rest : List LearnReq) (s : State), s.clocked = true → s.lookup.handoff = q :: rest → s.hashFind s.mem q.table none q.key = [a] → tblWord s.mem a % 2 ^ 20 = q.nh →
    ∃ t, exec .learnHandoffInsert s = .next t ∧ t.lookup.handoff = rest ∧ Counted s t .lookupLearnDuplicate (q.bd / 4096) 1 ∧ Only [.counters, .lookup] s t)

/-- R195, R205, R207, R208, R212. -/
def Obligations.EntriesAgeAndAreCompared : Prop :=
  let paid (s t : State) : Prop := t.gov.purse3 = s.gov.purse3 - 40
  let flow (s : State) (f b w : Nat) : Prop := s.clocked = true ∧ s.canSpend 3 40 = true ∧ s.flag (Reg.flowTableCfg f) Fld.flowTableCfg_ageEn = true ∧ bit (tblWord s.mem (hbmAddr (b + 64 * w))) 63 = true
    ∧ bits (tblWord s.mem (hbmAddr (b + 64 * w))) 55 48 = f ∧ bit (tblWord s.mem (hbmAddr (b + 64 * w))) 60 = false
  (∀ (a f b w : Nat) (s : State), s.canSpend 3 40 = false → exec (.pouncerAgeVisit a) s = .next s ∧ exec (.pouncerIdlePass f b w) s = .next s ∧ exec (.compareWalkRead a) s = .next s)
  ∧ (∀ (a : Nat) (s : State), s.clocked = true → s.canSpend 3 40 = true → (isHead s.mem a = false ∨ bit (tbl128 s.mem a) 123 = true ∨ (s.ageNow + 65536 - bits (tbl128 s.mem a) 111 96) % 65536 ≤ s.fld (Reg.tableAgeCfg (bits (tbl128 s.mem a) 119 112)) Fld.tableAgeCfg_ageLimit) →
    ∃ t, exec (.pouncerAgeVisit a) s = .next t ∧ paid s t ∧ Only [.gov] s t)
  ∧ (∀ (a : Nat) (s : State), s.clocked = true → s.canSpend 3 40 = true → isHead s.mem a = true → s.flag (Reg.tableAgeCfg (bits (tbl128 s.mem a) 119 112)) Fld.tableAgeCfg_ageEn = true → bit (tbl128 s.mem a) 123 = false → 0x0001_0400_0000 ≤ a → a < 0x0001_1000_0000 → bits (tbl128 s.mem a) 126 125 = 0 →
    s.fld (Reg.tableAgeCfg (bits (tbl128 s.mem a) 119 112)) Fld.tableAgeCfg_ageLimit < (s.ageNow + 65536 - bits (tbl128 s.mem a) 111 96) % 65536 → ∃ t, exec (.pouncerAgeVisit a) s = .next t ∧ paid s t
    ∧ tbl128 t.mem a = 0 ∧ MemOnly [(a, 16), (hbmAddr (s.logOffset (s.fld Reg.learnLogPtr Fld.learnLogPtr_wr)), 16)] s t ∧ Only [.regs, .mem, .counters, .events, .fcp, .obs, .lookup, .gov] s t)
  ∧ (∀ (f b w : Nat) (s : State), flow s f b w → bit (tblWord s.mem (hbmAddr (b + 64 * w))) 62 = true → ∃ t, exec (.pouncerIdlePass f b w) s = .next t ∧ paid s t
    ∧ tblWord t.mem (hbmAddr (b + 64 * w)) = setBits (tblWord s.mem (hbmAddr (b + 64 * w))) 62 1 0 ∧ MemOnly [(hbmAddr (b + 64 * w), 8)] s t ∧ Only [.mem, .gov] s t)
  ∧ (∀ (f b w : Nat) (s : State), flow s f b w → bit (tblWord s.mem (hbmAddr (b + 64 * w))) 62 = false → bit (tblWord s.mem (hbmAddr (b + 64 * w))) 61 = false → ∃ t, exec (.pouncerIdlePass f b w) s = .next t ∧ paid s t
    ∧ tblWord t.mem (hbmAddr (b + 64 * w)) = setBits (tblWord s.mem (hbmAddr (b + 64 * w))) 61 1 1 ∧ MemOnly [(hbmAddr (b + 64 * w), 8)] s t ∧ Only [.mem, .gov] s t)
  ∧ (∀ (f b w : Nat) (s : State), flow s f b w → bit (tblWord s.mem (hbmAddr (b + 64 * w))) 62 = false → bit (tblWord s.mem (hbmAddr (b + 64 * w))) 61 = true → ∃ t, exec (.pouncerIdlePass f b w) s = .next t ∧ paid s t
    ∧ t = (State.flowRemove { s with gov := t.gov } false (hbmAddr (b + 64 * w))).learnLog { type := 5, table := f, bd := 0, key := natBe 4 (b % 2 ^ 34 / 512) ++ natBe 1 (b / 2 ^ 34 * 8 + w), newNh := 0, oldNh := 0 })
  ∧ (∀ (p : Nat) (s : State), s.line.pouncerDue.contains p = false → exec (.pouncerPortFlush p) s = .next s)
  ∧ (∀ (p : Nat) (s : State), s.clocked = true → s.line.pouncerDue.contains p = true → (∀ a, a ∈ allHeads s.mem → bits (tbl128 s.mem a) 83 64 ≠ s.fld (ditPort p) Fld.ditPortCfg_learnNh) → ∃ t, exec (.pouncerPortFlush p) s = .next t
    ∧ t.line.pouncerDue.contains p = false ∧ Only [.line] s t)
  ∧ (∀ (p a : Nat) (s : State), s.clocked = true → s.line.pouncerDue.contains p = true → allHeads s.mem = [a] → bit (tbl128 s.mem a) 127 = true → bit (tbl128 s.mem a) 123 = false → s.flag (Reg.tableAgeCfg (bits (tbl128 s.mem a) 119 112)) Fld.tableAgeCfg_learnTable = true → bits (tbl128 s.mem a) 83 64 = s.fld (ditPort p) Fld.ditPortCfg_learnNh →
    ∃ t, exec (.pouncerPortFlush p) s = .next t ∧ t.line.pouncerDue.contains p = false ∧ t = State.learnRemove { s with line := t.line } a 8)
  ∧ (∀ (a : Nat) (e : Entry) (s : State), s.clocked = true → s.canSpend 3 40 = true → s.entryAt a = some e → ∃ t, exec (.compareWalkRead a) s = .next t ∧ paid s t
    ∧ (s.differs e = false → t.lookup = s.lookup) ∧ (s.differs e = true → t.lookup.mismatches.length = s.lookup.mismatches.length + 1) ∧ Only [.lookup, .gov] s t)
  ∧ (∀ (a : Nat) (m : Mismatch) (e : Entry) (s : State), s.clocked = true → s.lookup.mismatches.find? (fun m => m.addr == a) = some m → m.logLeft = 0 → s.fcp.flip = none → s.entryAt a = some e → s.differs e = true → s.flag Reg.ditCtrl Fld.ditCtrl_repair = false →
    ∃ t, exec (.compareConfirm a) s = .next t ∧ t.lookup.mismatches = s.lookup.mismatches.erase m ∧ Counted s t .lookupCompareMismatch 0 1 ∧ Recorded s t 0x0312 (natBe 1 e.table ++ natBe 4 e.index) ∧ Only [.counters, .events, .fcp, .obs, .lookup] s t)
  ∧ (∀ (a : Nat) (m : Mismatch) (e : Entry) (s : State), s.clocked = true → s.lookup.mismatches.find? (fun m => m.addr == a) = some m → m.logLeft = 0 → s.fcp.flip = none → s.entryAt a = some e → s.differs e = true → e.words = 1 → 0x0001_2000_0000 ≤ e.addr → s.flag Reg.ditCtrl Fld.ditCtrl_repair = true →
    ∃ t, exec (.compareConfirm a) s = .next t ∧ tblWord t.mem e.addr = tblWord s.lookup.shadow e.addr ∧ Recorded s t 0x0313 (natBe 1 e.table ++ natBe 4 e.index) ∧ MemOnly [(e.addr, 8)] s t ∧ Only [.mem, .counters, .events, .fcp, .obs, .lookup] s t)
  ∧ (∀ (a : Nat) (m : Mismatch) (e : Entry) (s : State), s.clocked = true → s.lookup.mismatches.find? (fun m => m.addr == a) = some m → m.logLeft = 0 → s.fcp.flip = none → s.entryAt a = some e → s.differs e = false →
    exec (.compareConfirm a) s = .next { s with lookup := { s.lookup with mismatches := s.lookup.mismatches.erase m } })
  ∧ (∀ (s : State), s.clocked = true → ∃ t, exec .comparePeriodOverrun s = .next t ∧ t.flag Reg.compareStatus Fld.compareStatus_late = true ∧ RegsOnly [Reg.compareStatus] s t ∧ Only [.regs] s t)
  ∧ (∀ (i : Nat) (s : State), s.lookup.encapHold.contains i = false → exec (.encapHoldExpiry i) s = .next s)
  ∧ (∀ (i : Nat) (s : State), s.clocked = true → s.lookup.encapHold.contains i = true → ∃ t, exec (.encapHoldExpiry i) s = .next t ∧ t.lookup.encapHold.contains i = false
    ∧ tblWord t.mem (encapAddr i) = setBits (tblWord s.mem (encapAddr i)) 63 1 0 ∧ MemOnly [(encapAddr i, 8)] s t ∧ Only [.mem, .lookup] s t)

/-- R196, R197, R344. `node` is the port node the packet left by, `out` the frame after rewriting. -/
def Obligations.DepartingPacketsAreRewrittenOrDropped : Prop :=
  let egr (s : State) (k : Nat) : List Desc := mget (fun _ => []) s.lookup.egrQ k
  let front (s : State) (k : Nat) (d : Desc) (rest : List Desc) : Prop := s.clocked = true ∧ egr s k = d :: rest
  let window (s : State) (n : Nat) : Nat := mget (fun _ => 0) s.traffic.inflight n
  let gone (s t : State) (k : Nat) (d : Desc) (rest : List Desc) : Prop := egr t k = rest ∧ window t d.node = window s d.node - d.win ∧ (∀ n, n ≠ d.node → window t n = window s n) ∧ t.line = s.line
  let stale (s : State) (d : Desc) : Prop := d.stamp.encap ≠ 0 ∧ (bit (tbl128 s.mem (encapAddr d.stamp.encap)) 127 = false ∨ bits (tbl128 s.mem (encapAddr d.stamp.encap)) 126 119 ≠ d.stamp.gen)
  let plain (d : Desc) : Prop := d.stamp.encap = 0 ∧ d.stamp.labelOp = 0 ∧ d.stamp.ttlDec = false ∧ d.stripped = false ∧ 20 ≤ d.bytes.length
    ∧ l2Len (d.bytes.take (d.bytes.length - 4)) (d.bytes.length - 4) 12 + 6 ≤ d.bytes.length
  let out (d : Desc) : Bytes := d.bytes.take (d.bytes.length - 4) ++ List.replicate (64 - d.bytes.length) 0
  let sent (d : Desc) : TxPkt := { bytes := out d ++ fcsOf (out d), epoch := d.epoch, counted := !(d.copy || d.replica), twoStep := false, tag := 0, stomp := d.bad, node := d.node, win := d.win, tc := d.stamp.tc, stream := d.stream }
  let unseen (s : State) (p : Nat) : Prop := s.fld (Reg.classPortCfg (p / 8) (p % 8)) Fld.classPortCfg_txMirror = 0 ∧ s.fld (Reg.classPortCfg (p / 8) (p % 8)) Fld.classPortCfg_txSampler = 0
  (∀ (k : Nat) (u a : Bool) (ts : TsReq) (s : State), egr s k = [] → exec (.egressProcess k u a ts) s = .next s)
  ∧ (∀ (k : Nat) (u a : Bool) (ts : TsReq) (d : Desc) (rest : List Desc) (s : State), front s k d rest → d.copy = false → s.epochLive d.epoch = false →
    ∃ t, exec (.egressProcess k u a ts) s = .next t ∧ gone s t k d rest ∧ Counted s t .controlAgentEpochDrop 1 1 ∧ Only [.counters, .lookup, .traffic] s t)
  ∧ (∀ (k : Nat) (u : Bool) (ts : TsReq) (d : Desc) (rest : List Desc) (s : State), front s k d rest → d.copy = false → s.epochLive d.epoch = true →
    ∃ t, exec (.egressProcess k u true ts) s = .next t ∧ gone s t k d rest ∧ Only [.regs, .counters, .events, .fcp, .obs, .lookup, .traffic] s t)
  ∧ (∀ (k : Nat) (u : Bool) (ts : TsReq) (d : Desc) (rest : List Desc) (s : State), front s k d rest → (d.copy = true ∨ s.epochLive d.epoch = true) → stale s d →
    ∃ t, exec (.egressProcess k u false ts) s = .next t ∧ gone s t k d rest ∧ Counted s t .lookupEgressEncapStale k 1 ∧ Only [.regs, .counters, .events, .fcp, .obs, .lookup, .traffic] s t)
  ∧ (∀ (k p : Nat) (u : Bool) (ts : TsReq) (d : Desc) (rest : List Desc) (s : State), front s k d rest → (d.copy = true ∨ s.epochLive d.epoch = true) → plain d → s.nodePort d.node = some p → s.fld (Reg.linePortCfg p) Fld.linePortCfg_maxFrame < (out d).length + 4 →
    ∃ t, exec (.egressProcess k u false ts) s = .next t ∧ gone s t k d rest ∧ Counted s t .lookupEgressOversize k 1 ∧ Only [.regs, .counters, .events, .fcp, .obs, .lookup, .traffic] s t)
  ∧ (∀ (k p : Nat) (d : Desc) (rest : List Desc) (s : State), front s k d rest → (d.copy = true ∨ s.epochLive d.epoch = true) → plain d → s.nodePort d.node = some p → (out d).length + 4 ≤ s.fld (Reg.linePortCfg p) Fld.linePortCfg_maxFrame → unseen s p → s.flag (Reg.macsecSecyCfg p) Fld.macsecSecyCfg_enable = false →
    ∃ t, exec (.egressProcess k false false .none) s = .next t ∧ egr t k = rest ∧ (t.port p).txQ = (s.port p).txQ ++ [sent d] ∧ Only [.line, .lookup] s t)
  ∧ (∀ (k p : Nat) (d : Desc) (rest : List Desc) (s : State), front s k d rest → (d.copy = true ∨ s.epochLive d.epoch = true) → plain d → s.nodePort d.node = some p → (out d).length + 4 ≤ s.fld (Reg.linePortCfg p) Fld.linePortCfg_maxFrame → unseen s p → s.flag (Reg.macsecSecyCfg p) Fld.macsecSecyCfg_enable = true →
    ∃ t, exec (.egressProcess k false false .none) s = .next t ∧ egr t k = rest ∧ (t.port p).macTx = (s.port p).macTx ++ [sent d] ∧ Only [.line, .lookup] s t)

/-- R197, steps 1 to 3. -/
def Obligations.RewritesKeepHeadersRight : Prop :=
  (∀ (b : Bytes), 20 ≤ b.length → beAt b 0 1 / 16 = 4 → inetSum (b.take 20) = 0 → inetSum ((ttlStep b).take 20) = 0 ∧ beAt (ttlStep b) 8 1 = beAt b 8 1 - 1
    ∧ (ttlStep b).length = b.length ∧ (∀ i, i ≠ 8 → i ≠ 10 → i ≠ 11 → (ttlStep b)[i]? = b[i]?))
  ∧ (∀ (b : Bytes), 40 ≤ b.length → beAt b 0 1 / 16 = 6 → beAt (ttlStep b) 7 1 = beAt b 7 1 - 1 ∧ (ttlStep b).length = b.length ∧ (∀ i, i ≠ 7 → (ttlStep b)[i]? = b[i]?))
  ∧ (∀ (s : State) (n w : Nat) (rest : List Nat) (p : Parts), p.labels = w :: rest → w < 2 ^ 32 → n < 2 ^ 20 → 1 < w % 256 →
    (s.labelStep 1 n p).1.labels = (4096 * n + w / 256 % 16 * 256 + (w % 256 - 1)) :: rest ∧ (s.labelStep 1 n p).1.body = p.body ∧ (s.labelStep 1 n p).2 = s)
  ∧ (∀ (s : State) (n w v : Nat) (rest : List Nat) (p : Parts), p.labels = w :: v :: rest → (s.labelStep 2 n p).1.labels = v :: rest ∧ (s.labelStep 2 n p).1.body = p.body ∧ (s.labelStep 2 n p).2 = s)
  ∧ (∀ (s : State) (d : Desc) (i : Nat) (p : Parts), bits (tbl128 s.mem (encapAddr i)) 118 116 = 0 → bit (tbl128 s.mem (encapAddr i)) 59 = false →
    s.encapsulate d i p = (natBe 6 (bits (tbl128 s.mem (encapAddr i)) 115 68) ++ natBe 6 (s.fld (Reg.ditSmac (bits (tbl128 s.mem (encapAddr i)) 67 60)) Fld.ditSmac_mac) ++ p.tail, s))

/-- Table 9.5, the register instructions; `r s i n` is register n of the engine of issue `i`. -/
def Obligations.RegisterInstructionsWriteTheirResult : Prop :=
  let r (s : State) (i : Issue) (n : Nat) : Word := (s.eng i.e).reg n
  let wrote (s : State) (i : Issue) (rd n : Nat) (v : Word) (t : State) : Prop := t.eng i.e = { (s.eng i.e).setReg rd v with cycles := (s.eng i.e).cycles + n, pc := (s.eng i.e).pc + 1 }
    ∧ EngineOnly i.e [] s t ∧ Only [.regs, .mem, .counters, .events, .fcp, .obs, .engine, .free] s t
  (∀ (i : Issue) (rd ra rb : Nat) (s : State), Completes s i → ∃ t, exec (.add i rd ra rb) s = .next t ∧ wrote s i rd 1 (r s i ra + r s i rb) t)
  ∧ (∀ (i : Issue) (rd ra rb : Nat) (s : State), Completes s i → ∃ t, exec (.sub i rd ra rb) s = .next t ∧ wrote s i rd 1 (r s i ra - r s i rb) t)
  ∧ (∀ (i : Issue) (rd ra rb : Nat) (s : State), Completes s i → ∃ t, exec (.and i rd ra rb) s = .next t ∧ wrote s i rd 1 (r s i ra &&& r s i rb) t)
  ∧ (∀ (i : Issue) (rd ra rb : Nat) (s : State), Completes s i → ∃ t, exec (.or i rd ra rb) s = .next t ∧ wrote s i rd 1 (r s i ra ||| r s i rb) t)
  ∧ (∀ (i : Issue) (rd ra rb : Nat) (s : State), Completes s i → ∃ t, exec (.xor i rd ra rb) s = .next t ∧ wrote s i rd 1 (r s i ra ^^^ r s i rb) t)
  ∧ (∀ (i : Issue) (rd ra rb : Nat) (s : State), Completes s i → ∃ t, exec (.shl i rd ra rb) s = .next t ∧ wrote s i rd 1 (r s i ra <<< ((r s i rb).toNat % 64)) t)
  ∧ (∀ (i : Issue) (rd ra rb : Nat) (s : State), Completes s i → ∃ t, exec (.shr i rd ra rb) s = .next t ∧ wrote s i rd 1 (r s i ra >>> ((r s i rb).toNat % 64)) t)
  ∧ (∀ (i : Issue) (rd ra rb : Nat) (s : State), Completes s i → ∃ t, exec (.min i rd ra rb) s = .next t ∧ wrote s i rd 1 (if (r s i ra).toNat ≤ (r s i rb).toNat then r s i ra else r s i rb) t)
  ∧ (∀ (i : Issue) (rd ra rb : Nat) (s : State), Completes s i → ∃ t, exec (.max i rd ra rb) s = .next t ∧ wrote s i rd 1 (if (r s i ra).toNat ≤ (r s i rb).toNat then r s i rb else r s i ra) t)
  ∧ (∀ (i : Issue) (rd ra rb : Nat) (s : State), Completes s i → ∃ t, exec (.crc i rd ra rb) s = .next t ∧ wrote s i rd 2 (BitVec.ofNat 64 (crcMsb poly32C ((r s i ra).toNat % 2 ^ 32) (natBe 8 (r s i rb).toNat))) t)
  ∧ (∀ (i : Issue) (rd ra : Nat) (s : State), Completes s i → ∃ t, exec (.clz i rd ra) s = .next t ∧ wrote s i rd 1 (BitVec.ofNat 64 (leadingZeros (r s i ra))) t)
  ∧ (∀ (i : Issue) (rd ra : Nat) (imm : BitVec 16) (s : State), Completes s i → ∃ t, exec (.addi i rd ra imm) s = .next t ∧ wrote s i rd 1 (r s i ra + imm.signExtend 64) t)
  ∧ (∀ (i : Issue) (rd ra : Nat) (imm : BitVec 16) (s : State), Completes s i → ∃ t, exec (.andi i rd ra imm) s = .next t ∧ wrote s i rd 1 (r s i ra &&& imm.setWidth 64) t)
  ∧ (∀ (i : Issue) (rd ra : Nat) (imm : BitVec 16) (s : State), Completes s i → ∃ t, exec (.ori i rd ra imm) s = .next t ∧ wrote s i rd 1 (r s i ra ||| imm.setWidth 64) t)
  ∧ (∀ (i : Issue) (rd ra : Nat) (imm : BitVec 16) (s : State), Completes s i → ∃ t, exec (.xori i rd ra imm) s = .next t ∧ wrote s i rd 1 (r s i ra ^^^ imm.setWidth 64) t)
  ∧ (∀ (i : Issue) (rd ra : Nat) (imm : BitVec 16) (s : State), Completes s i → ∃ t, exec (.shli i rd ra imm) s = .next t ∧ wrote s i rd 1 (r s i ra <<< (imm.toNat % 64)) t)
  ∧ (∀ (i : Issue) (rd ra : Nat) (imm : BitVec 16) (s : State), Completes s i → ∃ t, exec (.shri i rd ra imm) s = .next t ∧ wrote s i rd 1 (r s i ra >>> (imm.toNat % 64)) t)
  ∧ (∀ (i : Issue) (rd : Nat) (imm : BitVec 16) (s : State), Completes s i → ∃ t, exec (.movi i rd imm) s = .next t ∧ wrote s i rd 1 (imm.setWidth 64) t)
  ∧ (∀ (i : Issue) (rd sz : Nat) (imm : BitVec 16) (s : State), Completes s i → ∃ t, exec (.insh i rd sz imm) s = .next t ∧ wrote s i rd 1 (BitVec.ofNat 64 (setBits (r s i rd).toNat (16 * (sz % 4)) 16 imm.toNat)) t)
  ∧ (∀ (w : Word), (leadingZeros w = 64 ↔ w = 0) ∧ (∀ j, j < leadingZeros w → w.getLsbD (63 - j) = false) ∧ (w ≠ 0 → w.getLsbD (63 - leadingZeros w) = true))

/-- R222 to R224; `addr` is the engine address of a load or store, `size` its bytes. -/
def Obligations.EnginesReachTheirMemory : Prop :=
  let addr (s : State) (i : Issue) (ra : Nat) (imm : BitVec 16) : Nat := (((s.eng i.e).reg ra).toNat + imm.toNat) % 2 ^ 20
  let word (s : State) (i : Issue) (ra : Nat) : Nat := ((s.eng i.e).reg ra).toNat % 2 ^ 20
  let size (sz : Nat) : Nat := 2 ^ (sz % 4)
  let cell (i : Issue) (a : Nat) : Nat := clusterByte (i.e / 32) a
  let moved (x y : Engine) (n : Nat) : Engine := { y with cycles := x.cycles + n, pc := x.pc + 1 }
  (∀ (i : Issue) (rd ra sz : Nat) (imm : BitVec 16) (g : Region) (s : State), Completes s i → accessRegion (addr s i ra imm) (size sz) = some g → (g = .table → addr s i ra imm % size sz = 0) →
    ∃ t, exec (.ld i rd ra sz imm) s = .next t ∧ t.eng i.e = moved (s.eng i.e) ((s.eng i.e).setReg rd (BitVec.ofNat 64 (s.engRead (i.e / 32) (s.eng i.e) (addr s i ra imm) (size sz)))) (if g = .table then 8 else 3)
    ∧ EngineOnly i.e [] s t ∧ Only [.regs, .mem, .counters, .events, .fcp, .obs, .engine, .free] s t)
  ∧ (∀ (i : Issue) (rd ra sz : Nat) (imm : BitVec 16) (s : State), Completes s i → accessRegion (addr s i ra imm) (size sz) = some .scratch →
    ∃ t, exec (.st i rd ra sz imm) s = .next t ∧ t.eng i.e = moved (s.eng i.e) { s.eng i.e with scratch := memPut (s.eng i.e).scratch (addr s i ra imm) (natBe (size sz) ((s.eng i.e).reg rd).toNat) } 1
    ∧ s.engRead (i.e / 32) (t.eng i.e) (addr s i ra imm) (size sz) = ((s.eng i.e).reg rd).toNat % 256 ^ size sz ∧ EngineOnly i.e [] s t ∧ Only [.regs, .mem, .counters, .events, .fcp, .obs, .engine, .free] s t)
  ∧ (∀ (i : Issue) (rd ra sz : Nat) (imm : BitVec 16) (s : State), Completes s i → accessRegion (addr s i ra imm) (size sz) = some .table → addr s i ra imm % size sz = 0 →
    ∃ t, exec (.st i rd ra sz imm) s = .next t ∧ t.eng i.e = moved (s.eng i.e) (s.eng i.e) 8 ∧ beNat (tblBytes t.mem (cell i (addr s i ra imm)) (size sz)) = ((s.eng i.e).reg rd).toNat % 256 ^ size sz
    ∧ EngineOnly i.e [(cell i (addr s i ra imm), size sz)] s t ∧ Only [.regs, .mem, .counters, .events, .fcp, .obs, .engine, .free] s t)
  ∧ (∀ (i : Issue) (rd ra rb : Nat) (s : State), Completes s i → accessRegion (word s i ra) 8 = some .table → word s i ra % 8 = 0 →
    ∃ t, exec (.xadd i rd ra rb) s = .next t ∧ t.eng i.e = moved (s.eng i.e) ((s.eng i.e).setReg rd (BitVec.ofNat 64 (tblWord s.mem (cell i (word s i ra))))) 10
    ∧ tblWord t.mem (cell i (word s i ra)) = (tblWord s.mem (cell i (word s i ra)) + ((s.eng i.e).reg rb).toNat) % 2 ^ 64 ∧ EngineOnly i.e [(cell i (word s i ra), 8)] s t ∧ Only [.regs, .mem, .counters, .events, .fcp, .obs, .engine, .free] s t)
  ∧ (∀ (i : Issue) (rd ra sz : Nat) (imm : BitVec 16) (s : State), Completes s i → accessRegion (addr s i ra imm) (size sz) = none →
    (∃ t, exec (.ld i rd ra sz imm) s = .next t ∧ EngineFaulted s t i.e 1) ∧ (∃ t, exec (.st i rd ra sz imm) s = .next t ∧ EngineFaulted s t i.e 1))
  ∧ (∀ (i : Issue) (rd ra sz : Nat) (imm : BitVec 16) (s : State), Completes s i → accessRegion (addr s i ra imm) (size sz) = some .table → addr s i ra imm % size sz ≠ 0 →
    (∃ t, exec (.ld i rd ra sz imm) s = .next t ∧ EngineFaulted s t i.e 3) ∧ (∃ t, exec (.st i rd ra sz imm) s = .next t ∧ EngineFaulted s t i.e 3))
  ∧ (∀ (i : Issue) (rd ra sz : Nat) (imm : BitVec 16) (g : Region) (s : State), Completes s i → accessRegion (addr s i ra imm) (size sz) = some g → g ≠ .table → g ≠ .scratch → ∃ t, exec (.st i rd ra sz imm) s = .next t ∧ EngineFaulted s t i.e 2)
  ∧ (∀ (i : Issue) (rd ra rb : Nat) (s : State), Completes s i → accessRegion (word s i ra) 8 = some .table → word s i ra % 8 ≠ 0 → ∃ t, exec (.xadd i rd ra rb) s = .next t ∧ EngineFaulted s t i.e 3)

/-- R227. -/
def Obligations.CallsReturnsAndFetchesBeyondTheProgram : Prop :=
  (∀ (i : Issue) (g : Nat) (s : State), Completes s i → (s.eng i.e).stack.length < 8 → ∃ t, exec (.call i g) s = .next t
    ∧ t.eng i.e = { s.eng i.e with stack := ((s.eng i.e).pc + 1) :: (s.eng i.e).stack, cycles := (s.eng i.e).cycles + 2, pc := g } ∧ EngineOnly i.e [] s t ∧ Only [.regs, .mem, .counters, .events, .fcp, .obs, .engine, .free] s t)
  ∧ (∀ (i : Issue) (g : Nat) (s : State), Completes s i → 8 ≤ (s.eng i.e).stack.length → ∃ t, exec (.call i g) s = .next t ∧ EngineFaulted s t i.e 4)
  ∧ (∀ (i : Issue) (a : Nat) (rest : List Nat) (s : State), Completes s i → (s.eng i.e).stack = a :: rest → ∃ t, exec (.ret i) s = .next t
    ∧ t.eng i.e = { s.eng i.e with stack := rest, cycles := (s.eng i.e).cycles + 2, pc := a } ∧ EngineOnly i.e [] s t ∧ Only [.regs, .mem, .counters, .events, .fcp, .obs, .engine, .free] s t)
  ∧ (∀ (i : Issue) (s : State), Completes s i → (s.eng i.e).stack = [] → ∃ t, exec (.ret i) s = .next t ∧ EngineFaulted s t i.e 5)
  ∧ (∀ (c : Instr) (i : Issue) (s : State), issueOf c = some i → Issues s i.e → s.progEnds i.e ≤ (s.eng i.e).pc → ∃ t, exec c s = .next t ∧ EngineFaulted s t i.e 7)

/-- R226 to R236. -/
def Obligations.BranchesSearchesAndVerdicts : Prop :=
  let r (s : State) (i : Issue) (n : Nat) : Word := (s.eng i.e).reg n
  let went (s t : State) (i : Issue) (n pc : Nat) : Prop := t.eng i.e = { s.eng i.e with cycles := (s.eng i.e).cycles + n, pc := pc } ∧ EngineOnly i.e [] s t ∧ Only [.regs, .mem, .counters, .events, .fcp, .obs, .engine, .free] s t
  let branch (s t : State) (i : Issue) (c : Bool) (g : Nat) : Prop := went s t i (if c then 2 else 1) (if c then g else (s.eng i.e).pc + 1)
  let waits (s : State) (i : Issue) : List Nat := mget (fun _ => []) s.engine.scanQ (i.e / 32)
  let scanning (s : State) (i : Issue) : Nat := ((List.range 32).filter (fun j => match (s.eng (32 * (i.e / 32) + j)).scan with | some q => q.scanning | none => false)).length
  let lo (s : State) (i : Issue) (ra : Nat) : Nat := min (r s i ra).toNat (s.eng i.e).d.window
  let hi (s : State) (i : Issue) (ra rb : Nat) : Nat := min ((r s i ra).toNat + (r s i rb).toNat) (s.eng i.e).d.window
  let ended (s t : State) (e inspect : Nat) : Prop := t.eng e = Engine.idle ∧ (∀ o ∈ t.outOf (s.eng e).slice, o.seq = (s.eng e).seq → o.ended = true ∧ o.d.inspect = inspect) ∧ Counted s t .engineClusterPrograms (e / 32) 1
  (∀ (i : Issue) (ra rb g : Nat) (s : State), Completes s i → ∃ t, exec (.beq i ra rb g) s = .next t ∧ branch s t i (r s i ra == r s i rb) g)
  ∧ (∀ (i : Issue) (ra rb g : Nat) (s : State), Completes s i → ∃ t, exec (.bne i ra rb g) s = .next t ∧ branch s t i (r s i ra != r s i rb) g)
  ∧ (∀ (i : Issue) (ra rb g : Nat) (s : State), Completes s i → ∃ t, exec (.blt i ra rb g) s = .next t ∧ branch s t i (decide ((r s i ra).toNat < (r s i rb).toNat)) g)
  ∧ (∀ (i : Issue) (ra rb g : Nat) (s : State), Completes s i → ∃ t, exec (.bge i ra rb g) s = .next t ∧ branch s t i (decide ((r s i rb).toNat ≤ (r s i ra).toNat)) g)
  ∧ (∀ (i : Issue) (g : Nat) (s : State), Completes s i → ∃ t, exec (.jmp i g) s = .next t ∧ went s t i 2 g)
  ∧ (∀ (i : Issue) (s : State), Completes s i → ∃ t, exec (.nop i) s = .next t ∧ went s t i 1 ((s.eng i.e).pc + 1))
  ∧ (∀ (i : Issue) (a c : Nat) (b : Bool) (v : BitVec 16) (s : State), Completes s i → ∃ t, exec (.verdict i a b c v) s = .next t
    ∧ t.eng i.e = { s.eng i.e with act := a, colourSet := b, colour := c, value := v.toNat, cycles := (s.eng i.e).cycles + 1, pc := (s.eng i.e).pc + 1 } ∧ EngineOnly i.e [] s t ∧ Only [.regs, .mem, .counters, .events, .fcp, .obs, .engine, .free] s t)
  ∧ (∀ (i : Issue) (rd ra set : Nat) (s : State), Completes s i → ∃ t, exec (.pmatch i rd ra set) s = .next t
    ∧ t.eng i.e = { (s.eng i.e).setReg rd (if (s.eng i.e).d.window < (r s i ra).toNat then 0 else s.pmatchWord (i.e / 32) (s.eng i.e) set (r s i ra).toNat) with cycles := (s.eng i.e).cycles + 4, pc := (s.eng i.e).pc + 1 }
    ∧ EngineOnly i.e [] s t ∧ Only [.regs, .mem, .counters, .events, .fcp, .obs, .engine, .free] s t)
  ∧ (∀ (i : Issue) (rd ra rb set : Nat) (s : State), Completes s i → waits s i = [] → scanning s i < 8 → ∃ t, exec (.pfind i rd ra rb set) s = .next t
    ∧ t.eng i.e = { s.eng i.e with scan := some { rd := rd, start := lo s i ra, len := hi s i ra rb - lo s i ra, set := set, scanning := true, result := s.pfindWord (i.e / 32) (s.eng i.e) set (lo s i ra) (hi s i ra rb - lo s i ra), addr := (s.eng i.e).pc } }
    ∧ EngineOnly i.e [] s t ∧ Only [.regs, .mem, .counters, .events, .fcp, .obs, .engine, .free] s t)
  ∧ (∀ (i : Issue) (rd ra rb set : Nat) (s : State), Completes s i → 8 ≤ scanning s i → ∃ t, exec (.pfind i rd ra rb set) s = .next t
    ∧ t.eng i.e = { s.eng i.e with scan := some { rd := rd, start := lo s i ra, len := hi s i ra rb - lo s i ra, set := set, scanning := false, result := 0, addr := (s.eng i.e).pc } } ∧ waits t i = waits s i ++ [i.e] ∧ EngineOnly i.e [] s t ∧ Only [.regs, .mem, .counters, .events, .fcp, .obs, .engine, .free] s t)
  ∧ (∀ (e w : Nat) (q : Scan) (s : State), s.clocked = true → (s.eng e).scan = some q → q.scanning = true → ∃ t, exec (.pfindScanDone e w) s = .next t
    ∧ t.eng e = { (s.eng e).setReg q.rd q.result with scan := none, cycles := (s.eng e).cycles + (4 + ceilDiv q.len 16 + w), pc := (s.eng e).pc + 1 } ∧ Only [.regs, .mem, .counters, .events, .fcp, .obs, .engine, .free] s t)
  ∧ (∀ (e w : Nat) (s : State), (s.eng e).scan = none → exec (.pfindScanDone e w) s = .next s)
  ∧ (∀ (i : Issue) (s : State), Completes s i → ∃ t, exec (.endProg i) s = .next t ∧ ended s t i.e 1 ∧ (∀ o ∈ t.outOf (s.eng i.e).slice, o.seq = (s.eng i.e).seq → o.d.stamp = s.verdictStamp (s.eng i.e))
    ∧ ((s.eng i.e).act = 1 → Counted s t .engineClusterVerdictDrop (i.e / 32) 1) ∧ Only [.regs, .mem, .counters, .events, .fcp, .obs, .engine, .free] s t)
  ∧ (∀ (e : Nat) (s : State), s.clocked = true → (s.eng e).run = true → ∃ t, exec (.programBudgetExpiry e) s = .next t ∧ ended s t e 3 ∧ Counted s t .engineClusterTimeout (e / 32) 1
    ∧ (s.noWindow 0x0501 (s.eng e).program → Recorded s t 0x0501 (natBe 1 (s.eng e).program ++ natBe 1 (e / 32))) ∧ Only [.regs, .mem, .counters, .events, .fcp, .obs, .engine] s t)
  ∧ (∀ (e : Nat) (s : State), (s.eng e).run = false → exec (.programBudgetExpiry e) s = .next s)
  ∧ (∀ (c : Instr) (e n : Nat) (s : State), issueOf c = some { e := e, ecc := .uncorrectable n } → Issues s e → (s.eng e).pc < s.progEnds e → ∃ t, exec c s = .next t ∧ EngineFaulted s t e 6)
  ∧ (∀ (c : Instr) (i : Issue) (s : State), issueOf c = some i → ((s.eng i.e).run = false ∨ (s.eng i.e).scan ≠ none ∨ s.fld (Reg.engineProg (s.eng i.e).program) Fld.engineProg_budget ≤ (s.eng i.e).cycles + 1) → exec c s = .next s)

/-- R214 to R218, R221, R239, R344. -/
def Obligations.EnginesTakeAndReturnPackets : Prop :=
  let front (s : State) (k : Nat) (d : Desc) (rest : List Desc) : Prop := s.clocked = true ∧ s.engOf k = d :: rest
  let held (s : State) (k : Nat) (d : Desc) (rest : List Desc) : Prop := s.clocked = true ∧ s.engHold k = d :: rest
  let runs (d : Desc) : Prop := d.stamp.dkind ≠ 3 ∧ d.fragSlot = none
  let gets (s : State) (d : Desc) (c : Nat) : Prop := s.pickCluster d.program = some c ∧ (s.outOf d.slice).length < 512 ∧ s.canSpend 2 (s.dispatchCost d.program) = true
  let seq (s : State) (d : Desc) : Nat := mget (fun _ => 0) s.engine.seqNext d.slice
  let sent (s t : State) (d : Desc) (c : Nat) : Prop := t.outOf d.slice = s.outOf d.slice ++ [{ seq := seq s d, cluster := c, d := d, ended := false }] ∧ t.cq c = s.cq c ++ [(d.slice, seq s d)]
    ∧ t.gov.purse2 = s.gov.purse2 - s.dispatchCost d.program ∧ seq t d = (seq s d + 1) % 2 ^ 28
  let skipped (s t : State) (d : Desc) : Prop := t.bridgeOf d.slice = s.bridgeOf d.slice ++ [{ d with inspect := 2 }]
  let policy (s : State) (d : Desc) : Nat := s.fld (Reg.engineTcPolicy d.stamp.tc) Fld.engineTcPolicy_policy
  (∀ (k : Nat) (s : State), s.engOf k = [] → exec (.engineDispatch k) s = .next s)
  ∧ (∀ (k : Nat) (d : Desc) (rest : List Desc) (s : State), front s k d rest → runs d → s.flag (Reg.engineProg d.program) Fld.engineProg_valid = false → ∃ t, exec (.engineDispatch k) s = .next t ∧ t.engOf k = rest
    ∧ skipped s t d ∧ Counted s t .lookupSliceEngineSkip k 1 ∧ Only [.counters, .lookup] s t)
  ∧ (∀ (k c : Nat) (d : Desc) (rest : List Desc) (s : State), front s k d rest → s.flag (Reg.engineProg d.program) Fld.engineProg_valid = true → gets s d c → ∃ t, exec (.engineDispatch k) s = .next t ∧ t.engOf k = rest ∧ sent s t d c
    ∧ RegsOnly [Reg.engineClusterStatus c] s t ∧ Only [.regs, .lookup, .engine, .gov] s t)
  ∧ (∀ (k : Nat) (d : Desc) (rest : List Desc) (s : State), front s k d rest → runs d → s.flag (Reg.engineProg d.program) Fld.engineProg_valid = true → s.pickCluster d.program = none → policy s d = 0 →
    ∃ t, exec (.engineDispatch k) s = .next t ∧ t.engOf k = rest ∧ skipped s t d ∧ Counted s t .lookupSliceEngineSkip k 1 ∧ Only [.counters, .lookup] s t)
  ∧ (∀ (k : Nat) (d : Desc) (rest : List Desc) (s : State), front s k d rest → s.flag (Reg.engineProg d.program) Fld.engineProg_valid = true → s.pickCluster d.program = none → policy s d = 1 → (s.engHold k).length < 64 →
    ∃ t, exec (.engineDispatch k) s = .next t ∧ t.engOf k = rest ∧ t.engHold k = s.engHold k ++ [d] ∧ Counted s t .lookupSliceEngineWait k 1 ∧ Only [.counters, .lookup, .engine] s t)
  ∧ (∀ (k : Nat) (d : Desc) (rest : List Desc) (s : State), front s k d rest → runs d → s.flag (Reg.engineProg d.program) Fld.engineProg_valid = true → s.pickCluster d.program = none → policy s d = 2 →
    ∃ t, exec (.engineDispatch k) s = .next t ∧ t.engOf k = rest ∧ t.lookup.bridgeQ = s.lookup.bridgeQ ∧ Counted s t .lookupSliceEngineDrop k 1 ∧ (s.noWindow 0x0506 d.slice → Recorded s t 0x0506 (natBe 1 d.slice ++ natBe 1 d.stamp.tc)) ∧ Only [.regs, .counters, .events, .fcp, .obs, .lookup, .engine, .traffic, .gov] s t)
  ∧ (∀ (k : Nat) (s : State), s.engHold k = [] → exec (.engineHoldRetry k) s = .next s ∧ exec (.engineWaitExpiry k) s = .next s)
  ∧ (∀ (k c : Nat) (d : Desc) (rest : List Desc) (s : State), held s k d rest → gets s d c → ∃ t, exec (.engineHoldRetry k) s = .next t ∧ t.engHold k = rest ∧ sent s t d c ∧ RegsOnly [Reg.engineClusterStatus c] s t ∧ Only [.regs, .engine, .gov] s t)
  ∧ (∀ (k : Nat) (d : Desc) (rest : List Desc) (s : State), held s k d rest → s.pickCluster d.program = none → exec (.engineHoldRetry k) s = .next s)
  ∧ (∀ (k : Nat) (d : Desc) (rest : List Desc) (s : State), held s k d rest → runs d → s.flag (Reg.engineTcPolicy d.stamp.tc) Fld.engineTcPolicy_expire = false → ∃ t, exec (.engineWaitExpiry k) s = .next t ∧ t.engHold k = rest
    ∧ skipped s t d ∧ Counted s t .lookupSliceEngineWaitExpired k 1 ∧ Only [.counters, .lookup, .engine] s t)
  ∧ (∀ (e k q : Nat) (o : Dispatched) (rest : List (Nat × Nat)) (s : State), s.clocked = true → s.cq (e / 32) = (k, q) :: rest → (s.eng e).run = false → (s.outOf k).find? (fun o => o.seq == q) = some o → ∃ t, exec (.programStart e) s = .next t
    ∧ t.cq (e / 32) = rest ∧ (t.eng e).run = true ∧ (t.eng e).d = o.d ∧ (t.eng e).stack = [] ∧ (t.eng e).cycles = 0 ∧ (t.eng e).pc = s.fld (Reg.engineProg o.d.program) Fld.engineProg_entry
    ∧ (∀ n, (t.eng e).reg n = if n = 0 then BitVec.ofNat 64 o.d.window else if n = 1 then BitVec.ofNat 64 o.d.payload else if n = 2 then BitVec.ofNat 64 (2 ^ 28 * k + q) else if n = 3 then BitVec.ofNat 64 o.d.bytes.length else 0)
    ∧ (∀ f, f ≠ e → t.eng f = s.eng f) ∧ RegsOnly [Reg.engineClusterStatus (e / 32)] s t ∧ Only [.regs, .engine] s t)
  ∧ (∀ (e : Nat) (s : State), s.cq (e / 32) = [] ∨ (s.eng e).run = true → exec (.programStart e) s = .next s)
  ∧ (∀ (k : Nat) (s : State), (∀ o ∈ s.outOf k, o.ended = false) → exec (.engineResultReturn k) s = .next s)
  ∧ (∀ (k : Nat) (o : Dispatched) (rest : List Dispatched) (s : State), s.clocked = true → s.outOf k = o :: rest → o.ended = true → (∀ y ∈ rest, y.seq ≠ o.seq) → s.epochLive o.d.epoch = true → o.d.fragSlot = none → o.d.stamp.dkind ≠ 3 →
    ∃ t, exec (.engineResultReturn k) s = .next t ∧ t.outOf k = rest ∧ t.bridgeOf o.d.slice = s.bridgeOf o.d.slice ++ [o.d] ∧ Only [.lookup, .engine] s t)
  ∧ (∀ (k : Nat) (o : Dispatched) (rest : List Dispatched) (s : State), s.clocked = true → s.outOf k = o :: rest → o.ended = true → (∀ y ∈ rest, y.seq ≠ o.seq) → s.epochLive o.d.epoch = false →
    ∃ t, exec (.engineResultReturn k) s = .next t ∧ t.outOf k = rest ∧ t.lookup.bridgeQ = s.lookup.bridgeQ ∧ Counted s t .controlAgentEpochDrop 3 1)
  ∧ (∀ (c : Nat) (s : State), s.clocked = true → ∃ t, exec (.engineDrainWrite c true) s = .next t ∧ t.flag (Reg.engineClusterCtrl c) Fld.engineClusterCtrl_drain = true
    ∧ t.flag (Reg.engineClusterStatus c) Fld.engineClusterStatus_eligible = false ∧ RegsOnly [Reg.engineClusterCtrl c, Reg.engineClusterStatus c] s t ∧ Only [.regs] s t)
  ∧ (∀ (c : Nat) (s : State), s.clocked = true → s.flag (Reg.engineClusterCtrl c) Fld.engineClusterCtrl_drain = true → s.fld (Reg.bistSegStatus (52 + c)) Fld.bistSegStatus_state < 3 → s.bist.barred.contains (500 + c) = false → ∃ t, exec (.engineDrainWrite c false) s = .next t
    ∧ t.flag (Reg.engineClusterCtrl c) Fld.engineClusterCtrl_drain = false ∧ t.flag (Reg.engineClusterStatus c) Fld.engineClusterStatus_drained = false ∧ Recorded s t 0x0504 (natBe 1 c) ∧ Only [.regs, .counters, .events, .fcp, .obs] s t)
  ∧ (∀ (c : Nat) (s : State), s.fld (Reg.bistSegStatus (52 + c)) Fld.bistSegStatus_state < 3 → s.clocked = true → s.bist.barred.contains (500 + c) = true → exec (.engineDrainWrite c false) s = .next (s.count .controlBistReturnRefused))
  ∧ (∀ (c : Nat) (s : State), s.clocked = true → s.flag (Reg.engineClusterCtrl c) Fld.engineClusterCtrl_drain = true → s.cq c = [] → s.busy c = 0 → s.flag (Reg.engineClusterStatus c) Fld.engineClusterStatus_drained = false → ∃ t, exec (.clusterDrained c) s = .next t
    ∧ t.flag (Reg.engineClusterStatus c) Fld.engineClusterStatus_drained = true ∧ Recorded s t 0x0503 (natBe 1 c) ∧ RegsOnly [Reg.engineClusterStatus c] s t ∧ Only [.regs, .counters, .events, .fcp, .obs] s t)
  ∧ (∀ (c : Nat) (s : State), s.flag (Reg.engineClusterCtrl c) Fld.engineClusterCtrl_drain = false ∨ s.busy c ≠ 0 ∨ s.flag (Reg.engineClusterStatus c) Fld.engineClusterStatus_drained = true → exec (.clusterDrained c) s = .next s)

/-- R245 to R262; `seen` is the packet as admission takes it. -/
def Obligations.PacketsAreAdmittedAndDepart : Prop :=
  let front (s : State) (k : Nat) (d : Desc) (rest : List Desc) : Prop := s.clocked = true ∧ s.bridgeOf k = d :: rest ∧ s.bridgeCarries k false = true ∧ d.park = []
  let popped (s : State) (k : Nat) (rest : List Desc) : State := { s with lookup := { s.lookup with bridgeQ := mput (fun _ => []) s.lookup.bridgeQ k rest } }
  let seen (s : State) (d : Desc) : Desc := { d with park := [], rate := s.portRate d.port }
  let unicast (d : Desc) : Prop := d.stamp.dkind = 0 ∨ d.stamp.dkind = 2
  let held (s : State) (d : Desc) (q : Nat) (bufs : List Nat) (at_ : Nat × Nat) : List Rec := (s.queue q).recs ++ [{ d := seen s d, size := recSize d.bytes.length, ctx := none, bufs := bufs, start := at_ }]
  let egr (s : State) (k : Nat) : List Desc := mget (fun _ => []) s.lookup.egrQ k
  let quota (s : State) (r : Nat) (f : Field) : Nat := s.fld (Reg.trafficQuota r) f
  (∀ (k : Nat) (s : State), s.bridgeOf k = [] ∨ s.bridgeCarries k false = false → exec (.packetAdmit k false) s = .next s)
  ∧ (∀ (k : Nat) (s : State), s.fabric.inQ = [] → exec (.packetAdmit k true) s = .next s)
  ∧ (∀ (k : Nat) (d : Desc) (rest : List Desc) (s : State), front s k d rest → unicast d → (popped s k rest).target (seen s d) = .none → ∃ t, exec (.packetAdmit k false) s = .next t ∧ t.bridgeOf k = rest
    ∧ Counted s t .trafficAdmitPortDown 0 1 ∧ t.traffic.queues = s.traffic.queues ∧ Only [.regs, .counters, .events, .fcp, .obs, .lookup] s t)
  ∧ (∀ (k q : Nat) (c : Ctr) (d : Desc) (rest : List Desc) (s : State), front s k d rest → unicast d → (popped s k rest).target (seen s d) = .queue q → (popped s k rest).admitCheck (seen s d) q (recSize d.bytes.length) ((popped s k rest).isWhole (seen s d)) false = some c →
    ∃ t, exec (.packetAdmit k false) s = .next t ∧ t.bridgeOf k = rest ∧ Counted s t c 0 1 ∧ t.traffic.queues = s.traffic.queues ∧ Only [.regs, .counters, .events, .fcp, .obs, .lookup] s t)
  ∧ (∀ (k q h o : Nat) (d : Desc) (rest : List Desc) (s : State), front s k d rest → unicast d → (popped s k rest).target (seen s d) = .queue q → (popped s k rest).isWhole (seen s d) = true →
    (popped s k rest).admitCheck (seen s d) q (recSize d.bytes.length) true false = none → (s.queue q).open_ = some (h, o) → o + recSize d.bytes.length ≤ 2016 → ∃ t, exec (.packetAdmit k false) s = .next t ∧ t.bridgeOf k = rest
    ∧ (t.queue q).recs = held s d q [h] (h, o) ∧ (t.queue q).open_ = some (h, o + recSize d.bytes.length) ∧ t.traffic.bufs = s.traffic.bufs ∧ Counted s t .trafficAdmitAdmitted 0 1 ∧ (∀ j, j ≠ q → t.queue j = s.queue j) ∧ Only [.counters, .obs, .lookup, .traffic] s t)
  ∧ (∀ (k q h : Nat) (u : State) (d : Desc) (rest : List Desc) (s : State), front s k d rest → unicast d → (popped s k rest).target (seen s d) = .queue q → (popped s k rest).isWhole (seen s d) = true →
    (popped s k rest).admitCheck (seen s d) q (recSize d.bytes.length) true false = none → (s.queue q).open_ = none → recSize d.bytes.length ≤ 2016 →
    (popped s k rest).poolGrant (seen s d).requester ((popped s k rest).poolOf ((popped s k rest).qProfile q)) 0 q = (u, some h) → ∃ t, exec (.packetAdmit k false) s = .next t ∧ t.bridgeOf k = rest
    ∧ (t.queue q).recs = held s d q [h] (h, 0) ∧ (t.queue q).open_ = some (h, recSize d.bytes.length) ∧ t.traffic.bufs = u.traffic.bufs ∧ Counted s t .trafficAdmitAdmitted 0 1 ∧ Only [.regs, .counters, .obs, .lookup, .traffic] s t)
  ∧ (∀ (k : Nat) (b : Bool) (s : State), s.streamsOf k = [] → exec (.streamTail k b) s = .next s)
  ∧ (∀ (k q : Nat) (x : Stream) (rest : List Stream) (s : State), s.clocked = true → s.streamsOf k = x :: rest → x.q = some q → x.cut = false → ∃ t, exec (.streamTail k true) s = .next t ∧ t.streamsOf k = rest ∧ t.queue q = s.queue q
    ∧ Only [.regs, .counters, .events, .fcp, .obs, .lookup, .traffic] s t)
  ∧ (∀ (k q : Nat) (x : Stream) (rest : List Stream) (s : State), s.clocked = true → s.streamsOf k = x :: rest → x.q = some q → x.cut = false → x.d.bad = false → (s.chan k false).fenced = false → recSize x.d.bytes.length ≤ 2016 * x.chain.length →
    ∃ t, exec (.streamTail k false) s = .next t ∧ t.streamsOf k = rest ∧ (t.queue q).recs = (s.queue q).recs ++ [{ d := { x.d with stream := 0 }, size := recSize x.d.bytes.length, ctx := none, bufs := x.chain, start := (x.chain.headD 0, 0) }] ∧ Only [.counters, .obs, .traffic] s t)
  ∧ (∀ (n : Nat) (s : State), s.departingOf n = [] → exec (.packetDepart n) s = .next s)
  ∧ (∀ (n q : Nat) (r : Rec) (rest : List (Nat × Rec)) (s : State), s.clocked = true → n < 96 → s.departingOf n = (q, r) :: rest → ∃ t, exec (.packetDepart n) s = .next t ∧ t.departingOf n = rest ∧ egr t (n / 8) = egr s (n / 8) ++ [r.d] ∧ Only [.regs, .mem, .counters, .events, .fcp, .obs, .lookup, .traffic] s t)
  ∧ (∀ (q : Nat) (r : Rec) (rest : List (Nat × Rec)) (s : State), s.clocked = true → s.departingOf 480 = (q, r) :: rest → ∃ t, exec (.packetDepart 480) s = .next t ∧ t.departingOf 480 = rest ∧ t.traffic.punted = s.traffic.punted ++ [r.d] ∧ Only [.regs, .mem, .counters, .events, .fcp, .obs, .lookup, .traffic] s t)
  ∧ (∀ (v : Bool) (n st : Nat) (s : State), st ≠ 2 → st ≠ 3 → exec (.bufferReadError v n st) s = .next s)
  ∧ (∀ (n q : Nat) (r : Rec) (rest : List (Nat × Rec)) (s : State), s.clocked = true → s.departingOf n = (q, r) :: rest → ∃ t, exec (.bufferReadError false n 2) s = .next t ∧ t.departingOf n = rest ∧ t.lookup.egrQ = s.lookup.egrQ ∧ t.line = s.line
    ∧ Counted s t .trafficQueueReadErr 0 1 ∧ Counted s t .trafficQueueFencedDrop 0 1)
  ∧ (∀ (p : Nat) (f : TxPkt) (rest : List TxPkt) (s : State), s.clocked = true → p < 96 → s.departingOf p = [] → (s.port p).txQ = f :: rest → ∃ t, exec (.bufferReadError false p 3) s = .next t
    ∧ (t.port p).txQ = { f with stomp := true, bytes := f.bytes.take (Config.freeNat s.freeCtr % (f.bytes.length - 3)) ++ fcsOf (f.bytes.take (Config.freeNat s.freeCtr % (f.bytes.length - 3))) } :: rest ∧ Counted s t .trafficQueueReadErr 0 1 ∧ Only [.counters, .line, .free] s t)
  ∧ (∀ (r a b : Nat) (s : State), 24 ≤ r ∨ 32768 < a ∨ 50331648 < b → exec (.quotaWrite r a b) s = .next s)
  ∧ (∀ (r a b : Nat) (s : State), s.clocked = true → r < 24 → a ≤ 32768 → b ≤ 50331648 → ∃ t, exec (.quotaWrite r a b) s = .next t ∧ quota t r Fld.trafficQuota_ondieQuota = a ∧ quota t r Fld.trafficQuota_hbmQuota = b
    ∧ (a < s.fld (Reg.trafficQuotaUsed r) Fld.trafficQuotaUsed_ondieUsed → t.flag (Reg.trafficQuotaUsed r) Fld.trafficQuotaUsed_overOndie = true ∧ Recorded s t 0x0601 (natBe 1 r ++ natBe 1 0))
    ∧ (b < s.fld (Reg.trafficQuotaUsed r) Fld.trafficQuotaUsed_hbmUsed → t.flag (Reg.trafficQuotaUsed r) Fld.trafficQuotaUsed_overHbm = true ∧ Recorded s t 0x0601 (natBe 1 r ++ natBe 1 1))
    ∧ RegsOnly [Reg.trafficQuota r, Reg.trafficQuotaUsed r] s t ∧ Only [.regs, .counters, .events, .fcp, .obs] s t)
  ∧ (∀ (kind owner unit h : Nat) (s : State), (s.buf h).ownerKind ≠ kind ∨ (s.buf h).owner ≠ owner → s.poolFree kind owner unit h = (s.count .trafficPoolOwnerFault).raise 0x0602 (natBe 4 h ++ unitBytes 6 unit))

/-- R263, R265, R266. -/
def Obligations.PortsThatGoDownFlushTheirQueues : Prop :=
  let chains (s : State) : List (Nat × Option Nat × List Rec) := s.traffic.flush.map (fun c => (c.q, c.port, c.recs))
  let freed (s : State) (p : Nat) : Nat := mget (fun _ => 0) s.traffic.flushFreed p
  (∀ (p : Nat) (s : State), s.line.closeDue.contains p = false → exec (.portQueuesClose p) s = .next s)
  ∧ (∀ (p : Nat) (s : State), s.clocked = true → s.line.closeDue.contains p = true → ∃ t, exec (.portQueuesClose p) s = .next t ∧ t.line.closeDue.contains p = false ∧ t.flag (Reg.trafficPortCfg p) Fld.trafficPortCfg_closed = true
    ∧ Only [.regs, .counters, .events, .fcp, .obs, .line, .traffic] s t)
  ∧ (∀ (p q : Nat) (x : Queue) (s : State), s.clocked = true → s.line.closeDue.contains p = true → s.traffic.queues = [(q, x)] → s.qKind q = 2 → s.qPort q = some p → x.recs ≠ [] → x.wait = none → s.traffic.flush = [] → s.traffic.departing = [] → (s.voqMaps.find? (fun m => m.1 == s.self && decide (p < m.2.2))) = none →
    ∃ t, exec (.portQueuesClose p) s = .next t ∧ (t.queue q).recs = [] ∧ chains t = [(q, some p, x.recs)] ∧ Counted s t .trafficQueueFlushDrop 0 x.recs.length)
  ∧ (∀ (d p : Nat) (s : State), s.fabric.closeVoq.contains (d, p) = false → exec (.voqCloseOnNotice d p) s = .next s)
  ∧ (∀ (d p : Nat) (s : State), s.clocked = true → s.fabric.closeVoq.contains (d, p) = true → ∃ t, exec (.voqCloseOnNotice d p) s = .next t ∧ t.fabric.closeVoq.contains (d, p) = false ∧ Recorded s t 0x0606 (natBe 2 d ++ natBe 1 p) ∧ Only [.regs, .counters, .events, .fcp, .obs, .traffic, .fabric] s t)
  ∧ (∀ (s : State), s.traffic.flush = [] → exec .flushChainFree s = .next s)
  ∧ (∀ (c : FlushChain) (rest : List FlushChain) (s : State), s.clocked = true → s.traffic.flush = c :: rest → c.recs = [] → ∃ t, exec .flushChainFree s = .next t ∧ t.traffic.flush = rest ∧ Counted s t .trafficQueueFlushBuffers 0 c.bufs.length
    ∧ t.fld Reg.trafficFlushStatus Fld.trafficFlushStatus_listUsed = rest.length % 2 ^ 13 ∧ Only [.regs, .mem, .counters, .events, .fcp, .obs, .lookup, .traffic] s t)
  ∧ (∀ (c : FlushChain) (p : Nat) (s : State), s.clocked = true → s.traffic.flush = [c] → c.recs = [] → c.port = some p → s.traffic.flushWait = [] → ∃ t, exec .flushChainFree s = .next t ∧ t.traffic.flush = [] ∧ freed t p = 0
    ∧ Recorded s t 0x0607 (natBe 1 p ++ natBe 4 (freed s p + c.bufs.length)) ∧ Only [.regs, .mem, .counters, .events, .fcp, .obs, .lookup, .traffic] s t)
  ∧ (∀ (s : State), s.traffic.flushWait = [] ∨ 4096 ≤ s.traffic.flush.length → exec .flushListAdmit s = .next s)
  ∧ (∀ (q : Nat) (rest : List Nat) (s : State), s.clocked = true → s.traffic.flushWait = q :: rest → s.traffic.flush.length < 4096 → ∃ t, exec .flushListAdmit s = .next t ∧ t.traffic.flushWait = rest ∧ (t.queue q).recs = [] ∧ (t.queue q).wait = none
    ∧ (chains t).map (fun c => (c.1, c.2.2)) = (chains s).map (fun c => (c.1, c.2.2)) ++ [(q, (s.queue q).recs)] ∧ Counted s t .trafficQueueFlushDrop 0 (s.queue q).recs.length ∧ Only [.regs, .counters, .events, .fcp, .obs, .traffic] s t)

/-- R271 to R282. `waits` says that request `r` of controller `x` is queued and its turn has come, its row open. -/
def Obligations.HbmRequestsAreServed : Prop :=
  let waits (s : State) (x : Nat) (r : HbmReq) (w : HbmWait) : Prop := s.clocked = true ∧ (s.ctl x).queue.find? (fun y => y.r.tag == r.tag) = some w ∧ w.r = r ∧ s.hbmState x = 1 ∧ s.hbmReady x w = true
  let opened (s : State) (x : Nat) (r : HbmReq) : Prop := (s.ctl x).row (bankOf (32 * r.burst)) = rowOf (32 * r.burst) + 1
  let clean (s : State) (x : Nat) (r : HbmReq) : Prop := (s.poison x).any (fun p => decide (r.burst ≤ p.2) && decide (p.2 ≤ r.burst + r.len)) = false
  let answered (s t : State) (x tag st : Nat) (b : Bytes) : Prop := t.hbm.answers = s.hbm.answers ++ [{ x := x, tag := tag, status := st, data := b }]
  let bursts (x : Nat) (r : HbmReq) : List (Nat × Nat) := (List.range (r.len + 1)).map (fun j => (burstAddr x (r.burst + j) 0, 32))
  let left (s t : State) (x : Nat) (w : HbmWait) : Prop := (t.ctl x).queue = (s.ctl x).queue.filter (fun y => y != w)
  (∀ (x : Nat) (r : HbmReq) (s : State), s.clocked = true → reqOk r = false → ∃ t, exec (.hbmRequest x r) s = .next t ∧ answered s t x r.tag 3 [] ∧ Counted s t .hbmctlReqRefused x 1 ∧ t.hbm.ctls = s.hbm.ctls ∧ Only [.counters, .hbm] s t)
  ∧ (∀ (x : Nat) (r : HbmReq) (s : State), s.clocked = true → reqOk r = true → s.hbmServes x = false → ∃ t, exec (.hbmRequest x r) s = .next t ∧ answered s t x r.tag 3 [] ∧ t.hbm.ctls = s.hbm.ctls ∧ Only [.counters, .hbm] s t)
  ∧ (∀ (x : Nat) (r : HbmReq) (s : State), reqOk r = true → s.hbmServes x = true → s.segTested (ctlSeg x) = false → 64 ≤ (s.ctl x).queue.length → exec (.hbmRequest x r) s = .next s)
  ∧ (∀ (x : Nat) (r : HbmReq) (s : State), s.clocked = true → reqOk r = true → s.hbmServes x = true → s.segTested (ctlSeg x) = false → (s.ctl x).queue.length < 64 → (s.fld (Reg.hbmCtrl x) Fld.hbmCtrl_mode = 0 ∨ r.write = true ∨ (s.ctl x).forward r = none) →
    ∃ t, exec (.hbmRequest x r) s = .next t ∧ (t.ctl x).queue = (s.ctl x).queue ++ [{ r := r, at_ := s.time.stepFree }] ∧ t.hbm.answers = s.hbm.answers ∧ (∀ y, y ≠ x → t.ctl y = s.ctl y) ∧ Only [.counters, .hbm] s t)
  ∧ (∀ (x : Nat) (r w : HbmReq) (s : State), s.clocked = true → reqOk r = true → s.hbmServes x = true → s.segTested (ctlSeg x) = false → (s.ctl x).queue.length < 64 → s.fld (Reg.hbmCtrl x) Fld.hbmCtrl_mode = 1 → r.write = false → (s.ctl x).forward r = some w →
    ∃ t, exec (.hbmRequest x r) s = .next t ∧ answered s t x r.tag 0 ((w.data.drop (32 * (r.burst - w.burst))).take (32 * (r.len + 1))) ∧ Counted s t .hbmctlWriteFwd x 1 ∧ t.hbm.ctls = s.hbm.ctls ∧ Only [.counters, .hbm] s t)
  ∧ (∀ (x tag : Nat) (e : EccResult) (s : State), (s.ctl x).queue.find? (fun y => y.r.tag == tag) = none ∨ s.hbmState x ≠ 1 → exec (.hbmResponse x tag e) s = .next s)
  ∧ (∀ (x : Nat) (r : HbmReq) (w : HbmWait) (s : State), waits s x r w → opened s x r → clean s x r → r.write = false → x < 128 → ∃ t, exec (.hbmResponse x r.tag .good) s = .next t
    ∧ answered s t x r.tag 0 ((List.range (32 * (r.len + 1))).map (fun i => s.memByte (burstAddr x r.burst i))) ∧ left s t x w ∧ Only [.counters, .events, .fcp, .obs, .hbm, .free] s t)
  ∧ (∀ (x : Nat) (e : EccResult) (r : HbmReq) (w : HbmWait) (s : State), waits s x r w → opened s x r → (s.poison x).any (fun p => decide (r.burst ≤ p.2) && decide (p.2 ≤ r.burst + r.len)) = true → r.write = false → ∃ t, exec (.hbmResponse x r.tag e) s = .next t
    ∧ answered s t x r.tag 2 (List.replicate (32 * (r.len + 1)) 0) ∧ Counted s t .hbmctlPoisoned x 1 ∧ left s t x w ∧ Only [.counters, .events, .fcp, .obs, .hbm, .free] s t)
  ∧ (∀ (x : Nat) (e : EccResult) (r : HbmReq) (w : HbmWait) (s : State), waits s x r w → opened s x r → r.write = true → x < 128 → ∃ t, exec (.hbmResponse x r.tag e) s = .next t
    ∧ answered s t x r.tag 0 [] ∧ (∀ i, i < 32 * (r.len + 1) → t.memByte (burstAddr x r.burst i) = (r.data[i]?).getD 0) ∧ MemOnly (bursts x r) s t ∧ left s t x w ∧ Only [.regs, .mem, .counters, .events, .fcp, .obs, .hbm, .free] s t)
  ∧ (∀ (x : Nat) (e : EccResult) (r : HbmReq) (w : HbmWait) (s : State), waits s x r w → (s.ctl x).row (bankOf (32 * r.burst)) ≠ rowOf (32 * r.burst) + 1 → s.canSpend r.cls (1000 + 320 * (r.len + 1)) = false → exec (.hbmResponse x r.tag e) s = .next s)
  ∧ (∀ (x b : Nat) (s : State), s.clocked = true → s.hbmServes x = true → (s.ctl x).row b ≠ 0 → ∃ t, exec (.openRowTimeout x b) s = .next t ∧ (t.ctl x).row b = 0 ∧ t.hbm.answers = s.hbm.answers ∧ (t.ctl x).queue = (s.ctl x).queue ∧ Only [.counters, .events, .fcp, .obs, .hbm, .free] s t)
  ∧ (∀ (x b : Nat) (s : State), s.hbmServes x = false ∨ (s.ctl x).row b = 0 → exec (.openRowTimeout x b) s = .next s)
  ∧ (∀ (x : Nat) (s : State), s.clocked = true → s.hbmServes x = true → s.fld (Reg.hbmCtrl x) Fld.hbmCtrl_mode = 1 → (s.ctl x).queue.any (fun w => w.r.write) = true → exec (.fz24WriteAge x) s = .next (s.setCtl x { s.ctl x with drain := true }))
  ∧ (∀ (x b : Nat) (s : State), s.clocked = true → s.hbmState x = 3 → exec (.refreshDue x b) s = .next (if b = 0 then s.count .hbmctlRefreshAb x else s))
  ∧ (∀ (x b : Nat) (s : State), s.clocked = true → s.hbmServes x = true → (s.ctl x).owed = [] → 1 < s.fld (Reg.hbmCtrl x) Fld.hbmCtrl_refUrgent → (s.ctl x).busy b = false → ∃ t, exec (.refreshDue x b) s = .next t
    ∧ (t.ctl x).owes b = 0 ∧ Counted s t .hbmctlRefreshPb x 1 ∧ (t.ctl x).row b = 0 ∧ Only [.counters, .hbm, .free] s t)
  ∧ (∀ (x b : Nat) (s : State), s.clocked = true → s.hbmServes x = true → (s.ctl x).owed = [] → 1 < s.fld (Reg.hbmCtrl x) Fld.hbmCtrl_refUrgent → (s.ctl x).busy b = true → ∃ t, exec (.refreshDue x b) s = .next t ∧ (t.ctl x).owes b = 1
    ∧ (∀ c, c ≠ b → (t.ctl x).owes c = 0) ∧ Only [.hbm] s t)

/-- R279 to R287. -/
def Obligations.HbmControllersFreezeAndReturn : Prop :=
  let st (n : Nat) : Nat := Reg.hbmStackStatus n
  let active (s : State) (n : Nat) : Bool := s.flag (st n) Fld.hbmStackStatus_passActive
  let hold (s : State) (x : Nat) : Bool := s.flag (Reg.hbmCtrl x) Fld.hbmCtrl_freezeHold
  let recent (s : State) (x : Nat) : Nat := ((s.ctl x).freezes.filter (fun t => decide (s.time.stepFree < t + 10000000000))).length + 1
  let stopped (s t : State) (x cause : Nat) : Prop := t.hbmState x = (if s.fld (Reg.hbmCtrl x) Fld.hbmCtrl_freezeLimit < recent s x then 5 else 3) ∧ Counted s t .hbmctlFreeze x 1 ∧ Counted s t (causeCtr cause) x 1
    ∧ Recorded s t 0x0701 (natBe 2 x ++ natBe 1 cause) ∧ (t.ctl x).queue = [] ∧ t.hbm.answers = s.hbm.answers ++ (s.ctl x).queue.map (fun w => { x := x, tag := w.r.tag, status := 3, data := [] })
  let diagnosed (s t : State) (x : Nat) : Prop := t.hbmState x = (if s.hbmState x = 3 ∧ hold s x = false then 4 else s.hbmState x)
  (∀ (n : Nat) (c : Int) (s : State), s.clocked = true → n < 8 → active s n = false → ∃ t, exec (.trainPassStart n c) s = .next t ∧ active t n = true ∧ t.fld (st n) Fld.hbmStackStatus_temp = ofSigned 8 c % 256
    ∧ t.fld (st n) Fld.hbmStackStatus_trainTemp = ofSigned 8 c % 256 ∧ t.hbmPass n = { next := 0, due := false } ∧ RegsOnly [st n] s t ∧ Only [.regs, .hbm] s t)
  ∧ (∀ (n : Nat) (s : State), s.clocked = true → active s n = false → ∃ t, exec (.trainNowWrite n) s = .next t ∧ active t n = true ∧ t.hbmPass n = { next := 0, due := false } ∧ RegsOnly [st n] s t ∧ Only [.regs, .hbm] s t)
  ∧ (∀ (n : Nat) (s : State), s.clocked = true → active s n = true → ∃ t, exec (.trainNowWrite n) s = .next t ∧ t.hbmPass n = { s.hbmPass n with due := true } ∧ Only [.hbm] s t)
  ∧ (∀ (x : Nat) (ok : Bool) (s : State), active s (x / 64) = false ∨ (s.hbmPass (x / 64)).next ≠ x % 64 → exec (.trainPause x ok) s = .next s)
  ∧ (∀ (x : Nat) (s : State), s.clocked = true → x < 512 → active s (x / 64) = true → (s.hbmPass (x / 64)).next = x % 64 → x % 64 < 63 → s.hbmState x = 1 → s.segTested (ctlSeg x) = false → ∃ t, exec (.trainPause x true) s = .next t
    ∧ t.hbmState x = 2 ∧ (t.hbmPass (x / 64)).next = x % 64 + 1 ∧ RegsOnly [Reg.hbmStatus x] s t ∧ Only [.regs, .hbm, .free] s t)
  ∧ (∀ (x : Nat) (s : State), s.clocked = true → x < 512 → active s (x / 64) = true → (s.hbmPass (x / 64)).next = x % 64 → s.hbmState x = 1 → s.segTested (ctlSeg x) = false → ∃ t, exec (.trainPause x false) s = .next t ∧ stopped s t x 4 ∧ Only [.regs, .counters, .events, .fcp, .obs, .hbm, .free] s t)
  ∧ (∀ (x : Nat) (s : State), s.clocked = true → x < 512 → s.hbmState x = 2 → ∃ t, exec (.trainingPauseEnds x) s = .next t ∧ t.hbmState x = 1 ∧ RegsOnly [Reg.hbmStatus x] s t ∧ Only [.regs] s t)
  ∧ (∀ (x : Nat) (s : State), s.clocked = true → x < 512 → s.hbmState x = 1 ∨ s.hbmState x = 2 → ∃ t, exec (.hbmCaParity x) s = .next t ∧ stopped s t x 2 ∧ Only [.regs, .counters, .events, .fcp, .obs, .hbm] s t)
  ∧ (∀ (x tag : Nat) (w : HbmWait) (s : State), s.clocked = true → x < 512 → s.hbmState x = 1 → (s.ctl x).queue.find? (fun w => w.r.tag == tag) = some w → ∃ t, exec (.hbmCmdTimeout x tag) s = .next t ∧ stopped s t x 3 ∧ Only [.regs, .counters, .events, .fcp, .obs, .hbm] s t)
  ∧ (∀ (h : FcpHdr) (y : Session) (x : Nat) (s : State), s.clocked = true → x < 512 → Granted s h y 0x10 privWrite → s.readBar (Reg.hbmSyndrome x) = 0 → ∃ t, exec (.hbmSyndromeRead h x) s = .next t
    ∧ Replied t h 0x10 0 (natBe 8 (s.reg (Reg.hbmSyndrome x)).toNat) ∧ diagnosed s t x ∧ RegsOnly [Reg.hbmStatus x] s t ∧ Only [.regs, .counters, .fcp, .hbm, .free] s t)
  ∧ (∀ (x : Nat) (s : State), s.clocked = true → x < 512 → ∃ t, exec (.hbmFreezeTimeout x) s = .next t ∧ diagnosed s t x ∧ RegsOnly [Reg.hbmStatus x] s t ∧ Only [.regs, .hbm] s t)
  ∧ (∀ (x : Nat) (s : State), s.clocked = true → x < 512 → s.hbmState x = 3 → ∃ t, exec (.hbmRelease x) s = .next t ∧ t.hbmState x = 4 ∧ (t.ctl x).fails = 0 ∧ RegsOnly [Reg.hbmStatus x] s t ∧ Only [.regs, .hbm] s t)
  ∧ (∀ (x us : Nat) (ok : Bool) (s : State), s.hbmState x ≠ 4 → exec (.hbmRetrainDone x ok us) s = .next s)
  ∧ (∀ (x us : Nat) (s : State), s.clocked = true → x < 512 → s.hbmState x = 4 → ∃ t, exec (.hbmRetrainDone x true us) s = .next t ∧ t.hbmState x = 1 ∧ (t.ctl x).lost = 0 ∧ Counted s t .hbmctlRetrain x 1
    ∧ Recorded s t 0x0702 (natBe 2 x ++ natBe 2 us ++ natBe 1 (s.ctl x).lost) ∧ Only [.regs, .mem, .counters, .events, .fcp, .obs, .traffic, .hbm] s t)
  ∧ (∀ (x us : Nat) (s : State), s.clocked = true → x < 512 → s.hbmState x = 4 → ∃ t, exec (.hbmRetrainDone x false us) s = .next t ∧ (t.ctl x).fails = (s.ctl x).fails + 1 ∧ t.hbmState x = (if 2 ≤ (s.ctl x).fails then 5 else 4)
    ∧ (2 ≤ (s.ctl x).fails → Recorded s t 0x0703 (natBe 2 x ++ [1])) ∧ RegsOnly [Reg.hbmStatus x] s t)

/-- R296 to R304. A decision's state after refilling is `ready`. -/
def Obligations.QueuesAreServedAndShaped : Prop :=
  let ready (s : State) (n : Nat) : State := (s.refillNode n).cleanNode n
  let frames (l : List Rec) : Nat := (l.map (fun x => x.d.bytes.length)).sum
  let leaving (n q : Nat) (l : List Rec) : List (Nat × Rec) := l.map (fun x => (q, { x with d := { x.d with node := n, win := x.d.bytes.length } }))
  let chosen (r : State) (n g q : Nat) (com : Bool) (qd : List (Nat × Int)) : Prop := r.nodeOk n = true ∧ (pick (r.gChildren n) (r.ptrOf n)).map (fun x => x.2.1) = some g ∧ pick (r.qChildren n g) (r.ptrOf (512 + g)) = some (com, q, qd)
  let taken (r t : State) (n : Nat) : Nat := (t.departingOf n).length - (r.departingOf n).length
  let batch (r t : State) (n q : Nat) : List Rec := (r.queue q).recs.take (taken r t n)
  let charged (r t : State) (n q : Nat) : Nat := ((batch r t n q).map (fun x => r.chargedLen n x.d.bytes.length)).sum
  let hi (s : State) (i : Nat) : Nat := (s.reg (Reg.trafficShaperProfileHi i)).toNat
  let lo (s : State) (i : Nat) : Nat := (s.reg (Reg.trafficShaperProfileLo i)).toNat
  let inRange (v : Nat) : Prop := 64 ≤ v ∧ v ≤ 1600000000
  let legal (h l : Word) : Prop := inRange (bits h.toNat 31 0) ∧ (bits h.toNat 63 32 = 0 ∨ inRange (bits h.toNat 63 32)) ∧ bits h.toNat 63 32 ≤ bits h.toNat 31 0
    ∧ 2048 ≤ bits l.toNat 63 41 ∧ bits l.toNat 63 41 ≤ 4194304 ∧ 2048 ≤ bits l.toNat 40 18 ∧ bits l.toNat 40 18 ≤ 4194304
  let idle (s : State) : Prop := s.clocked = true ∧ s.flag Reg.trafficShaperSweep Fld.trafficShaperSweep_busy = false
  let elapsed (s : State) (x : Shaper) : Nat := (s.shaperNow + 2 ^ 20 - x.last) % 2 ^ 20
  (∀ (cs : List Child) (ptr i : Nat) (com : Bool) (ds : List (Nat × Int)), (∀ c ∈ cs, c.rank < 4) → pick cs ptr = some (com, i, ds) → ∃ c ∈ cs, c.id = i ∧ c.elig = true ∧ (com = true → c.com = true) ∧ (com = false → c.lim = false ∧ ∀ d ∈ cs, d.ok true = false)
    ∧ (∀ d ∈ cs, d.weight = 0 → d.ok com = true → c.weight = 0 ∧ c.rank ≤ d.rank) ∧ (c.weight ≠ 0 → ∃ e ∈ ds, e.1 = i ∧ 0 < e.2))
  ∧ (∀ (cs : List Child) (ptr : Nat), (∀ c ∈ cs, c.rank < 4) → (pick cs ptr = none ↔ ∀ c ∈ cs, c.ok true = false ∧ c.ok false = false))
  ∧ (∀ (n : Nat) (s : State), s.clocked = true → (ready s n).nodeOk n = false → exec (.schedDecision n) s = .next (ready s n))
  ∧ (∀ (n : Nat) (s : State), s.clocked = true → pick ((ready s n).gChildren n) ((ready s n).ptrOf n) = none → ∃ t, exec (.schedDecision n) s = .next t ∧ t.traffic = (ready s n).traffic)
  ∧ (∀ (n g q : Nat) (com : Bool) (qd : List (Nat × Int)) (s : State), s.clocked = true → chosen (ready s n) n g q com qd → ∃ t, exec (.schedDecision n) s = .next t ∧ taken (ready s n) t n ≤ 4
    ∧ (t.queue q).recs = (ready s n |>.queue q).recs.drop (taken (ready s n) t n) ∧ t.departingOf n = (ready s n).departingOf n ++ leaving n q (batch (ready s n) t n q) ∧ t.window n = (ready s n).window n + frames (batch (ready s n) t n q)
    ∧ (1 < taken (ready s n) t n → frames (batch (ready s n) t n q) ≤ 2048) ∧ (∀ x, (ready s n |>.queue q).recs.head? = some x → (ready s n).unreadable ((ready s n).recReads x) = false → 1 ≤ taken (ready s n) t n))
  ∧ (∀ (n g q : Nat) (com : Bool) (qd : List (Nat × Int)) (s : State), s.clocked = true → n < 512 → chosen (ready s n) n g q com qd → ((ready s n).shaper 2 n).profile ≠ 0 →
    (profOf ((ready s n).profileWords ((ready s n).shaper 2 n).profile).1 ((ready s n).profileWords ((ready s n).shaper 2 n).profile).2).clamp = 0 → ∃ t, exec (.schedDecision n) s = .next t
    ∧ (((ready s n).shaper 2 n).cb - 4096 * charged (ready s n) t n q ≥ -34359738368 → (t.shaper 2 n).cb = ((ready s n).shaper 2 n).cb - 4096 * charged (ready s n) t n q)
    ∧ (((ready s n).shaper 2 n).cb - 4096 * charged (ready s n) t n q < -34359738368 → (t.shaper 2 n).cb = -34359738368))
  ∧ (∀ (n g q : Nat) (v : Int) (com : Bool) (qd : List (Nat × Int)) (s : State), s.clocked = true → n < 512 → chosen (ready s n) n g q com qd → (q, v) ∈ qd → ∃ t, exec (.schedDecision n) s = .next t
    ∧ (t.queue q).deficit = (if (t.queue q).recs = [] ∧ 0 < v - charged (ready s n) t n q then 0 else v - charged (ready s n) t n q)
    ∧ t.ptrOf (512 + g) = (if (t.queue q).recs = [] ∨ v - charged (ready s n) t n q ≤ 0 then q + 1 else q))
  ∧ (∀ (k i : Nat) (s : State), s.clocked = true → (s.shaper k i).profile ≠ 0 → s.traffic.sweep = none → elapsed s (s.shaper k i) ≠ 0 → ∃ t, exec (.shaperRefresh k i) s = .next t ∧ (t.shaper k i).last = s.shaperNow
    ∧ (t.shaper k i).cb = min ((s.shaper k i).cb + (bits (hi s (s.shaper k i).profile) 63 32 * elapsed s (s.shaper k i) * 524288 / 1000000 : Nat)) (4096 * bits (lo s (s.shaper k i).profile) 63 41 : Nat)
    ∧ (t.shaper k i).pb = min ((s.shaper k i).pb + (bits (hi s (s.shaper k i).profile) 31 0 * elapsed s (s.shaper k i) * 524288 / 1000000 : Nat)) (4096 * bits (lo s (s.shaper k i).profile) 40 18 : Nat)
    ∧ (t.shaper k i).profile = (s.shaper k i).profile ∧ (∀ j, j ≠ i → t.shaper k j = s.shaper k j) ∧ t.traffic.queues = s.traffic.queues ∧ Only [.traffic] s t)
  ∧ (∀ (i : Nat) (h l : Word) (s : State), idle s → 0 < i → i < 4096 → legal h l → ∃ t, exec (.shaperProfileWrite i h l) s = .next t ∧ t.reg (Reg.trafficShaperProfileHi i) = h ∧ lo t i = l.toNat / 32 * 32
    ∧ t.flag Reg.trafficShaperSweep Fld.trafficShaperSweep_busy = true ∧ t.profileWords i = (hi s i, lo s i) ∧ t.traffic.shapers = s.traffic.shapers ∧ RegsOnly [Reg.trafficShaperProfileHi i, Reg.trafficShaperProfileLo i, Reg.trafficShaperSweep] s t ∧ Only [.regs, .traffic] s t)
  ∧ (∀ (i : Nat) (h l : Word) (s : State), i = 0 ∨ s.flag Reg.trafficShaperSweep Fld.trafficShaperSweep_busy = true ∨ bits h.toNat 31 0 < bits h.toNat 63 32 ∨ 4194304 < bits l.toNat 63 41 → exec (.shaperProfileWrite i h l) s = .next s)
  ∧ (∀ (k i p : Nat) (s : State), idle s → k < 3 → i < (if k = 0 then 16384 else if k = 1 then 65536 else 512) → p < 4096 → ∃ t, exec (.shaperAssignStart k i p) s = .next t ∧ t.traffic.sweep = some (.assign k i p) ∧ t.shaper k i = s.shaper k i
    ∧ t.flag Reg.trafficShaperSweep Fld.trafficShaperSweep_busy = true ∧ t.fld Reg.trafficShaperAssign Fld.trafficShaperAssign_index = i ∧ t.fld Reg.trafficShaperAssign Fld.trafficShaperAssign_profile = p
    ∧ RegsOnly [Reg.trafficShaperAssign, Reg.trafficShaperSweep] s t ∧ Only [.regs, .traffic] s t)
  ∧ (∀ (k i p : Nat) (s : State), s.flag Reg.trafficShaperSweep Fld.trafficShaperSweep_busy = true → exec (.shaperAssignStart k i p) s = .next s)
  ∧ (∀ (k i p : Nat) (h l : Word) (s : State), s.clocked = true → s.canonical → p ≠ 0 → i < 2 ^ 20 → s.traffic.sweep = some (.profile p h l) → (s.shaper k i).profile = p → ∃ t, exec .shaperSweepDone s = .next t ∧ t.traffic.sweep = none
    ∧ t.shaper k i = (s.shaper k i).refill (profOf h.toNat l.toNat) s.shaperNow ∧ t.flag Reg.trafficShaperSweep Fld.trafficShaperSweep_busy = false ∧ RegsOnly [Reg.trafficShaperSweep] s t ∧ Only [.regs, .traffic] s t)
  ∧ (∀ (k i p : Nat) (s : State), s.clocked = true → s.traffic.sweep = some (.assign k i p) → ∃ t, exec .shaperSweepDone s = .next t ∧ t.traffic.sweep = none ∧ (t.shaper k i).profile = p ∧ (t.shaper k i).deficit = (s.shaper k i).deficit
    ∧ (t.shaper k i).cb = ((s.shaper k i).refill (profOf (hi s (s.shaper k i).profile) (lo s (s.shaper k i).profile)) s.shaperNow).cb ∧ t.flag Reg.trafficShaperSweep Fld.trafficShaperSweep_busy = false ∧ Only [.regs, .traffic] s t)

/-- R305 to R313. The order in which R308's cases are tried is the model's choice (log 26). -/
def Obligations.GatesReplicationAndStuckQueues : Prop :=
  let active (s : State) (p : Nat) : Nat := s.fld (Reg.hatbandCfg p) Fld.hatbandCfg_activeBank
  let pendingTake (s : State) (p : Nat) : Bool := s.flag (Reg.hatbandCfg p) Fld.hatbandCfg_pending
  let other (s : State) (p : Nat) : Nat := 1 - active s p
  let listBad (s : State) (p : Nat) : Prop := s.fld (Reg.hatbandList p (other s p)) Fld.hatbandList_len = 0 ∨ 1024 < s.fld (Reg.hatbandList p (other s p)) Fld.hatbandList_len ∨ ∃ e ∈ s.bankEntries p (other s p), e.2 = 0
  let cycleBad (s : State) (p : Nat) : Prop := s.bankCycle p (other s p) < 1000 ∨ 1000000000 < s.bankCycle p (other s p)
  let asked (s : State) (p : Nat) : Nat := 1000000000 * s.fld (Reg.hatbandTakeover p) Fld.hatbandTakeover_seconds + s.fld (Reg.hatbandTakeoverNs p) Fld.hatbandTakeoverNs_nanoseconds
  let late (s : State) (p : Nat) : Prop := s.takeInstant p (other s p) (asked s p) < s.tod + 1000
  let takeAt (s : State) (p : Nat) : Nat := mget (fun _ => 0) s.traffic.takeAt p
  let enabled (s : State) (p : Nat) : Bool := s.flag (Reg.hatbandCfg p) Fld.hatbandCfg_enable
  let spent (l : List (Nat × Nat)) : Nat := (l.map (fun e => e.2)).sum
  let refusal (s : State) (p c : Nat) : Prop := (c = 1 ∧ listBad s p) ∨ (c = 2 ∧ ¬ listBad s p ∧ cycleBad s p) ∨ (c = 3 ∧ ¬ listBad s p ∧ ¬ cycleBad s p ∧ late s p)
    ∨ (c = 4 ∧ ¬ listBad s p ∧ ¬ cycleBad s p ∧ ¬ late s p ∧ enabled s p = false) ∨ (c = 5 ∧ ¬ listBad s p ∧ ¬ cycleBad s p ∧ ¬ late s p ∧ enabled s p = true ∧ pendingTake s p = true)
  let walks (s : State) (c : Nat) : Prop := s.clocked = true ∧ (s.repl c).walking = true
  let lastPort (s : State) (c : Nat) : Prop := walks s c ∧ (s.repl c).onPorts = true ∧ (s.repl c).seen < 4096 ∧ (s.repl c).next ≠ 0 ∧ bit (s.replElem (s.repl c).next) 63 = true ∧ bit (s.replElem (s.repl c).next) 62 = false ∧ bits (s.replElem (s.repl c).next) 21 2 = 0
  let port (s : State) (c : Nat) : Nat := bits (s.replElem (s.repl c).next) 55 49
  let pruned (s : State) (c : Nat) : Prop := bit (s.replElem (s.repl c).next) 61 = true ∧ (s.repl c).d.slice < 12 ∧ port s c = (s.repl c).d.port
  let copy (s : State) (c : Nat) : Desc := { (s.repl c).d with replica := true, stream := 0, stamp := { (s.repl c).d.stamp with dkind := 0, dest := 128 * s.self + port s c, encap := if bits (s.replElem (s.repl c).next) 48 30 = 0 then (s.repl c).d.stamp.encap else bits (s.replElem (s.repl c).next) 48 30, gen := if bits (s.replElem (s.repl c).next) 48 30 = 0 then (s.repl c).d.stamp.gen else bits (s.replElem (s.repl c).next) 29 22 } }
  let stuck (s : State) (q : Nat) : Prop := s.clocked = true ∧ (s.queue q).recs ≠ [] ∧ (s.queue q).wait = none ∧ s.fld Reg.trafficStuckCfg Fld.trafficStuckCfg_stuckTimeout ≤ (s.todMs + 1024 - (s.queue q).headMs) % 1024
  (∀ (p c u g v : Nat) (l m : List (Nat × Nat)) (s : State), enabled s p = true → pendingTake s p = false → s.bankBase p (active s p) ≤ u → s.bankCycle p (active s p) ≠ 0 → s.bankEntries p (active s p) = l ++ (g, v) :: m →
    spent l ≤ (u - s.bankBase p (active s p)) % s.bankCycle p (active s p) → m = [] ∨ (u - s.bankBase p (active s p)) % s.bankCycle p (active s p) < spent l + v → s.gateOpen p c u = bit g c)
  ∧ (∀ (p c u : Nat) (s : State), enabled s p = false ∨ (pendingTake s p = false ∧ u < s.bankBase p (active s p)) → s.gateOpen p c u = true)
  ∧ (∀ (p : Nat) (s : State), s.gated p = false → exec (.gateIntervalEnd p) s = .next s)
  ∧ (∀ (p : Nat) (s : State), s.clocked = true → s.gated p = true → (s.port p).txQ = [] → ∃ t, exec (.gateIntervalEnd p) s = .next t ∧ t.fld (Reg.hatbandStatus p) Fld.hatbandStatus_entry = (s.bankEntry p (s.bankAt p s.tod) s.tod).getD 0 % 2 ^ 10
    ∧ RegsOnly [Reg.hatbandStatus p] s t ∧ Only [.regs] s t)
  ∧ (∀ (p : Nat) (f : TxPkt) (rest : List TxPkt) (s : State), s.clocked = true → p < 96 → s.gated p = true → (s.port p).txQ = f :: rest → s.gateOpen p f.tc s.tod = false → s.gateOpen p f.tc (s.tod - 1) = true →
    ∃ t, exec (.gateIntervalEnd p) s = .next t ∧ Counted s t .trafficGateOverrun 0 1 ∧ (s.noWindow 0x0614 p → Recorded s t 0x0614 (natBe 1 p ++ natBe 1 f.tc)) ∧ t.line = s.line ∧ Only [.regs, .counters, .events, .fcp, .obs] s t)
  ∧ (∀ (p c : Nat) (s : State), s.clocked = true → p < 96 → refusal s p c → ∃ t, exec (.hatbandCommit p) s = .next t ∧ t.fld (Reg.hatbandStatus p) Fld.hatbandStatus_refused = c ∧ Recorded s t 0x0613 (natBe 1 p ++ natBe 1 c)
    ∧ pendingTake t p = pendingTake s p ∧ t.traffic = s.traffic ∧ Only [.regs, .counters, .events, .fcp, .obs, .traffic] s t)
  ∧ (∀ (p : Nat) (s : State), s.clocked = true → ¬ listBad s p → ¬ cycleBad s p → ¬ late s p → enabled s p = true → pendingTake s p = false → ∃ t, exec (.hatbandCommit p) s = .next t ∧ pendingTake t p = true ∧ active t p = active s p
    ∧ asked s p ≤ takeAt t p ∧ s.bankBase p (other s p) ≤ takeAt t p ∧ (takeAt t p - s.bankBase p (other s p)) % s.bankCycle p (other s p) = 0 ∧ (takeAt t p = s.bankBase p (other s p) ∨ takeAt t p < asked s p + s.bankCycle p (other s p))
    ∧ RegsOnly [Reg.hatbandCfg p] s t ∧ Only [.regs, .traffic] s t)
  ∧ (∀ (p : Nat) (s : State), s.clocked = true → pendingTake s p = true → s.tod + 1000 < takeAt s p → ∃ t, exec (.hatbandCancel p) s = .next t ∧ pendingTake t p = false ∧ active t p = active s p ∧ RegsOnly [Reg.hatbandCfg p] s t ∧ Only [.regs] s t)
  ∧ (∀ (p : Nat) (s : State), pendingTake s p = false ∨ takeAt s p ≤ s.tod + 1000 → exec (.hatbandCancel p) s = .next s)
  ∧ (∀ (p : Nat) (s : State), s.clocked = true → p < 96 → pendingTake s p = true → ∃ t, exec (.hatbandTakeover p) s = .next t ∧ active t p = other s p ∧ pendingTake t p = false ∧ Recorded s t 0x0612 (natBe 1 p ++ natBe 1 (other s p)) ∧ t.traffic = s.traffic
    ∧ Only [.regs, .counters, .events, .fcp, .obs] s t)
  ∧ (∀ (p : Nat) (s : State), pendingTake s p = false → exec (.hatbandTakeover p) s = .next s)
  ∧ (∀ (c : Nat) (s : State), (s.repl c).walking = false → exec (.replWalk c) s = .next s ∧ exec (.replWalkTimeout c) s = .next s)
  ∧ (∀ (c : Nat) (s : State), lastPort s c → pruned s c → ∃ t, exec (.replWalk c) s = .next t ∧ Counted s t .trafficReplPruned 0 1 ∧ (t.repl c).walking = false ∧ t.traffic.queues = s.traffic.queues ∧ Only [.regs, .mem, .counters, .events, .fcp, .obs, .lookup, .traffic] s t)
  ∧ (∀ (c q : Nat) (k : Ctr) (s : State), lastPort s c → ¬ pruned s c → s.target (copy s c) = .queue q → s.admitCheck (copy s c) q (s.repl c).size true true = some k → ∃ t, exec (.replWalk c) s = .next t ∧ Counted s t k 0 1 ∧ (t.repl c).walking = false
    ∧ (t.queue q).recs = (s.queue q).recs ∧ Only [.regs, .mem, .counters, .events, .fcp, .obs, .lookup, .traffic] s t)
  ∧ (∀ (c q : Nat) (u : State) (l : List Nat) (b : Nat × Nat) (o : Option (Nat × Nat)) (s : State), lastPort s c → ¬ pruned s c → s.target (copy s c) = .queue q → s.admitCheck (copy s c) q (s.repl c).size true true = none →
    s.reserve q (s.repl c).req (s.poolOf (s.qProfile q)) 32 = (u, some (l, b, o)) → ∃ t, exec (.replWalk c) s = .next t ∧ (t.queue q).recs = (s.queue q).recs ++ [{ d := copy s c, size := (s.repl c).size, ctx := some c, bufs := l, start := b }]
    ∧ (t.queue q).open_ = o ∧ (t.repl c).remaining = (s.repl c).remaining + 1 ∧ (t.repl c).walking = false ∧ Counted s t .trafficReplReplicas 0 1 ∧ Only [.regs, .mem, .counters, .events, .fcp, .obs, .lookup, .traffic] s t)
  ∧ (∀ (c : Nat) (s : State), walks s c → (s.repl c).next ≠ 0 → bit (s.replElem (s.repl c).next) 63 = true → 4096 ≤ (s.repl c).seen → ∃ t, exec (.replWalk c) s = .next t ∧ Counted s t .trafficReplListLong 0 1 ∧ (t.repl c).walking = false
    ∧ (s.noWindow 0x0615 (s.repl c).d.stamp.dest → Recorded s t 0x0615 (natBe 2 (s.repl c).d.stamp.dest ++ natBe 1 1)) ∧ Only [.regs, .mem, .counters, .events, .fcp, .obs, .lookup, .traffic] s t)
  ∧ (∀ (c : Nat) (s : State), walks s c → (s.repl c).remaining ≠ 0 → ∃ t, exec (.replWalkTimeout c) s = .next t ∧ t.repl c = { s.repl c with walking := false } ∧ Counted s t .trafficReplWalkTimeout 0 1 ∧ t.traffic.queues = s.traffic.queues
    ∧ (s.noWindow 0x0615 (s.repl c).d.stamp.dest → Recorded s t 0x0615 (natBe 2 (s.repl c).d.stamp.dest ++ natBe 1 2)) ∧ Only [.regs, .mem, .counters, .events, .fcp, .obs, .lookup, .traffic] s t)
  ∧ (∀ (q : Nat) (s : State), (s.queue q).recs = [] ∨ (s.todMs + 1024 - (s.queue q).headMs) % 1024 < s.fld Reg.trafficStuckCfg Fld.trafficStuckCfg_stuckTimeout → exec (.stuckQueueVisit q) s = .next s)
  ∧ (∀ (q : Nat) (s : State), stuck s q → s.traffic.flush.length < 4096 → ∃ t, exec (.stuckQueueVisit q) s = .next t ∧ (t.queue q).recs = [] ∧ t.traffic.flush.length = s.traffic.flush.length + 1 ∧ Counted s t .trafficQueueStuckFlush 0 (s.queue q).recs.length
    ∧ Recorded s t 0x0610 (natBe 3 q ++ natBe 4 (s.queue q).recs.length) ∧ Only [.regs, .counters, .events, .fcp, .obs, .traffic] s t)
  ∧ (∀ (q : Nat) (s : State), stuck s q → 4096 ≤ s.traffic.flush.length → ∃ t, exec (.stuckQueueVisit q) s = .next t ∧ (t.queue q).recs = (s.queue q).recs ∧ (t.queue q).wait ≠ none ∧ t.traffic.flushWait = s.traffic.flushWait ++ [q] ∧ Only [.regs, .counters, .events, .fcp, .obs, .traffic] s t)

/-- R317 to R328. -/
def Obligations.LanesAlignAndCellsAreReassembled : Prop :=
  let st (l : Nat) : Nat := Reg.fabricLaneStatus l
  let inGroup (s : State) (l g n : Nat) : Prop := s.clocked = true ∧ l < 120 ∧ s.laneGroup l = some g ∧ s.laneState l = n
  let tested (s : State) (l g n : Nat) : Prop := inGroup s l g n ∧ s.pins.linkIdle = false
  let good (s : State) (l : Nat) (o : Overhead) : Prop := o.alignOk = true ∧ o.crcOk = true ∧ o.fecOk = true ∧ o.frameCnt = ((s.fabLane l).cnt + 1) % 65536
  let run (s : State) (l : Nat) (f : Field) : Nat := s.fld (st l) f + 1
  let aligned (s : State) (g : Nat) : List Nat := (s.groupLanes g).filter (fun j => s.laneState j == 2)
  let took (t : State) (l : Nat) (o : Overhead) : Prop := (t.fabLane l).cnt = o.frameCnt ∧ (t.fabLane l).partnerReady = o.ready ∧ (t.fabLane l).partnerAligned = o.laneAligned ∧ (t.fabLane l).buffer = o.buffer ∧ (t.fabLane l).ident = o.ident
  let key (c : Cell) : Nat := streamKey c.srcDev c.type c.destPort c.tc
  let ctx (s : State) (c : Cell) : Reasm := s.reasm (key c)
  let on (s : State) (l g : Nat) (c : Cell) : Prop := s.clocked = true ∧ s.laneGroup l = some g ∧ s.laneState l = 2 ∧ (s.fabLane l).held = 0 ∧ c.type ≠ 0
  let data (s : State) (l g : Nat) (c : Cell) : Prop := on s l g c ∧ c.crcOk = true ∧ c.type ≤ 2 ∧ c.srcDev < 4096
  let one (c : Cell) (f : FabDesc) (b : Bytes) : Prop := c.rstart = 0 ∧ c.payload = [.desc f 0 32, .data b] ∧ f.len = b.length + 4
  let ahead (s : State) (c : Cell) : Nat := (c.seq + 65536 - (ctx s c).expected) % 65536
  (∀ (l : Nat) (o : Overhead) (s : State), s.laneGroup l = none → exec (.fabricLaneSignalLoss l) s = .next s ∧ exec (.malythFrameRx l o) s = .next s)
  ∧ (∀ (l g : Nat) (s : State), inGroup s l g 2 → ∃ t, exec (.fabricLaneSignalLoss l) s = .next t ∧ t.laneState l = 0 ∧ t.laneActive l = false ∧ Counted s t .fabricLinkAlignLost g 1 ∧ Recorded s t 0x0802 (natBe 1 l) ∧ Only [.regs, .counters, .events, .fcp, .obs, .fabric] s t)
  ∧ (∀ (l g : Nat) (s : State), inGroup s l g 1 → ∃ t, exec (.fabricLaneSignalLoss l) s = .next t ∧ t.laneState l = 0 ∧ t.fld (st l) Fld.fabricLaneStatus_goodRun = 0 ∧ RegsOnly [st l] s t ∧ Only [.regs, .fabric] s t)
  ∧ (∀ (l : Nat) (o : Overhead) (s : State), s.pins.linkIdle = true → exec (.malythFrameRx l o) s = .next s)
  ∧ (∀ (l g : Nat) (o : Overhead) (s : State), tested s l g 0 → o.alignOk = false ∨ o.crcOk = false → exec (.malythFrameRx l o) s = .next s)
  ∧ (∀ (l g : Nat) (o : Overhead) (s : State), tested s l g 0 → o.alignOk = true → o.crcOk = true → ∃ t, exec (.malythFrameRx l o) s = .next t ∧ t.laneState l = 1 ∧ t.fld (st l) Fld.fabricLaneStatus_goodRun = 1 ∧ (t.fabLane l).cnt = o.frameCnt
    ∧ RegsOnly [st l] s t ∧ Only [.regs, .fabric] s t)
  ∧ (∀ (l g : Nat) (o : Overhead) (s : State), tested s l g 1 → ¬ good s l o → ∃ t, exec (.malythFrameRx l o) s = .next t ∧ t.laneState l = 0 ∧ Counted s t .fabricLinkFrameErr g 1 ∧ RegsOnly [st l] s t ∧ Only [.regs, .counters, .fabric] s t)
  ∧ (∀ (l g : Nat) (o : Overhead) (s : State), tested s l g 1 → good s l o → run s l Fld.fabricLaneStatus_goodRun < s.fld (Reg.fabricGroupCfg g) Fld.fabricGroupCfg_confirmN → ∃ t, exec (.malythFrameRx l o) s = .next t ∧ t.laneState l = 1
    ∧ t.fld (st l) Fld.fabricLaneStatus_goodRun = run s l Fld.fabricLaneStatus_goodRun ∧ (t.fabLane l).cnt = o.frameCnt ∧ RegsOnly [st l] s t ∧ Only [.regs, .fabric] s t)
  ∧ (∀ (l g : Nat) (o : Overhead) (s : State), tested s l g 1 → good s l o → s.fld (Reg.fabricGroupCfg g) Fld.fabricGroupCfg_confirmN ≤ run s l Fld.fabricLaneStatus_goodRun → ∃ t, exec (.malythFrameRx l o) s = .next t ∧ t.laneState l = 2
    ∧ (t.fabLane l).sel = Nat.min (s.fld (Reg.fabricGroupCfg g) Fld.fabricGroupCfg_versionMax) o.versionMax ∧ took t l o ∧ Recorded s t 0x0801 (natBe 1 l) ∧ Only [.regs, .counters, .boot, .events, .fcp, .obs, .fabric] s t)
  ∧ (∀ (l g : Nat) (o : Overhead) (s : State), tested s l g 2 → good s l o → ∃ t, exec (.malythFrameRx l o) s = .next t ∧ t.laneState l = 2 ∧ t.fld (st l) Fld.fabricLaneStatus_errRun = 0 ∧ took t l o ∧ t.fld (st l) Fld.fabricLaneStatus_partnerMax = o.versionMax % 16
    ∧ (t.groupReady g = true ↔ (∃ j ∈ t.groupLanes g, t.laneActive j = true) ∧ (∃ j ∈ aligned t g, (t.fabLane j).partnerReady = true)) ∧ Only [.regs, .counters, .boot, .events, .fcp, .obs, .fabric] s t)
  ∧ (∀ (l g : Nat) (o : Overhead) (s : State), tested s l g 2 → ¬ good s l o → run s l Fld.fabricLaneStatus_errRun < s.fld (Reg.fabricGroupCfg g) Fld.fabricGroupCfg_loseM → ∃ t, exec (.malythFrameRx l o) s = .next t ∧ t.laneState l = 2
    ∧ t.fld (st l) Fld.fabricLaneStatus_errRun = run s l Fld.fabricLaneStatus_errRun ∧ Counted s t .fabricLinkFrameErr g 1 ∧ RegsOnly [st l] s t ∧ Only [.regs, .counters, .fabric] s t)
  ∧ (∀ (l g : Nat) (o : Overhead) (s : State), tested s l g 2 → ¬ good s l o → s.fld (Reg.fabricGroupCfg g) Fld.fabricGroupCfg_loseM ≤ run s l Fld.fabricLaneStatus_errRun → ∃ t, exec (.malythFrameRx l o) s = .next t ∧ t.laneState l = 0
    ∧ Counted s t .fabricLinkFrameErr g 1 ∧ Counted s t .fabricLinkAlignLost g 1 ∧ Recorded s t 0x0802 (natBe 1 l) ∧ Only [.regs, .counters, .boot, .events, .fcp, .obs, .fabric] s t)
  ∧ (∀ (l : Nat) (c : Cell) (b : Bool) (s : State), s.laneGroup l = none ∨ s.laneState l ≠ 2 ∨ (s.fabLane l).held ≠ 0 ∨ c.type = 0 → exec (.cellRx l c b) s = .next s)
  ∧ (∀ (l g : Nat) (c : Cell) (s : State), on s l g c → exec (.cellRx l c true) s = .next (s.count .fabricLinkRxCdcOverrun g))
  ∧ (∀ (l g : Nat) (c : Cell) (s : State), on s l g c → c.crcOk = false → exec (.cellRx l c false) s = .next (s.count .fabricLinkCellCrc g))
  ∧ (∀ (l g : Nat) (c : Cell) (s : State), on s l g c → c.crcOk = true → 7 ≤ c.type → exec (.cellRx l c false) s = .next (s.count .fabricLinkCellBad g))
  ∧ (∀ (l g : Nat) (c : Cell) (s : State), on s l g c → c.crcOk = true → 3 ≤ c.type → c.type < 7 → ∃ t, exec (.cellRx l c false) s = .next t ∧ t.flag (Reg.fabricDeviceStatus c.srcDev) Fld.fabricDeviceStatus_heard = true
    ∧ t.flag (Reg.fabricDeviceStatus c.srcDev) Fld.fabricDeviceStatus_v2 = (c.v2 || s.flag (Reg.fabricDeviceStatus c.srcDev) Fld.fabricDeviceStatus_v2) ∧ RegsOnly [Reg.fabricDeviceStatus c.srcDev] s t ∧ Only [.regs] s t)
  ∧ (∀ (l g : Nat) (c : Cell) (f : FabDesc) (b : Bytes) (s : State), data s l g c → one c f b → ctx s c = Reasm.none → s.fabric.ctxs.length < 65536 → ∃ t, exec (.cellRx l c false) s = .next t ∧ (ctx t c).expected = (c.seq + 1) % 65536 ∧ (ctx t c).cur = none
    ∧ t.fabric.inQ = s.fabric.inQ ++ [s.fabDesc f b c.badTail] ∧ t.owed c.destPort c.tc = s.owed c.destPort c.tc - (if c.type = 1 then 32 + b.length else 0 : Nat) ∧ Only [.regs, .counters, .events, .fcp, .obs, .fabric] s t)
  ∧ (∀ (l g : Nat) (c : Cell) (f : FabDesc) (b : Bytes) (s : State), data s l g c → one c f b → ctx s c = { expected := c.seq, held := [], cur := none, skip := false } → ∃ t, exec (.cellRx l c false) s = .next t ∧ (ctx t c).expected = (c.seq + 1) % 65536
    ∧ t.fabric.inQ = s.fabric.inQ ++ [s.fabDesc f b c.badTail] ∧ t.fabric.store = s.fabric.store ∧ Only [.regs, .counters, .events, .fcp, .obs, .fabric] s t)
  ∧ (∀ (l g : Nat) (c : Cell) (s : State), data s l g c → ctx s c = Reasm.none → 65536 ≤ s.fabric.ctxs.length → ∃ t, exec (.cellRx l c false) s = .next t ∧ t.fabric = s.fabric ∧ Counted s t .fabricReasmCtxFull 0 1 ∧ (s.noWindow 0x080D 0 → Recorded s t 0x080D []) ∧ Only [.regs, .counters, .events, .fcp, .obs, .fabric] s t)
  ∧ (∀ (l g : Nat) (c : Cell) (s : State), data s l g c → ctx s c ≠ Reasm.none → c.seq ≠ (ctx s c).expected → 32768 ≤ ahead s c ∨ (∃ h ∈ (ctx s c).held, h.1 = c.seq) → ∃ t, exec (.cellRx l c false) s = .next t ∧ t.fabric = s.fabric
    ∧ Counted s t .fabricReasmLate 0 1 ∧ RegsOnly [Reg.fabricDeviceStatus c.srcDev] s t ∧ Only [.regs, .counters] s t)
  ∧ (∀ (l g : Nat) (c : Cell) (s : State), data s l g c → ctx s c ≠ Reasm.none → c.seq ≠ (ctx s c).expected → ahead s c < 32768 → (∀ h ∈ (ctx s c).held, h.1 ≠ c.seq) → s.fabric.store < 57344 → ∃ t, exec (.cellRx l c false) s = .next t
    ∧ (c.seq, c) ∈ (ctx t c).held ∧ (∀ h ∈ (ctx s c).held, h ∈ (ctx t c).held) ∧ t.fabric.store = s.fabric.store + 1 ∧ t.fabric.inQ = s.fabric.inQ ∧ RegsOnly [Reg.fabricDeviceStatus c.srcDev] s t ∧ Only [.regs, .fabric] s t)
  ∧ (∀ (d y p k : Nat) (s : State), (s.reasm (streamKey d y p k)).held = [] → exec (.reasmTimeout d y p k) s = .next s)
  ∧ (∀ (d y p k q : Nat) (c : Cell) (f : FabDesc) (b : Bytes) (s : State), s.clocked = true → (s.reasm (streamKey d y p k)).held = [(q, c)] → (s.reasm (streamKey d y p k)).cur = none → one c f b → ∃ t, exec (.reasmTimeout d y p k) s = .next t
    ∧ Counted s t .fabricReasmCellLost 0 ((q + 65536 - (s.reasm (streamKey d y p k)).expected) % 65536) ∧ (s.noWindow 0x080A d → Recorded s t 0x080A (natBe 2 d)) ∧ t.fabric.inQ = s.fabric.inQ ++ [s.fabDesc f b c.badTail]
    ∧ (t.reasm (streamKey d y p k)).held = [] ∧ (t.reasm (streamKey d y p k)).expected = (c.seq + 1) % 65536 ∧ t.fabric.store = s.fabric.store - 1 ∧ Only [.regs, .counters, .events, .fcp, .obs, .fabric] s t)
  ∧ (∀ (d y p k h : Nat) (f : FabDesc) (b : Bytes) (s : State), s.clocked = true → (s.reasm (streamKey d y p k)).held ≠ [] → (s.reasm (streamKey d y p k)).cur = some (f, h, b) → ∃ t, exec (.reasmTimeout d y p k) s = .next t
    ∧ (256 < f.len ∧ 256 ≤ b.length → t.fabric.inQ.take (s.fabric.inQ.length + 1) = s.fabric.inQ ++ [s.fabDesc f b true]) ∧ (f.len ≤ 256 ∨ b.length < 256 → Counted s t .fabricReasmRecDrop 0 1) ∧ Only [.regs, .counters, .events, .fcp, .obs, .fabric] s t)
  ∧ (∀ (d y p k : Nat) (s : State), s.clocked = true → (s.reasm (streamKey d y p k)).held = [] → (s.reasm (streamKey d y p k)).cur = none → ∃ t, exec (.reasmContextIdle d y p k) s = .next t ∧ t.reasm (streamKey d y p k) = Reasm.none
    ∧ (∀ j, j ≠ streamKey d y p k → t.reasm j = s.reasm j) ∧ Only [.fabric] s t)
  ∧ (∀ (d y p k : Nat) (s : State), (s.reasm (streamKey d y p k)).held ≠ [] ∨ (s.reasm (streamKey d y p k)).cur ≠ none → exec (.reasmContextIdle d y p k) s = .next s)

/-- R326 to R332. -/
def Obligations.CellsGoOutOnCredit : Prop :=
  let v1 (s : State) (d : Nat) : Bool := !s.flag (Reg.fabricDeviceStatus d) Fld.fabricDeviceStatus_v2
  let cap (s : State) (d : Nat) : Nat := if v1 s d = true then 114 else 242
  let outQ (s : State) (q d p : Nat) : Prop := s.clocked = true ∧ s.voqOf q = some (d, some p) ∧ s.qKind q = 1
  let sends (s : State) (q d p : Nat) : Prop := outQ s q d p ∧ s.fabric.quietDone = true ∧ s.qClosed q = false ∧ (s.segOf q).cur = none
  let single (s : State) (q d : Nat) (r : Rec) : Prop := (s.queue q).recs = [r] ∧ s.unreadable (s.recReads r) = false ∧ s.epochLive r.d.epoch = true ∧ r.d.stream = 0 ∧ 4 ≤ r.d.bytes.length ∧ r.d.bytes.length + 28 ≤ cap s d
  let quarters (r : Rec) : Nat := (r.d.bytes.length + 42 + 63) / 64
  let asks (r : CreditReq) : Nat × Nat × Nat × Nat × Nat := (r.srcDev, r.voq, r.port, r.wanted, r.surrendered)
  let due (s : State) (q : Nat) : Nat := ((s.queue q).recs.map (fun r => r.d.bytes.length + 28)).sum
  let request (s : State) (q p : Nat) : Nat × Nat × Nat × Nat × Nat := (s.self, q, p, min ((((due s q : Nat) : Int) - (s.queue q).credit).toNat / 256 + (if (((due s q : Nat) : Int) - (s.queue q).credit).toNat % 256 = 0 then 0 else 1)) 16777215, min (s.queue q).surrender 65535)
  let target (s : State) : Nat := 1024 * s.fld Reg.fabricCtrl Fld.fabricCtrl_target
  let quantum (s : State) : Nat := 4 * s.fld Reg.fabricCtrl Fld.fabricCtrl_quantum
  (∀ (q : Nat) (s : State), s.voqOf q = none ∨ s.fabric.quietDone = false → exec (.cellSend q) s = .next s)
  ∧ (∀ (q d p l : Nat) (r : Rec) (s : State), sends s q d p → single s q d r → 0 < (s.queue q).credit → s.pickLane (quarters r) (decide (2 < quarters r)) = some l → ∃ t, exec (.cellSend q) s = .next t ∧ (t.queue q).recs = [] ∧ (t.segOf q).seq = ((s.segOf q).seq + 1) % 65536
    ∧ t.fabric.sent.dropLast = s.fabric.sent ∧ t.fabric.sent.getLast?.map (fun x => (x.1, x.2.payload, x.2.seq, x.2.rstart)) = some (l, fabPieces r.d (v1 s d), (s.segOf q).seq, 0)
    ∧ t.fabric.sent.getLast?.map (fun x => (x.2.type, x.2.destDev, x.2.destPort, x.2.srcDev, x.2.quarters, x.2.badTail)) = some (1, d, p, s.self, quarters r, r.d.bad)
    ∧ (t.queue q).credit + 256 * ((t.queue q).surrender : Int) = (s.queue q).credit + 256 * ((s.queue q).surrender : Int) - (r.d.bytes.length + 28 : Nat) ∧ (t.queue q).credit ≤ max ((256 * quantum s : Nat) : Int) ((s.queue q).credit - ((r.d.bytes.length + 28 : Nat) : Int))
    ∧ (t.fabLane l).sent = (s.fabLane l).sent + quarters r ∧ t.fabric.rot = (l + 1) % 120 ∧ Only [.regs, .mem, .counters, .events, .fcp, .obs, .lookup, .traffic, .fabric] s t)
  ∧ (∀ (q d p : Nat) (r : Rec) (s : State), sends s q d p → single s q d r → 0 < (s.queue q).credit → s.pickLane (quarters r) (decide (2 < quarters r)) = none → exec (.cellSend q) s = .next s)
  ∧ (∀ (q d p : Nat) (r : Rec) (s : State), sends s q d p → (s.queue q).recs.head? = some r → s.unreadable (s.recReads r) = false → (s.queue q).credit ≤ 0 → ∃ t, exec (.cellSend q) s = .next t ∧ t.queue q = s.queue q ∧ t.fabric.sent = s.fabric.sent)
  ∧ (∀ (q d p : Nat) (s : State), outQ s q d p → s.maySend = true → ∃ t, exec (.creditRequestSend q) s = .next t ∧ t.fabric.sentReq.map asks = s.fabric.sentReq.map asks ++ [request s q p] ∧ (t.queue q).surrender = (s.queue q).surrender - min (s.queue q).surrender 65535
    ∧ (t.queue q).flushed = false ∧ (t.queue q).credit = (s.queue q).credit ∧ (t.queue q).recs = (s.queue q).recs ∧ (∀ j, j ≠ q → t.queue j = s.queue j) ∧ Only [.traffic, .fabric] s t)
  ∧ (∀ (q d p tc b n : Nat) (s : State), outQ s q d p → s.maySend = true → s.voqMaps.find? (fun m => decide (m.2.1 ≤ q) && decide (q < m.2.1 + 8 * m.2.2)) = some (d, b, n) → q = b + 8 * p + tc → tc < 8 →
    ∃ t, exec (.creditRequestSend q) s = .next t ∧ t.fabric.sentReq.getLast?.map (fun r => r.tc) = some tc)
  ∧ (∀ (q : Nat) (s : State), s.voqOf q = none ∨ s.maySend = false → exec (.creditRequestSend q) s = .next s)
  ∧ (∀ (r : CreditReq) (s : State), s.clocked = true → ∃ t, exec (.creditRequestRx r) s = .next t ∧ t.owed r.port r.tc = s.owed r.port r.tc - 256 * (r.surrendered : Int) ∧ (r.wanted = 0 → ∀ w ∈ t.wants r.port r.tc, w.dev ≠ r.srcDev ∨ w.voq ≠ r.voq)
    ∧ (r.wanted ≠ 0 → (∃ w ∈ t.wants r.port r.tc, w.dev = r.srcDev ∧ w.voq = r.voq) ∧ ∀ w ∈ t.wants r.port r.tc, w.dev = r.srcDev → w.voq = r.voq → w.wanted = r.wanted)
    ∧ (t.wants r.port r.tc).filter (fun w => !(w.dev == r.srcDev && w.voq == r.voq)) = (s.wants r.port r.tc).filter (fun w => !(w.dev == r.srcDev && w.voq == r.voq)) ∧ Only [.fabric] s t)
  ∧ (∀ (p c : Nat) (s : State), s.wants p c = [] ∨ s.maySend = false ∨ s.gov.levelT = 4 ∨ (target s : Int) ≤ s.owed p c + (s.egrCount p c : Int) → exec (.creditGrantIssue p c) s = .next s)
  ∧ (∀ (p c : Nat) (w : CreditWant) (rest : List CreditWant) (s : State), s.clocked = true → s.wants p c = w :: rest → s.maySend = true → s.gov.levelT ≠ 4 → s.owed p c + (s.egrCount p c : Int) < (target s : Int) → ∃ t, exec (.creditGrantIssue p c) s = .next t
    ∧ t.fabric.sentGrant = s.fabric.sentGrant ++ [(w.dev, w.voq, quantum s)] ∧ t.owed p c = s.owed p c + (256 * quantum s : Nat) ∧ t.wants p c = (if w.wanted ≤ quantum s then rest else rest ++ [{ w with wanted := w.wanted - quantum s }]) ∧ Only [.fabric] s t)
  ∧ (∀ (q u : Nat) (s : State), s.qKind q ≠ 1 → exec (.creditGrantRx q u) s = .next s ∧ exec (.standingCreditExpiry q) s = .next s)
  ∧ (∀ (q u : Nat) (s : State), s.clocked = true → s.qKind q = 1 → s.qClosed q = true ∨ (s.queue q).flushed = true → ∃ t, exec (.creditGrantRx q u) s = .next t ∧ t.queue q = { s.queue q with surrender := (s.queue q).surrender + u } ∧ (∀ j, j ≠ q → t.queue j = s.queue j) ∧ Only [.traffic] s t)
  ∧ (∀ (q u : Nat) (s : State), s.clocked = true → s.qKind q = 1 → s.qClosed q = false → (s.queue q).flushed = false → ∃ t, exec (.creditGrantRx q u) s = .next t ∧ t.queue q = { s.queue q with credit := (s.queue q).credit + (256 * u : Nat) } ∧ (∀ j, j ≠ q → t.queue j = s.queue j)
    ∧ Only [.traffic] s t)
  ∧ (∀ (q : Nat) (s : State), s.clocked = true → s.qKind q = 1 → (s.queue q).recs = [] → 0 < (s.queue q).credit → ∃ t, exec (.standingCreditExpiry q) s = .next t ∧ 0 ≤ (t.queue q).credit ∧ (t.queue q).credit < 256
    ∧ (t.queue q).credit + 256 * ((t.queue q).surrender : Int) = (s.queue q).credit + 256 * ((s.queue q).surrender : Int) ∧ (∀ j, j ≠ q → t.queue j = s.queue j) ∧ Only [.traffic] s t)
  ∧ (∀ (q : Nat) (s : State), (s.queue q).recs ≠ [] → exec (.standingCreditExpiry q) s = .next s)
  ∧ (∀ (q d p : Nat) (s : State), outQ s q d p → d < 4096 → (s.queue q).recs ≠ [] → (s.queue q).credit ≤ 0 → ∃ t, exec (.starveTimeout q) s = .next t ∧ Counted s t .fabricCreditStarved 0 1 ∧ t.flag (Reg.fabricDeviceStatus d) Fld.fabricDeviceStatus_starved = true
    ∧ (s.noWindow 0x0807 d → Recorded s t 0x0807 (natBe 2 d)) ∧ (s.maySend = true → t.fabric.sentReq.map asks = s.fabric.sentReq.map asks ++ [request s q p]) ∧ (t.queue q).recs = (s.queue q).recs ∧ Only [.regs, .counters, .events, .fcp, .obs, .traffic, .fabric] s t)
  ∧ (∀ (q : Nat) (s : State), (s.queue q).recs = [] ∨ 0 < (s.queue q).credit → exec (.starveTimeout q) s = .next s)
  ∧ (∀ (s : State), s.fld Reg.timeSrcCfg Fld.timeSrcCfg_role ≠ 1 ∨ s.maySend = false → exec .timeCellSend s = .next s)
  ∧ (∀ (d l : Nat) (s : State), s.clocked = true → s.fld Reg.timeSrcCfg Fld.timeSrcCfg_role = 1 → s.maySend = true → s.liveV2 = [d] → s.pickLane 1 true = some l → ∃ t, exec .timeCellSend s = .next t ∧ t.fabric.timeSeq = (s.fabric.timeSeq + 1) % 65536
    ∧ t.fabric.sentTime = s.fabric.sentTime ++ [(d, TimeCell.mk s.self s.tod (s.fld (Reg.fabricLaneStatus l) Fld.fabricLaneStatus_delay : Int) s.fabric.timeSeq (s.fld Reg.timeStatus Fld.timeStatus_quality))] ∧ (t.fabLane l).sent = (s.fabLane l).sent + 1
    ∧ RegsOnly [Reg.fabricLaneStatus l] s t ∧ Only [.regs, .fabric] s t)

/-- R264, R265, R333 to R335. The sequence number of the first notice is the model's choice (log 27). -/
def Obligations.NoticesAndHeartbeats : Prop :=
  let dueOf (s : State) (p : Nat) : List (Nat × Bool) := s.line.noticeDue.filter (fun x => x.1 == p)
  let waits (s : State) (p : Nat) : List Nat := (s.noticeOf p).wait.filter (fun d => s.liveV2.contains d)
  let told (s : State) (p : Nat) : Notice := Notice.mk false s.self p (s.noticeOf p).up (s.noticeOf p).seq
  let late (s : State) (p : Nat) : Prop := (s.noticeOf p).late = false ∧ (s.noticeOf p).since + 1000000 ≤ s.time.stepFree
  let alive (s : State) (d : Nat) : Bool := s.flag (Reg.fabricDeviceStatus d) Fld.fabricDeviceStatus_alive
  let other (s : State) (n : Notice) : Prop := s.clocked = true ∧ n.origin ≠ s.self
  let lastSeq (s : State) (n : Notice) : Nat := mget (fun _ => 0) s.fabric.applied (128 * n.origin + n.port)
  let gap (s : State) (n : Notice) : Nat := (n.seq + 256 - (lastSeq s n - 1) % 256) % 256
  let newer (s : State) (n : Notice) : Prop := lastSeq s n = 0 ∨ (1 ≤ gap s n ∧ gap s n ≤ 127)
  let acked (s t : State) (n : Notice) : Prop := t.fabric.sentAck = s.fabric.sentAck ++ (if s.maySend = true then [(n.origin, n.port, n.seq)] else [])
  let seen (s : State) (p : Nat) : Bool := s.flag (Reg.trafficPortCfg p) Fld.trafficPortCfg_remoteDownSeen
  (∀ (p : Nat) (s : State), dueOf s p = [] ∨ s.maySend = false → exec (.portNoticeSend p) s = .next s)
  ∧ (∀ (p : Nat) (up : Bool) (s : State), s.clocked = true → (dueOf s p).getLast? = some (p, up) → s.maySend = true → ∃ t, exec (.portNoticeSend p) s = .next t ∧ dueOf t p = [] ∧ t.fabric.sentNotice = s.fabric.sentNotice ++ [Notice.mk false s.self p up (((s.noticeOf p).seq + 1) % 256)]
    ∧ t.noticeOf p = { up := up, seq := ((s.noticeOf p).seq + 1) % 256, wait := s.liveV2, since := s.time.stepFree, late := false } ∧ seen t p = !s.liveV2.isEmpty ∧ RegsOnly [Reg.trafficPortCfg p] s t ∧ Only [.regs, .line, .fabric] s t)
  ∧ (∀ (p : Nat) (s : State), (s.noticeOf p).wait = [] → exec (.noticeRepeat p) s = .next s)
  ∧ (∀ (p : Nat) (s : State), s.clocked = true → (s.noticeOf p).wait ≠ [] → waits s p = [] → ∃ t, exec (.noticeRepeat p) s = .next t ∧ (t.noticeOf p).wait = [] ∧ seen t p = false ∧ t.fabric.sentNotice = s.fabric.sentNotice ∧ RegsOnly [Reg.trafficPortCfg p] s t ∧ Only [.regs, .fabric] s t)
  ∧ (∀ (p : Nat) (s : State), s.clocked = true → waits s p ≠ [] → ¬ late s p → s.maySend = true → ∃ t, exec (.noticeRepeat p) s = .next t ∧ (t.noticeOf p).wait = waits s p ∧ t.fabric.sentNotice = s.fabric.sentNotice ++ [told s p] ∧ t.ev = s.ev ∧ Only [.regs, .fabric] s t)
  ∧ (∀ (p : Nat) (s : State), s.clocked = true → p < 96 → waits s p ≠ [] → late s p → s.maySend = true → ∃ t, exec (.noticeRepeat p) s = .next t ∧ (t.noticeOf p).late = true ∧ Recorded s t 0x080B (natBe 1 p) ∧ t.fabric.sentNotice = s.fabric.sentNotice ++ [told s p]
    ∧ seen t p = true ∧ Only [.regs, .counters, .events, .fcp, .obs, .fabric] s t)
  ∧ (∀ (d p q : Nat) (s : State), (s.noticeOf p).seq ≠ q → exec (.noticeAckRx d p q) s = .next s)
  ∧ (∀ (d p : Nat) (s : State), s.clocked = true → ∃ t, exec (.noticeAckRx d p (s.noticeOf p).seq) s = .next t ∧ (t.noticeOf p).wait = (s.noticeOf p).wait.filter (fun x => x != d) ∧ seen t p = !((s.noticeOf p).wait.filter (fun x => x != d)).isEmpty
    ∧ RegsOnly [Reg.trafficPortCfg p] s t ∧ Only [.regs, .fabric] s t)
  ∧ (∀ (n : Notice) (s : State), n.origin = s.self → exec (.noticeRx n) s = .next s)
  ∧ (∀ (n : Notice) (s : State), other s n → n.heartbeat = true → s.fabric.dead.contains n.origin = false → ∃ t, exec (.noticeRx n) s = .next t ∧ alive t n.origin = true ∧ RegsOnly [Reg.fabricDeviceStatus n.origin] s t ∧ Only [.regs] s t)
  ∧ (∀ (n : Notice) (s : State), other s n → n.heartbeat = true → n.origin < 4096 → s.fabric.dead.contains n.origin = true → ∃ t, exec (.noticeRx n) s = .next t ∧ alive t n.origin = true ∧ t.devUp n.origin = true ∧ Recorded s t 0x0809 (natBe 2 n.origin)
    ∧ (∀ p, p < 128 → mget (fun _ => 0) t.lookup.remoteDown (128 * n.origin + p) = 0 ∧ t.fabric.closeVoq.contains (n.origin, p) = false) ∧ Only [.regs, .counters, .events, .fcp, .obs, .lookup, .fabric] s t)
  ∧ (∀ (n : Notice) (s : State), other s n → n.heartbeat = false → newer s n → ∃ t, exec (.noticeRx n) s = .next t ∧ lastSeq t n = n.seq + 1 ∧ t.fabric.closeVoq.contains (n.origin, n.port) = !n.up ∧ mget (fun _ => 0) t.lookup.remoteDown (128 * n.origin + n.port) = b2n (!n.up)
    ∧ acked s t n ∧ t.fabric.closeVoq.filter (fun x => x != (n.origin, n.port)) = s.fabric.closeVoq.filter (fun x => x != (n.origin, n.port)) ∧ Only [.lookup, .fabric] s t)
  ∧ (∀ (n : Notice) (s : State), other s n → n.heartbeat = false → ¬ newer s n → ∃ t, exec (.noticeRx n) s = .next t ∧ t.fabric.applied = s.fabric.applied ∧ t.fabric.closeVoq = s.fabric.closeVoq ∧ acked s t n ∧ Only [.fabric] s t)
  ∧ (∀ (s : State), s.maySend = false → exec .heartbeatSend s = .next s)
  ∧ (∀ (s : State), s.clocked = true → s.maySend = true → ∃ t, exec .heartbeatSend s = .next t ∧ t.fabric.sentNotice = s.fabric.sentNotice ++ [Notice.mk true s.self 0 true ((s.fabric.hbSeq + 1) % 256)] ∧ t.fabric.hbSeq = (s.fabric.hbSeq + 1) % 256 ∧ Only [.fabric] s t)
  ∧ (∀ (d : Nat) (s : State), s.flag (Reg.fabricDeviceStatus d) Fld.fabricDeviceStatus_v2 = false ∨ s.fabric.dead.contains d = true → exec (.devTimeoutExpiry d) s = .next s)
  ∧ (∀ (d : Nat) (s : State), s.clocked = true → d < 4096 → s.flag (Reg.fabricDeviceStatus d) Fld.fabricDeviceStatus_v2 = true → s.fabric.dead.contains d = false → ∃ t, exec (.devTimeoutExpiry d) s = .next t ∧ alive t d = false ∧ t.devUp d = false ∧ Recorded s t 0x0808 (natBe 2 d)
    ∧ (s.flag (Reg.trafficVoqMap d) Fld.trafficVoqMap_valid = true → ∀ p, p < s.fld (Reg.trafficVoqMap d) Fld.trafficVoqMap_ports → t.fabric.closeVoq.contains (d, p) = true) ∧ Only [.regs, .counters, .events, .fcp, .obs, .traffic, .fabric] s t)
  ∧ (∀ (s : State), s.fabric.quietDone = true ∨ s.boot.stage = .coldReset → exec .quietPeriodEnd s = .next s)
  ∧ (∀ (s : State), s.clocked = true → s.fabric.quietDone = false → s.boot.stage ≠ .coldReset → ∃ t, exec .quietPeriodEnd s = .next t ∧ t.fabric = { s.fabric with quietDone := true } ∧ t.line.noticeDue = (s.portList.filter (fun p => !s.portUp p)).map (fun p => (p, false))
    ∧ Only [.line, .fabric] s t)

/-- R341 to R346. That 0x0124 carries the current epoch is the model's choice (log 28). -/
def Obligations.EpochsOpenSwitchAndRetire : Prop :=
  let up (s : State) (h : FcpHdr) (x : Session) (p : Nat) : Prop := s.clocked = true ∧ Granted s h x 0x30 privWrite ∧ s.epochPhase = p
  let refused (s t : State) (code : Nat) : Prop := t.fld Reg.epochState Fld.epochState_refused = code ∧ t.epochPhase = s.epochPhase ∧ t.epoch = s.epoch ∧ t.epochOther = s.epochOther
  let inflight (s : State) (f : Field) : Nat := s.fld Reg.epochInflight f
  let counts (s : State) : Nat × Nat := (inflight s Fld.epochInflight_current, inflight s Fld.epochInflight_other)
  let switched (s t : State) : Prop := t.epoch = s.epochOther ∧ t.epochOther = s.epoch ∧ counts t = ((counts s).2, (counts s).1) ∧ t.epochPhase = (if (counts s).1 = 0 then 4 else 3) ∧ Recorded s t 0x0121 (natBe 2 s.epochOther)
    ∧ ((counts s).1 = 0 → Recorded s t 0x0122 (natBe 2 s.epoch))
  let aligned (t : State) : Prop := ∀ k i : Nat, k < 12 → i < 16 → t.regPar true (Reg.classStageCfg k i) = t.regPar false (Reg.classStageCfg k i) ∧ t.regPar true (Reg.assocSearch k i) = t.regPar false (Reg.assocSearch k i) ∧ t.regPar true (Reg.parserPortCfg k i) = t.regPar false (Reg.parserPortCfg k i)
    ∧ t.regPar true Reg.epochBankSel = t.regPar false Reg.epochBankSel
  let timeOf (sec ns : Nat) : Nat := 1000000000 * sec + ns
  (∀ (h : FcpHdr) (x : Session) (s : State), up s h x 0 → ∃ t, exec (.epochOpen h) s = .next t ∧ t.epochPhase = 1 ∧ t.epoch = s.epoch ∧ t.epochOther = (s.epoch + 1) % 65536 ∧ inflight t Fld.epochInflight_other = 0 ∧ aligned t ∧ Replied t h 0x30 0 []
    ∧ Recorded s t 0x0120 (natBe 2 ((s.epoch + 1) % 65536)) ∧ Only [.regs, .mem, .banks, .counters, .events, .fcp, .obs, .lookup] s t)
  ∧ (∀ (p : Nat) (h : FcpHdr) (x : Session) (s : State), up s h x p → p ≠ 0 → ∃ t, exec (.epochOpen h) s = .next t ∧ refused s t (if p = 4 then 3 else 1) ∧ Replied t h 0x30 6 [] ∧ RegsOnly [Reg.epochState] s t ∧ Only [.regs, .fcp, .counters] s t)
  ∧ (∀ (sec ns : Nat) (h : FcpHdr) (x : Session) (s : State), up s h x 1 → sec < 2 ^ 48 → ns < 1000000000 → s.tod + 10000 ≤ timeOf sec ns → ∃ t, exec (.epochArm h sec ns) s = .next t ∧ t.epochPhase = 2 ∧ t.switchTime = timeOf sec ns ∧ t.epoch = s.epoch ∧ Replied t h 0x30 0 []
    ∧ RegsOnly [Reg.epochState, Reg.epochSwitchTime, Reg.epochSwitchNs] s t ∧ Only [.regs, .counters, .fcp] s t)
  ∧ (∀ (sec ns : Nat) (h : FcpHdr) (x : Session) (s : State), up s h x 1 → sec < 2 ^ 48 → ns < 1000000000 → timeOf sec ns < s.tod + 10000 → ∃ t, exec (.epochArm h sec ns) s = .next t ∧ refused s t 2 ∧ Replied t h 0x30 9 [2] ∧ Only [.regs, .counters, .fcp] s t)
  ∧ (∀ (p sec ns : Nat) (h : FcpHdr) (x : Session) (s : State), up s h x p → p ≠ 1 → sec < 2 ^ 48 → ns < 1000000000 → ∃ t, exec (.epochArm h sec ns) s = .next t ∧ refused s t 1 ∧ Replied t h 0x30 6 [] ∧ Only [.regs, .counters, .fcp] s t)
  ∧ (∀ (sec ns p : Nat) (h : FcpHdr) (x : Session) (s : State), up s h x p → 2 ^ 48 ≤ sec ∨ 1000000000 ≤ ns → ∃ t, exec (.epochArm h sec ns) s = .next t ∧ Replied t h 0x30 5 [] ∧ RegsOnly [] s t ∧ Only [.regs, .counters, .fcp] s t)
  ∧ (∀ (p : Nat) (h : FcpHdr) (x : Session) (s : State), up s h x p → p = 1 ∨ p = 2 → ∃ t, exec (.epochSwitchNow h) s = .next t ∧ switched s t ∧ Replied t h 0x30 0 [] ∧ Only [.regs, .counters, .boot, .events, .fcp, .obs] s t)
  ∧ (∀ (p : Nat) (h : FcpHdr) (x : Session) (s : State), up s h x p → p ≠ 1 → p ≠ 2 → ∃ t, exec (.epochSwitchNow h) s = .next t ∧ refused s t 1 ∧ Replied t h 0x30 6 [] ∧ RegsOnly [Reg.epochState] s t ∧ Only [.regs, .fcp, .counters] s t)
  ∧ (∀ (p : Nat) (h : FcpHdr) (x : Session) (s : State), up s h x p → p = 1 ∨ p = 2 → ∃ t, exec (.epochAbort h) s = .next t ∧ t.epochPhase = 4 ∧ t.epoch = s.epoch ∧ t.epochOther = s.epochOther ∧ Replied t h 0x30 0 [] ∧ RegsOnly [Reg.epochState] s t ∧ Only [.regs, .counters, .boot, .fcp] s t)
  ∧ (∀ (p : Nat) (h : FcpHdr) (x : Session) (s : State), up s h x p → p ≠ 1 → p ≠ 2 → ∃ t, exec (.epochAbort h) s = .next t ∧ refused s t 1 ∧ Replied t h 0x30 6 [] ∧ RegsOnly [Reg.epochState] s t ∧ Only [.regs, .fcp, .counters] s t)
  ∧ (∀ (s : State), s.clocked = true → s.epochPhase = 2 → ∃ t, exec .epochSwitch s = .next t ∧ switched s t ∧ Only [.regs, .counters, .boot, .events, .fcp, .obs] s t)
  ∧ (∀ (s : State), s.epochPhase ≠ 2 → exec .epochSwitch s = .next s)
  ∧ (∀ (s : State), s.clocked = true → s.epochPhase = 3 → ∃ t, exec .epochDrainTimeout s = .next t ∧ t.epochPhase = 4 ∧ t.epoch = s.epoch ∧ Recorded s t 0x0123 (natBe 2 s.epochOther ++ natBe 4 (counts s).2) ∧ counts t = counts s ∧ Only [.regs, .counters, .events, .fcp, .obs] s t)
  ∧ (∀ (s : State), s.epochPhase ≠ 3 → exec .epochDrainTimeout s = .next s)
  ∧ (∀ (s : State), s.clocked = true → s.epochPhase = 4 → s.boot.staged = none → ∃ t, exec .epochSweepDone s = .next t ∧ t.epochPhase = 0 ∧ t.epoch = s.epoch ∧ inflight t Fld.epochInflight_other = 0 ∧ aligned t ∧ Recorded s t 0x0124 (natBe 2 s.epoch) ∧ t.boot = s.boot
    ∧ Only [.regs, .mem, .banks, .counters, .boot, .events, .fcp, .obs, .lookup] s t)
  ∧ (∀ (g : Staged) (s : State), s.clocked = true → s.epochPhase = 4 → s.boot.staged = some g → g.switched = true → g.firmware = none → ∃ t, exec .epochSweepDone s = .next t ∧ t.epochPhase = 0 ∧ t.boot.staged = none ∧ Recorded s t 0x0127 (natBe 4 (buildLow g.hdr))
    ∧ Recorded s t 0x0124 (natBe 2 s.epoch) ∧ Only [.regs, .mem, .banks, .counters, .boot, .events, .fcp, .obs, .lookup] s t)
  ∧ (∀ (s : State), s.epochPhase ≠ 4 → exec .epochSweepDone s = .next s)

/-- R360 to R371. `still` says that no event on the time of day waits for a step to pass it. -/
def Obligations.TimeFollowsItsSources : Prop :=
  let inUse (s : State) (n : Nat) : Prop := s.clocked = true ∧ (s.timeState = 1 ∨ s.timeState = 2) ∧ s.timeSource = n
  let idle (s : State) : Prop := s.timeState ≠ 1 ∧ s.timeState ≠ 2
  let still (s : State) : Prop := s.epochPhase ≠ 2 ∧ ∀ p, p < 96 → s.flag (Reg.hatbandCfg p) Fld.hatbandCfg_pending = false
  let offset (s : State) : Nat := s.fld Reg.timeStatus Fld.timeStatus_offset
  let clamp (o : Int) : Int := max (-2147483648) (min 2147483647 o)
  let quality (s : State) : Nat := s.fld Reg.timeStatus Fld.timeStatus_quality
  let near (s : State) (o : Int) : Prop := o.natAbs ≤ 256 * s.fld Reg.timeServo Fld.timeServo_lockThresh
  let held (d : Int) : Prop := d.natAbs ≤ 200000
  let valid (s : State) : Bool := s.flag Reg.timeStatus Fld.timeStatus_todValid
  let slewing (s : State) : Bool := s.flag Reg.timeStatus Fld.timeStatus_slewing
  let at_ (s : State) (st src : Nat) : Prop := s.timeState = st ∧ s.timeSource = src
  let apart (s : State) (m : TodMsg) : Prop := s.clocked = true ∧ m.crcOk = true ∧ s.timeState = 2 ∧ (s.timeSource = 1 ∨ s.timeSource = 2) ∧ m.seconds ≠ s.tod / 1000000000
  let gap (s : State) (m : TodMsg) : Int := (m.seconds : Int) - ((s.tod / 1000000000 : Nat) : Int)
  let logged (t : State) (code : Nat) (d : Bytes) : Prop := ∃ r ∈ t.eventLog, r.code = code ∧ r.data = d
  let left (s : State) (n : Nat) : State := { s with time := { s.time with qualified := s.time.qualified.filter (fun x => x != n) } }
  let refused (s t : State) : Prop := Counted s t .controlTimeAdjRefused 0 1 ∧ Recorded s t 0x0909 [] ∧ t.time = s.time ∧ t.reg Reg.timeFreq = s.reg Reg.timeFreq ∧ t.reg Reg.timeAdj = s.reg Reg.timeAdj
  let follows (s : State) (c : TimeCell) : Prop := s.clocked = true ∧ s.fld Reg.timeSrcCfg Fld.timeSrcCfg_role = 2 ∧ c.originDev = s.fld Reg.timeSrcCfg Fld.timeSrcCfg_followDev
  let newer (s : State) (c : TimeCell) : Prop := ∀ q, s.time.lastSeq = some q → 1 ≤ (c.seq + 65536 - q) % 65536 ∧ (c.seq + 65536 - q) % 65536 ≤ 32767
  (∀ (o d : Int) (s : State), exec (.ppsInEdge o false d) s = .next s)
  ∧ (∀ (o d : Int) (s : State), idle s ∨ (s.timeSource ≠ 1 ∧ s.timeSource ≠ 2) → exec (.ppsInEdge o true d) s = .next s)
  ∧ (∀ (o d : Int) (n : Nat) (s : State), inUse s n → n = 1 ∨ n = 2 → s.time.stepped = true → ∃ t, exec (.ppsInEdge o true d) s = .next t ∧ t.time = { s.time with stepped := false } ∧ Counted s t .controlTimeMeasDiscard 0 1 ∧ Only [.counters, .time] s t)
  ∧ (∀ (o d : Int) (n : Nat) (s : State), inUse s n → n = 1 ∨ n = 2 → s.time.stepped = false → s.time.acq = 0 → held d → ∃ t, exec (.ppsInEdge o true d) s = .next t ∧ offset t = ofSigned 32 (clamp o) ∧ (near s o → t.time.lockRun = s.time.lockRun + 1) ∧ (¬ near s o → t.time.lockRun = 0)
    ∧ at_ t (if s.timeState = 1 ∧ near s o ∧ 15 ≤ s.time.lockRun then 2 else s.timeState) n ∧ (s.timeState = 1 ∧ near s o ∧ 15 ≤ s.time.lockRun → quality t = 4 * n ∧ Recorded s t 0x0902 (natBe 1 n)) ∧ t.tod = s.tod ∧ Only [.regs, .counters, .boot, .events, .fcp, .obs, .time] s t)
  ∧ (∀ (o d : Int) (n : Nat) (s : State), inUse s n → n = 1 ∨ n = 2 → s.time.stepped = false → s.time.acq = 1 → s.flag Reg.timeServo Fld.timeServo_noStep = false → still s → held d → ∃ t, exec (.ppsInEdge o true d) s = .next t ∧ t.time.stepNet = s.time.stepNet - o / 256
    ∧ t.time.stepFree = s.time.stepFree ∧ valid t = true ∧ t.time.acq = 0 ∧ t.time.stepped = true ∧ Counted s t .controlTimeStep 0 1 ∧ logged t 0x0903 (natBe 10 (ofSigned 80 (-(o / 256)))) ∧ Only [.regs, .counters, .boot, .events, .fcp, .obs, .time] s t)
  ∧ (∀ (o d : Int) (n : Nat) (s : State), inUse s n → n = 1 ∨ n = 2 → s.time.stepped = false → s.time.acq = 2 → valid s = true → o.natAbs ≤ 256 * s.fld Reg.timeServo Fld.timeServo_stepThresh → o / 256 ≠ 0 → held d → ∃ t, exec (.ppsInEdge o true d) s = .next t ∧ t.tod = s.tod
    ∧ t.time.slewLeft = -(o / 256) ∧ slewing t = true ∧ t.time.acq = 0 ∧ Only [.regs, .counters, .boot, .events, .fcp, .obs, .time] s t)
  ∧ (∀ (o d : Int) (n : Nat) (s : State), inUse s n → n = 1 ∨ n = 2 → s.timeState = 2 → s.time.stepped = false → s.time.acq = 0 → ¬ held d → s.time.limited = false → ∃ t, exec (.ppsInEdge o true d) s = .next t ∧ at_ t 1 n ∧ t.time.limited = true ∧ t.time.lockRun = 0
    ∧ Counted s t .controlTimeFreqLimit 0 1 ∧ Recorded s t 0x090A (natBe 4 (ofSigned 32 d)) ∧ Only [.regs, .counters, .boot, .events, .fcp, .obs, .time] s t)
  ∧ (∀ (m : TodMsg) (s : State), s.clocked = true → m.crcOk = false → exec (.todInMessage m) s = .next (s.count .controlTimeTodMissing))
  ∧ (∀ (m : TodMsg) (s : State), apart s m → s.time.todRun < 2 → exec (.todInMessage m) s = .next { s with time := { s.time with todRun := s.time.todRun + 1 } })
  ∧ (∀ (m : TodMsg) (s : State), s.clocked = true → m.crcOk = true → m.seconds = s.tod / 1000000000 → exec (.todInMessage m) s = .next { s with time := { s.time with todRun := 0 } })
  ∧ (∀ (m : TodMsg) (s : State), apart s m → 2 ≤ s.time.todRun → still s → ∃ t, exec (.todInMessage m) s = .next t ∧ t.time.stepNet = s.time.stepNet + 1000000000 * gap s m ∧ t.time.todRun = 0 ∧ Counted s t .controlTimeStep 0 1 ∧ Counted s t .controlTimeTodMismatch 0 1
    ∧ logged t 0x0903 (natBe 10 (ofSigned 80 (1000000000 * gap s m))) ∧ logged t 0x0907 (natBe 7 (ofSigned 56 (gap s m))) ∧ at_ t 2 s.timeSource ∧ Only [.regs, .counters, .boot, .events, .fcp, .obs, .time] s t)
  ∧ (∀ (x : TimeSource) (o : Int) (s : State), s.timeList.contains (srcNum x) = false → exec (.sourceQualified x o) s = .next s)
  ∧ (∀ (x : TimeSource) (o : Int) (s : State), s.clocked = true → s.timeList.head? = some (srcNum x) → ¬ inUse s (srcNum x) → still s → ∃ t, exec (.sourceQualified x o) s = .next t ∧ at_ t 1 (srcNum x) ∧ t.time.qualified.contains (srcNum x) = true ∧ Recorded s t 0x0901 (natBe 1 (srcNum x))
    ∧ quality t = 64 + 4 * srcNum x ∧ Only [.regs, .counters, .boot, .events, .fcp, .obs, .time] s t)
  ∧ (∀ (n : Nat) (x : TimeSource) (o : Int) (s : State), inUse s n → s.timeList.head? = some n → s.time.qualified.contains n = true → s.timeList.contains (srcNum x) = true → srcNum x ≠ n →
    exec (.sourceQualified x o) s = .next { s with time := { s.time with qualified := (left s (srcNum x)).time.qualified ++ [srcNum x] } })
  ∧ (∀ (c : Nat) (x : TimeSource) (s : State), s.clocked = true → ¬ inUse s (srcNum x) → exec (.sourceLoss x c) s = .next (left s (srcNum x)))
  ∧ (∀ (c b : Nat) (x : TimeSource) (s : State), inUse s (srcNum x) → (left s (srcNum x)).timeBest = some b → ∃ t, exec (.sourceLoss x c) s = .next t ∧ at_ t 1 b ∧ t.time.qualified.contains (srcNum x) = false ∧ Recorded s t 0x0906 (natBe 1 (srcNum x) ++ natBe 1 c)
    ∧ Recorded s t 0x0901 (natBe 1 b) ∧ Only [.regs, .counters, .events, .fcp, .obs, .time] s t)
  ∧ (∀ (c : Nat) (x : TimeSource) (s : State), inUse s (srcNum x) → (left s (srcNum x)).timeBest = none → ∃ t, exec (.sourceLoss x c) s = .next t ∧ at_ t 3 (srcNum x) ∧ quality t = 32 + 4 * srcNum x ∧ Recorded s t 0x0906 (natBe 1 (srcNum x) ++ natBe 1 c)
    ∧ Recorded s t 0x0904 (natBe 1 (srcNum x)) ∧ t.tod = s.tod ∧ Only [.regs, .counters, .events, .fcp, .obs, .time] s t)
  ∧ (∀ (s : State), s.clocked = true → s.timeState = 3 → ∃ t, exec .holdoverLimitExpiry s = .next t ∧ at_ t 0 s.timeSource ∧ quality t = 96 + 4 * s.timeSource ∧ Recorded s t 0x0905 [] ∧ Only [.regs, .counters, .events, .fcp, .obs] s t)
  ∧ (∀ (s : State), s.timeState ≠ 3 → exec .holdoverLimitExpiry s = .next s)
  ∧ (∀ (s : State), s.clocked = true → slewing s = true → ∃ t, exec .slewDone s = .next t ∧ slewing t = false ∧ t.time.stepFree = ((s.time.stepFree : Int) + s.time.slewLeft).toNat ∧ t.time.stepNet = s.time.stepNet ∧ RegsOnly [Reg.timeStatus] s t ∧ Only [.regs, .time] s t)
  ∧ (∀ (s : State), slewing s = false → exec .slewDone s = .next s)
  ∧ (∀ (w : Bool) (p : Int) (n : Nat) (s : State), inUse s n → n ≠ 4 → ∃ t, exec (.timeAdjStart w p) s = .next t ∧ refused s t ∧ Only [.regs, .counters, .boot, .events, .fcp, .obs, .time] s t)
  ∧ (∀ (p : Int) (s : State), s.clocked = true → idle s → p ≠ 0 → ∃ t, exec (.timeAdjStart true p) s = .next t ∧ t.time = { s.time with slewLeft := p } ∧ slewing t = true ∧ valid t = true ∧ t.fld Reg.timeAdj Fld.timeAdj_phase = ofSigned 40 p ∧ RegsOnly [Reg.timeAdj, Reg.timeStatus] s t ∧ Only [.regs, .time] s t)
  ∧ (∀ (p : Int) (s : State), s.clocked = true → idle s → still s → ∃ t, exec (.timeAdjStart false p) s = .next t ∧ t.time = { s.time with stepNet := s.time.stepNet + p, stepped := true } ∧ valid t = true ∧ Counted s t .controlTimeStep 0 1 ∧ logged t 0x0903 (natBe 10 (ofSigned 80 p)) ∧ Only [.regs, .counters, .boot, .events, .fcp, .obs, .time] s t)
  ∧ (∀ (d : Int) (s : State), 51200000 < d.natAbs → exec (.timeFreqWrite d) s = .next s)
  ∧ (∀ (d : Int) (n : Nat) (s : State), inUse s n → n ≠ 4 → s.timeList.contains 4 = false → d.natAbs ≤ 51200000 → ∃ t, exec (.timeFreqWrite d) s = .next t ∧ refused s t ∧ Only [.regs, .counters, .events, .fcp, .obs, .time] s t)
  ∧ (∀ (d : Int) (s : State), s.clocked = true → idle s → s.timeList.contains 4 = false → d.natAbs ≤ 51200000 → ∃ t, exec (.timeFreqWrite d) s = .next t ∧ t.fld Reg.timeFreq Fld.timeFreq_steer = ofSigned 32 d ∧ t.time = { s.time with softSteer := d } ∧ RegsOnly [Reg.timeFreq] s t ∧ Only [.regs, .time] s t)
  ∧ (∀ (d : Int) (n : Nat) (s : State), inUse s n → n ≠ 4 → s.timeList.head? = some n → s.time.qualified.contains n = true → s.timeList.contains 4 = true → d.natAbs ≤ 51200000 →
    exec (.timeFreqWrite d) s = .next { s with time := { s.time with softSteer := d, qualified := (left s 4).time.qualified ++ [4] } })
  ∧ (∀ (c : TimeCell) (d : Int) (s : State), s.fld Reg.timeSrcCfg Fld.timeSrcCfg_role ≠ 2 → exec (.timeCellRx c d) s = .next s)
  ∧ (∀ (c : TimeCell) (d : Int) (s : State), s.clocked = true → s.fld Reg.timeSrcCfg Fld.timeSrcCfg_role = 2 → c.originDev ≠ s.fld Reg.timeSrcCfg Fld.timeSrcCfg_followDev → exec (.timeCellRx c d) s = .next (s.count .controlTimeCellIgnored))
  ∧ (∀ (c : TimeCell) (d : Int) (q : Nat) (s : State), follows s c → s.time.lastSeq = some q → c.seq = q ∨ 32767 < (c.seq + 65536 - q) % 65536 → c.seq < 65536 → q < 65536 → exec (.timeCellRx c d) s = .next (s.count .controlTimeCellIgnored))
  ∧ (∀ (c : TimeCell) (d : Int) (s : State), follows s c → newer s c → inUse s 3 → s.time.stepped = false → s.time.acq = 0 → held d → ∃ t, exec (.timeCellRx c d) s = .next t ∧ t.time.lastSeq = some c.seq ∧ t.fld Reg.timeStatus Fld.timeStatus_upstreamQ = c.quality % 256
    ∧ offset t = ofSigned 32 (clamp (256 * ((s.tod : Int) - ((c.originNs : Int) + c.correction)))) ∧ t.tod = s.tod ∧ Only [.regs, .counters, .boot, .events, .fcp, .obs, .time] s t)

/-- R359, R367. -/
def Obligations.TimeIsShownOutside : Prop :=
  let runs (s : State) : Prop := 3 ≤ s.fld Reg.bootStatus Fld.bootStatus_step ∧ (s.fld Reg.timeOutCfg Fld.timeOutCfg_outSquelch = 0 ∨ (s.fld Reg.timeOutCfg Fld.timeOutCfg_outSquelch = 1 ∧ s.timeState ≠ 0) ∨ s.timeState = 2)
  let last (t : State) : Bytes := t.time.todSent.getLastD []
  (∀ (h : FcpHdr) (x : Session) (s : State), s.clocked = true → Granted s h x 0x10 privWrite → s.tod / 1000000000 < 2 ^ 48 → ∃ t, exec (.timeNowRead h) s = .next t ∧ t.fld Reg.timeNow Fld.timeNow_seconds = s.tod / 1000000000
    ∧ t.fld Reg.timeNowNs Fld.timeNowNs_nanoseconds = s.tod % 1000000000 ∧ Replied t h 0x10 0 (natBe 8 (t.reg Reg.timeNow).toNat) ∧ t.tod = s.tod ∧ RegsOnly [Reg.timeNow, Reg.timeNowNs] s t ∧ Only [.regs, .counters, .fcp] s t)
  ∧ (∀ (s : State), s.clocked = true → runs s → exec .ppsOutEdge s = .next { s with pins := { s.pins with ppsOut := true } })
  ∧ (∀ (s : State), ¬ runs s → exec .ppsOutEdge s = .next s ∧ exec .todOutSend s = .next s)
  ∧ (∀ (s : State), s.clocked = true → exec .ppsOutFall s = .next { s with pins := { s.pins with ppsOut := false } })
  ∧ (∀ (s : State), s.clocked = true → runs s → s.flag Reg.timeOutCfg Fld.timeOutCfg_todOutEn = true → ∃ t, exec .todOutSend s = .next t ∧ t.time.todSent.dropLast = s.time.todSent ∧ (last t).length = 20 ∧ (last t).take 4 = [0x46, 0x54, 1, 20]
    ∧ beAt (last t) 4 6 = s.tod / 1000000000 % 2 ^ 48 ∧ beAt (last t) 10 1 = s.fld Reg.timeStatus Fld.timeStatus_quality ∧ beAt (last t) 12 2 = s.fld Reg.timeUtc Fld.timeUtc_utcOffset ∧ beAt (last t) 14 1 = s.fld Reg.timeUtc Fld.timeUtc_flags
    ∧ beAt (last t) 16 2 = s.time.todSeq % 65536 ∧ beAt (last t) 18 2 = crc16 ((last t).take 18) ∧ t.time.todSeq = (s.time.todSeq + 1) % 65536 ∧ Only [.time] s t)
  ∧ (∀ (s : State), s.flag Reg.timeOutCfg Fld.timeOutCfg_todOutEn = false → exec .todOutSend s = .next s)

/-- R374 to R383, R386. `mid` is the state with the epoch's budget and envelopes, `got` what it grants. -/
def Obligations.CreditEpochsGrantEnergy : Prop :=
  let mid (s : State) (m : EpochMeas) : State := (s.twiApply.effUpdate 1).epochRails m
  let got (s : State) (m : EpochMeas) : EpochGrant := (mid s m).epochGrants m ((mid s m).grossPool m)
  let slew (s : State) : Nat := s.fld Reg.govRail Fld.govRail_slew
  let fits (s : State) (m : EpochMeas) : Prop := s.gov.envT ≤ 5 * m.demandT + 600 ∧ 10 * s.fld Reg.govRail Fld.govRail_reserveT ≤ 600
  let normal (s : State) : Prop := s.clocked = true ∧ s.shed = false ∧ 10 * s.fld Reg.govRail Fld.govRail_reserveF ≤ 1000
  let overTime (s : State) : Nat := 10000 * s.fld Reg.govBudget Fld.govBudget_overTime
  (∀ (v f1 f2 f3 w1 w2 w3 : Nat), (grantAll v f1 f2 f3 w1 w2 w3).g1 + (grantAll v f1 f2 f3 w1 w2 w3).g2 + (grantAll v f1 f2 f3 w1 w2 w3).g3 + (grantAll v f1 f2 f3 w1 w2 w3).avail = v
    ∧ (grantAll v f1 f2 f3 w1 w2 w3).g1 ≤ w1 ∧ (grantAll v f1 f2 f3 w1 w2 w3).g2 ≤ w2 ∧ (grantAll v f1 f2 f3 w1 w2 w3).g3 ≤ w3
    ∧ (min f2 w2 < (grantAll v f1 f2 f3 w1 w2 w3).g2 → (grantAll v f1 f2 f3 w1 w2 w3).g1 = w1) ∧ (min f3 w3 < (grantAll v f1 f2 f3 w1 w2 w3).g3 → (grantAll v f1 f2 f3 w1 w2 w3).g1 = w1 ∧ (grantAll v f1 f2 f3 w1 w2 w3).g2 = w2))
  ∧ (∀ (v f1 f2 f3 w1 w2 w3 : Nat), f1 + f2 + f3 ≤ v → min f1 w1 ≤ (grantAll v f1 f2 f3 w1 w2 w3).g1 ∧ min f2 w2 ≤ (grantAll v f1 f2 f3 w1 w2 w3).g2 ∧ min f3 w3 ≤ (grantAll v f1 f2 f3 w1 w2 w3).g3)
  ∧ (∀ (m : EpochMeas) (g : Nat) (s : State), s.shed = true ∨ 3 ≤ s.tier → (s.epochGrants m g).g2 = 0)
  ∧ (∀ (m : EpochMeas) (g : Nat) (s : State), s.shed = true → (s.epochGrants m g).g3 = 0 ∧ (s.epochGrants m g).x3 = 0)
  ∧ (∀ (m : EpochMeas) (g : Nat) (s : State), 0 < m.want1 → g ≤ s.gov.debt + s.gov.aside → 1000 * s.fld Reg.govBudget Fld.govBudget_starveTime ≤ s.gov.starved1 + 100 → (s.epochGrants m g).g1 = min (s.fld Reg.govClass Fld.govClass_floor1 * g / 1024) m.want1
    ∧ (s.epochGrants m g).x1 = (s.epochGrants m g).g1 ∧ (s.epochGrants m g).t1 = 0)
  ∧ (∀ (m : EpochMeas) (g : Nat) (s : State), 0 < m.want1 → g ≤ s.gov.debt + s.gov.aside → s.gov.starved1 + 100 < 1000 * s.fld Reg.govBudget Fld.govBudget_starveTime → (s.epochGrants m g).g1 = 0 ∧ (s.epochGrants m g).x1 = 0 ∧ (s.epochGrants m g).t1 = s.gov.starved1 + 100)
  ∧ (∀ (m : EpochMeas) (s : State), s.clocked = true → ∃ t, exec (.creditEpoch m) s = .next t ∧ t.gov.purse1 = min (s.gov.purse1 + (got s m).g1) 5000000 ∧ t.gov.purse2 = min (s.gov.purse2 + (got s m).g2) 5000000 ∧ t.gov.aside = m.spent0
    ∧ t.gov.debt = (got s m).x1 + (got s m).x3 + (m.spent0 - s.gov.aside) ∧ t.gov.starved1 = (got s m).t1 ∧ t.gov.starved3 = (got s m).t3 ∧ t.gov.short1 = decide ((got s m).g1 < m.want1) ∧ t.fld Reg.govSpend Fld.govSpend_spent0 = min (m.spent0 / 1000) 65535
    ∧ t.fld Reg.govSpend Fld.govSpend_grant1 = min ((got s m).g1 / 1000) 65535 ∧ t.fld Reg.govStatus Fld.govStatus_effective = (mid s m).effEighths / 8 ∧ t.gov.frozen = levelFrozen (max t.gov.levelF t.gov.levelT) ∧ Only [.regs, .counters, .events, .fcp, .obs, .line, .gov] s t)
  ∧ (∀ (m : EpochMeas) (s : State), normal s → s.gov.envF ≤ 5 * m.demandF + 1000 → ∃ t, exec (.creditEpoch m) s = .next t ∧ t.gov.envF ≤ s.gov.envF + slew s ∧ s.gov.envF ≤ t.gov.envF + slew s ∧ t.gov.envF ≤ max s.gov.envF 2800
    ∧ t.gov.levelF = (if t.gov.envF < 5 * m.demandF then min 4 (s.gov.levelF + 1) else 0))
  ∧ (∀ (m : EpochMeas) (s : State), normal s → fits s m → 5 * m.demandF + 1000 + slew s < s.gov.envF → ∃ t, exec (.creditEpoch m) s = .next t ∧ t.gov.envF = 5 * m.demandF + 1000 ∧ Counted s t .controlGovSlewExceed 0 1
    ∧ (s.noWindow 0x0A07 0 → Recorded s t 0x0A07 (natBe 1 0 ++ natBe 2 (ceilDiv (s.gov.envF - slew s - 5 * m.demandF - 1000) 10))))
  ∧ (∀ (m : EpochMeas) (s : State), s.clocked = true → (mid s m).grossPool m < s.gov.aside → s.fld Reg.govBudget Fld.govBudget_paceEn = 1 → s.gov.paced = false → overTime s ≤ s.gov.overNs + 100 → ∃ t, exec (.creditEpoch m) s = .next t ∧ t.gov.paced = true
    ∧ (s.shed = false → t.gov.levelF ≠ 4 → t.gov.levelT ≠ 4 → t.fld Reg.govStatus Fld.govStatus_pacing = 2 ∧ (s.fld Reg.govStatus Fld.govStatus_pacing ≠ 2 → Recorded s t 0x0A03 (natBe 1 2))))
  ∧ (∀ (m : EpochMeas) (s : State), s.clocked = true → (mid s m).grossPool m < s.gov.aside → s.fld Reg.govBudget Fld.govBudget_paceEn = 0 → s.tier ≠ 4 → ∃ t, exec (.creditEpoch m) s = .next t ∧ Counted s t .controlGovOver 0 1 ∧ t.gov.overNs = s.gov.overNs + 100)
  ∧ (∀ (m : EpochMeas) (s : State), s.clocked = true → s.gov.paced = true → m.inputQueuesEmpty = true → overTime s ≤ s.gov.emptyNs + 100 → ∃ t, exec (.creditEpoch m) s = .next t ∧ t.gov.paced = false
    ∧ (s.shed = false → t.gov.levelF ≠ 4 → t.gov.levelT ≠ 4 → t.fld Reg.govStatus Fld.govStatus_pacing = 0))

/-- R57, R373, R378, R379, R386 to R389. The rate of region switching is the model's reading (log 29). -/
def Obligations.PowerWarningsAndHeat : Prop :=
  let on (s : State) (f : Bool) : List Nat := if f = true then s.gov.regionsF else s.gov.regionsT
  let due (s : State) (f : Bool) : Nat := if f = true then s.gov.nextF else s.gov.nextT
  let room (s : State) (f : Bool) : Nat := if f = true then s.fld Reg.govRailStatus Fld.govRailStatus_balF else s.fld Reg.govRailStatus Fld.govRailStatus_balT
  let pacing (s : State) : Nat := s.fld Reg.govStatus Fld.govStatus_pacing
  let ok (s : State) (i : Nat) : Prop := s.clocked = true ∧ i < 24 ∧ s.flag (Reg.govSensor i) Fld.govSensor_fault = false
  let peak (s : State) (i : Nat) : Int := toSigned 8 (s.fld (Reg.govSensor i) Fld.govSensor_peak)
  let clamp (v : Int) : Int := max (-128) (min 127 v)
  let changed (s t : State) (k j : Nat) (h : Int) : Prop := t.tier ≠ s.tier → Recorded s t 0x0A08 (natBe 1 k ++ natBe 1 j ++ natBe 1 (ofSigned 8 h))
  (∀ (f : Bool) (r i : Nat) (s : State), s.clocked = true → 3 ≤ s.fld Reg.bootStatus Fld.bootStatus_step → (on s f).contains r = false → due s f ≤ s.time.stepFree → i ≤ room s f → ∃ t, exec (.regionSwitchOn f r i) s = .next t ∧ on t f = on s f ++ [r] ∧ due t f = s.time.stepFree + 3000
    ∧ on t (!f) = on s (!f) ∧ due t (!f) = due s (!f) ∧ Only [.gov] s t)
  ∧ (∀ (f : Bool) (r i : Nat) (s : State), s.fld Reg.bootStatus Fld.bootStatus_step < 3 ∨ (on s f).contains r = true ∨ s.time.stepFree < due s f ∨ room s f < i → exec (.regionSwitchOn f r i) s = .next s)
  ∧ (∀ (s : State), s.boot.stage = .running → s.shed = false → s.bist.running = [] → ∃ t, exec .pfwNFall s = .next t ∧ t.shed = true ∧ t.pins.pfwLow = true ∧ t.gov.releasing = false ∧ t.boot.stopped = s.boot.stopped ∧ pacing t = 3 ∧ Recorded s t 0x0A05 []
    ∧ (pacing s ≠ 3 → Recorded s t 0x0A03 (natBe 1 3)) ∧ t.line = s.line)
  ∧ (∀ (s : State), s.boot.stage ≠ .running → s.boot.stage ≠ .coldReset → (∀ r ∈ s.bist.running, r.seg < 180) → ∃ t, exec .pfwNFall s = .next t ∧ t.boot.stopped = true ∧ t.boot.stage = s.boot.stage ∧ t.shed = true ∧ t.pins.pfwLow = true ∧ t.line = s.line)
  ∧ (∀ (s : State), s.shed = true → s.boot.stopped = false → exec .pfwNRise s = .next { s with pins := { s.pins with pfwLow := false }, gov := { s.gov with releasing := true } })
  ∧ (∀ (s : State), s.shed = false ∨ s.boot.stopped = true → exec .pfwNRise s = .next { s with pins := { s.pins with pfwLow := false } })
  ∧ (∀ (s : State), s.clocked = true → s.gov.releasing = true → ∃ t, exec .pfwReleaseHoldExpiry s = .next t ∧ t.shed = false ∧ t.gov.releasing = false ∧ t.fld Reg.govStatus Fld.govStatus_effective = s.fld Reg.govBudget Fld.govBudget_budget * tierEighths s.tier / 8
    ∧ pacing t ≠ 3 ∧ Recorded s t 0x0A06 [] ∧ Only [.regs, .counters, .events, .fcp, .obs, .gov] s t)
  ∧ (∀ (s : State), s.gov.releasing = false → exec .pfwReleaseHoldExpiry s = .next s)
  ∧ (∀ (i : Nat) (v : Int) (s : State), 24 ≤ i → exec (.sensorReading i v) s = .next s ∧ exec (.peakClr i) s = .next s)
  ∧ (∀ (i : Nat) (v : Int) (s : State), s.clocked = true → i < 24 → ∃ t, exec (.sensorReading i v) s = .next t ∧ t.sensorTemp i = clamp v ∧ peak t i = max (peak s i) (clamp v) ∧ t.gov.seen.contains i = true ∧ (∀ j, j < 24 → j ≠ i → t.reg (Reg.govSensor j) = s.reg (Reg.govSensor j)) ∧ Only [.regs, .counters, .events, .fcp, .obs, .line, .gov] s t)
  ∧ (∀ (i : Nat) (v : Int) (s : State), ok s i → v < -40 ∨ 130 < v → ∃ t, exec (.sensorReading i v) s = .next t ∧ t.flag (Reg.govSensor i) Fld.govSensor_fault = true ∧ t.sensorValid i = false ∧ Recorded s t 0x0A09 (natBe 1 i) ∧ (t.tierForced = true → t.tier = max 4 s.tier) ∧ t.line = s.line)
  ∧ (∀ (i : Nat) (v : Int) (s : State), ok s i → 112 ≤ v → v ≤ 130 → mget (fun _ => 0) s.gov.badRuns i < 9 → ∃ t, exec (.sensorReading i v) s = .next t ∧ t.flag (Reg.govSensor i) Fld.govSensor_fault = false ∧ t.keyless ∧ Recorded s t 0x0210 (natBe 1 (t.fld Reg.macsecAlarm Fld.macsecAlarm_source)))
  ∧ (∀ (i j : Nat) (v h : Int) (s t : State), ok s i → exec (.sensorReading i v) s = .next t → t.hottest = some (j, h) → t.tierForced = false → t.tier = max s.tier (t.tierOf h 0) ∧ changed s t (t.tierOf h 0) j h)
  ∧ (∀ (i : Nat) (v : Int) (s : State), s.clocked = true → i < 24 → s.flag (Reg.govSensor i) Fld.govSensor_fault = true → ∃ t, exec (.sensorReading i v) s = .next t ∧ t.tier = s.tier ∧ t.flag (Reg.govSensor i) Fld.govSensor_fault = true ∧ RegsOnly [Reg.govSensor i] s t ∧ Only [.regs, .gov] s t)
  ∧ (∀ (j : Nat) (h : Int) (s : State), s.clocked = true → s.hottest = some (j, h) → s.tierForced = false → ∃ t, exec .tierExit s = .next t ∧ t.tier = min s.tier (s.tierOf h (s.fld Reg.govThermCfg Fld.govThermCfg_hyst : Nat))
    ∧ changed s t (s.tierOf h (s.fld Reg.govThermCfg Fld.govThermCfg_hyst : Nat)) j h ∧ Only [.regs, .counters, .events, .fcp, .obs] s t)
  ∧ (∀ (s : State), s.hottest = none ∨ s.tierForced = true → exec .tierExit s = .next s)
  ∧ (∀ (s : State), ∃ t, exec .thermtrip s = .next t ∧ t.pins = { s.pins with thermtrip := true, clocksStopped := true, linkIdle := true } ∧ t.clocked = false ∧ t.keyless ∧ Only [.regs, .pins, .line] s t)
  ∧ (∀ (i : Nat) (s : State), s.clocked = true → i < 24 → ∃ t, exec (.peakClr i) s = .next t ∧ peak t i = s.sensorTemp i ∧ t.sensorTemp i = s.sensorTemp i ∧ RegsOnly [Reg.govSensor i] s t ∧ Only [.regs] s t)

/-- R391, R394 to R398. That a session that is not authenticated holds one of the eight places is the model's choice (log 30). -/
def Obligations.SessionsOpenAndClose : Prop :=
  let common (hi : Nat) : Nat := min hi 3
  let free (s : State) (i : Nat) : Prop := 1 ≤ i ∧ i ≤ 8 ∧ s.session i = none ∧ ∀ j, j < 9 → 1 ≤ j → j < i → s.session j ≠ none
  let bare (s t : State) (r st : Nat) : Prop := t.fcp.sent = s.fcp.sent ++ [{ session := 0, type := 2, seq := 0, request := r, status := st, reply := true, gap := false, payload := [] }] ∧ t.fcp.sessions = s.fcp.sessions
  let shows (m : FcpMsg) : Nat × Nat × Nat × Nat × Bool := (m.session, m.type, m.request, m.status, m.reply)
  let came (s : State) (h : FcpHdr) (x : Session) : Prop := s.clocked = true ∧ Accepted s h x
  let gone (t : State) (i : Nat) : Prop := t.session i = none ∧ ∀ b ∈ t.fcp.open_ ++ t.fcp.waiting, b.session ≠ i
  let opens (t : State) : Nat := (t.fcp.sessions.filter (fun y => y.auth)).length
  let answered (t : State) (h : FcpHdr) (st : Nat) (p : Bytes) : Prop := ∃ m ∈ t.fcp.sent, shows m = (h.session, 4, h.request, st, true) ∧ m.payload = p
  (∀ (p r lo hi : Nat) (k : BitVec 384) (s : State), s.fcpUp = false → exec (.hello p r lo hi k) s = .next s)
  ∧ (∀ (p r lo hi : Nat) (k : BitVec 384) (s : State), s.clocked = true → s.fcpUp = true → common hi < max lo 1 → ∃ t, exec (.hello p r lo hi k) s = .next t ∧ bare s t r 7 ∧ Only [.fcp] s t)
  ∧ (∀ (p r lo hi : Nat) (k : BitVec 384) (s : State), s.clocked = true → s.fcpUp = true → max lo 1 ≤ common hi → 8 ≤ s.fcp.sessions.length → ∃ t, exec (.hello p r lo hi k) s = .next t ∧ bare s t r 4 ∧ Only [.fcp] s t)
  ∧ (∀ (p r lo hi i : Nat) (k : BitVec 384) (s : State), s.clocked = true → s.fcpUp = true → max lo 1 ≤ common hi → s.fcp.sessions.length < 8 → free s i → ∃ t, exec (.hello p r lo hi k) s = .next t ∧ (t.session i).map (fun x => (x.id, x.port, x.version, x.auth, x.rxSeq)) = some (i, p, common hi, false, 0)
    ∧ (t.session i).map (fun x => x.keyHash) = some k ∧ t.fcp.sent.dropLast = s.fcp.sent ∧ t.fcp.sent.getLast?.map shows = some (i, 2, r, 0, true) ∧ t.fcp.sent.getLast?.map (fun m => m.payload.take 5) = some (natBe 1 (common hi) ++ natBe 4 i)
    ∧ (∀ j, j ≠ i → t.session j = s.session j) ∧ t.fcp.sessions.length = s.fcp.sessions.length + 1 ∧ Only [.fcp, .free] s t)
  ∧ (∀ (h : FcpHdr) (x : Session) (i p : Nat) (s : State), came s h x → x.auth = false → s.peerOf x.keyHash = some (i, p) → ∃ t, exec (.auth h true) s = .next t ∧ (t.session h.session).map (fun y => (y.auth, y.peer, y.priv, y.rxSeq)) = some (true, i, p, h.seq) ∧ answered t h 0 (natBe 1 p)
    ∧ Recorded s t 0x0130 (natBe 4 h.session ++ natBe 1 p ++ natBe 1 x.port) ∧ t.fld Reg.fcpCtrl Fld.fcpCtrl_sessions = opens t % 16 ∧ Only [.regs, .counters, .events, .fcp, .obs] s t)
  ∧ (∀ (h : FcpHdr) (x : Session) (b : Bool) (s : State), came s h x → x.auth = false → b = false ∨ s.peerOf x.keyHash = none → ∃ t, exec (.auth h b) s = .next t ∧ gone t h.session ∧ answered t h 1 [] ∧ Counted s t .controlFcpAuthRefused 0 1 ∧ Recorded s t 0x0132 (natBe 1 x.port) ∧ Only [.regs, .counters, .events, .fcp, .obs] s t)
  ∧ (∀ (h : FcpHdr) (x : Session) (b : Bool) (s : State), came s h x → x.auth = true → ∃ t, exec (.auth h b) s = .next t ∧ Replied t h 3 1 [] ∧ Only [.fcp] s t)
  ∧ (∀ (h : FcpHdr) (x : Session) (s : State), came s h x → ∃ t, exec (.keepalive h) s = .next t ∧ t.session h.session = some { x with rxSeq := h.seq } ∧ t.fcp.sent = s.fcp.sent ∧ (∀ j, j ≠ h.session → t.session j = s.session j) ∧ Only [.fcp] s t)
  ∧ (∀ (h : FcpHdr) (x : Session) (b : Bool) (s : State), s.clocked = true → s.session h.session = some x → s.fcpUp = true → h.tagOk = false → exec (.keepalive h) s = .next (s.count .controlFcpAuthFail) ∧ exec (.auth h b) s = .next (s.count .controlFcpAuthFail)
    ∧ exec (.close h) s = .next (s.count .controlFcpAuthFail))
  ∧ (∀ (h : FcpHdr) (x : Session) (b : Bool) (s : State), s.clocked = true → s.session h.session = some x → s.fcpUp = true → h.tagOk = true → h.seq ≤ x.rxSeq → exec (.keepalive h) s = .next (s.count .controlFcpReplay) ∧ exec (.auth h b) s = .next (s.count .controlFcpReplay)
    ∧ exec (.close h) s = .next (s.count .controlFcpReplay))
  ∧ (∀ (h : FcpHdr) (b : Bool) (s : State), s.session h.session = none ∨ s.fcpUp = false → exec (.keepalive h) s = .next s ∧ exec (.auth h b) s = .next s ∧ exec (.close h) s = .next s)
  ∧ (∀ (h : FcpHdr) (x : Session) (s : State), came s h x → ∃ t, exec (.close h) s = .next t ∧ gone t h.session ∧ Recorded s t 0x0131 (natBe 4 h.session ++ natBe 1 1) ∧ t.fld Reg.fcpCtrl Fld.fcpCtrl_sessions = opens t % 16 ∧ (∀ j, j ≠ h.session → (t.session j = none ↔ s.session j = none)) ∧ Only [.regs, .counters, .events, .fcp, .obs] s t)
  ∧ (∀ (i : Nat) (x : Session) (s : State), s.clocked = true → s.session i = some x → s.fcpUp = true → ∃ t, exec (.keepaliveSend i) s = .next t ∧ t.fcp.sent = s.fcp.sent ++ [{ session := i, type := 5, seq := x.txSeq + 1, request := 0, status := 0, reply := false, gap := false, payload := [] }]
    ∧ t.session i = some { x with txSeq := x.txSeq + 1 } ∧ Only [.fcp] s t)
  ∧ (∀ (i : Nat) (s : State), s.session i = none ∨ s.fcpUp = false → exec (.keepaliveSend i) s = .next s ∧ exec (.sessionKeepaliveTimeout i) s = .next s)
  ∧ (∀ (i : Nat) (x : Session) (s : State), s.clocked = true → s.session i = some x → s.fcpUp = true → ∃ t, exec (.sessionKeepaliveTimeout i) s = .next t ∧ gone t i ∧ Recorded s t 0x0131 (natBe 4 i ++ natBe 1 2) ∧ Only [.regs, .counters, .events, .fcp, .obs] s t)
  ∧ (∀ (m : Nat) (s : State), s.clocked = true → m < 2 → exec (.mgmtOtherFrame m) s = .next (s.count .controlMgmtRxOther m))
  ∧ (∀ (m : Nat) (s : State), 2 ≤ m → exec (.mgmtOtherFrame m) s = .next s)

/-- R407, R408, R467. That LEARN_ACK acknowledges all that was sent is the model's choice (log 31). -/
def Obligations.EventsAndLearnRecordsAreDelivered : Prop :=
  let came (s : State) (h : FcpHdr) (x : Session) : Prop := s.clocked = true ∧ Accepted s h x
  let after (s : State) (n : Nat) : List EventRec := s.ev.ring.filter (fun r => decide (n < r.seq))
  let unacked (s : State) (x : Session) : List EventRec := s.ev.ring.filter (fun r => decide (x.ackSeq < r.seq) && decide (r.seq ≤ x.sentSeq))
  let few (l : List EventRec) : Prop := l ≠ [] ∧ l.length ≤ 32
  let told (s t : State) (i y : Nat) (g : Bool) (p : Bytes) : Prop := t.fcp.sent.dropLast = s.fcp.sent ∧ t.fcp.sent.getLast?.map (fun m => (m.session, m.type, m.gap, m.reply, m.payload)) = some (i, y, g, false, p)
  let windowOf (s : State) (c k : Nat) : Option RateWindow := s.ev.windows.find? (fun w => w.code == c && w.key == k)
  let rd (s : State) : Nat := s.fld Reg.learnLogPtr Fld.learnLogPtr_rd
  let held (s : State) : Nat := (s.fld Reg.learnLogPtr Fld.learnLogPtr_wr + 65536 - rd s) % 65536
  let records (s : State) (k : Nat) : Bytes := ((List.range k).map (fun i => tblBytes s.mem (hbmAddr (s.logOffset ((rd s + i) % 65536))) 16)).flatten
  (∀ (h : FcpHdr) (x : Session) (q : Nat) (s : State), came s h x → x.auth = true → ∃ t, exec (.eventAck h q) s = .next t ∧ t.session h.session = some { x with rxSeq := h.seq, ackSeq := max x.ackSeq q } ∧ t.fcp.sent = s.fcp.sent ∧ Only [.fcp] s t)
  ∧ (∀ (h : FcpHdr) (x : Session) (q : Nat) (s : State), came s h x → x.auth = true → few (after s q) → ∃ t, exec (.eventResume h q) s = .next t ∧ told s t h.session 0x28 ((after s q).head?.map (fun r => r.seq) != some (q + 1)) ((after s q).map EventRec.bytes).flatten
    ∧ (t.session h.session).map (fun y => (y.ackSeq, y.sentSeq)) = some (q, ((after s q).getLast?.map (fun r => r.seq)).getD 0) ∧ Only [.fcp] s t)
  ∧ (∀ (h : FcpHdr) (x : Session) (q : Nat) (s : State), came s h x → x.auth = true → after s q = [] → ∃ t, exec (.eventResume h q) s = .next t ∧ t.fcp.sent = s.fcp.sent ∧ (t.session h.session).map (fun y => y.ackSeq) = some q ∧ Only [.fcp] s t)
  ∧ (∀ (i : Nat) (x : Session) (s : State), s.clocked = true → s.session i = some x → x.auth = true → s.fcpUp = true → few (unacked s x) → ∃ t, exec (.eventResend i) s = .next t ∧ told s t i 0x28 false ((unacked s x).map EventRec.bytes).flatten ∧ Only [.fcp] s t)
  ∧ (∀ (i : Nat) (x : Session) (s : State), s.session i = some x → unacked s x = [] ∨ x.auth = false ∨ s.fcpUp = false → exec (.eventResend i) s = .next s)
  ∧ (∀ (c k : Nat) (s : State), windowOf s c k = none → exec (.eventWindowClose c k) s = .next s)
  ∧ (∀ (c k : Nat) (w : RateWindow) (s : State), s.clocked = true → windowOf s c k = some w → w.held = 0 → ∃ t, exec (.eventWindowClose c k) s = .next t ∧ t.noWindow c k ∧ t.ev.ring = s.ev.ring ∧ t.ev.bootLog = s.ev.bootLog ∧ Only [.events] s t)
  ∧ (∀ (c k : Nat) (w : RateWindow) (s : State), s.clocked = true → windowOf s c k = some w → w.held ≠ 0 → ∃ t, exec (.eventWindowClose c k) s = .next t ∧ Recorded s t c w.data ∧ (∃ r ∈ t.eventLog, r.code = c ∧ r.held = w.held ∧ r.data = w.data)
    ∧ (windowOf t c k).map (fun v => v.held) = some 0 ∧ Only [.counters, .events, .fcp, .obs] s t)
  ∧ (∀ (h : FcpHdr) (x : Session) (s : State), came s h x → x.auth = true → s.boot.stage ≠ .recovery → ∃ t, exec (.learnAck h) s = .next t ∧ t.session h.session = some { x with rxSeq := h.seq, learnAcked := x.learnSent } ∧ t.fcp.sent = s.fcp.sent ∧ Only [.fcp] s t)
  ∧ (∀ (h : FcpHdr) (x : Session) (s : State), came s h x → s.boot.stage = .recovery → ∃ t, exec (.learnAck h) s = .next t ∧ Replied t h 0x2C 1 [] ∧ Only [.fcp] s t)
  ∧ (∀ (n : Nat) (s : State), s.boot.fwRunning = false ∨ n = 0 ∨ held s = 0 → exec (.learnLogDrain n) s = .next s)
  ∧ (∀ (n : Nat) (s : State), s.clocked = true → s.boot.fwRunning = true → 0 < n → 0 < held s → ∃ t, exec (.learnLogDrain n) s = .next t ∧ rd t = (rd s + min n (held s)) % 65536 ∧ held t = held s - min n (held s) ∧ RegsOnly [Reg.learnLogPtr] s t ∧ Only [.regs, .fcp, .lookup] s t)
  ∧ (∀ (n : Nat) (x : Session) (s : State), s.clocked = true → s.boot.fwRunning = true → 0 < n → 0 < held s → min n (held s) ≤ 256 → s.fcp.sessions = [x] → x.auth = true → x.priv = 1 → ∃ t, exec (.learnLogDrain n) s = .next t ∧ told s t x.id 0x2B false (records s (min n (held s)))
    ∧ (t.session x.id).map (fun y => y.learnSent) = some (x.learnSent + min n (held s)))
  ∧ (∀ (b : Nat) (s : State), s.boot.fwRunning = false ∨ s.flag (Reg.tableAgeCfg b) Fld.tableAgeCfg_stale = false → exec (.shadowReloadDone b) s = .next s)
  ∧ (∀ (b : Nat) (s : State), s.clocked = true → b < 256 → s.boot.fwRunning = true → s.flag (Reg.tableAgeCfg b) Fld.tableAgeCfg_stale = true → ∃ t, exec (.shadowReloadDone b) s = .next t ∧ t.flag (Reg.tableAgeCfg b) Fld.tableAgeCfg_stale = false ∧ Recorded s t 0x0134 (natBe 1 b)
    ∧ (∀ a ∈ allHeads s.mem, bits (tbl128 s.mem a) 119 112 = b → tbl128 t.lookup.shadow a = tbl128 s.mem a) ∧ Only [.regs, .counters, .events, .fcp, .obs, .lookup] s t)

/-- R44 to R47, R402. -/
def Obligations.FuseBitsAreOnlyEverSet : Prop :=
  let keeps (f g : Fuses) : Prop := (∀ k, f.programmed k = true → mget (fun _ => (0 : BitVec 384)) g.ownerHash k = mget (fun _ => (0 : BitVec 384)) f.ownerHash k) ∧ (∀ k, bit f.ownerRevoked k = true → bit g.ownerRevoked k = true)
    ∧ (∀ k, bit f.provRevoked k = true → bit g.provRevoked k = true) ∧ f.jtag &&& g.jtag = f.jtag ∧ f.secFloor ≤ g.secFloor ∧ g.identity = f.identity ∧ g.serial = f.serial
  let asks (s : State) (h : FcpHdr) (x : Session) (p : Nat) : Prop := s.clocked = true ∧ Granted s h x 0x42 p
  let statusOf (t : State) : Bytes := natBe 8 (t.reg Reg.fuseStatus).toNat
  let made (s t : State) (h : FcpHdr) (slot kind : Nat) (f : Fuses) : Prop := t.fuses = f ∧ Replied t h 0x42 0 (statusOf t) ∧ Recorded s t 0x011C (natBe 1 slot ++ natBe 1 kind) ∧ RegsOnly [Reg.fuseStatus] s t
  let no (s t : State) (h : FcpHdr) (st : Nat) (p : Bytes) : Prop := t.fuses = s.fuses ∧ Replied t h 0x42 st p ∧ t.ev = s.ev
  let live (s : State) : List Nat := (List.range 4).filter (fun k => s.fuses.programmed k && !bit s.fuses.ownerRevoked k)
  (∀ (c : Instr) (s t : State), exec c s = .next t → keeps s.fuses t.fuses)
  ∧ (∀ (k : Nat) (w : BitVec 384) (h : FcpHdr) (x : Session) (s : State), asks s h x privOwner → k < 4 → s.fuses.programmed k = false → ∃ t, exec (.fuseOwnerKey h k w true) s = .next t
    ∧ made s t h k 1 { s.fuses with ownerHash := mput (fun _ => (0 : BitVec 384)) s.fuses.ownerHash k w } ∧ Only [.regs, .counters, .fuses, .events, .fcp, .obs, .free] s t)
  ∧ (∀ (k : Nat) (w : BitVec 384) (b : Bool) (h : FcpHdr) (x : Session) (s : State), asks s h x privOwner → k < 4 → s.fuses.programmed k = true → ∃ t, exec (.fuseOwnerKey h k w b) s = .next t ∧ no s t h 9 (natBe 1 1))
  ∧ (∀ (k : Nat) (w : BitVec 384) (b : Bool) (h : FcpHdr) (x : Session) (s : State), asks s h x privOwner → 4 ≤ k → ∃ t, exec (.fuseOwnerKey h k w b) s = .next t ∧ no s t h 5 [])
  ∧ (∀ (k : Nat) (w : BitVec 384) (h : FcpHdr) (x : Session) (s : State), asks s h x privOwner → k < 4 → s.fuses.programmed k = false → ∃ t, exec (.fuseOwnerKey h k w false) s = .next t ∧ Replied t h 0x42 9 (natBe 1 4) ∧ t.ev = s.ev
    ∧ mget (fun _ => (0 : BitVec 384)) t.fuses.ownerHash k &&& w = mget (fun _ => (0 : BitVec 384)) t.fuses.ownerHash k ∧ (w ≠ 0 → mget (fun _ => (0 : BitVec 384)) t.fuses.ownerHash k ≠ w))
  ∧ (∀ (k : Nat) (h : FcpHdr) (x : Session) (s : State), asks s h x privOwner → k < 4 → bit s.fuses.ownerRevoked k = false → live s ≠ [k] → ∃ t, exec (.fuseRevokeOwner h k true) s = .next t ∧ made s t h k 2 { s.fuses with ownerRevoked := s.fuses.ownerRevoked ||| 2 ^ k } ∧ Only [.regs, .counters, .fuses, .events, .fcp, .obs] s t)
  ∧ (∀ (k : Nat) (b : Bool) (h : FcpHdr) (x : Session) (s : State), asks s h x privOwner → k < 4 → bit s.fuses.ownerRevoked k = true → ∃ t, exec (.fuseRevokeOwner h k b) s = .next t ∧ no s t h 9 (natBe 1 1))
  ∧ (∀ (k : Nat) (b : Bool) (h : FcpHdr) (x : Session) (s : State), asks s h x privOwner → live s = [k] → ∃ t, exec (.fuseRevokeOwner h k b) s = .next t ∧ no s t h 9 (natBe 1 2))
  ∧ (∀ (k : Nat) (h : FcpHdr) (x : Session) (s : State), asks s h x privOwner → k < 4 → bit s.fuses.ownerRevoked k = false → live s ≠ [k] → ∃ t, exec (.fuseRevokeOwner h k false) s = .next t ∧ no s t h 9 (natBe 1 4))
  ∧ (∀ (k : Nat) (h : FcpHdr) (x : Session) (s : State), asks s h x privWrite → k < 2 → bit s.fuses.provRevoked k = false → ∃ t, exec (.fuseRevokeProvisioning h k true) s = .next t ∧ made s t h k 3 { s.fuses with provRevoked := s.fuses.provRevoked ||| 2 ^ k } ∧ Only [.regs, .counters, .fuses, .events, .fcp, .obs] s t)
  ∧ (∀ (k : Nat) (b : Bool) (h : FcpHdr) (x : Session) (s : State), asks s h x privWrite → k < 2 → bit s.fuses.provRevoked k = true → ∃ t, exec (.fuseRevokeProvisioning h k b) s = .next t ∧ no s t h 9 (natBe 1 1))
  ∧ (∀ (v : Nat) (h : FcpHdr) (x : Session) (s : State), asks s h x privWrite → s.fuses.jtag < v → v < 4 → v &&& s.fuses.jtag = s.fuses.jtag → ∃ t, exec (.fuseJtagLevel h v true) s = .next t ∧ made s t h v 4 { s.fuses with jtag := v } ∧ Only [.regs, .counters, .fuses, .events, .fcp, .obs, .free] s t)
  ∧ (∀ (v : Nat) (b : Bool) (h : FcpHdr) (x : Session) (s : State), asks s h x privWrite → v = 0 ∨ 4 ≤ v → ∃ t, exec (.fuseJtagLevel h v b) s = .next t ∧ no s t h 5 [])
  ∧ (∀ (v : Nat) (b : Bool) (h : FcpHdr) (x : Session) (s : State), asks s h x privWrite → 0 < v → v < 4 → v ≤ s.fuses.jtag ∨ v &&& s.fuses.jtag ≠ s.fuses.jtag → ∃ t, exec (.fuseJtagLevel h v b) s = .next t ∧ no s t h 9 (natBe 1 3))
  ∧ (∀ (h : FcpHdr) (x : Session) (s : State), s.clocked = true → Granted s h x 0x43 privOwner → s.fuses.secFloor < secVersionOf s.boot.hdr → ∃ t, exec (.secfloorRaise h) s = .next t ∧ t.fuses = { s.fuses with secFloor := secVersionOf s.boot.hdr } ∧ Replied t h 0x43 0 [] ∧ Recorded s t 0x011B []
    ∧ RegsOnly [Reg.fuseStatus] s t ∧ Only [.regs, .counters, .fuses, .events, .fcp, .obs] s t)
  ∧ (∀ (h : FcpHdr) (x : Session) (s : State), s.clocked = true → Granted s h x 0x43 privOwner → secVersionOf s.boot.hdr ≤ s.fuses.secFloor → ∃ t, exec (.secfloorRaise h) s = .next t ∧ t.fuses = s.fuses ∧ Replied t h 0x43 0 [] ∧ t.ev = s.ev)

/-- R51, R398, R409, R410. The statuses of a refused FLASH_WRITE are the model's reading of Table 17.4 (log 32). -/
def Obligations.FlashResetAttestationAndWatch : Prop :=
  let asks (s : State) (h : FcpHdr) (x : Session) (y p : Nat) : Prop := s.clocked = true ∧ Granted s h x y p
  let block (s : State) (n : Nat) : Bytes := mget (fun _ => []) s.boot.flash n
  let period (s : State) : Nat := 1000000000 * s.fld Reg.boardCfg Fld.boardCfg_hbTimeout
  (∀ (a : Nat) (d : Bytes) (h : FcpHdr) (x : Session) (s : State), asks s h x 0x33 privWrite → d.length = 4096 → a % 4096 = 0 → a + 4096 ≤ 1048576 * s.boot.flashMiB → ∃ t, exec (.flashWrite h a d) s = .next t ∧ block t (a / 4096) = d ∧ (∀ n, n ≠ a / 4096 → block t n = block s n)
    ∧ Replied t h 0x33 0 [] ∧ Only [.boot, .fcp] s t)
  ∧ (∀ (a : Nat) (d : Bytes) (h : FcpHdr) (x : Session) (s : State), asks s h x 0x33 privWrite → d.length ≠ 4096 ∨ a % 4096 ≠ 0 → ∃ t, exec (.flashWrite h a d) s = .next t ∧ Replied t h 0x33 2 [] ∧ Only [.fcp] s t)
  ∧ (∀ (a : Nat) (d : Bytes) (h : FcpHdr) (x : Session) (s : State), asks s h x 0x33 privWrite → d.length = 4096 → a % 4096 = 0 → 1048576 * s.boot.flashMiB < a + 4096 → ∃ t, exec (.flashWrite h a d) s = .next t ∧ Replied t h 0x33 5 [] ∧ Only [.fcp] s t)
  ∧ (∀ (h : FcpHdr) (x : Session) (s : State), asks s h x 0x35 privWrite → ∃ t, exec (.reset h) s = .next t ∧ t.boot = { s.boot with resetDue := true } ∧ Replied t h 0x35 0 [] ∧ Only [.boot, .fcp] s t)
  ∧ (∀ (s : State), s.clocked = true → s.boot.resetDue = true → ∃ t, exec .resetDelayExpiry s = .next t ∧ ColdReset s t)
  ∧ (∀ (s : State), s.boot.resetDue = false → exec .resetDelayExpiry s = .next s)
  ∧ (∀ (n : Bytes) (h : FcpHdr) (x : Session) (s : State), asks s h x 0x40 privAll → n.length = 32 → ∃ t, exec (.attest h n) s = .next t ∧ Replied t h 0x40 0 (Config.identityCert ++ s.reportBody n ++ (List.range 96).map (Config.signByte (s.reportBody n)))
    ∧ (s.reportBody n).length = 240 ∧ ((s.reportBody n).drop 192).take 32 = n ∧ (s.reportBody n).take 4 = [0x41, 0x54, 0x53, 0x54] ∧ Only [.fcp] s t)
  ∧ (∀ (n : Bytes) (h : FcpHdr) (x : Session) (s : State), asks s h x 0x40 privAll → n.length ≠ 32 → ∃ t, exec (.attest h n) s = .next t ∧ Replied t h 0x40 2 [] ∧ Only [.fcp] s t)
  ∧ (∀ (h : FcpHdr) (x : Session) (s : State), asks s h x 0x41 privAll → ∃ t, exec (.bootStatus h) s = .next t ∧ Replied t h 0x41 0 (natBe 8 (s.reg Reg.bootStatus).toNat) ∧ Only [.fcp] s t)
  ∧ (∀ (s : State), s.clocked = true → s.boot.fwRunning = true → ∃ t, exec .kick s = .next t ∧ t.boot = { s.boot with wdogAt := s.time.stepFree } ∧ Only [.boot, .counters] s t)
  ∧ (∀ (s : State), s.boot.fwRunning = false → exec .kick s = .next s ∧ exec .boardHeartbeatWrite s = .next s)
  ∧ (∀ (s : State), s.clocked = true → s.boot.fwRunning = true → ∃ t, exec .boardHeartbeatWrite s = .next t ∧ t.fld Reg.boardHeartbeat Fld.boardHeartbeat_count = (s.fld Reg.boardHeartbeat Fld.boardHeartbeat_count + 1) % 2 ^ 32 ∧ t.pins = { s.pins with faultHeartbeat := false }
    ∧ t.boot = { s.boot with heartAt := s.time.stepFree } ∧ RegsOnly [Reg.boardHeartbeat] s t ∧ Only [.regs, .counters, .pins, .boot] s t)
  ∧ (∀ (s : State), s.clocked = true → s.fwStarted = true → s.pins.faultHeartbeat = false → s.boot.heartAt + period s ≤ s.time.stepFree → ∃ t, exec .heartbeatTimeout s = .next t ∧ t.pins = { s.pins with faultHeartbeat := true } ∧ Recorded s t 0x0135 [] ∧ Only [.counters, .pins, .events, .fcp, .obs] s t)
  ∧ (∀ (s : State), s.fwStarted = false ∨ s.pins.faultHeartbeat = true ∨ s.time.stepFree < s.boot.heartAt + period s → exec .heartbeatTimeout s = .next s)

/-- R8, R63, R270, R359, R398, R403, R441. That a count of 0 or above 64 is answered with status 2 is the model's reading of R398 (log 33). -/
def Obligations.RegistersAreReadAndWritten : Prop :=
  let reads (s : State) (h : FcpHdr) (x : Session) : Prop := s.clocked = true ∧ Granted s h x 0x10 privWrite
  let writes (s : State) (h : FcpHdr) (x : Session) : Prop := s.clocked = true ∧ Granted s h x 0x11 privWrite
  let bars (s : State) (a n : Nat) : Option Nat := ((List.range n).map (fun i => s.readBar (a + 8 * i))).find? (fun st => decide (st ≠ 0))
  let plain (a : Nat) : Prop := a ≠ Reg.timeNow ∧ inBufferHbm a = false ∧ syndromeOf a = none
  let starts (s : State) (a : Nat) (m : MaskedWord) : Option State := s.writeLine a m <|> s.writeMid a m <|> s.writeTraffic a m <|> s.writeControl a m
  let refused (s t : State) (h : FcpHdr) (st : Nat) : Prop := Replied t h 0x11 st [] ∧ RegsOnly [] s t ∧ Only ([.counters, .fcp] ++ eventParts) s t
  (∀ (a n : Nat) (h : FcpHdr) (x : Session) (s : State), reads s h x → n = 0 ∨ 64 < n → ∃ t, exec (.regRead h a n) s = .next t ∧ Replied t h 0x10 2 [] ∧ Only [.fcp] s t)
  ∧ (∀ (a n st : Nat) (h : FcpHdr) (x : Session) (s : State), reads s h x → 0 < n → n ≤ 64 → bars s a n = some st → ∃ t, exec (.regRead h a n) s = .next t ∧ Replied t h 0x10 st [] ∧ (st = 4 → Counted s t .controlBistBusyRefused 0 1) ∧ Only [.fcp, .counters] s t)
  ∧ (∀ (a n : Nat) (h : FcpHdr) (x : Session) (s : State), reads s h x → 0 < n → n ≤ 64 → bars s a n = none → (∀ i, i < n → plain (a + 8 * i)) → ∃ t, exec (.regRead h a n) s = .next t
    ∧ Replied t h 0x10 0 ((List.range n).map (fun i => natBe 8 (s.mgmtRead (a + 8 * i)).toNat)).flatten ∧ Only [.fcp, .counters] s t)
  ∧ (∀ (h : FcpHdr) (x : Session) (s : State), reads s h x → ∃ t, exec (.regRead h Reg.timeNow 1) s = .next t ∧ Replied t h 0x10 0 (natBe 8 (t.reg Reg.timeNow).toNat) ∧ t.fld Reg.timeNow Fld.timeNow_seconds = s.tod / 1000000000 % 2 ^ 48
    ∧ t.fld Reg.timeNowNs Fld.timeNowNs_nanoseconds = s.tod % 1000000000 ∧ RegsOnly [Reg.timeNow, Reg.timeNowNs] s t ∧ Only [.regs, .fcp, .counters] s t)
  ∧ (∀ (c : Nat) (h : FcpHdr) (s : State), exec (.regRead h (Reg.hbmSyndrome c) 1) s = exec (.hbmSyndromeRead h c) s)
  ∧ (∀ (a : Nat) (h : FcpHdr) (x : Session) (s : State), reads s h x → inBufferHbm a = true → (∀ c, windowCtl a = some c → s.hbmServes c = true) → s.underTest a = false → ∃ t, exec (.regRead h a 1) s = .next t ∧ t.fcp.sent.getLast?.map (fun m => (m.session, m.type, m.request, m.status, m.payload.length)) = some (h.session, 0x10, h.request, 0, 8) ∧ Only [.fcp, .counters, .free] s t)
  ∧ (∀ (a : Nat) (l : List MaskedWord) (h : FcpHdr) (x : Session) (s : State), writes s h x → l = [] ∨ 64 < l.length → ∃ t, exec (.regWrite h a l) s = .next t ∧ Replied t h 0x11 2 [] ∧ Only [.fcp] s t)
  ∧ (∀ (a : Nat) (l : List MaskedWord) (h : FcpHdr) (x : Session) (s : State), writes s h x → l ≠ [] → l.length ≤ 64 → s.writesBar a l ≠ 0 → ∃ t, exec (.regWrite h a l) s = .next t ∧ refused s t h (s.writesBar a l))
  ∧ (∀ (a : Nat) (m : MaskedWord) (h : FcpHdr) (x : Session) (s : State), writes s h x → s.regAt a = none → ∃ t, exec (.regWrite h a [m]) s = .next t ∧ refused s t h 9)
  ∧ (∀ (a : Nat) (m : MaskedWord) (d : RegDesc) (f : FieldDesc) (h : FcpHdr) (x : Session) (s : State), writes s h x → s.regAt a = some d → s.underTest a = false → f ∈ d.fields → getField f.field m.mask ≠ 0 → f.acc = .img ∨ f.acc = .ro ∨ f.acc = .snap ∨ f.writer ≠ .host
    → ∃ t, exec (.regWrite h a [m]) s = .next t ∧ refused s t h 9)
  ∧ (∀ (v : Nat) (h : FcpHdr) (x : Session) (s : State), writes s h x → v < 200 ∨ 600 < v → v < 1024 → ∃ t, exec (.regWrite h Reg.govBudget [{ value := BitVec.ofNat 64 (2 ^ 54 * v), mask := BitVec.ofNat 64 (2 ^ 54 * 1023) }]) s = .next t ∧ refused s t h 5)
  ∧ (∀ (v : Nat) (m : MaskedWord) (h : FcpHdr) (x : Session) (s : State), writes s h x → 200 ≤ v → v ≤ 600 → s.writeBar (Reg.govBudget + 8) m ≠ 0 → ∃ t, exec (.regWrite h Reg.govBudget [{ value := BitVec.ofNat 64 (2 ^ 54 * v), mask := BitVec.ofNat 64 (2 ^ 54 * 1023) }, m]) s = .next t
    ∧ refused s t h (s.writeBar (Reg.govBudget + 8) m))
  ∧ (∀ (v : Nat) (h : FcpHdr) (x : Session) (s : State), writes s h x → 200 ≤ v → v ≤ 600 → ∃ t, exec (.regWrite h Reg.govBudget [{ value := BitVec.ofNat 64 (2 ^ 54 * v), mask := BitVec.ofNat 64 (2 ^ 54 * 1023) }]) s = .next t ∧ t.fld Reg.govBudget Fld.govBudget_budget = v
    ∧ (t.reg Reg.govBudget).toNat % 2 ^ 54 = (s.reg Reg.govBudget).toNat % 2 ^ 54 ∧ Replied t h 0x11 0 [] ∧ RegsOnly [Reg.govBudget] s t ∧ Only [.regs, .counters, .fcp] s t)
  ∧ (∀ (v : Bool) (h : FcpHdr) (x : Session) (s : State), writes s h x → ∃ t, exec (.regWrite h Reg.compareStatus [{ value := if v then 1 else 0, mask := 1 }]) s = .next t ∧ t.flag Reg.compareStatus ⟨0, 0⟩ = (s.flag Reg.compareStatus ⟨0, 0⟩ && !v)
    ∧ Replied t h 0x11 0 [] ∧ RegsOnly [Reg.compareStatus] s t ∧ Only [.regs, .counters, .fcp] s t)
  ∧ (∀ (a : Nat) (m : MaskedWord) (d : RegDesc) (h : FcpHdr) (x : Session) (s : State), writes s h x → s.regAt a = some d → s.writesBar a [m] = 0 → m.mask ≠ 0 → starts s a m = none → ∃ t, exec (.regWrite h a [m]) s = .next t ∧ t.reg a = d.maskedWrite (s.reg a) m.value m.mask
    ∧ Replied t h 0x11 0 [] ∧ RegsOnly [a] s t ∧ Only [.regs, .counters, .fcp] s t)
  ∧ (∀ (a : Nat) (l : List MaskedWord) (h : FcpHdr) (x : Session) (s : State), writes s h x → l ≠ [] → l.length ≤ 64 → s.writesBar a l = 0 → ∃ t, exec (.regWrite h a l) s = .next t ∧ Replied t h 0x11 0 []
    ∧ Only [.fcp] (State.writeWords (s.setSession { x with rxSeq := h.seq }) x.priv (h.session - 1) a l) t)
  ∧ (∀ (w : Bool) (a : Nat) (h : FcpHdr) (x : Session) (s : State), s.clocked = true → Granted s h x (if w then 0x11 else 0x10) privWrite → ∃ t, exec (.regTxnTimeout h w a) s = .next t ∧ Replied t h (if w then 0x11 else 0x10) 8 []
    ∧ Counted s t .controlAgentRegTimeout (agentOf a) 1 ∧ Recorded s t 0x0133 (natBe 6 a) ∧ Only ([.counters, .fcp] ++ eventParts) s t)
  ∧ (∀ (a n : Nat) (w : Bool) (l : List MaskedWord) (r : Reply) (h : FcpHdr) (x : Session) (s : State), s.clocked = true → s.session h.session = some x → s.fcpUp = true → h.tagOk = true → x.rxSeq < h.seq → x.replies.find? (fun r => r.request == h.request) = some r
    → exec (.regWrite h a l) s = exec (.regRead h a n) s ∧ exec (.regTxnTimeout h w a) s = exec (.regRead h a n) s ∧ ∃ t, exec (.regRead h a n) s = .next t ∧ Replied t h r.type r.status r.payload ∧ Only [.fcp] s t)

/-- R347, R348, R353, R399 to R401, R468. That operations are numbered from 0 in BATCH_ACK is the model's choice (log 34). -/
def Obligations.BatchesApplyWhole : Prop :=
  let came (s : State) (h : FcpHdr) (x : Session) (y : Nat) : Prop := s.clocked = true ∧ Granted s h x y privWrite
  let logged (s : State) (x : Session) (n : Nat) : Option BatchLog := s.fcp.log.find? (fun l => l.peer == x.peer && l.number == n)
  let most (x : Session) : Nat := if x.version < 3 then 1024 else 4096
  let waits (s : State) (i : Nat) : Nat := (s.fcp.waiting.filter (fun b => b.session == i)).length
  let others (s : State) (i n : Nat) : List Batch := s.fcp.open_.filter (fun b => !(b.session == i && b.number == n))
  let quiet (s t : State) : Prop := t.fcp.sent = s.fcp.sent ∧ t.fcp.log = s.fcp.log ∧ Only [.fcp] s t
  let ack (t : State) (h : FcpHdr) (st n first reason : Nat) : Prop := Replied t h 0x23 st (natBe 4 n ++ natBe 2 first ++ natBe 1 reason)
  let fewer (b : Batch) : Prop := ∀ n, b.ended = some n → b.segments.length < n
  let done (b : Batch) : Prop := ∀ n ∈ b.ended.toList, n ≤ b.segments.length
  let due (s : State) : Prop := (s.fcp.lastFlip.map (fun t => decide (t + 100 * s.fld Reg.epochCtrl Fld.epochCtrl_batchGap ≤ s.time.stepFree))).getD true = true
  let ended (s : State) : Prop := s.lookup.flowWait = [] ∧ s.lookup.assocWait = [] ∧ s.lookup.lookQ.all (fun p => p.2.isEmpty) = true
  let atFlip (s : State) : State := { s with fcp := { s.fcp with flip := none, lastFlip := some s.time.stepFree } }
  let same (s t : State) : Prop := t.mem = s.mem ∧ t.bankOdd = s.bankOdd ∧ RegsOnly [] s t
  (∀ (n k c : Nat) (l : BatchLog) (h : FcpHdr) (x : Session) (s : State), came s h x 0x20 → logged s x n = some l → ∃ t, exec (.batchBegin h n k c) s = .next t ∧ ack t h l.status n l.firstBad l.reason ∧ t.fcp.open_ = s.fcp.open_ ∧ Only [.fcp] s t)
  ∧ (∀ (n k c : Nat) (h : FcpHdr) (x : Session) (s : State), came s h x 0x20 → logged s x n = none → 1 < k ∨ c = 0 ∨ most x < c → ∃ t, exec (.batchBegin h n k c) s = .next t ∧ ack t h 2 n 0 0x0A ∧ t.fcp.open_ = s.fcp.open_ ∧ Only [.fcp] s t)
  ∧ (∀ (n k c : Nat) (h : FcpHdr) (x : Session) (s : State), came s h x 0x20 → logged s x n = none → k ≤ 1 → 0 < c → c ≤ most x → 8 ≤ waits s x.id → ∃ t, exec (.batchBegin h n k c) s = .next t ∧ ack t h 4 n 0 0 ∧ t.fcp.open_ = s.fcp.open_ ∧ Only [.fcp] s t)
  ∧ (∀ (n k c : Nat) (h : FcpHdr) (x : Session) (s : State), came s h x 0x20 → logged s x n = none → k ≤ 1 → 0 < c → c ≤ most x → waits s x.id < 8 → ∃ t, exec (.batchBegin h n k c) s = .next t
    ∧ t.fcp.open_ = others s x.id n ++ [{ session := x.id, request := h.request, peer := x.peer, number := n, kind := k, count := c, segments := [], ended := none }] ∧ t.fcp.waiting = s.fcp.waiting ∧ quiet s t)
  ∧ (∀ (n g : Nat) (l : List BatchOp) (h : FcpHdr) (x : Session) (s : State), came s h x 0x21 → s.openBatch x.id n = none → ∃ t, exec (.batchData h n g l) s = .next t ∧ ack t h 2 n 0 0x0A ∧ t.fcp.open_ = s.fcp.open_ ∧ t.fcp.waiting = s.fcp.waiting ∧ Only [.fcp] s t)
  ∧ (∀ (n g : Nat) (l : List BatchOp) (b c : Batch) (h : FcpHdr) (x : Session) (s : State), came s h x 0x21 → s.openBatch x.id n = some b → c = { b with segments := minsert g l (mdrop g b.segments) } → fewer c → ∃ t, exec (.batchData h n g l) s = .next t
    ∧ t.fcp.open_ = others s x.id n ++ [c] ∧ t.fcp.waiting = s.fcp.waiting ∧ quiet s t)
  ∧ (∀ (n g : Nat) (l : List BatchOp) (b c : Batch) (h : FcpHdr) (x : Session) (s : State), came s h x 0x21 → s.openBatch x.id n = some b → c = { b with segments := minsert g l (mdrop g b.segments) } → c.ended ≠ none → done c → c.ops.length = c.count → waits s x.id < 8
    → ∃ t, exec (.batchData h n g l) s = .next t ∧ t.fcp.open_ = others s x.id n ∧ t.fcp.waiting = s.fcp.waiting ++ [c] ∧ quiet s t)
  ∧ (∀ (n g : Nat) (h : FcpHdr) (x : Session) (s : State), came s h x 0x22 → s.openBatch x.id n = none → ∃ t, exec (.batchEnd h n g) s = .next t ∧ ack t h 2 n 0 0x0A ∧ t.fcp.open_ = s.fcp.open_ ∧ t.fcp.waiting = s.fcp.waiting ∧ Only [.fcp] s t)
  ∧ (∀ (n g : Nat) (b : Batch) (h : FcpHdr) (x : Session) (s : State), came s h x 0x22 → s.openBatch x.id n = some b → b.segments.length < g → ∃ t, exec (.batchEnd h n g) s = .next t ∧ t.fcp.open_ = others s x.id n ++ [{ b with request := h.request, ended := some g }]
    ∧ t.fcp.waiting = s.fcp.waiting ∧ quiet s t)
  ∧ (∀ (n g : Nat) (b : Batch) (h : FcpHdr) (x : Session) (s : State), came s h x 0x22 → s.openBatch x.id n = some b → g ≤ b.segments.length → b.ops.length = b.count → waits s x.id < 8 → ∃ t, exec (.batchEnd h n g) s = .next t ∧ t.fcp.open_ = others s x.id n
    ∧ t.fcp.waiting = s.fcp.waiting ++ [{ b with request := h.request, ended := some g }] ∧ quiet s t)
  ∧ (∀ (n g : Nat) (b : Batch) (h : FcpHdr) (x : Session) (s : State), came s h x 0x22 → s.openBatch x.id n = some b → g ≤ b.segments.length → b.ops.length ≠ b.count → ∃ t, exec (.batchEnd h n g) s = .next t ∧ ack t h 2 n 0 0x0A ∧ t.fcp.open_ = others s x.id n
    ∧ t.fcp.waiting = s.fcp.waiting ∧ Only [.fcp] s t)
  ∧ (∀ (i n : Nat) (b : Batch) (x : Session) (s : State), s.clocked = true → s.session i = some x → s.openBatch i n = some b → ∃ t, exec (.batchSegmentTimeout i n) s = .next t ∧ ack t b.header 2 n 0 0 ∧ t.fcp.open_ = others s i n ∧ t.fcp.waiting = s.fcp.waiting ∧ Only [.fcp] s t)
  ∧ (∀ (i n : Nat) (s : State), s.openBatch i n = none → exec (.batchSegmentTimeout i n) s = .next s)
  ∧ (∀ (s : State), s.fcp.flip ≠ none ∨ s.boot.fwRunning = false ∨ s.fcp.waiting = [] → exec .batchApply s = .next s)
  ∧ (∀ (b : Batch) (l : List Batch) (e : Nat × Nat × Nat) (x : Session) (s : State), s.clocked = true → s.fcp.flip = none → s.boot.fwRunning = true → s.fcp.waiting = b :: l → s.session b.session = some x → State.batchRun { s with fcp := { s.fcp with waiting := l } } b = .error e
    → ∃ t, exec .batchApply s = .next t ∧ ack t b.header e.2.1 b.number e.1 e.2.2 ∧ t.fcp.waiting = l ∧ t.fcp.flip = none ∧ t.fcp.log = s.fcp.log ∧ same s t ∧ Only [.regs, .mem, .counters, .events, .fcp, .obs, .lookup] s t)
  ∧ (∀ (b : Batch) (l : List Batch) (f : State) (s : State), s.clocked = true → s.fcp.flip = none → s.boot.fwRunning = true → s.fcp.waiting = b :: l → State.batchRun { s with fcp := { s.fcp with waiting := l } } b = .ok f → ∃ t, exec .batchApply s = .next t
    ∧ t.fcp = { s.fcp with waiting := l, flip := some b } ∧ RegsOnly [] s t ∧ t.bankOdd = s.bankOdd ∧ MemOnly [(0x0001_1000_0000, 0x0800_0000), (0x0001_3000_0000, 0x0080_0000)] s t ∧ Only [.regs, .mem, .counters, .events, .fcp, .obs, .lookup] s t)
  ∧ (∀ (s : State), s.fcp.flip = none ∨ ¬ due s ∨ ¬ ended s → exec .lookupBoundary s = .next s)
  ∧ (∀ (b : Batch) (f : State) (x : Session) (s : State), s.clocked = true → s.fcp.flip = some b → due s → ended s → s.session b.session = some x → (atFlip s).batchRun b = .ok f → ∃ t, exec .lookupBoundary s = .next t ∧ same f t ∧ ack t b.header 0 b.number 0 0
    ∧ t.fcp.flip = none ∧ t.fcp.lastFlip = some s.time.stepFree ∧ t.fcp.log.getLast? = some { peer := b.peer, number := b.number, status := 0, reason := 0, firstBad := 0 } ∧ Only [.regs, .mem, .banks, .counters, .events, .fcp, .obs, .lookup, .traffic, .free] s t)
  ∧ (∀ (b : Batch) (e : Nat × Nat × Nat) (x : Session) (s : State), s.clocked = true → s.fcp.flip = some b → due s → ended s → s.session b.session = some x → (atFlip s).batchRun b = .error e → ∃ t, exec .lookupBoundary s = .next t ∧ same s t ∧ ack t b.header e.2.1 b.number e.1 e.2.2
    ∧ t.fcp.flip = none ∧ t.fcp.log = s.fcp.log)
  ∧ (∀ (b : Batch) (i v : Nat) (x : Session) (s : State), s.clocked = true → s.fcp.flip = some b → due s → ended s → s.session b.session = some x → b.kind = 0 → b.ops = [{ opcode := 1, target := 4, table := 0, index := i, static := false, data := natBe 8 v }] → i < 1048576 → v < 2 ^ 58
    → bit (tblWord s.mem (labelAddr i)) 62 = bit (tblWord s.mem (labelAddr i)) 61 → ∃ t, exec .lookupBoundary s = .next t ∧ tblWord t.mem (labelAddr i) = 2 ^ 63 + 2 ^ 62 + 2 ^ 61 + v / 64 * 64 ∧ MemOnly [(labelAddr i, 8)] s t)

/-- R355 to R357, R442, R444. That IMAGE_STAGE is answered with status 6 outside IDLE and a reload with status 9 while a port is up is the model's choice (log 35). -/
def Obligations.ImagesAndSlicesChangeInService : Prop :=
  let stages (s : State) (h : FcpHdr) (x : Session) : Prop := s.clocked = true ∧ Granted s h x 0x31 privWrite
  let reloads (s : State) (h : FcpHdr) (x : Session) : Prop := s.clocked = true ∧ Granted s h x 0x32 privWrite
  let holds (s : State) (g : Staged) : Prop := s.clocked = true ∧ s.boot.staged = some g ∧ g.checked = false
  let good (s : State) (hd : Bytes) (k : BitVec 384) (sg : Bool) : Prop := hdrCheck true 0 s.boot.flashMiB hd = 0 ∧ s.keyOkay (keySlot hd) k = true ∧ sg = true ∧ s.fuses.secFloor ≤ secVersionOf hd
  let wellFormed (hd tb bo : Bytes) : Prop := sectionsOk hd tb = true ∧ (imageRecords hd tb bo).all (fun x => x.2.2) = true
  let free (s : State) (l : List Diff) : Prop := l.all (fun d => !s.underTest d.addr && !s.returnsFailed d.addr d.word) = true
  let dropped (s t : State) (r : Nat) : Prop := t.boot = { s.boot with staged := none } ∧ Recorded s t 0x0126 (natBe 1 r) ∧ Only ([.boot] ++ eventParts) s t
  let diffs (s : State) (hd tb bo : Bytes) : List Diff := s.imageDiffs hd tb bo (((imageMap hd tb bo).map (fun x => x.2)).getD [])
  let fw (hd tb bo : Bytes) : Bool := (((imageMap hd tb bo).map (fun x => x.2)).getD []).any (fun e => e.kind == 5)
  let quiet (s : State) (k : Nat) : Prop := (s.portList.filter (fun p => p / 8 == k)).all (fun p => !s.flag (Reg.linePortCtrl p) Fld.linePortCtrl_adminUp) = true
  (∀ (b : Bool) (c n : Nat) (h : FcpHdr) (x : Session) (s : State), stages s h x → s.boot.staged = none → c < 2 ^ 48 → n < 1000000000 → s.epochPhase = 0 → ∃ t, exec (.imageStage h b c n) s = .next t
    ∧ t.boot = { s.boot with staged := some { switchNow := b, seconds := c, ns := n, checked := false, switched := false, hdr := [], tbl := [], keyHash := 0, firmware := none } } ∧ Replied t h 0x31 0 [] ∧ Only [.boot, .fcp] s t)
  ∧ (∀ (b : Bool) (c n : Nat) (h : FcpHdr) (x : Session) (s : State), stages s h x → s.boot.staged ≠ none → ∃ t, exec (.imageStage h b c n) s = .next t ∧ Replied t h 0x31 4 [] ∧ Only [.fcp] s t)
  ∧ (∀ (b : Bool) (c n : Nat) (h : FcpHdr) (x : Session) (s : State), stages s h x → s.boot.staged = none → 2 ^ 48 ≤ c ∨ 1000000000 ≤ n → ∃ t, exec (.imageStage h b c n) s = .next t ∧ Replied t h 0x31 5 [] ∧ Only [.fcp] s t)
  ∧ (∀ (b : Bool) (c n : Nat) (h : FcpHdr) (x : Session) (s : State), stages s h x → s.boot.staged = none → c < 2 ^ 48 → n < 1000000000 → s.epochPhase ≠ 0 → ∃ t, exec (.imageStage h b c n) s = .next t ∧ Replied t h 0x31 6 [] ∧ Only [.fcp] s t)
  ∧ (∀ (f sg d : Bool) (hd tb bo : Bytes) (k : BitVec 384) (s : State), s.boot.staged = none ∨ (s.boot.staged.map (fun g => g.checked)) = some true → exec (.stagedImageChecksDone f hd tb k sg d bo) s = .next s)
  ∧ (∀ (f sg d : Bool) (hd tb bo : Bytes) (k : BitVec 384) (g : Staged) (s : State), holds s g → s.stagedReason f hd tb k sg d bo ≠ 0 → ∃ t, exec (.stagedImageChecksDone f hd tb k sg d bo) s = .next t ∧ dropped s t (s.stagedReason f hd tb k sg d bo))
  ∧ (∀ (sg d : Bool) (hd tb bo : Bytes) (k : BitVec 384) (g : Staged) (s : State), holds s g → ∃ t, exec (.stagedImageChecksDone false hd tb k sg d bo) s = .next t ∧ dropped s t 0x01)
  ∧ (∀ (sg : Bool) (hd tb bo : Bytes) (k : BitVec 384) (g : Staged) (s : State), holds s g → good s hd k sg → ∃ t, exec (.stagedImageChecksDone true hd tb k sg false bo) s = .next t ∧ dropped s t 0x09)
  ∧ (∀ (sg : Bool) (hd tb bo : Bytes) (k : BitVec 384) (g : Staged) (s : State), holds s g → good s hd k sg → wellFormed hd tb bo → imageMap hd tb bo = none → ∃ t, exec (.stagedImageChecksDone true hd tb k sg true bo) s = .next t ∧ dropped s t 0x0F)
  ∧ (∀ (sg : Bool) (hd tb bo : Bytes) (k : BitVec 384) (g : Staged) (s : State), holds s g → good s hd k sg → wellFormed hd tb bo → (imageMap hd tb bo).map (fun x => x.1) ≠ some (beAt s.boot.hdr 0x10 8) → free s (diffs s hd tb bo)
    → ∃ t, exec (.stagedImageChecksDone true hd tb k sg true bo) s = .next t ∧ dropped s t 0x0F)
  ∧ (∀ (sg : Bool) (hd tb bo : Bytes) (k : BitVec 384) (g : Staged) (s : State), holds s g → good s hd k sg → wellFormed hd tb bo → imageMap hd tb bo ≠ none → ¬ free s (diffs s hd tb bo) → ∃ t, exec (.stagedImageChecksDone true hd tb k sg true bo) s = .next t ∧ dropped s t 0x10)
  ∧ (∀ (f sg d : Bool) (hd tb bo : Bytes) (k : BitVec 384) (g : Staged) (s : State), holds s g → s.stagedReason f hd tb k sg d bo = 0 → (diffs s hd tb bo).all (fun d => d.kind == 4) = true → fw hd tb bo = false → ∃ t, exec (.stagedImageChecksDone f hd tb k sg d bo) s = .next t
    ∧ t.boot = { s.boot with staged := none, records := s.boot.records ++ (diffs s hd tb bo).map (fun d => { addr := d.addr, words := [d.word] }) } ∧ Only [.boot] s t)
  ∧ (∀ (f sg d : Bool) (hd tb bo : Bytes) (k : BitVec 384) (g : Staged) (s : State), holds s g → s.stagedReason f hd tb k sg d bo = 0 → (diffs s hd tb bo).all (fun d => d.kind == 4) = false → s.epochPhase = 0 → s.fld Reg.epochInflight Fld.epochInflight_current ≠ 0 → g.switchNow = true
    → ∃ t, exec (.stagedImageChecksDone f hd tb k sg d bo) s = .next t ∧ t.epochPhase = 3 ∧ t.epoch = (s.epoch + 1) % 65536 ∧ t.epochOther = s.epoch ∧ t.boot.hdr = hd ∧ t.boot.keyHash = k ∧ t.fld Reg.bootStatus Fld.bootStatus_secVersion = secVersionOf hd % 65536
    ∧ (t.boot.staged.map (fun y => (y.checked, y.switched, y.hdr))) = some (true, true, hd) ∧ Recorded s t 0x0120 (natBe 2 (s.epoch + 1)) ∧ Recorded s t 0x0121 (natBe 2 (s.epoch + 1)) ∧ Only [.regs, .mem, .banks, .counters, .boot, .events, .fcp, .obs, .lookup, .traffic, .free] s t)
  ∧ (∀ (f sg d : Bool) (hd tb bo : Bytes) (k : BitVec 384) (g : Staged) (s : State), holds s g → s.stagedReason f hd tb k sg d bo = 0 → (diffs s hd tb bo).all (fun d => d.kind == 4) = false → s.epochPhase = 0 → g.switchNow = false → g.seconds < 2 ^ 48 → g.ns < 1000000000
    → s.tod + 10000 ≤ 1000000000 * g.seconds + g.ns → ∃ t, exec (.stagedImageChecksDone f hd tb k sg d bo) s = .next t ∧ t.epochPhase = 2 ∧ t.epoch = s.epoch ∧ t.epochOther = (s.epoch + 1) % 65536 ∧ t.switchTime = 1000000000 * g.seconds + g.ns ∧ t.boot.hdr = s.boot.hdr
    ∧ (t.boot.staged.map (fun y => (y.checked, y.switched, y.hdr))) = some (true, false, hd))
  ∧ (∀ (a : Nat) (w : Word) (f sg d : Bool) (hd tb bo : Bytes) (k : BitVec 384) (g : Staged) (s : State), holds s g → s.stagedReason f hd tb k sg d bo = 0 → (diffs s hd tb bo).map (fun d => (d.kind, d.addr, d.word)) = [(2, a, w)] → s.epochPhase = 0 → bankedLow a ≠ none
    → ∃ t, exec (.stagedImageChecksDone f hd tb k sg d bo) s = .next t ∧ t.regPar s.curOdd a = s.regPar s.curOdd a ∧ (∀ c, bankedLow c ≠ none → c ≠ a → c ≠ Reg.epochBankSel → ∀ odd ∈ [false, true], t.regPar odd c = s.regPar odd c))
  ∧ (∀ (i j n : Nat) (w : Word) (f sg d : Bool) (hd tb bo : Bytes) (k : BitVec 384) (g : Staged) (s : State), holds s g → s.stagedReason f hd tb k sg d bo = 0 → i < 12 → j < 255 → n < 16 → (diffs s hd tb bo).map (fun d => (d.kind, d.addr, d.word)) = [(3, Reg.parserFormWord i j n, w)] → s.epochPhase = 0
    → ∃ t, exec (.stagedImageChecksDone f hd tb k sg d bo) s = .next t ∧ t.reg (Reg.parserFormWord i j n) = w)
  ∧ (∀ (k : Nat) (h : FcpHdr) (x : Session) (s : State), reloads s h x → 12 ≤ k → ∃ t, exec (.sliceReload h k) s = .next t ∧ Replied t h 0x32 5 [] ∧ Only [.fcp] s t)
  ∧ (∀ (k : Nat) (h : FcpHdr) (x : Session) (s : State), reloads s h x → k < 12 → ¬ quiet s k → ∃ t, exec (.sliceReload h k) s = .next t ∧ Replied t h 0x32 9 [] ∧ Only [.fcp] s t)
  ∧ (∀ (k : Nat) (h : FcpHdr) (x : Session) (s : State), reloads s h x → k < 12 → quiet s k → ∃ t, exec (.sliceReload h k) s = .next t ∧ Replied t h 0x32 0 [] ∧ t.boot.reloading = s.boot.reloading.filter (fun y => y != k) ++ [k]
    ∧ t.recOf k = [] ∧ t.holdOf k = [] ∧ t.engOf k = [] ∧ t.outOf k = [] ∧ (∀ e, e < 256 → (s.eng e).run = true → (s.eng e).slice = k → t.eng e = Engine.idle) ∧ (∀ i, i ≠ k → t.recOf i = s.recOf i ∧ t.holdOf i = s.holdOf i ∧ t.engOf i = s.engOf i ∧ t.outOf i = s.outOf i) ∧ Only [.regs, .mem, .banks, .counters, .boot, .events, .fcp, .obs, .line, .lookup, .engine, .traffic, .gov, .free] s t)
  ∧ (∀ (k j n : Nat) (w : Word) (h : FcpHdr) (x : Session) (s : State), reloads s h x → k < 12 → quiet s k → j < 255 → n < 16 → s.sliceWords k = [(Reg.parserFormWord k j n, w)] → ∃ t, exec (.sliceReload h k) s = .next t ∧ t.reg (Reg.parserFormWord k j n) = w
    ∧ (∀ i m, i < 12 → i ≠ k → m < 16 → t.reg (Reg.parserFormWord i j m) = s.reg (Reg.parserFormWord i j m)))
  ∧ (∀ (k : Nat) (s : State), s.boot.reloading.contains k = false → exec (.sliceReloadDone k) s = .next s)
  ∧ (∀ (k : Nat) (s : State), s.clocked = true → s.boot.reloading.contains k = true → ∃ t, exec (.sliceReloadDone k) s = .next t ∧ t.boot = { s.boot with reloading := s.boot.reloading.filter (fun y => y != k) } ∧ Recorded s t 0x0128 (natBe 1 k) ∧ Only ([.boot] ++ eventParts) s t)

/-- R54, R433 to R444. -/
def Obligations.SelfTestsRunAndReport : Prop :=
  let asks (s : State) (h : FcpHdr) (x : Session) : Prop := s.clocked = true ∧ Granted s h x 0x48 privWrite
  let st (s : State) (g : Nat) (f : Field) : Nat := s.fld (Reg.bistSegStatus g) f
  let free (s : State) (g : Nat) : Prop := g < 180 → s.segState g = 0
  let golden (s : State) (g l : Nat) : Word := s.reg (Reg.bistGolden g l)
  let queue (s : State) : List BistRun := s.bist.queue
  let arrays (g : Nat) : List Nat := (List.range 8).map (fun j => 8 * (g - 34) + j)
  let ready (s : State) (g : Nat) : Prop := s.bist.running.length < 3 ∧ s.fld Reg.govStatus Fld.govStatus_tier ≠ 4 ∧ s.flag Reg.govStatus Fld.govStatus_pfw = false ∧ s.segIdle g = true ∧ s.blockEmpty g = true
  let testing (s : State) (r : BistRun) : Prop := s.clocked = true ∧ s.bist.running.find? (fun y => y.seg == r.seg) = some r ∧ s.segState r.seg = 3
  let restoring (s : State) (e : BistEnd) : Prop := s.clocked = true ∧ s.bist.restoring.find? (fun y => y.run.seg == e.run.seg) = some e
  let strict (s : State) : Bool := !s.flag Reg.bootPolicy Fld.bootPolicy_bistMode
  let level (s : State) : Nat := s.fld Reg.bistCtrl Fld.bistCtrl_startLevel
  let same (s : State) (m : List (Nat × List Word)) (g : Nat) : Prop := golden s g (level s) ≠ 0 → ∀ i, i < segMisrs g → ((mget (fun _ => []) m g)[i]?).getD (golden s g (level s)) = golden s g (level s)
  (∀ (m : List (Nat × List Word)) (s : State), s.boot.stage ≠ .bist ∨ s.boot.stopped = true → exec (.startupBistDone m) s = .next s)
  ∧ (∀ (m : List (Nat × List Word)) (s : State), s.clocked = true → s.boot.stage = .bist → s.boot.stopped = false → (∀ g, g < 180 → same s m g) → s.fenceOver = false → ∃ t, exec (.startupBistDone m) s = .next t ∧ (t.boot.stage = .fabric ∨ t.boot.stage = .statics) ∧ t.pins = { s.pins with linkIdle := false } ∧ t.bist = s.bist ∧ Only [.regs, .counters, .pins, .boot, .events, .fcp, .obs, .bist, .line, .traffic] s t
    ∧ (∀ g, g < 180 → st t g Fld.bistSegStatus_result = (if golden s g (level s) = 0 then 4 else 1) ∧ (golden s g (level s) ≠ 0 → t.reg (Reg.bistSig g) = ((mget (fun _ => []) m g).headD 0))))
  ∧ (∀ (n : Nat) (m : List (Nat × List Word)) (s : State), s.clocked = true → s.boot.stage = .bist → s.boot.stopped = false → n < 180 → golden s n (level s) ≠ 0 → (mget (fun _ => []) m n).headD (golden s n (level s)) ≠ golden s n (level s) → strict s = true ∨ segUnits n = [] → ∃ t, exec (.startupBistDone m) s = .next t
    ∧ st t n Fld.bistSegStatus_result = 2 ∧ ((∀ g, g < 180 → g ≠ n → same s m g) → ∃ r ∈ t.eventLog, r.code = 0x0115 ∧ r.data = natBe 1 n) ∧ (∃ r ∈ t.eventLog, r.code = 0x0116) ∧ t.boot.stage = .halted ∧ t.fld Reg.bootStatus Fld.bootStatus_step = 0xFF ∧ t.pins.faultHalt = true)
  ∧ (∀ (g l : Nat) (h : FcpHdr) (x : Session) (s : State), asks s h x → free s g → (queue s).length < 16 → s.bistCode g l = 0 → ∃ t, exec (.bistStart h g l) s = .next t ∧ Replied t h 0x48 0 [] ∧ queue t = queue s ++ [{ seg := g, level := l }]
    ∧ (t.segState g = 1 ∨ t.segState g = 2) ∧ t.fld Reg.bistCtrl Fld.bistCtrl_queued = (queue s).length + 1 ∧ t.bist.running = s.bist.running ∧ Only [.regs, .fcp, .bist] s t)
  ∧ (∀ (g l : Nat) (h : FcpHdr) (x : Session) (s : State), asks s h x → (g < 180 ∧ s.segState g ≠ 0) ∨ 16 ≤ (queue s).length → ∃ t, exec (.bistStart h g l) s = .next t ∧ Replied t h 0x48 4 [] ∧ t.bist = s.bist ∧ Only [.fcp] s t)
  ∧ (∀ (g l : Nat) (h : FcpHdr) (x : Session) (s : State), asks s h x → free s g → (queue s).length < 16 → s.bistCode g l ≠ 0 → ∃ t, exec (.bistStart h g l) s = .next t ∧ Replied t h 0x48 9 (natBe 1 (s.bistCode g l)) ∧ (g < 180 → st t g Fld.bistSegStatus_code = s.bistCode g l)
    ∧ RegsOnly (if g < 180 then [Reg.bistSegStatus g] else []) s t ∧ Only [.regs, .fcp] s t)
  ∧ (∀ (g l : Nat) (h : FcpHdr) (x : Session) (s : State), asks s h x → free s g → (queue s).length < 16 → 180 ≤ g ∨ 4 ≤ l → ∃ t, exec (.bistStart h g l) s = .next t ∧ Replied t h 0x48 9 [1])
  ∧ (∀ (g l : Nat) (h : FcpHdr) (x : Session) (s : State), asks s h x → free s g → (queue s).length < 16 → 52 ≤ g → g < 60 → l < 4 → s.flag (Reg.engineClusterStatus (g - 52)) Fld.engineClusterStatus_drained = false → ∃ t, exec (.bistStart h g l) s = .next t ∧ Replied t h 0x48 9 [2])
  ∧ (∀ (g l : Nat) (h : FcpHdr) (x : Session) (s : State), asks s h x → free s g → (queue s).length < 16 → l < 4 → g < 34 ∨ (60 ≤ g ∧ g < 76) ∨ (124 ≤ g ∧ g < 180) → ∃ t, exec (.bistStart h g l) s = .next t ∧ Replied t h 0x48 9 [3])
  ∧ (∀ (g l : Nat) (h : FcpHdr) (x : Session) (s : State), asks s h x → free s g → (queue s).length < 16 → l < 4 → 34 ≤ g → g < 50 → (∀ a ∈ arrays g, s.arrayEnabled a = false) → golden s g l = 0 → ∃ t, exec (.bistStart h g l) s = .next t ∧ Replied t h 0x48 9 [4])
  ∧ (∀ (s : State), queue s = [] → exec .bistSegmentStart s = .next s ∧ exec .bistDrainWaitExpiry s = .next s)
  ∧ (∀ (r : BistRun) (l : List BistRun) (s : State), queue s = r :: l → ¬ ready s r.seg ∨ s.canSpend 3 (segCost r.seg) = false → exec .bistSegmentStart s = .next s)
  ∧ (∀ (r : BistRun) (l : List BistRun) (s : State), s.clocked = true → queue s = r :: l → r.seg < 180 → ready s r.seg → s.canSpend 3 (segCost r.seg) = true → (∀ y ∈ l, y.seg ≠ r.seg) → ∃ t, exec .bistSegmentStart s = .next t ∧ t.segState r.seg = 3 ∧ st t r.seg Fld.bistSegStatus_level = r.level % 4
    ∧ queue t = l ∧ t.bist.running = s.bist.running ++ [r] ∧ t.fld Reg.bistCtrl Fld.bistCtrl_running = (s.bist.running.length + 1) ∧ t.fld Reg.govStatus Fld.govStatus_bistRun = s.bist.running.length + 1
    ∧ (34 ≤ r.seg → r.seg < 50 → ∀ a ∈ arrays r.seg, t.flag (Reg.assocArrayStatus a) Fld.assocArrayStatus_underTest = true) ∧ (52 ≤ r.seg → r.seg < 60 → t.flag (Reg.engineClusterStatus (r.seg - 52)) Fld.engineClusterStatus_underTest = true) ∧ Only [.regs, .bist, .gov] s t)
  ∧ (∀ (g n : Nat) (m : List Word) (s : State), s.bist.running.find? (fun y => y.seg == g) = none ∨ s.segState g ≠ 3 → exec (.bistSegmentDone g m n) s = .next s)
  ∧ (∀ (n : Nat) (m : List Word) (r : BistRun) (s : State), testing s r → r.seg < 180 → ∃ t, exec (.bistSegmentDone r.seg m n) s = .next t ∧ t.segState r.seg = 5 ∧ t.bist.running = s.bist.running.filter (fun y => y.seg != r.seg)
    ∧ t.bist.restoring.dropLast = s.bist.restoring ∧ t.bist.restoring.getLast?.map (fun e => (e.run, e.ms, e.aborted)) = some (r, min n 65535, false)
    ∧ t.bist.restoring.getLast?.map (fun e => e.mask == 0) = some ((m.take (segMisrs r.seg)).all (fun w => w == golden s r.seg r.level)) ∧ Only [.regs, .bist] s t)
  ∧ (∀ (g : Nat) (l : List Nat) (s : State), s.bist.restoring.find? (fun y => y.run.seg == g) = none → exec (.bistRestoreDone g l) s = .next s)
  ∧ (∀ (l : List Nat) (e : BistEnd) (s : State), restoring s e → e.run.seg < 180 → e.aborted = false → e.mask = 0 → ∃ t, exec (.bistRestoreDone e.run.seg l) s = .next t ∧ t.segState e.run.seg = 0 ∧ st t e.run.seg Fld.bistSegStatus_result = 1 ∧ st t e.run.seg Fld.bistSegStatus_failMask = 0
    ∧ st t e.run.seg Fld.bistSegStatus_time = e.ms % 65536 ∧ t.reg (Reg.bistSig e.run.seg) = e.sig ∧ t.bist.barred = s.bist.barred.filter (fun u => !(segUnits e.run.seg).contains u) ∧ Recorded s t 0x0B01 (natBe 1 e.run.seg ++ natBe 1 e.run.level) ∧ Only [.regs, .mem, .counters, .events, .fcp, .obs, .bist, .lookup] s t)
  ∧ (∀ (l : List Nat) (e : BistEnd) (s : State), restoring s e → e.run.seg < 180 → e.aborted = false → e.mask ≠ 0 → e.mask < 256 → ∃ t, exec (.bistRestoreDone e.run.seg l) s = .next t ∧ t.segState e.run.seg = 0 ∧ st t e.run.seg Fld.bistSegStatus_result = 2 ∧ st t e.run.seg Fld.bistSegStatus_failMask = e.mask
    ∧ t.reg (Reg.bistSig e.run.seg) = e.sig ∧ (∀ u ∈ s.bist.barred, u ∈ t.bist.barred) ∧ (52 ≤ e.run.seg → e.run.seg < 60 → 500 + (e.run.seg - 52) ∈ t.bist.barred) ∧ Recorded s t 0x0B02 (natBe 1 e.run.seg ++ natBe 1 e.run.level ++ natBe 1 e.mask))
  ∧ (∀ (l : List Nat) (e : BistEnd) (s : State), restoring s e → e.run.seg < 180 → e.aborted = true → ∃ t, exec (.bistRestoreDone e.run.seg l) s = .next t ∧ t.segState e.run.seg = 0 ∧ st t e.run.seg Fld.bistSegStatus_result = 3 ∧ t.bist.barred = s.bist.barred ∧ t.reg (Reg.bistSig e.run.seg) = s.reg (Reg.bistSig e.run.seg))
  ∧ (∀ (l : List Nat) (e : BistEnd) (s : State), restoring s e → 34 ≤ e.run.seg → e.run.seg < 50 → ∃ t, exec (.bistRestoreDone e.run.seg l) s = .next t ∧ (∀ a ∈ arrays e.run.seg, t.flag (Reg.assocArrayStatus a) Fld.assocArrayStatus_underTest = false ∧ t.fld (Reg.assocArrayStatus a) Fld.assocArrayStatus_validRows = 0)
    ∧ (∀ a ∈ arrays e.run.seg, ∀ n ∈ [0, 1, 32767], bit (tblWord t.mem (rowAddr a n + 0x18)) 63 = false) ∧ MemOnly [(rowAddr (8 * (e.run.seg - 34)) 0, 8 * 0x0010_0000)] s t)
  ∧ (∀ (l : List Nat) (e : BistEnd) (s : State), restoring s e → 52 ≤ e.run.seg → e.run.seg < 60 → ∃ t, exec (.bistRestoreDone e.run.seg l) s = .next t ∧ t.flag (Reg.engineClusterStatus (e.run.seg - 52)) Fld.engineClusterStatus_underTest = false
    ∧ t.fld (Reg.engineSamplePtr (e.run.seg - 52)) Fld.engineSamplePtr_wr = 0 ∧ t.fld (Reg.engineSamplePtr (e.run.seg - 52)) Fld.engineSamplePtr_rd = 0 ∧ MemOnly [(0x0001_3000_0000 + 0x0010_0000 * (e.run.seg - 52) + 0x8_0000, 0x8_0000)] s t)
  ∧ (∀ (r : BistRun) (l : List BistRun) (s : State), queue s = r :: l → s.segState r.seg ≠ 2 ∨ s.blockEmpty r.seg = true → exec .bistDrainWaitExpiry s = .next s)
  ∧ (∀ (r : BistRun) (l : List BistRun) (s : State), s.clocked = true → queue s = r :: l → r.seg < 180 → s.segState r.seg = 2 → s.blockEmpty r.seg = false → (∀ y ∈ l, y.seg ≠ r.seg) → ∃ t, exec .bistDrainWaitExpiry s = .next t ∧ queue t = l ∧ t.segState r.seg = 0 ∧ st t r.seg Fld.bistSegStatus_result = 3
    ∧ st t r.seg Fld.bistSegStatus_code = 6 ∧ Recorded s t 0x0B04 (natBe 1 r.seg ++ [6]) ∧ Only [.regs, .counters, .events, .fcp, .obs, .bist] s t)

/-- R415 to R429. -/
def Obligations.CountersAreReadAndExported : Prop :=
  let asks (s : State) (h : FcpHdr) (x : Session) : Prop := s.clocked = true ∧ Granted s h x 0x50 privAll
  let known (l : List CounterAddr) : Prop := l ≠ [] ∧ l.length ≤ 64 ∧ badCounter l = none
  let shown (s : State) (x : Session) (l : List CounterAddr) : Prop := x.priv ≠ 0 ∨ (l.all (fun c => (c.bank ≤ 11 || (0x100 ≤ c.bank && c.bank ≤ 0x103) || c.bank == 0x200) && bit (s.fld Reg.cntAccess Fld.cntAccess_obsVis) (visBit c.bank)) = true)
  let entries (s : State) (l : List CounterAddr) : Bytes := (l.map (fun c => s.counterEntry c)).flatten
  let stored0 (s : State) (k : Nat) : CtrVal := mget (fun _ => CtrVal.zero) s.obs.stored0 k
  let stored1 (s : State) (k : Nat) : CtrVal := mget (fun _ => CtrVal.zero) s.obs.stored1 k
  let slot (s : State) (n : Nat) : Nat := s.slotAddr (n % 64)
  let seq (s : State) : Nat := s.fld Reg.dumpStatus Fld.dumpStatus_seq
  let exporting (s : State) (i : Nat) : Prop := s.clocked = true ∧ i < 4 ∧ s.boot.fwRunning = true ∧ s.flag Reg.teleCtrl Fld.teleCtrl_enable = true
  let drained (s : State) : Prop := (∀ k, k < 12 → mget (fun _ => ([] : List Bytes)) s.lookup.traceRing k = []) ∧ (∀ c, c < 8 → s.fld (Reg.engineSamplePtr c) Fld.engineSamplePtr_rd = s.fld (Reg.engineSamplePtr c) Fld.engineSamplePtr_wr)
  let room (s : State) (i : Nat) : Nat := s.fld Reg.teleCtrl Fld.teleCtrl_mtu - (if s.flag (Reg.teleCollector i) Fld.teleCollector_ipv6 then 48 else 28) - 32
  let nextSeq (s : State) (i : Nat) : Nat := mget (fun _ => 0) s.obs.teleSeq i
  let gap (s : State) (i : Nat) : Bool := mget (fun _ => false) s.obs.teleGap i
  let own (k : Nat) : Prop := k ∈ [1, 2, 3, 4, 5]
  (∀ (l : List CounterAddr) (h : FcpHdr) (x : Session) (s : State), asks s h x → l = [] ∨ 64 < l.length → (∃ t, exec (.counterRead h l) s = .next t ∧ Replied t h 0x50 2 [] ∧ Only [.fcp] s t) ∧ (∃ t, exec (.counterReadClear h l) s = .next t ∧ Replied t h 0x50 2 [] ∧ Only [.fcp] s t))
  ∧ (∀ (l : List CounterAddr) (h : FcpHdr) (x : Session) (s : State), asks s h x → l ≠ [] → l.length ≤ 64 → ¬ shown s x l → ∃ t, exec (.counterRead h l) s = .next t ∧ Replied t h 0x50 1 [] ∧ Only [.fcp] s t)
  ∧ (∀ (l : List CounterAddr) (h : FcpHdr) (x : Session) (s : State), asks s h x → l ≠ [] → l.length ≤ 64 → x.priv = 0 → ∃ t, exec (.counterReadClear h l) s = .next t ∧ Replied t h 0x50 1 [] ∧ Only [.fcp] s t)
  ∧ (∀ (l : List CounterAddr) (i : Nat) (h : FcpHdr) (x : Session) (s : State), asks s h x → l.length ≤ 64 → shown s x l → badCounter l = some i → ∃ t, exec (.counterRead h l) s = .next t ∧ Replied t h 0x50 9 (natBe 1 i) ∧ Only [.fcp] s t)
  ∧ (∀ (l : List CounterAddr) (h : FcpHdr) (x : Session) (s : State), asks s h x → known l → shown s x l → ∃ t, exec (.counterRead h l) s = .next t ∧ Replied t h 0x50 0 (entries s l) ∧ Only [.fcp] s t)
  ∧ (∀ (c : CounterAddr) (k : Nat) (h : FcpHdr) (x : Session) (s : State), asks s h x → x.priv ≠ 0 → counterKey c.bank c.index = some k → bankStored c.bank = false → c.bank ≠ 0x200 → ∃ t, exec (.counterRead h [c]) s = .next t
    ∧ Replied t h 0x50 0 (natBe 8 (s.ctr k).value ++ natBe 1 ((if (s.ctr k).ovf then 1 else 0) + (if (s.ctr k).inexact then 8 else 0)) ++ List.replicate 7 0))
  ∧ (∀ (c : CounterAddr) (h : FcpHdr) (x : Session) (s : State), asks s h x → x.priv ≠ 0 → bankStored c.bank = true → c.index < bankLimit c.bank → s.copyGood (s.recordPc c.bank c.index) = true → (stored0 s (bankKey c.bank c.index)).ovf = false
    → (stored0 s (bankKey c.bank c.index)).value + flushing s.obs.flushF c.bank c.index + flushing s.obs.flushT c.bank c.index + mget (fun _ => 0) s.obs.acc (bankKey c.bank c.index) < 2 ^ 64 → (stored0 s (bankKey c.bank c.index)).inexact = false → ∃ t, exec (.counterRead h [c]) s = .next t
    ∧ Replied t h 0x50 0 (natBe 8 ((stored0 s (bankKey c.bank c.index)).value + flushing s.obs.flushF c.bank c.index + flushing s.obs.flushT c.bank c.index + mget (fun _ => 0) s.obs.acc (bankKey c.bank c.index)) ++ List.replicate 8 0))
  ∧ (∀ (c : CounterAddr) (k : Nat) (h : FcpHdr) (x : Session) (s : State), asks s h x → x.priv ≠ 0 → counterKey c.bank c.index = some k → ∃ t, exec (.counterReadClear h [c]) s = .next t ∧ Replied t h 0x50 0 (s.counterEntry c)
    ∧ (bankStored c.bank = false → t.ctr k = { s.ctr k with ovf := false, inexact := false }) ∧ (bankStored c.bank = true → stored0 t k = { stored0 s k with ovf := false, inexact := false } ∧ stored1 t k = { stored1 s k with ovf := false, inexact := false })
    ∧ (∀ j, j ≠ k → t.ctr j = s.ctr j ∧ stored0 t j = stored0 s j ∧ stored1 t j = stored1 s j) ∧ Only [.counters, .fcp, .obs] s t)
  ∧ (∀ (c : CounterAddr) (h : FcpHdr) (x : Session) (s : State), asks s h x → x.priv ≠ 0 → 1 ≤ c.bank → c.bank ≤ 11 → c.bank ≠ 7 → ordinalRow (bankRows c.bank) (c.index / 256) ≠ none → ∃ t, exec (.counterListNames h c) s = .next t
    ∧ Replied t h 0x50 0 ((unitCtrs c.bank (c.index / 256)).map (fun p => nameBytes p.2)).flatten ∧ Only [.fcp] s t)
  ∧ (∀ (c : CounterAddr) (h : FcpHdr) (x : Session) (s : State), asks s h x → x.priv ≠ 0 → c.bank = 0 ∨ (11 < c.bank ∧ c.bank < 0x100) ∨ (0x100 ≤ c.bank ∧ bankLimit c.bank ≤ c.index) → ∃ t, exec (.counterListNames h c) s = .next t ∧ Replied t h 0x50 9 [0] ∧ Only [.fcp] s t)
  ∧ (∀ (s : State), s.obs.flushF = [] → s.obs.flushT = [] → exec .accumulatorFlushApply s = .next s)
  ∧ (∀ (f : Flush) (l : List Flush) (s : State), s.clocked = true → s.obs.flushF = f :: l ∨ (s.obs.flushF = [] ∧ s.obs.flushT = f :: l) → s.hbmServes (s.recordPc f.bank f.index) = true → s.hbmServes (64 + s.recordPc f.bank f.index) = true → ∃ t, exec .accumulatorFlushApply s = .next t
    ∧ stored0 t (bankKey f.bank f.index) = (stored0 s (bankKey f.bank f.index)).bump f.amount ∧ stored1 t (bankKey f.bank f.index) = (stored1 s (bankKey f.bank f.index)).bump f.amount ∧ t.obs.flushF = (if s.obs.flushF = [] then [] else l) ∧ t.obs.flushT = (if s.obs.flushF = [] then l else s.obs.flushT)
    ∧ (∀ j, j ≠ bankKey f.bank f.index → stored0 t j = stored0 s j ∧ stored1 t j = stored1 s j) ∧ t.obs.stale = s.obs.stale ∧ Only [.obs] s t)
  ∧ (∀ (f : Flush) (l : List Flush) (s : State), s.clocked = true → s.obs.flushF = f :: l → s.hbmServes (s.recordPc f.bank f.index) = false → s.hbmServes (64 + s.recordPc f.bank f.index) = true → ∃ t, exec .accumulatorFlushApply s = .next t ∧ t.obs.stored0 = s.obs.stored0
    ∧ stored1 t (bankKey f.bank f.index) = (stored1 s (bankKey f.bank f.index)).bump f.amount ∧ t.obs.flushF = l ∧ s.recordPc f.bank f.index ∈ t.obs.stale ∧ Only [.obs] s t)
  ∧ (∀ (f : Flush) (l : List Flush) (s : State), s.obs.flushF = f :: l → s.hbmServes (s.recordPc f.bank f.index) = false → s.hbmServes (64 + s.recordPc f.bank f.index) = false → exec .accumulatorFlushApply s = .next s)
  ∧ (∀ (f w : Nat) (v : Word) (s : State), 64 ≤ f ∨ 3 ≤ w → exec (.cntFilterWrite f w v) s = .next s)
  ∧ (∀ (f w : Nat) (v : Word) (s : State), s.clocked = true → f < 64 → w = 1 ∨ w = 2 → ∃ t, exec (.cntFilterWrite f w v) s = .next t ∧ t.fld (Reg.cntFilter f + 8 * w) Fld.cntFilterLo_addr = v.toNat % 2 ^ 48 ∧ t.fld (Reg.cntFilter f) Fld.cntFilter_pending = 1
    ∧ t.obs.filters = s.obs.filters ∧ RegsOnly [Reg.cntFilter f, Reg.cntFilter f + 8 * w] s t ∧ Only [.regs] s t)
  ∧ (∀ (f : Nat) (v : Word) (s : State), s.clocked = true → f < 64 → getField Fld.cntFilter_kind v ≤ 5 → getField Fld.cntFilter_priv v < 16 → getField Fld.cntFilter_tc v < 256 → ∃ t, exec (.cntFilterWrite f 0 v) s = .next t ∧ t.fld (Reg.cntFilter f) Fld.cntFilter_pending = 1
    ∧ t.fld (Reg.cntFilter f) Fld.cntFilter_kind = getField Fld.cntFilter_kind v ∧ t.flag (Reg.cntFilter f) Fld.cntFilter_valid = (getField Fld.cntFilter_valid v == 1) ∧ RegsOnly [Reg.cntFilter f] s t ∧ Only [.regs] s t)
  ∧ (∀ (s : State), s.clocked = true → s.obs.walking = true → s.noWindow 0x0140 0 → ∃ t, exec .snapshotInstant s = .next t ∧ t.obs.skippedBefore = true ∧ t.obs.walking = true ∧ t.obs.walkSeq = s.obs.walkSeq ∧ Counted s t .controlDumpSkipped 0 1 ∧ Recorded s t 0x0140 (natBe 4 (seq s)) ∧ t.mem = s.mem
    ∧ Only [.regs, .mem, .counters, .events, .fcp, .obs] s t)
  ∧ (∀ (s : State), s.clocked = true → s.obs.walking = false → ∃ t, exec .snapshotInstant s = .next t ∧ t.obs.walking = true ∧ t.obs.walkSeq = (seq s + 1) % 2 ^ 32 ∧ t.obs.walkInstant = todBytes s.tod ∧ t.obs.walkEpoch = s.epoch ∧ t.obs.walkVals = s.allCounters.1 ∧ t.obs.walkMissing = s.allCounters.2
    ∧ t.fld Reg.dumpStatus Fld.dumpStatus_writing = 1 ∧ (∀ f, f < 64 → s.flag (Reg.cntFilter f) Fld.cntFilter_pending = true → mget (fun _ => Filter.off) t.obs.filters f = s.stagedFilter f)
    ∧ (∀ f, f < 64 → s.flag (Reg.cntFilter f) Fld.cntFilter_pending = false → mget (fun _ => Filter.off) t.obs.filters f = mget (fun _ => Filter.off) s.obs.filters f) ∧ (∀ f, f < 64 → t.flag (Reg.cntFilter f) Fld.cntFilter_pending = false)
    ∧ MemOnly [(slot s (seq s + 1) + 20, 1)] s t ∧ Only [.regs, .mem, .counters, .events, .fcp, .obs] s t)
  ∧ (∀ (n : Nat) (s : State), s.obs.walking = false → exec (.dumpWalkDone n) s = .next s)
  ∧ (∀ (n : Nat) (s : State), s.clocked = true → s.obs.walking = true → s.obs.walkInstant.length = 12 → ∃ t, exec (.dumpWalkDone n) s = .next t ∧ t.obs.walking = false ∧ t.obs.skippedBefore = false ∧ seq t = s.obs.walkSeq % 2 ^ 32 ∧ t.fld Reg.dumpStatus Fld.dumpStatus_slot = s.obs.walkSeq % 64
    ∧ t.fld Reg.dumpStatus Fld.dumpStatus_writing = 0 ∧ (List.range 32).map (fun i => t.memByte (slot s s.obs.walkSeq + i)) = natBe 4 0x44534C54 ++ natBe 4 s.obs.walkSeq ++ s.obs.walkInstant ++ [2] ++ natBe 1 ((if s.obs.skippedBefore then 1 else 0) + (if s.obs.walkMissing then 2 else 0)) ++ natBe 2 s.obs.walkEpoch
      ++ natBe 4 ((slotBanks.map bankCount).sum) ++ natBe 4 n
    ∧ RegsOnly [Reg.dumpStatus] s t ∧ MemOnly [(slot s s.obs.walkSeq, 67108864)] s t ∧ Only [.regs, .mem, .counters, .events, .fcp, .obs] s t)
  ∧ (∀ (i : Nat) (s : State), 4 ≤ i ∨ s.boot.fwRunning = false ∨ s.flag Reg.teleCtrl Fld.teleCtrl_enable = false → exec (.telemetrySend i) s = .next s)
  ∧ (∀ (i : Nat) (s : State), exporting s i → ∃ t, exec (.telemetrySend i) s = .next t ∧ (∀ k, k < 12 → mget (fun _ => ([] : List Bytes)) t.lookup.traceRing k = []) ∧ (∀ c, c < 8 → t.fld (Reg.engineSamplePtr c) Fld.engineSamplePtr_rd = s.fld (Reg.engineSamplePtr c) Fld.engineSamplePtr_wr) ∧ Only [.regs, .counters, .events, .fcp, .obs, .lookup] s t)
  ∧ (∀ (i : Nat) (r : TeleRec) (l : List TeleRec) (s : State), exporting s i → drained s → s.obs.teleQ = r :: l → r.dest = i → own r.kind → (l.all (fun y => y.dest != i) = true) → r.body.length ≤ room s i → r.body.length < 65536 → ∃ t, exec (.telemetrySend i) s = .next t ∧ t.obs.teleQ = l
    ∧ t.obs.teleSent.dropLast = s.obs.teleSent ∧ t.obs.teleSent.getLast?.map (fun d => (d.collector, d.kind, d.seq, d.gap)) = some (i, r.kind, nextSeq s i, gap s i)
    ∧ t.obs.teleSent.getLast?.map (fun d => d.payload) = some (natBe 2 0x464C ++ [2] ++ natBe 1 r.kind ++ natBe 2 s.self ++ natBe 2 1 ++ natBe 8 (nextSeq s i) ++ todBytes s.tod ++ natBe 2 (if gap s i then 1 else 0) ++ natBe 2 r.body.length ++ r.body)
    ∧ t.obs.teleSent.getLast?.map (fun d => (d.port, d.dmac, d.ipv6, d.sport, d.dport)) = some (s.fld (Reg.teleCollector i) Fld.teleCollector_port, s.fld (Reg.teleCollector i) Fld.teleCollector_dmac, s.flag (Reg.teleCollector i) Fld.teleCollector_ipv6, s.fld Reg.teleCtrl Fld.teleCtrl_srcUdp, s.fld (Reg.teleCollectorUdp i) Fld.teleCollectorUdp_udp)
    ∧ nextSeq t i = nextSeq s i + 1 ∧ gap t i = false ∧ (∀ j, j ≠ i → nextSeq t j = nextSeq s j))
  ∧ (∀ (i : Nat) (r : TeleRec) (s : State), exporting s i → drained s → s.obs.teleQ = [r] → r.dest = i → own r.kind → room s i < r.body.length → ∃ t, exec (.telemetrySend i) s = .next t ∧ t.obs.teleSent = s.obs.teleSent ∧ gap t i = true ∧ (r.kind ≠ 3 → r ∉ t.obs.teleQ) ∧ nextSeq t i = nextSeq s i)

/-- R411 to R413, R437. That BUDGET takes effect with its second byte, and that MGMT writes every bit an operator may write, is the model's choice (logs 36, 37). -/
def Obligations.ScanAndTwoWirePorts : Prop :=
  let picks (s t : State) (i lvl : Nat) : Prop := t.pins.tapInstr = (if s.fuses.jtag ≤ lvl then i else 0)
  let pinsBut (s t : State) : Prop := { t.pins with tapInstr := s.pins.tapInstr, tapData := s.pins.tapData } = s.pins
  let entered (s t : State) : Prop := t.pins.scanMode = true ∧ t.pins.ready = false ∧ t.pins.faultScan = true ∧ t.keyless ∧ t.bist.running = [] ∧ (∃ r ∈ t.eventLog, r.code = 0x0136) ∧ t.mem = s.mem ∧ t.fuses = s.fuses
  let live (s : State) : Prop := s.fuses.jtag ≤ 1 ∧ s.pins.scanMode = false ∧ s.pins.clocksStopped = false ∧ s.boot.stage ≠ .coldReset
  let up (s : State) : Prop := s.clocked = true ∧ s.boot.stage ≠ .released
  (∀ (s : State), ∃ t, exec .bypass s = .next t ∧ t.pins.tapInstr = 0 ∧ pinsBut s t ∧ Only [.pins] s t)
  ∧ (∀ (s : State), ∃ t, exec .samplePreload s = .next t ∧ picks s t 2 2 ∧ pinsBut s t ∧ Only [.pins] s t)
  ∧ (∀ (s : State), s.fuses.jtag < 4 → ∃ t, exec .idcode s = .next t ∧ t.pins.tapInstr = 1 ∧ t.pins.tapData = 0x3F09656B ∧ pinsBut s t ∧ Only [.pins] s t)
  ∧ (∀ (s : State), 2 < s.fuses.jtag → (∃ t, exec .extest s = .next t ∧ t.pins.tapInstr = 0 ∧ pinsBut s t ∧ Only [.pins] s t) ∧ (∃ t, exec .clamp s = .next t ∧ t.pins.tapInstr = 0 ∧ pinsBut s t ∧ Only [.pins] s t) ∧ (∃ t, exec .highz s = .next t ∧ t.pins.tapInstr = 0 ∧ pinsBut s t ∧ Only [.pins] s t))
  ∧ (∀ (s : State), s.fuses.jtag ≤ 2 → s.pins.scanMode = false → ∃ t, exec .extest s = .next t ∧ t.pins.tapInstr = 3 ∧ entered s t ∧ Only [.regs, .counters, .pins, .events, .fcp, .obs, .bist, .line] s t)
  ∧ (∀ (s : State), s.fuses.jtag ≤ 2 → s.pins.scanMode = false → ∃ t, exec .clamp s = .next t ∧ t.pins.tapInstr = 4 ∧ entered s t ∧ Only [.regs, .counters, .pins, .events, .fcp, .obs, .bist, .line] s t)
  ∧ (∀ (s : State), s.fuses.jtag ≤ 2 → s.pins.scanMode = false → ∃ t, exec .highz s = .next t ∧ t.pins.tapInstr = 5 ∧ entered s t ∧ Only [.regs, .counters, .pins, .events, .fcp, .obs, .bist, .line] s t)
  ∧ (∀ (r : BistRun) (s : State), s.fuses.jtag ≤ 2 → s.pins.scanMode = false → s.bist.running = [r] → r.seg < 180 → ∃ t, exec .extest s = .next t ∧ t.segState r.seg = 5 ∧ t.bist.restoring.getLast?.map (fun e => (e.run, e.aborted)) = some (r, true) ∧ (∃ y ∈ t.eventLog, y.code = 0x0B03 ∧ y.data = natBe 1 r.seg ++ [2]))
  ∧ (∀ (s : State), s.fuses.jtag ≤ 2 → s.pins.scanMode = true → (∃ t, exec .extest s = .next t ∧ t.pins.tapInstr = 3 ∧ pinsBut s t ∧ Only [.pins] s t) ∧ (∃ t, exec .clamp s = .next t ∧ t.pins.tapInstr = 4 ∧ pinsBut s t ∧ Only [.pins] s t) ∧ (∃ t, exec .highz s = .next t ∧ t.pins.tapInstr = 5 ∧ pinsBut s t ∧ Only [.pins] s t))
  ∧ (∀ (b : Bool) (a : Nat) (v : Word) (s : State), 1 < s.fuses.jtag → ∃ t, exec (.mgmt b a v) s = .next t ∧ t.pins.tapInstr = 0 ∧ pinsBut s t ∧ Only [.pins] s t)
  ∧ (∀ (b : Bool) (a : Nat) (v : Word) (s : State), s.fuses.jtag ≤ 1 → s.pins.scanMode = true ∨ s.pins.clocksStopped = true ∨ s.boot.stage = .coldReset ∨ (b = true ∧ s.fuses.jtag = 1) → ∃ t, exec (.mgmt b a v) s = .next t ∧ t.pins.tapInstr = 6 ∧ pinsBut s t ∧ Only [.pins] s t)
  ∧ (∀ (a : Nat) (v : Word) (s : State), live s → s.readBar a = 0 → a ≠ Reg.timeNow → inBufferHbm a = false → ∃ t, exec (.mgmt false a v) s = .next t ∧ t.pins.tapInstr = 6 ∧ t.pins.tapData = s.mgmtRead a ∧ pinsBut s t ∧ Only [.pins, .counters] s t)
  ∧ (∀ (a : Nat) (v : Word) (s : State), live s → s.readBar a ≠ 0 → ∃ t, exec (.mgmt false a v) s = .next t ∧ t.pins.tapInstr = 6 ∧ t.pins.tapData = 0 ∧ Only [.pins, .counters] s t)
  ∧ (∀ (a : Nat) (v : Word) (s : State), live s → s.fuses.jtag = 0 → s.regAt a = none → ∃ t, exec (.mgmt true a v) s = .next t ∧ t.pins.tapInstr = 6 ∧ RegsOnly [] s t ∧ t.mem = s.mem)
  ∧ (∀ (v : Word) (s : State), live s → s.fuses.jtag = 0 → 200 ≤ getField Fld.govBudget_budget v → getField Fld.govBudget_budget v ≤ 600 → 10 ≤ getField Fld.govBudget_starveTime v → getField Fld.govBudget_starveTime v ≤ 4000 → 1 ≤ getField Fld.govBudget_overTime v → getField Fld.govBudget_overTime v ≤ 1000
    → ∃ t, exec (.mgmt true Reg.govBudget v) s = .next t ∧ t.fld Reg.govBudget Fld.govBudget_budget = getField Fld.govBudget_budget v ∧ t.fld Reg.govBudget Fld.govBudget_starveTime = getField Fld.govBudget_starveTime v ∧ t.fld Reg.govBudget Fld.govBudget_base = s.fld Reg.govBudget Fld.govBudget_base
    ∧ RegsOnly [Reg.govBudget] s t ∧ Only [.regs, .pins, .counters] s t)
  ∧ (∀ (b : Bool) (p n : Nat) (d : Bytes) (s : State), s.boot.stage = .released ∨ s.clocked = false → exec (.twiTransfer b p d n) s = .next s)
  ∧ (∀ (p n : Nat) (d : Bytes) (s : State), up s → p = 0x42 → n = 2 → ∃ t, exec (.twiTransfer false p d n) s = .next t ∧ t.fcp.twiOut = natBe 2 (s.fld Reg.govBudget Fld.govBudget_budget) ∧ t.fcp.twiPointer = 0x44 ∧ Only [.fcp] s t)
  ∧ (∀ (p n : Nat) (d : Bytes) (s : State), up s → p % 65536 = 0x14 → n = 8 → ∃ t, exec (.twiTransfer false p d n) s = .next t ∧ t.fcp.twiOut = natBe 8 (s.reg Reg.bootStatus).toNat ∧ t.fcp.twiPointer = 0x1C ∧ Only [.fcp] s t)
  ∧ (∀ (i p n : Nat) (d : Bytes) (s : State), up s → i < 24 → p = 0x20 + i → n = 1 → ∃ t, exec (.twiTransfer false p d n) s = .next t ∧ t.fcp.twiOut = natBe 1 (s.fld (Reg.govSensor i) Fld.govSensor_temp) ∧ t.fcp.twiPointer = p + 1 ∧ Only [.fcp] s t)
  ∧ (∀ (p n : Nat) (d : Bytes) (s : State), up s → ∃ t, exec (.twiTransfer false p d n) s = .next t ∧ t.fcp.twiOut.length = n ∧ t.fcp.twiPointer = (p % 65536 + n) % 65536 ∧ Only [.fcp, .free] s t)
  ∧ (∀ (v n : Nat) (s : State), up s → 200 ≤ v → v ≤ 600 → ∃ t, exec (.twiTransfer true 0x42 (natBe 2 v) n) s = .next t ∧ t.fld Reg.govBudget Fld.govBudget_budget = v ∧ t.fcp.twiAcked = 2 ∧ t.fcp.twiPointer = 0x44 ∧ RegsOnly [Reg.govBudget] s t
    ∧ (t.reg Reg.govBudget).toNat % 2 ^ 54 = (s.reg Reg.govBudget).toNat % 2 ^ 54 ∧ Only [.regs, .counters, .fcp, .gov, .free] s t)
  ∧ (∀ (v n : Nat) (s : State), up s → v < 200 ∨ 600 < v → v < 65536 → ∃ t, exec (.twiTransfer true 0x42 (natBe 2 v) n) s = .next t ∧ t.fcp.twiAcked = 2 ∧ RegsOnly [] s t ∧ t.gov = s.gov ∧ Only [.counters, .fcp] s t)
  ∧ (∀ (p n : Nat) (d : Bytes) (s : State), up s → p % 65536 ≠ 0x42 → p % 65536 ≠ 0x43 → ∃ t, exec (.twiTransfer true p d n) s = .next t ∧ t.fcp.twiAcked = 0 ∧ t.fcp.twiPointer = p % 65536 ∧ Only [.fcp] s t)

/-- What an empty queue does is the model's choice (log 1). -/
def Obligations.StepRunsTheFrontCommand : Prop :=
  (∀ (c : Instr) (l : List Instr) (s : State), step { s with pending := c :: l } = exec c { s with pending := l })
  ∧ (∀ (s : State), s.pending = [] → s.clocked = true → s.boot.stage ≠ .released → step s = .next { s with time := { s.time with stepFree := s.time.stepFree + 1 } })
  ∧ (∀ (s : State), s.pending = [] → s.clocked = false ∨ s.boot.stage = .released → step s = .next s)
  ∧ (∀ (n w : Nat) (s : State), decodeTableWord n w = none ∧ s.withFetchWord n w = s)

/-- The zero of unwritten memory and of registers loaded from the image is the model's choice (logs 38, 4). -/
def Obligations.ResetStateHoldsTheResetValues : Prop :=
  let s : State := State.reset
  s.boot.stage = .coldReset ∧ s.pins.ready = false ∧ s.pins.fault = true ∧ s.pins.linkIdle = true ∧ s.pending = [] ∧ s.canonical = true ∧ s.keyless ∧ s.fcp.sessions = [] ∧ s.ev = Events.cold ∧ s.traffic = Traffic.cold
  ∧ (∀ a : Nat, s.reg a = resetOf a) ∧ (∀ k : Nat, s.ctr k = CtrVal.zero) ∧ (∀ a : Nat, tblWord s.mem a = 0)
  ∧ s.fld Reg.govBudget Fld.govBudget_budget = 560 ∧ s.fld Reg.govBudget Fld.govBudget_starveTime = 100 ∧ s.fld Reg.govBudget Fld.govBudget_overTime = 100 ∧ s.flag Reg.govBudget Fld.govBudget_paceEn = true

/-- R35, R36, and the form of sparse data. -/
def Obligations.EveryStepAnswersAndKeepsTheForms : Prop :=
  let cold (s : State) : Prop := s.boot.stage = .coldReset → s.pins.ready = false ∧ s.pins.linkIdle = true ∧ s.keyless ∧ s.fcp.sessions = []
  ∀ (s : State), ∃ t, step s = .next t ∧ t.pending = s.pending.tail ∧ (s.canonical = true → t.canonical = true) ∧ (cold s → cold t)
end

