-- ==== Sys2Proof/Laws/Bits.lean ====
section
/-! SUPPORT. Bit fields: a field written is the field read, and the others stay. -/

namespace Sys2Proof.Machine

theorem setBits_eq (v lo w x : Nat) : setBits v lo w x = 2 ^ lo * (2 ^ w * (v / 2 ^ (lo + w)) + x % 2 ^ w) + v % 2 ^ lo := by
  unfold setBits
  rw [Nat.mul_add, ← Nat.mul_assoc, ← Nat.pow_add]
  omega

theorem testBit_setBits (v lo w x j : Nat) :
    (setBits v lo w x).testBit j = if lo ≤ j ∧ j < lo + w then x.testBit (j - lo) else v.testBit j := by
  rw [setBits_eq, Nat.testBit_two_pow_mul_add _ (Nat.mod_lt _ (Nat.two_pow_pos lo))]
  by_cases h1 : j < lo
  · have : ¬ lo ≤ j := by omega
    simp [h1, this, Nat.testBit_mod_two_pow]
  · rw [if_neg h1, Nat.testBit_two_pow_mul_add _ (Nat.mod_lt _ (Nat.two_pow_pos w))]
    have hlo : lo ≤ j := by omega
    by_cases h2 : j - lo < w
    · have h3 : j < lo + w := by omega
      simp [h2, h3, hlo, Nat.testBit_mod_two_pow]
    · have h3 : ¬ j < lo + w := by omega
      have h4 : j - lo - w + (lo + w) = j := by omega
      simp [h2, h3, Nat.testBit_div_two_pow, h4]

theorem setBits_lt {v lo w x n : Nat} (hv : v < 2 ^ n) (h : lo + w ≤ n) : setBits v lo w x < 2 ^ n := by
  apply Nat.lt_pow_two_of_testBit
  intro j hj
  rw [testBit_setBits, if_neg (by omega)]
  exact Nat.testBit_lt_two_pow (Nat.lt_of_lt_of_le hv (Nat.pow_le_pow_right (by decide) hj))

theorem testBit_bits (v hi lo j : Nat) : (bits v hi lo).testBit j = (decide (j < hi + 1 - lo) && v.testBit (lo + j)) := by
  simp [bits, Nat.testBit_mod_two_pow, Nat.testBit_div_two_pow, Nat.add_comm]

theorem toNat_putField (f : Field) (v : Nat) (w : Word) (h : f.lo ≤ f.hi ∧ f.hi < 64) : (putField f v w).toNat = setBits w.toNat f.lo f.width v := by
  have hlt : setBits w.toNat f.lo f.width v < 2 ^ 64 := setBits_lt w.isLt (by simp [Field.width]; omega)
  simp only [putField, BitVec.toNat_ofNat, Nat.mod_eq_of_lt hlt]

/-- The field written is the field read, narrowed to its width. -/
theorem getField_putField_self {f : Field} (v : Nat) (w : Word) (h : f.lo ≤ f.hi ∧ f.hi < 64) :
    getField f (putField f v w) = v % 2 ^ f.width := by
  apply Nat.eq_of_testBit_eq
  intro j
  simp only [getField, toNat_putField f v w h, testBit_bits, testBit_setBits, Nat.testBit_mod_two_pow, Field.width]
  by_cases h1 : j < f.hi + 1 - f.lo
  · have : f.lo ≤ f.lo + j ∧ f.lo + j < f.lo + (f.hi + 1 - f.lo) := by omega
    simp [h1, this]
  · simp [h1]

/-- A field apart from the one written stays. -/
theorem getField_putField_apart {f g : Field} (v : Nat) (w : Word) (hg : g.lo ≤ g.hi ∧ g.hi < 64) (h : f.hi < g.lo ∨ g.hi < f.lo) :
    getField f (putField g v w) = getField f w := by
  apply Nat.eq_of_testBit_eq
  intro j
  simp only [getField, toNat_putField g v w hg, testBit_bits, testBit_setBits, Field.width]
  by_cases h1 : j < f.hi + 1 - f.lo
  · have : ¬ (g.lo ≤ f.lo + j ∧ f.lo + j < g.lo + (g.hi + 1 - g.lo)) := by omega
    simp [h1, this]
  · simp [h1]

end Sys2Proof.Machine
end

