-- ==== Sys2Proof/Laws/Store.lean ====
section
/-! SUPPORT. Sparse maps: reading after writing, and that every operation keeps the canonical form. -/

namespace Sys2Proof.Machine

variable {α : Type}

theorem mget_mdrop (d : Nat → α) (k j : Nat) (m : AMap α) : mget d (mdrop k m) j = if j = k then d k else mget d m j := by
  induction m with
  | nil => simp [mdrop, mget]; intro h; rw [h]
  | cons p m ih =>
    obtain ⟨i, w⟩ := p
    by_cases hik : i = k <;> by_cases hij : i = j <;> simp_all [mdrop, mget] <;> try (intro h; simp_all)

theorem mget_minsert (d : Nat → α) (k j : Nat) (v : α) (m : AMap α) :
    mget d (minsert k v (mdrop k m)) j = if j = k then v else mget d m j := by
  have key : ∀ m : AMap α, (∀ p ∈ m, p.1 ≠ k) → mget d (minsert k v m) j = if j = k then v else mget d m j := by
    intro m
    induction m with
    | nil => intro _; by_cases hj : k = j <;> simp [minsert, mget, hj, eq_comm]
    | cons p m ih =>
      obtain ⟨i, w⟩ := p
      intro hm
      have hi : i ≠ k := hm (i, w) (by simp)
      have ih := ih (fun p hp => hm p (by simp [hp]))
      by_cases h1 : i < k
      · by_cases h2 : i = j
        · subst h2; simp [minsert, mget, h1, hi]
        · simp [minsert, mget, h1, h2, ih]
      · by_cases h2 : k = j
        · subst h2; simp [minsert, mget, h1]
        · have h3 : ¬ j = k := fun h => h2 h.symm
          simp [minsert, mget, h1, h2, h3]
  have hd : ∀ m : AMap α, ∀ p ∈ mdrop k m, p.1 ≠ k := by
    intro m
    induction m with
    | nil => simp [mdrop]
    | cons p m ih =>
      obtain ⟨i, w⟩ := p
      by_cases hi : i = k <;> simp [mdrop, hi]
      · exact fun a b h => ih (a, b) h
      · exact fun a b h => ih (a, b) h
  rw [key _ (hd m), mget_mdrop]
  by_cases hj : j = k <;> simp [hj]

variable [DecidableEq α]

/-- What a key reads after a write. -/
theorem mget_mput (d : Nat → α) (m : AMap α) (k j : Nat) (v : α) : mget d (mput d m k v) j = if j = k then v else mget d m j := by
  unfold mput
  by_cases hv : v = d k
  · simp [hv, mget_mdrop]
  · simp [hv, mget_minsert d k j v m]

@[simp] theorem mget_mput_self (d : Nat → α) (m : AMap α) (k : Nat) (v : α) : mget d (mput d m k v) k = v := by simp [mget_mput]

theorem mget_mput_ne (d : Nat → α) (m : AMap α) {k j : Nat} (v : α) (h : j ≠ k) : mget d (mput d m k v) j = mget d m j := by simp [mget_mput, h]

/-! ### Canonical form -/

omit [DecidableEq α] in
theorem mrising_le {lo lo' : Nat} {m : AMap α} (h : lo' ≤ lo) (hm : mrising lo m = true) : mrising lo' m = true := by
  cases m with
  | nil => rfl
  | cons p m => obtain ⟨i, w⟩ := p; simp [mrising] at *; exact ⟨by omega, hm.2⟩

omit [DecidableEq α] in
theorem mrising_mdrop (k : Nat) {lo : Nat} {m : AMap α} (hm : mrising lo m = true) : mrising lo (mdrop k m) = true := by
  induction m generalizing lo with
  | nil => rfl
  | cons p m ih =>
    obtain ⟨i, w⟩ := p
    simp only [mrising, Bool.and_eq_true, decide_eq_true_eq] at hm
    by_cases hi : i = k
    · simpa [mdrop, hi] using mrising_le (by omega) (ih hm.2)
    · simpa [mdrop, hi, mrising] using ⟨hm.1, ih hm.2⟩

omit [DecidableEq α] in
theorem mrising_minsert {k : Nat} {v : α} {lo : Nat} {m : AMap α} (hlo : lo ≤ k) (hm : mrising lo m = true) (hk : ∀ p ∈ m, p.1 ≠ k) :
    mrising lo (minsert k v m) = true := by
  induction m generalizing lo with
  | nil => simp [minsert, mrising, hlo]
  | cons p m ih =>
    obtain ⟨i, w⟩ := p
    simp only [mrising, Bool.and_eq_true, decide_eq_true_eq] at hm
    have hi : i ≠ k := hk (i, w) (by simp)
    by_cases h1 : i < k
    · simpa [minsert, h1, mrising] using ⟨hm.1, ih (by omega) hm.2 (fun p hp => hk p (by simp [hp]))⟩
    · simpa [minsert, h1, mrising] using ⟨hlo, by omega, hm.2⟩

omit [DecidableEq α] in
theorem mem_mdrop {k : Nat} {m : AMap α} {p : Nat × α} : p ∈ mdrop k m ↔ p ∈ m ∧ p.1 ≠ k := by
  induction m with
  | nil => simp [mdrop]
  | cons q m ih =>
    obtain ⟨i, w⟩ := q
    by_cases hi : i = k
    · simp only [mdrop, hi, if_true, ih, List.mem_cons]
      constructor
      · rintro ⟨h1, h2⟩; exact ⟨.inr h1, h2⟩
      · rintro ⟨h1 | h1, h2⟩
        · exact absurd (by rw [h1]) h2
        · exact ⟨h1, h2⟩
    · simp only [mdrop, hi, if_false, ih, List.mem_cons]
      constructor
      · rintro (h | ⟨h1, h2⟩)
        · exact ⟨.inl h, by rw [h]; exact hi⟩
        · exact ⟨.inr h1, h2⟩
      · rintro ⟨h1 | h1, h2⟩
        · exact .inl h1
        · exact .inr ⟨h1, h2⟩

omit [DecidableEq α] in
theorem mem_minsert {k : Nat} {v : α} {m : AMap α} {p : Nat × α} : p ∈ minsert k v m → p = (k, v) ∨ p ∈ m := by
  induction m with
  | nil => simp [minsert]
  | cons q m ih =>
    obtain ⟨i, w⟩ := q
    by_cases h1 : i < k
    · simp only [minsert, h1, if_true, List.mem_cons]
      rintro (h | h)
      · exact .inr (.inl h)
      · exact (ih h).elim .inl (fun h => .inr (.inr h))
    · simp only [minsert, h1, if_false, List.mem_cons]
      rintro (h | h | h)
      · exact .inl h
      · exact .inr (.inl h)
      · exact .inr (.inr h)

/-- Writing keeps the canonical form. -/
theorem mput_mwf (d : Nat → α) {m : AMap α} (k : Nat) (v : α) (h : mwf d m = true) : mwf d (mput d m k v) = true := by
  simp only [mwf, Bool.and_eq_true, List.all_eq_true, decide_eq_true_eq] at *
  obtain ⟨hr, ha⟩ := h
  have hd : ∀ p ∈ mdrop k m, p.2 ≠ d p.1 := fun p hp => ha p (mem_mdrop.1 hp).1
  unfold mput
  by_cases hv : v = d k
  · simp only [hv, if_true]
    exact ⟨mrising_mdrop k hr, hd⟩
  · simp only [hv, if_false]
    refine ⟨mrising_minsert (Nat.zero_le _) (mrising_mdrop k hr) (fun p hp => (mem_mdrop.1 hp).2), fun p hp => ?_⟩
    rcases mem_minsert hp with h | h
    · rw [h]; exact hv
    · exact hd p h

theorem mwf_nil (d : Nat → α) : mwf d ([] : AMap α) = true := rfl

end Sys2Proof.Machine
end

