-- ==== Sys2Proof/Laws/State.lean ====
section
/-! SUPPORT. Reading the state after an update of it: registers and fields, and that each update leaves the other parts alone. -/

namespace Sys2Proof.Machine

/-! ### What an update leaves alone -/

@[simp] theorem setReg_mem (s : State) (a : Nat) (w : Word) : (s.setReg a w).mem = s.mem := rfl
@[simp] theorem setReg_bankOdd (s : State) (a : Nat) (w : Word) : (s.setReg a w).bankOdd = s.bankOdd := rfl
@[simp] theorem setReg_ctrs (s : State) (a : Nat) (w : Word) : (s.setReg a w).ctrs = s.ctrs := rfl
@[simp] theorem setReg_pins (s : State) (a : Nat) (w : Word) : (s.setReg a w).pins = s.pins := rfl
@[simp] theorem setReg_fuses (s : State) (a : Nat) (w : Word) : (s.setReg a w).fuses = s.fuses := rfl
@[simp] theorem setReg_boot (s : State) (a : Nat) (w : Word) : (s.setReg a w).boot = s.boot := rfl
@[simp] theorem setReg_ev (s : State) (a : Nat) (w : Word) : (s.setReg a w).ev = s.ev := rfl
@[simp] theorem setReg_fcp (s : State) (a : Nat) (w : Word) : (s.setReg a w).fcp = s.fcp := rfl
@[simp] theorem setReg_obs (s : State) (a : Nat) (w : Word) : (s.setReg a w).obs = s.obs := rfl
@[simp] theorem setReg_bist (s : State) (a : Nat) (w : Word) : (s.setReg a w).bist = s.bist := rfl
@[simp] theorem setReg_line (s : State) (a : Nat) (w : Word) : (s.setReg a w).line = s.line := rfl
@[simp] theorem setReg_hdrQ (s : State) (a : Nat) (w : Word) : (s.setReg a w).hdrQ = s.hdrQ := rfl
@[simp] theorem setReg_lookup (s : State) (a : Nat) (w : Word) : (s.setReg a w).lookup = s.lookup := rfl
@[simp] theorem setReg_engine (s : State) (a : Nat) (w : Word) : (s.setReg a w).engine = s.engine := rfl
@[simp] theorem setReg_traffic (s : State) (a : Nat) (w : Word) : (s.setReg a w).traffic = s.traffic := rfl
@[simp] theorem setReg_hbm (s : State) (a : Nat) (w : Word) : (s.setReg a w).hbm = s.hbm := rfl
@[simp] theorem setReg_fabric (s : State) (a : Nat) (w : Word) : (s.setReg a w).fabric = s.fabric := rfl
@[simp] theorem setReg_gov (s : State) (a : Nat) (w : Word) : (s.setReg a w).gov = s.gov := rfl
@[simp] theorem setReg_bridge (s : State) (a : Nat) (w : Word) : (s.setReg a w).bridge = s.bridge := rfl
@[simp] theorem setReg_time (s : State) (a : Nat) (w : Word) : (s.setReg a w).time = s.time := rfl
@[simp] theorem setReg_freeCtr (s : State) (a : Nat) (w : Word) : (s.setReg a w).freeCtr = s.freeCtr := rfl
@[simp] theorem setReg_pending (s : State) (a : Nat) (w : Word) : (s.setReg a w).pending = s.pending := rfl

@[simp] theorem setFld_mem (s : State) (a : Nat) (f : Field) (v : Nat) : (s.setFld a f v).mem = s.mem := rfl
@[simp] theorem setFld_bankOdd (s : State) (a : Nat) (f : Field) (v : Nat) : (s.setFld a f v).bankOdd = s.bankOdd := rfl
@[simp] theorem setFld_ctrs (s : State) (a : Nat) (f : Field) (v : Nat) : (s.setFld a f v).ctrs = s.ctrs := rfl
@[simp] theorem setFld_pins (s : State) (a : Nat) (f : Field) (v : Nat) : (s.setFld a f v).pins = s.pins := rfl
@[simp] theorem setFld_fuses (s : State) (a : Nat) (f : Field) (v : Nat) : (s.setFld a f v).fuses = s.fuses := rfl
@[simp] theorem setFld_boot (s : State) (a : Nat) (f : Field) (v : Nat) : (s.setFld a f v).boot = s.boot := rfl
@[simp] theorem setFld_ev (s : State) (a : Nat) (f : Field) (v : Nat) : (s.setFld a f v).ev = s.ev := rfl
@[simp] theorem setFld_fcp (s : State) (a : Nat) (f : Field) (v : Nat) : (s.setFld a f v).fcp = s.fcp := rfl
@[simp] theorem setFld_obs (s : State) (a : Nat) (f : Field) (v : Nat) : (s.setFld a f v).obs = s.obs := rfl
@[simp] theorem setFld_bist (s : State) (a : Nat) (f : Field) (v : Nat) : (s.setFld a f v).bist = s.bist := rfl
@[simp] theorem setFld_line (s : State) (a : Nat) (f : Field) (v : Nat) : (s.setFld a f v).line = s.line := rfl
@[simp] theorem setFld_hdrQ (s : State) (a : Nat) (f : Field) (v : Nat) : (s.setFld a f v).hdrQ = s.hdrQ := rfl
@[simp] theorem setFld_lookup (s : State) (a : Nat) (f : Field) (v : Nat) : (s.setFld a f v).lookup = s.lookup := rfl
@[simp] theorem setFld_engine (s : State) (a : Nat) (f : Field) (v : Nat) : (s.setFld a f v).engine = s.engine := rfl
@[simp] theorem setFld_traffic (s : State) (a : Nat) (f : Field) (v : Nat) : (s.setFld a f v).traffic = s.traffic := rfl
@[simp] theorem setFld_hbm (s : State) (a : Nat) (f : Field) (v : Nat) : (s.setFld a f v).hbm = s.hbm := rfl
@[simp] theorem setFld_fabric (s : State) (a : Nat) (f : Field) (v : Nat) : (s.setFld a f v).fabric = s.fabric := rfl
@[simp] theorem setFld_gov (s : State) (a : Nat) (f : Field) (v : Nat) : (s.setFld a f v).gov = s.gov := rfl
@[simp] theorem setFld_bridge (s : State) (a : Nat) (f : Field) (v : Nat) : (s.setFld a f v).bridge = s.bridge := rfl
@[simp] theorem setFld_time (s : State) (a : Nat) (f : Field) (v : Nat) : (s.setFld a f v).time = s.time := rfl
@[simp] theorem setFld_freeCtr (s : State) (a : Nat) (f : Field) (v : Nat) : (s.setFld a f v).freeCtr = s.freeCtr := rfl
@[simp] theorem setFld_pending (s : State) (a : Nat) (f : Field) (v : Nat) : (s.setFld a f v).pending = s.pending := rfl

@[simp] theorem setFlag_mem (s : State) (a : Nat) (f : Field) (b : Bool) : (s.setFlag a f b).mem = s.mem := rfl
@[simp] theorem setFlag_bankOdd (s : State) (a : Nat) (f : Field) (b : Bool) : (s.setFlag a f b).bankOdd = s.bankOdd := rfl
@[simp] theorem setFlag_ctrs (s : State) (a : Nat) (f : Field) (b : Bool) : (s.setFlag a f b).ctrs = s.ctrs := rfl
@[simp] theorem setFlag_pins (s : State) (a : Nat) (f : Field) (b : Bool) : (s.setFlag a f b).pins = s.pins := rfl
@[simp] theorem setFlag_fuses (s : State) (a : Nat) (f : Field) (b : Bool) : (s.setFlag a f b).fuses = s.fuses := rfl
@[simp] theorem setFlag_boot (s : State) (a : Nat) (f : Field) (b : Bool) : (s.setFlag a f b).boot = s.boot := rfl
@[simp] theorem setFlag_ev (s : State) (a : Nat) (f : Field) (b : Bool) : (s.setFlag a f b).ev = s.ev := rfl
@[simp] theorem setFlag_fcp (s : State) (a : Nat) (f : Field) (b : Bool) : (s.setFlag a f b).fcp = s.fcp := rfl
@[simp] theorem setFlag_obs (s : State) (a : Nat) (f : Field) (b : Bool) : (s.setFlag a f b).obs = s.obs := rfl
@[simp] theorem setFlag_bist (s : State) (a : Nat) (f : Field) (b : Bool) : (s.setFlag a f b).bist = s.bist := rfl
@[simp] theorem setFlag_line (s : State) (a : Nat) (f : Field) (b : Bool) : (s.setFlag a f b).line = s.line := rfl
@[simp] theorem setFlag_hdrQ (s : State) (a : Nat) (f : Field) (b : Bool) : (s.setFlag a f b).hdrQ = s.hdrQ := rfl
@[simp] theorem setFlag_lookup (s : State) (a : Nat) (f : Field) (b : Bool) : (s.setFlag a f b).lookup = s.lookup := rfl
@[simp] theorem setFlag_engine (s : State) (a : Nat) (f : Field) (b : Bool) : (s.setFlag a f b).engine = s.engine := rfl
@[simp] theorem setFlag_traffic (s : State) (a : Nat) (f : Field) (b : Bool) : (s.setFlag a f b).traffic = s.traffic := rfl
@[simp] theorem setFlag_hbm (s : State) (a : Nat) (f : Field) (b : Bool) : (s.setFlag a f b).hbm = s.hbm := rfl
@[simp] theorem setFlag_fabric (s : State) (a : Nat) (f : Field) (b : Bool) : (s.setFlag a f b).fabric = s.fabric := rfl
@[simp] theorem setFlag_gov (s : State) (a : Nat) (f : Field) (b : Bool) : (s.setFlag a f b).gov = s.gov := rfl
@[simp] theorem setFlag_bridge (s : State) (a : Nat) (f : Field) (b : Bool) : (s.setFlag a f b).bridge = s.bridge := rfl
@[simp] theorem setFlag_time (s : State) (a : Nat) (f : Field) (b : Bool) : (s.setFlag a f b).time = s.time := rfl
@[simp] theorem setFlag_freeCtr (s : State) (a : Nat) (f : Field) (b : Bool) : (s.setFlag a f b).freeCtr = s.freeCtr := rfl
@[simp] theorem setFlag_pending (s : State) (a : Nat) (f : Field) (b : Bool) : (s.setFlag a f b).pending = s.pending := rfl

@[simp] theorem bumpKey_regs (s : State) (k n : Nat) : (s.bumpKey k n).regs = s.regs := rfl
@[simp] theorem bumpKey_mem (s : State) (k n : Nat) : (s.bumpKey k n).mem = s.mem := rfl
@[simp] theorem bumpKey_bankOdd (s : State) (k n : Nat) : (s.bumpKey k n).bankOdd = s.bankOdd := rfl
@[simp] theorem bumpKey_pins (s : State) (k n : Nat) : (s.bumpKey k n).pins = s.pins := rfl
@[simp] theorem bumpKey_fuses (s : State) (k n : Nat) : (s.bumpKey k n).fuses = s.fuses := rfl
@[simp] theorem bumpKey_boot (s : State) (k n : Nat) : (s.bumpKey k n).boot = s.boot := rfl
@[simp] theorem bumpKey_ev (s : State) (k n : Nat) : (s.bumpKey k n).ev = s.ev := rfl
@[simp] theorem bumpKey_fcp (s : State) (k n : Nat) : (s.bumpKey k n).fcp = s.fcp := rfl
@[simp] theorem bumpKey_obs (s : State) (k n : Nat) : (s.bumpKey k n).obs = s.obs := rfl
@[simp] theorem bumpKey_bist (s : State) (k n : Nat) : (s.bumpKey k n).bist = s.bist := rfl
@[simp] theorem bumpKey_line (s : State) (k n : Nat) : (s.bumpKey k n).line = s.line := rfl
@[simp] theorem bumpKey_hdrQ (s : State) (k n : Nat) : (s.bumpKey k n).hdrQ = s.hdrQ := rfl
@[simp] theorem bumpKey_lookup (s : State) (k n : Nat) : (s.bumpKey k n).lookup = s.lookup := rfl
@[simp] theorem bumpKey_engine (s : State) (k n : Nat) : (s.bumpKey k n).engine = s.engine := rfl
@[simp] theorem bumpKey_traffic (s : State) (k n : Nat) : (s.bumpKey k n).traffic = s.traffic := rfl
@[simp] theorem bumpKey_hbm (s : State) (k n : Nat) : (s.bumpKey k n).hbm = s.hbm := rfl
@[simp] theorem bumpKey_fabric (s : State) (k n : Nat) : (s.bumpKey k n).fabric = s.fabric := rfl
@[simp] theorem bumpKey_gov (s : State) (k n : Nat) : (s.bumpKey k n).gov = s.gov := rfl
@[simp] theorem bumpKey_bridge (s : State) (k n : Nat) : (s.bumpKey k n).bridge = s.bridge := rfl
@[simp] theorem bumpKey_time (s : State) (k n : Nat) : (s.bumpKey k n).time = s.time := rfl
@[simp] theorem bumpKey_freeCtr (s : State) (k n : Nat) : (s.bumpKey k n).freeCtr = s.freeCtr := rfl
@[simp] theorem bumpKey_pending (s : State) (k n : Nat) : (s.bumpKey k n).pending = s.pending := rfl

@[simp] theorem countN_regs (s : State) (c : Ctr) (i n : Nat) : (s.countN c i n).regs = s.regs := rfl
@[simp] theorem countN_mem (s : State) (c : Ctr) (i n : Nat) : (s.countN c i n).mem = s.mem := rfl
@[simp] theorem countN_bankOdd (s : State) (c : Ctr) (i n : Nat) : (s.countN c i n).bankOdd = s.bankOdd := rfl
@[simp] theorem countN_pins (s : State) (c : Ctr) (i n : Nat) : (s.countN c i n).pins = s.pins := rfl
@[simp] theorem countN_fuses (s : State) (c : Ctr) (i n : Nat) : (s.countN c i n).fuses = s.fuses := rfl
@[simp] theorem countN_boot (s : State) (c : Ctr) (i n : Nat) : (s.countN c i n).boot = s.boot := rfl
@[simp] theorem countN_ev (s : State) (c : Ctr) (i n : Nat) : (s.countN c i n).ev = s.ev := rfl
@[simp] theorem countN_fcp (s : State) (c : Ctr) (i n : Nat) : (s.countN c i n).fcp = s.fcp := rfl
@[simp] theorem countN_obs (s : State) (c : Ctr) (i n : Nat) : (s.countN c i n).obs = s.obs := rfl
@[simp] theorem countN_bist (s : State) (c : Ctr) (i n : Nat) : (s.countN c i n).bist = s.bist := rfl
@[simp] theorem countN_line (s : State) (c : Ctr) (i n : Nat) : (s.countN c i n).line = s.line := rfl
@[simp] theorem countN_hdrQ (s : State) (c : Ctr) (i n : Nat) : (s.countN c i n).hdrQ = s.hdrQ := rfl
@[simp] theorem countN_lookup (s : State) (c : Ctr) (i n : Nat) : (s.countN c i n).lookup = s.lookup := rfl
@[simp] theorem countN_engine (s : State) (c : Ctr) (i n : Nat) : (s.countN c i n).engine = s.engine := rfl
@[simp] theorem countN_traffic (s : State) (c : Ctr) (i n : Nat) : (s.countN c i n).traffic = s.traffic := rfl
@[simp] theorem countN_hbm (s : State) (c : Ctr) (i n : Nat) : (s.countN c i n).hbm = s.hbm := rfl
@[simp] theorem countN_fabric (s : State) (c : Ctr) (i n : Nat) : (s.countN c i n).fabric = s.fabric := rfl
@[simp] theorem countN_gov (s : State) (c : Ctr) (i n : Nat) : (s.countN c i n).gov = s.gov := rfl
@[simp] theorem countN_bridge (s : State) (c : Ctr) (i n : Nat) : (s.countN c i n).bridge = s.bridge := rfl
@[simp] theorem countN_time (s : State) (c : Ctr) (i n : Nat) : (s.countN c i n).time = s.time := rfl
@[simp] theorem countN_freeCtr (s : State) (c : Ctr) (i n : Nat) : (s.countN c i n).freeCtr = s.freeCtr := rfl
@[simp] theorem countN_pending (s : State) (c : Ctr) (i n : Nat) : (s.countN c i n).pending = s.pending := rfl

@[simp] theorem count_regs (s : State) (c : Ctr) (i : Nat) : (s.count c i).regs = s.regs := rfl
@[simp] theorem count_mem (s : State) (c : Ctr) (i : Nat) : (s.count c i).mem = s.mem := rfl
@[simp] theorem count_bankOdd (s : State) (c : Ctr) (i : Nat) : (s.count c i).bankOdd = s.bankOdd := rfl
@[simp] theorem count_pins (s : State) (c : Ctr) (i : Nat) : (s.count c i).pins = s.pins := rfl
@[simp] theorem count_fuses (s : State) (c : Ctr) (i : Nat) : (s.count c i).fuses = s.fuses := rfl
@[simp] theorem count_boot (s : State) (c : Ctr) (i : Nat) : (s.count c i).boot = s.boot := rfl
@[simp] theorem count_ev (s : State) (c : Ctr) (i : Nat) : (s.count c i).ev = s.ev := rfl
@[simp] theorem count_fcp (s : State) (c : Ctr) (i : Nat) : (s.count c i).fcp = s.fcp := rfl
@[simp] theorem count_obs (s : State) (c : Ctr) (i : Nat) : (s.count c i).obs = s.obs := rfl
@[simp] theorem count_bist (s : State) (c : Ctr) (i : Nat) : (s.count c i).bist = s.bist := rfl
@[simp] theorem count_line (s : State) (c : Ctr) (i : Nat) : (s.count c i).line = s.line := rfl
@[simp] theorem count_hdrQ (s : State) (c : Ctr) (i : Nat) : (s.count c i).hdrQ = s.hdrQ := rfl
@[simp] theorem count_lookup (s : State) (c : Ctr) (i : Nat) : (s.count c i).lookup = s.lookup := rfl
@[simp] theorem count_engine (s : State) (c : Ctr) (i : Nat) : (s.count c i).engine = s.engine := rfl
@[simp] theorem count_traffic (s : State) (c : Ctr) (i : Nat) : (s.count c i).traffic = s.traffic := rfl
@[simp] theorem count_hbm (s : State) (c : Ctr) (i : Nat) : (s.count c i).hbm = s.hbm := rfl
@[simp] theorem count_fabric (s : State) (c : Ctr) (i : Nat) : (s.count c i).fabric = s.fabric := rfl
@[simp] theorem count_gov (s : State) (c : Ctr) (i : Nat) : (s.count c i).gov = s.gov := rfl
@[simp] theorem count_bridge (s : State) (c : Ctr) (i : Nat) : (s.count c i).bridge = s.bridge := rfl
@[simp] theorem count_time (s : State) (c : Ctr) (i : Nat) : (s.count c i).time = s.time := rfl
@[simp] theorem count_freeCtr (s : State) (c : Ctr) (i : Nat) : (s.count c i).freeCtr = s.freeCtr := rfl
@[simp] theorem count_pending (s : State) (c : Ctr) (i : Nat) : (s.count c i).pending = s.pending := rfl

@[simp] theorem setPort_regs (s : State) (p : Nat) (x : LinePort) : (s.setPort p x).regs = s.regs := rfl
@[simp] theorem setPort_mem (s : State) (p : Nat) (x : LinePort) : (s.setPort p x).mem = s.mem := rfl
@[simp] theorem setPort_bankOdd (s : State) (p : Nat) (x : LinePort) : (s.setPort p x).bankOdd = s.bankOdd := rfl
@[simp] theorem setPort_ctrs (s : State) (p : Nat) (x : LinePort) : (s.setPort p x).ctrs = s.ctrs := rfl
@[simp] theorem setPort_pins (s : State) (p : Nat) (x : LinePort) : (s.setPort p x).pins = s.pins := rfl
@[simp] theorem setPort_fuses (s : State) (p : Nat) (x : LinePort) : (s.setPort p x).fuses = s.fuses := rfl
@[simp] theorem setPort_boot (s : State) (p : Nat) (x : LinePort) : (s.setPort p x).boot = s.boot := rfl
@[simp] theorem setPort_ev (s : State) (p : Nat) (x : LinePort) : (s.setPort p x).ev = s.ev := rfl
@[simp] theorem setPort_fcp (s : State) (p : Nat) (x : LinePort) : (s.setPort p x).fcp = s.fcp := rfl
@[simp] theorem setPort_obs (s : State) (p : Nat) (x : LinePort) : (s.setPort p x).obs = s.obs := rfl
@[simp] theorem setPort_bist (s : State) (p : Nat) (x : LinePort) : (s.setPort p x).bist = s.bist := rfl
@[simp] theorem setPort_hdrQ (s : State) (p : Nat) (x : LinePort) : (s.setPort p x).hdrQ = s.hdrQ := rfl
@[simp] theorem setPort_lookup (s : State) (p : Nat) (x : LinePort) : (s.setPort p x).lookup = s.lookup := rfl
@[simp] theorem setPort_engine (s : State) (p : Nat) (x : LinePort) : (s.setPort p x).engine = s.engine := rfl
@[simp] theorem setPort_traffic (s : State) (p : Nat) (x : LinePort) : (s.setPort p x).traffic = s.traffic := rfl
@[simp] theorem setPort_hbm (s : State) (p : Nat) (x : LinePort) : (s.setPort p x).hbm = s.hbm := rfl
@[simp] theorem setPort_fabric (s : State) (p : Nat) (x : LinePort) : (s.setPort p x).fabric = s.fabric := rfl
@[simp] theorem setPort_gov (s : State) (p : Nat) (x : LinePort) : (s.setPort p x).gov = s.gov := rfl
@[simp] theorem setPort_bridge (s : State) (p : Nat) (x : LinePort) : (s.setPort p x).bridge = s.bridge := rfl
@[simp] theorem setPort_time (s : State) (p : Nat) (x : LinePort) : (s.setPort p x).time = s.time := rfl
@[simp] theorem setPort_freeCtr (s : State) (p : Nat) (x : LinePort) : (s.setPort p x).freeCtr = s.freeCtr := rfl
@[simp] theorem setPort_pending (s : State) (p : Nat) (x : LinePort) : (s.setPort p x).pending = s.pending := rfl

@[simp] theorem setChan_regs (s : State) (k : Nat) (d : Bool) (c : BridgeChan) : (s.setChan k d c).regs = s.regs := rfl
@[simp] theorem setChan_mem (s : State) (k : Nat) (d : Bool) (c : BridgeChan) : (s.setChan k d c).mem = s.mem := rfl
@[simp] theorem setChan_bankOdd (s : State) (k : Nat) (d : Bool) (c : BridgeChan) : (s.setChan k d c).bankOdd = s.bankOdd := rfl
@[simp] theorem setChan_ctrs (s : State) (k : Nat) (d : Bool) (c : BridgeChan) : (s.setChan k d c).ctrs = s.ctrs := rfl
@[simp] theorem setChan_pins (s : State) (k : Nat) (d : Bool) (c : BridgeChan) : (s.setChan k d c).pins = s.pins := rfl
@[simp] theorem setChan_fuses (s : State) (k : Nat) (d : Bool) (c : BridgeChan) : (s.setChan k d c).fuses = s.fuses := rfl
@[simp] theorem setChan_boot (s : State) (k : Nat) (d : Bool) (c : BridgeChan) : (s.setChan k d c).boot = s.boot := rfl
@[simp] theorem setChan_ev (s : State) (k : Nat) (d : Bool) (c : BridgeChan) : (s.setChan k d c).ev = s.ev := rfl
@[simp] theorem setChan_fcp (s : State) (k : Nat) (d : Bool) (c : BridgeChan) : (s.setChan k d c).fcp = s.fcp := rfl
@[simp] theorem setChan_obs (s : State) (k : Nat) (d : Bool) (c : BridgeChan) : (s.setChan k d c).obs = s.obs := rfl
@[simp] theorem setChan_bist (s : State) (k : Nat) (d : Bool) (c : BridgeChan) : (s.setChan k d c).bist = s.bist := rfl
@[simp] theorem setChan_line (s : State) (k : Nat) (d : Bool) (c : BridgeChan) : (s.setChan k d c).line = s.line := rfl
@[simp] theorem setChan_hdrQ (s : State) (k : Nat) (d : Bool) (c : BridgeChan) : (s.setChan k d c).hdrQ = s.hdrQ := rfl
@[simp] theorem setChan_lookup (s : State) (k : Nat) (d : Bool) (c : BridgeChan) : (s.setChan k d c).lookup = s.lookup := rfl
@[simp] theorem setChan_engine (s : State) (k : Nat) (d : Bool) (c : BridgeChan) : (s.setChan k d c).engine = s.engine := rfl
@[simp] theorem setChan_traffic (s : State) (k : Nat) (d : Bool) (c : BridgeChan) : (s.setChan k d c).traffic = s.traffic := rfl
@[simp] theorem setChan_hbm (s : State) (k : Nat) (d : Bool) (c : BridgeChan) : (s.setChan k d c).hbm = s.hbm := rfl
@[simp] theorem setChan_fabric (s : State) (k : Nat) (d : Bool) (c : BridgeChan) : (s.setChan k d c).fabric = s.fabric := rfl
@[simp] theorem setChan_gov (s : State) (k : Nat) (d : Bool) (c : BridgeChan) : (s.setChan k d c).gov = s.gov := rfl
@[simp] theorem setChan_time (s : State) (k : Nat) (d : Bool) (c : BridgeChan) : (s.setChan k d c).time = s.time := rfl
@[simp] theorem setChan_freeCtr (s : State) (k : Nat) (d : Bool) (c : BridgeChan) : (s.setChan k d c).freeCtr = s.freeCtr := rfl
@[simp] theorem setChan_pending (s : State) (k : Nat) (d : Bool) (c : BridgeChan) : (s.setChan k d c).pending = s.pending := rfl

@[simp] theorem setPurse_regs (s : State) (c v : Nat) : (s.setPurse c v).regs = s.regs := rfl
@[simp] theorem setPurse_mem (s : State) (c v : Nat) : (s.setPurse c v).mem = s.mem := rfl
@[simp] theorem setPurse_bankOdd (s : State) (c v : Nat) : (s.setPurse c v).bankOdd = s.bankOdd := rfl
@[simp] theorem setPurse_ctrs (s : State) (c v : Nat) : (s.setPurse c v).ctrs = s.ctrs := rfl
@[simp] theorem setPurse_pins (s : State) (c v : Nat) : (s.setPurse c v).pins = s.pins := rfl
@[simp] theorem setPurse_fuses (s : State) (c v : Nat) : (s.setPurse c v).fuses = s.fuses := rfl
@[simp] theorem setPurse_boot (s : State) (c v : Nat) : (s.setPurse c v).boot = s.boot := rfl
@[simp] theorem setPurse_ev (s : State) (c v : Nat) : (s.setPurse c v).ev = s.ev := rfl
@[simp] theorem setPurse_fcp (s : State) (c v : Nat) : (s.setPurse c v).fcp = s.fcp := rfl
@[simp] theorem setPurse_obs (s : State) (c v : Nat) : (s.setPurse c v).obs = s.obs := rfl
@[simp] theorem setPurse_bist (s : State) (c v : Nat) : (s.setPurse c v).bist = s.bist := rfl
@[simp] theorem setPurse_line (s : State) (c v : Nat) : (s.setPurse c v).line = s.line := rfl
@[simp] theorem setPurse_hdrQ (s : State) (c v : Nat) : (s.setPurse c v).hdrQ = s.hdrQ := rfl
@[simp] theorem setPurse_lookup (s : State) (c v : Nat) : (s.setPurse c v).lookup = s.lookup := rfl
@[simp] theorem setPurse_engine (s : State) (c v : Nat) : (s.setPurse c v).engine = s.engine := rfl
@[simp] theorem setPurse_traffic (s : State) (c v : Nat) : (s.setPurse c v).traffic = s.traffic := rfl
@[simp] theorem setPurse_hbm (s : State) (c v : Nat) : (s.setPurse c v).hbm = s.hbm := rfl
@[simp] theorem setPurse_fabric (s : State) (c v : Nat) : (s.setPurse c v).fabric = s.fabric := rfl
@[simp] theorem setPurse_bridge (s : State) (c v : Nat) : (s.setPurse c v).bridge = s.bridge := rfl
@[simp] theorem setPurse_time (s : State) (c v : Nat) : (s.setPurse c v).time = s.time := rfl
@[simp] theorem setPurse_freeCtr (s : State) (c v : Nat) : (s.setPurse c v).freeCtr = s.freeCtr := rfl
@[simp] theorem setPurse_pending (s : State) (c v : Nat) : (s.setPurse c v).pending = s.pending := rfl

@[simp] theorem setMemWord_regs (s : State) (a : Nat) (w : Word) : (s.setMemWord a w).regs = s.regs := rfl
@[simp] theorem setMemWord_bankOdd (s : State) (a : Nat) (w : Word) : (s.setMemWord a w).bankOdd = s.bankOdd := rfl
@[simp] theorem setMemWord_ctrs (s : State) (a : Nat) (w : Word) : (s.setMemWord a w).ctrs = s.ctrs := rfl
@[simp] theorem setMemWord_pins (s : State) (a : Nat) (w : Word) : (s.setMemWord a w).pins = s.pins := rfl
@[simp] theorem setMemWord_fuses (s : State) (a : Nat) (w : Word) : (s.setMemWord a w).fuses = s.fuses := rfl
@[simp] theorem setMemWord_boot (s : State) (a : Nat) (w : Word) : (s.setMemWord a w).boot = s.boot := rfl
@[simp] theorem setMemWord_ev (s : State) (a : Nat) (w : Word) : (s.setMemWord a w).ev = s.ev := rfl
@[simp] theorem setMemWord_fcp (s : State) (a : Nat) (w : Word) : (s.setMemWord a w).fcp = s.fcp := rfl
@[simp] theorem setMemWord_obs (s : State) (a : Nat) (w : Word) : (s.setMemWord a w).obs = s.obs := rfl
@[simp] theorem setMemWord_bist (s : State) (a : Nat) (w : Word) : (s.setMemWord a w).bist = s.bist := rfl
@[simp] theorem setMemWord_line (s : State) (a : Nat) (w : Word) : (s.setMemWord a w).line = s.line := rfl
@[simp] theorem setMemWord_hdrQ (s : State) (a : Nat) (w : Word) : (s.setMemWord a w).hdrQ = s.hdrQ := rfl
@[simp] theorem setMemWord_lookup (s : State) (a : Nat) (w : Word) : (s.setMemWord a w).lookup = s.lookup := rfl
@[simp] theorem setMemWord_engine (s : State) (a : Nat) (w : Word) : (s.setMemWord a w).engine = s.engine := rfl
@[simp] theorem setMemWord_traffic (s : State) (a : Nat) (w : Word) : (s.setMemWord a w).traffic = s.traffic := rfl
@[simp] theorem setMemWord_hbm (s : State) (a : Nat) (w : Word) : (s.setMemWord a w).hbm = s.hbm := rfl
@[simp] theorem setMemWord_fabric (s : State) (a : Nat) (w : Word) : (s.setMemWord a w).fabric = s.fabric := rfl
@[simp] theorem setMemWord_gov (s : State) (a : Nat) (w : Word) : (s.setMemWord a w).gov = s.gov := rfl
@[simp] theorem setMemWord_bridge (s : State) (a : Nat) (w : Word) : (s.setMemWord a w).bridge = s.bridge := rfl
@[simp] theorem setMemWord_time (s : State) (a : Nat) (w : Word) : (s.setMemWord a w).time = s.time := rfl
@[simp] theorem setMemWord_freeCtr (s : State) (a : Nat) (w : Word) : (s.setMemWord a w).freeCtr = s.freeCtr := rfl
@[simp] theorem setMemWord_pending (s : State) (a : Nat) (w : Word) : (s.setMemWord a w).pending = s.pending := rfl

/-! ### Registers -/

theorem reg_setReg (s : State) (a b : Nat) (w : Word) : (s.setReg a w).reg b = if b = a then w else s.reg b := mget_mput ..

@[simp] theorem reg_setReg_self (s : State) (a : Nat) (w : Word) : (s.setReg a w).reg a = w := by simp [reg_setReg]

theorem reg_setReg_ne (s : State) {a b : Nat} (w : Word) (h : b ≠ a) : (s.setReg a w).reg b = s.reg b := by simp [reg_setReg, h]

theorem reg_setFld (s : State) (a b : Nat) (f : Field) (v : Nat) : (s.setFld a f v).reg b = if b = a then putField f v (s.reg a) else s.reg b := reg_setReg ..

theorem reg_setFld_ne (s : State) {a b : Nat} (f : Field) (v : Nat) (h : b ≠ a) : (s.setFld a f v).reg b = s.reg b := by simp [reg_setFld, h]

theorem reg_setFlag_ne (s : State) {a b : Nat} (f : Field) (v : Bool) (h : b ≠ a) : (s.setFlag a f v).reg b = s.reg b := reg_setFld_ne s f _ h

/-- Two fields of a word that do not overlap, the second of which lies in it. -/
abbrev Field.apart (f g : Field) : Prop := (g.lo ≤ g.hi ∧ g.hi < 64) ∧ (f.hi < g.lo ∨ g.hi < f.lo)

theorem fld_setFld_self (s : State) (a : Nat) (f : Field) (v : Nat) (h : f.lo ≤ f.hi ∧ f.hi < 64) : (s.setFld a f v).fld a f = v % 2 ^ f.width := by
  simp [State.fld, reg_setFld, getField_putField_self v _ h]

theorem fld_setFld_apart (s : State) (a : Nat) {f g : Field} (v : Nat) (h : f.apart g) : (s.setFld a g v).fld a f = s.fld a f := by
  simp [State.fld, reg_setFld, getField_putField_apart v _ h.1 h.2]

theorem fld_setFld_ne (s : State) {a b : Nat} (f g : Field) (v : Nat) (h : b ≠ a) : (s.setFld a g v).fld b f = s.fld b f := by
  simp [State.fld, reg_setFld, h]

theorem flag_setFlag_self (s : State) (a : Nat) (f : Field) (b : Bool) (h : f.lo ≤ f.hi ∧ f.hi < 64) : (s.setFlag a f b).flag a f = b := by
  have hw : 0 < f.width := by simp [Field.width]; omega
  have : (1 : Nat) % 2 ^ f.width = 1 := Nat.mod_eq_of_lt (Nat.one_lt_two_pow (by omega))
  cases b <;> simp [State.flag, State.setFlag, fld_setFld_self _ _ _ _ h, b2n, this]

/-! ### What reads only a part -/

theorem reg_congr {s t : State} (h : t.regs = s.regs) (a : Nat) : t.reg a = s.reg a := by simp [State.reg, h]

theorem fld_congr {s t : State} (h : t.regs = s.regs) (a : Nat) (f : Field) : t.fld a f = s.fld a f := by simp [State.fld, reg_congr h]

theorem flag_congr {s t : State} (h : t.regs = s.regs) (a : Nat) (f : Field) : t.flag a f = s.flag a f := by simp [State.flag, fld_congr h]

/-! ### Counters -/

theorem ctr_bumpKey (s : State) (k n j : Nat) : (s.bumpKey k n).ctr j = if j = k then (s.ctr k).bump n else s.ctr j := mget_mput ..

theorem ctr_congr {s t : State} (h : t.ctrs = s.ctrs) (k : Nat) : t.ctr k = s.ctr k := by simp [State.ctr, h]

/-! ### Parts -/

theorem Only.refl (l : List Part) (s : State) : Only l s s := ⟨fun p _ => by cases p <;> rfl⟩

theorem Only.trans {l m : List Part} {s t u : State} (h1 : Only l s t) (h2 : Only m t u) : Only (l ++ m) s u := by
  refine ⟨fun p hp => ?_⟩
  simp only [List.mem_append, not_or] at hp
  have a := h1.same p hp.1
  have b := h2.same p hp.2
  cases p <;> exact Eq.trans b a

theorem Only.mono {l m : List Part} {s t : State} (h : Only l s t) (hm : ∀ p ∈ l, p ∈ m) : Only m s t :=
  ⟨fun p hp => h.same p (fun hl => hp (hm p hl))⟩

theorem Only.trans_same {l : List Part} {s t u : State} (h1 : Only l s t) (h2 : Only l t u) : Only l s u :=
  (h1.trans h2).mono (by simp)

theorem Only.foldl {α : Type} {l : List Part} {g : State → α → State} (h : ∀ s x, Only l s (g s x)) (xs : List α) (s : State) : Only l s (xs.foldl g s) := by
  induction xs generalizing s with
  | nil => exact Only.refl l s
  | cons x xs ih => exact (h s x).trans_same (ih _)

theorem RegsOnly.refl (l : List Nat) (s : State) : RegsOnly l s s := ⟨fun _ _ => rfl⟩

theorem RegsOnly.trans {l m : List Nat} {s t u : State} (h1 : RegsOnly l s t) (h2 : RegsOnly m t u) : RegsOnly (l ++ m) s u := by
  refine ⟨fun a ha => ?_⟩
  simp only [List.mem_append, not_or] at ha
  rw [h2.same a ha.2, h1.same a ha.1]

theorem RegsOnly.of_same {s t : State} (h : t.regs = s.regs) (l : List Nat) : RegsOnly l s t := ⟨fun a _ => reg_congr h a⟩

theorem RegsOnly.mono {l m : List Nat} {s t : State} (h : RegsOnly l s t) (hm : ∀ a ∈ l, a ∈ m) : RegsOnly m s t :=
  ⟨fun a ha => h.same a (fun hl => ha (hm a hl))⟩

theorem RegsOnly.setReg (s : State) (a : Nat) (w : Word) : RegsOnly [a] s (s.setReg a w) :=
  ⟨fun b hb => reg_setReg_ne s w (by simpa using hb)⟩

theorem RegsOnly.setFld (s : State) (a : Nat) (f : Field) (v : Nat) : RegsOnly [a] s (s.setFld a f v) := RegsOnly.setReg ..

end Sys2Proof.Machine
end

