-- ==== Sys2Proof/Laws/Ops.lean ====
section
/-! SUPPORT. What the shared operations can do: messages, telemetry records and events (R58, R404, R407, R467). -/

namespace Sys2Proof.Machine

/-! ### The parts they may change -/

theorem bumpKey_only (s : State) (k n : Nat) : Only [.counters] s (s.bumpKey k n) := by
  refine ⟨fun p hp => ?_⟩; cases p <;> first | rfl | simp at hp

theorem count_only (s : State) (c : Ctr) (i : Nat) : Only [.counters] s (s.count c i) := bumpKey_only ..

theorem filterCount_only (s : State) (kind priv master : Nat) (addr tc : Option Nat) : Only [.counters] s (s.filterCount kind priv master addr tc) :=
  Only.foldl (fun s _ => bumpKey_only s _ _) _ s

theorem send_only (s : State) (sid type request status : Nat) (reply gap : Bool) (payload : Bytes) :
    Only [.fcp] s (s.send sid type request status reply gap payload) := by
  unfold State.send
  split
  · exact Only.refl ..
  · refine ⟨fun p hp => ?_⟩; cases p <;> first | rfl | simp at hp

theorem sendEvent_only (s : State) (r : EventRec) : Only [.fcp] s (s.sendEvent r) := by
  unfold State.sendEvent
  refine Only.foldl (fun s x => ?_) _ s
  dsimp only
  split
  · exact send_only ..
  · refine (send_only ..).trans_same (?_ : Only [.fcp] (s.send x.id 0x28 0 0 false x.lost r.bytes) _)
    refine ⟨fun p hp => ?_⟩; cases p <;> first | rfl | simp at hp

theorem ringPut_only (s : State) (code held : Nat) (time data : Bytes) : Only eventParts s (s.ringPut code held time data).1 := by
  unfold State.ringPut
  dsimp only
  split <;> (refine ⟨fun p hp => ?_⟩; cases p <;> first | rfl | simp [eventParts] at hp)

theorem teleLose_only (s : State) (i : Nat) : Only eventParts s (s.teleLose i) := by
  refine ⟨fun p hp => ?_⟩; cases p <;> first | rfl | simp [eventParts] at hp

theorem teleOne_only (kind : Nat) (body : Bytes) (r : State × List Nat) (i : Nat) : Only eventParts r.1 (teleOne kind body r i).1 := by
  unfold teleOne
  split
  · exact teleLose_only ..
  · refine ⟨fun p hp => ?_⟩; cases p <;> first | rfl | simp [eventParts] at hp

theorem teleOnes_only (kind : Nat) (body : Bytes) (l : List Nat) : ∀ r : State × List Nat, Only eventParts r.1 (l.foldl (teleOne kind body) r).1 := by
  induction l with
  | nil => intro r; exact Only.refl ..
  | cons i l ih => intro r; exact (teleOne_only kind body r i).trans_same (ih _)

theorem telePut_only (s : State) (kind b : Nat) (body : Bytes) : Only eventParts s (s.telePut kind b body).1 := by
  unfold State.telePut
  split
  · exact teleOnes_only kind body _ (s, [])
  · exact Only.refl ..

theorem recordCore_only (s : State) (code held : Nat) (data : Bytes) : Only eventParts s (s.recordCore code held data).1 := by
  have h0 : Only eventParts s (s.filterCount 5 0 (code / 256) (some code) none) := (filterCount_only ..).mono (by simp [eventParts])
  unfold State.recordCore
  dsimp only
  split
  · refine h0.trans_same ((ringPut_only ..).trans_same (Only.trans_same ((sendEvent_only _ _).mono (by simp [eventParts])) (telePut_only ..)))
  · split
    · refine h0.trans_same ?_
      refine ⟨fun p hp => ?_⟩; cases p <;> first | rfl | simp [eventParts] at hp
    · refine h0.trans_same ?_
      refine ⟨fun p hp => ?_⟩; cases p <;> first | rfl | simp [eventParts] at hp

theorem lostEvent_only (s : State) (i kind : Nat) : Only eventParts s (s.lostEvent i kind) := by
  unfold State.lostEvent
  dsimp only
  split
  · refine ⟨fun p hp => ?_⟩; cases p <;> first | rfl | simp [eventParts] at hp
  · refine Only.trans_same (?_ : Only eventParts s _) (recordCore_only ..)
    refine ⟨fun p hp => ?_⟩; cases p <;> first | rfl | simp [eventParts] at hp

theorem record_only (s : State) (code held : Nat) (data : Bytes) : Only eventParts s (s.record code held data) :=
  (recordCore_only ..).trans_same (Only.foldl (fun s i => lostEvent_only s i 3) _ _)

theorem raise_only (s : State) (code : Nat) (data : Bytes) : Only eventParts s (s.raise code data) := record_only ..

theorem tele_only (s : State) (kind b : Nat) (body : Bytes) : Only eventParts s (s.tele kind b body) :=
  (telePut_only ..).trans_same (Only.foldl (fun s i => lostEvent_only s i kind) _ _)

theorem raiseLimited_only (s : State) (code key : Nat) (data : Bytes) : Only eventParts s (s.raiseLimited code key data) := by
  unfold State.raiseLimited
  split
  · refine ⟨fun p hp => ?_⟩; cases p <;> first | rfl | simp [eventParts] at hp
  · refine Only.trans_same (?_ : Only eventParts s _) (record_only ..)
    refine ⟨fun p hp => ?_⟩; cases p <;> first | rfl | simp [eventParts] at hp

@[simp] theorem raise_regs (s : State) (code : Nat) (data : Bytes) : (s.raise code data).regs = s.regs := (raise_only s code data).same .regs (by decide)
@[simp] theorem raise_mem (s : State) (code : Nat) (data : Bytes) : (s.raise code data).mem = s.mem := (raise_only s code data).same .mem (by decide)
@[simp] theorem raise_bankOdd (s : State) (code : Nat) (data : Bytes) : (s.raise code data).bankOdd = s.bankOdd := (raise_only s code data).same .banks (by decide)
@[simp] theorem raise_pins (s : State) (code : Nat) (data : Bytes) : (s.raise code data).pins = s.pins := (raise_only s code data).same .pins (by decide)
@[simp] theorem raise_fuses (s : State) (code : Nat) (data : Bytes) : (s.raise code data).fuses = s.fuses := (raise_only s code data).same .fuses (by decide)
@[simp] theorem raise_boot (s : State) (code : Nat) (data : Bytes) : (s.raise code data).boot = s.boot := (raise_only s code data).same .boot (by decide)
@[simp] theorem raise_bist (s : State) (code : Nat) (data : Bytes) : (s.raise code data).bist = s.bist := (raise_only s code data).same .bist (by decide)
@[simp] theorem raise_line (s : State) (code : Nat) (data : Bytes) : (s.raise code data).line = s.line := (raise_only s code data).same .line (by decide)
@[simp] theorem raise_hdrQ (s : State) (code : Nat) (data : Bytes) : (s.raise code data).hdrQ = s.hdrQ := (raise_only s code data).same .headers (by decide)
@[simp] theorem raise_lookup (s : State) (code : Nat) (data : Bytes) : (s.raise code data).lookup = s.lookup := (raise_only s code data).same .lookup (by decide)
@[simp] theorem raise_engine (s : State) (code : Nat) (data : Bytes) : (s.raise code data).engine = s.engine := (raise_only s code data).same .engine (by decide)
@[simp] theorem raise_traffic (s : State) (code : Nat) (data : Bytes) : (s.raise code data).traffic = s.traffic := (raise_only s code data).same .traffic (by decide)
@[simp] theorem raise_hbm (s : State) (code : Nat) (data : Bytes) : (s.raise code data).hbm = s.hbm := (raise_only s code data).same .hbm (by decide)
@[simp] theorem raise_fabric (s : State) (code : Nat) (data : Bytes) : (s.raise code data).fabric = s.fabric := (raise_only s code data).same .fabric (by decide)
@[simp] theorem raise_gov (s : State) (code : Nat) (data : Bytes) : (s.raise code data).gov = s.gov := (raise_only s code data).same .gov (by decide)
@[simp] theorem raise_bridge (s : State) (code : Nat) (data : Bytes) : (s.raise code data).bridge = s.bridge := (raise_only s code data).same .bridge (by decide)
@[simp] theorem raise_time (s : State) (code : Nat) (data : Bytes) : (s.raise code data).time = s.time := (raise_only s code data).same .time (by decide)
@[simp] theorem raise_freeCtr (s : State) (code : Nat) (data : Bytes) : (s.raise code data).freeCtr = s.freeCtr := (raise_only s code data).same .free (by decide)
@[simp] theorem raise_pending (s : State) (code : Nat) (data : Bytes) : (s.raise code data).pending = s.pending := (raise_only s code data).same .queue (by decide)

@[simp] theorem raiseLimited_regs (s : State) (code key : Nat) (data : Bytes) : (s.raiseLimited code key data).regs = s.regs := (raiseLimited_only s code key data).same .regs (by decide)
@[simp] theorem raiseLimited_mem (s : State) (code key : Nat) (data : Bytes) : (s.raiseLimited code key data).mem = s.mem := (raiseLimited_only s code key data).same .mem (by decide)
@[simp] theorem raiseLimited_bankOdd (s : State) (code key : Nat) (data : Bytes) : (s.raiseLimited code key data).bankOdd = s.bankOdd := (raiseLimited_only s code key data).same .banks (by decide)
@[simp] theorem raiseLimited_pins (s : State) (code key : Nat) (data : Bytes) : (s.raiseLimited code key data).pins = s.pins := (raiseLimited_only s code key data).same .pins (by decide)
@[simp] theorem raiseLimited_fuses (s : State) (code key : Nat) (data : Bytes) : (s.raiseLimited code key data).fuses = s.fuses := (raiseLimited_only s code key data).same .fuses (by decide)
@[simp] theorem raiseLimited_boot (s : State) (code key : Nat) (data : Bytes) : (s.raiseLimited code key data).boot = s.boot := (raiseLimited_only s code key data).same .boot (by decide)
@[simp] theorem raiseLimited_bist (s : State) (code key : Nat) (data : Bytes) : (s.raiseLimited code key data).bist = s.bist := (raiseLimited_only s code key data).same .bist (by decide)
@[simp] theorem raiseLimited_line (s : State) (code key : Nat) (data : Bytes) : (s.raiseLimited code key data).line = s.line := (raiseLimited_only s code key data).same .line (by decide)
@[simp] theorem raiseLimited_hdrQ (s : State) (code key : Nat) (data : Bytes) : (s.raiseLimited code key data).hdrQ = s.hdrQ := (raiseLimited_only s code key data).same .headers (by decide)
@[simp] theorem raiseLimited_lookup (s : State) (code key : Nat) (data : Bytes) : (s.raiseLimited code key data).lookup = s.lookup := (raiseLimited_only s code key data).same .lookup (by decide)
@[simp] theorem raiseLimited_engine (s : State) (code key : Nat) (data : Bytes) : (s.raiseLimited code key data).engine = s.engine := (raiseLimited_only s code key data).same .engine (by decide)
@[simp] theorem raiseLimited_traffic (s : State) (code key : Nat) (data : Bytes) : (s.raiseLimited code key data).traffic = s.traffic := (raiseLimited_only s code key data).same .traffic (by decide)
@[simp] theorem raiseLimited_hbm (s : State) (code key : Nat) (data : Bytes) : (s.raiseLimited code key data).hbm = s.hbm := (raiseLimited_only s code key data).same .hbm (by decide)
@[simp] theorem raiseLimited_fabric (s : State) (code key : Nat) (data : Bytes) : (s.raiseLimited code key data).fabric = s.fabric := (raiseLimited_only s code key data).same .fabric (by decide)
@[simp] theorem raiseLimited_gov (s : State) (code key : Nat) (data : Bytes) : (s.raiseLimited code key data).gov = s.gov := (raiseLimited_only s code key data).same .gov (by decide)
@[simp] theorem raiseLimited_bridge (s : State) (code key : Nat) (data : Bytes) : (s.raiseLimited code key data).bridge = s.bridge := (raiseLimited_only s code key data).same .bridge (by decide)
@[simp] theorem raiseLimited_time (s : State) (code key : Nat) (data : Bytes) : (s.raiseLimited code key data).time = s.time := (raiseLimited_only s code key data).same .time (by decide)
@[simp] theorem raiseLimited_freeCtr (s : State) (code key : Nat) (data : Bytes) : (s.raiseLimited code key data).freeCtr = s.freeCtr := (raiseLimited_only s code key data).same .free (by decide)
@[simp] theorem raiseLimited_pending (s : State) (code key : Nat) (data : Bytes) : (s.raiseLimited code key data).pending = s.pending := (raiseLimited_only s code key data).same .queue (by decide)

@[simp] theorem tele_regs (s : State) (kind b : Nat) (body : Bytes) : (s.tele kind b body).regs = s.regs := (tele_only s kind b body).same .regs (by decide)
@[simp] theorem tele_mem (s : State) (kind b : Nat) (body : Bytes) : (s.tele kind b body).mem = s.mem := (tele_only s kind b body).same .mem (by decide)
@[simp] theorem tele_bankOdd (s : State) (kind b : Nat) (body : Bytes) : (s.tele kind b body).bankOdd = s.bankOdd := (tele_only s kind b body).same .banks (by decide)
@[simp] theorem tele_pins (s : State) (kind b : Nat) (body : Bytes) : (s.tele kind b body).pins = s.pins := (tele_only s kind b body).same .pins (by decide)
@[simp] theorem tele_fuses (s : State) (kind b : Nat) (body : Bytes) : (s.tele kind b body).fuses = s.fuses := (tele_only s kind b body).same .fuses (by decide)
@[simp] theorem tele_boot (s : State) (kind b : Nat) (body : Bytes) : (s.tele kind b body).boot = s.boot := (tele_only s kind b body).same .boot (by decide)
@[simp] theorem tele_bist (s : State) (kind b : Nat) (body : Bytes) : (s.tele kind b body).bist = s.bist := (tele_only s kind b body).same .bist (by decide)
@[simp] theorem tele_line (s : State) (kind b : Nat) (body : Bytes) : (s.tele kind b body).line = s.line := (tele_only s kind b body).same .line (by decide)
@[simp] theorem tele_hdrQ (s : State) (kind b : Nat) (body : Bytes) : (s.tele kind b body).hdrQ = s.hdrQ := (tele_only s kind b body).same .headers (by decide)
@[simp] theorem tele_lookup (s : State) (kind b : Nat) (body : Bytes) : (s.tele kind b body).lookup = s.lookup := (tele_only s kind b body).same .lookup (by decide)
@[simp] theorem tele_engine (s : State) (kind b : Nat) (body : Bytes) : (s.tele kind b body).engine = s.engine := (tele_only s kind b body).same .engine (by decide)
@[simp] theorem tele_traffic (s : State) (kind b : Nat) (body : Bytes) : (s.tele kind b body).traffic = s.traffic := (tele_only s kind b body).same .traffic (by decide)
@[simp] theorem tele_hbm (s : State) (kind b : Nat) (body : Bytes) : (s.tele kind b body).hbm = s.hbm := (tele_only s kind b body).same .hbm (by decide)
@[simp] theorem tele_fabric (s : State) (kind b : Nat) (body : Bytes) : (s.tele kind b body).fabric = s.fabric := (tele_only s kind b body).same .fabric (by decide)
@[simp] theorem tele_gov (s : State) (kind b : Nat) (body : Bytes) : (s.tele kind b body).gov = s.gov := (tele_only s kind b body).same .gov (by decide)
@[simp] theorem tele_bridge (s : State) (kind b : Nat) (body : Bytes) : (s.tele kind b body).bridge = s.bridge := (tele_only s kind b body).same .bridge (by decide)
@[simp] theorem tele_time (s : State) (kind b : Nat) (body : Bytes) : (s.tele kind b body).time = s.time := (tele_only s kind b body).same .time (by decide)
@[simp] theorem tele_freeCtr (s : State) (kind b : Nat) (body : Bytes) : (s.tele kind b body).freeCtr = s.freeCtr := (tele_only s kind b body).same .free (by decide)
@[simp] theorem tele_pending (s : State) (kind b : Nat) (body : Bytes) : (s.tele kind b body).pending = s.pending := (tele_only s kind b body).same .queue (by decide)

@[simp] theorem send_regs (s : State) (sid type request status : Nat) (reply gap : Bool) (payload : Bytes) : (s.send sid type request status reply gap payload).regs = s.regs := (send_only s sid type request status reply gap payload).same .regs (by decide)
@[simp] theorem send_mem (s : State) (sid type request status : Nat) (reply gap : Bool) (payload : Bytes) : (s.send sid type request status reply gap payload).mem = s.mem := (send_only s sid type request status reply gap payload).same .mem (by decide)
@[simp] theorem send_bankOdd (s : State) (sid type request status : Nat) (reply gap : Bool) (payload : Bytes) : (s.send sid type request status reply gap payload).bankOdd = s.bankOdd := (send_only s sid type request status reply gap payload).same .banks (by decide)
@[simp] theorem send_pins (s : State) (sid type request status : Nat) (reply gap : Bool) (payload : Bytes) : (s.send sid type request status reply gap payload).pins = s.pins := (send_only s sid type request status reply gap payload).same .pins (by decide)
@[simp] theorem send_fuses (s : State) (sid type request status : Nat) (reply gap : Bool) (payload : Bytes) : (s.send sid type request status reply gap payload).fuses = s.fuses := (send_only s sid type request status reply gap payload).same .fuses (by decide)
@[simp] theorem send_boot (s : State) (sid type request status : Nat) (reply gap : Bool) (payload : Bytes) : (s.send sid type request status reply gap payload).boot = s.boot := (send_only s sid type request status reply gap payload).same .boot (by decide)
@[simp] theorem send_bist (s : State) (sid type request status : Nat) (reply gap : Bool) (payload : Bytes) : (s.send sid type request status reply gap payload).bist = s.bist := (send_only s sid type request status reply gap payload).same .bist (by decide)
@[simp] theorem send_line (s : State) (sid type request status : Nat) (reply gap : Bool) (payload : Bytes) : (s.send sid type request status reply gap payload).line = s.line := (send_only s sid type request status reply gap payload).same .line (by decide)
@[simp] theorem send_hdrQ (s : State) (sid type request status : Nat) (reply gap : Bool) (payload : Bytes) : (s.send sid type request status reply gap payload).hdrQ = s.hdrQ := (send_only s sid type request status reply gap payload).same .headers (by decide)
@[simp] theorem send_lookup (s : State) (sid type request status : Nat) (reply gap : Bool) (payload : Bytes) : (s.send sid type request status reply gap payload).lookup = s.lookup := (send_only s sid type request status reply gap payload).same .lookup (by decide)
@[simp] theorem send_engine (s : State) (sid type request status : Nat) (reply gap : Bool) (payload : Bytes) : (s.send sid type request status reply gap payload).engine = s.engine := (send_only s sid type request status reply gap payload).same .engine (by decide)
@[simp] theorem send_traffic (s : State) (sid type request status : Nat) (reply gap : Bool) (payload : Bytes) : (s.send sid type request status reply gap payload).traffic = s.traffic := (send_only s sid type request status reply gap payload).same .traffic (by decide)
@[simp] theorem send_hbm (s : State) (sid type request status : Nat) (reply gap : Bool) (payload : Bytes) : (s.send sid type request status reply gap payload).hbm = s.hbm := (send_only s sid type request status reply gap payload).same .hbm (by decide)
@[simp] theorem send_fabric (s : State) (sid type request status : Nat) (reply gap : Bool) (payload : Bytes) : (s.send sid type request status reply gap payload).fabric = s.fabric := (send_only s sid type request status reply gap payload).same .fabric (by decide)
@[simp] theorem send_gov (s : State) (sid type request status : Nat) (reply gap : Bool) (payload : Bytes) : (s.send sid type request status reply gap payload).gov = s.gov := (send_only s sid type request status reply gap payload).same .gov (by decide)
@[simp] theorem send_bridge (s : State) (sid type request status : Nat) (reply gap : Bool) (payload : Bytes) : (s.send sid type request status reply gap payload).bridge = s.bridge := (send_only s sid type request status reply gap payload).same .bridge (by decide)
@[simp] theorem send_time (s : State) (sid type request status : Nat) (reply gap : Bool) (payload : Bytes) : (s.send sid type request status reply gap payload).time = s.time := (send_only s sid type request status reply gap payload).same .time (by decide)
@[simp] theorem send_freeCtr (s : State) (sid type request status : Nat) (reply gap : Bool) (payload : Bytes) : (s.send sid type request status reply gap payload).freeCtr = s.freeCtr := (send_only s sid type request status reply gap payload).same .free (by decide)
@[simp] theorem send_pending (s : State) (sid type request status : Nat) (reply gap : Bool) (payload : Bytes) : (s.send sid type request status reply gap payload).pending = s.pending := (send_only s sid type request status reply gap payload).same .queue (by decide)
@[simp] theorem send_ctrs (s : State) (sid type request status : Nat) (reply gap : Bool) (payload : Bytes) : (s.send sid type request status reply gap payload).ctrs = s.ctrs := (send_only s sid type request status reply gap payload).same .counters (by decide)
@[simp] theorem send_ev (s : State) (sid type request status : Nat) (reply gap : Bool) (payload : Bytes) : (s.send sid type request status reply gap payload).ev = s.ev := (send_only s sid type request status reply gap payload).same .events (by decide)
@[simp] theorem send_obs (s : State) (sid type request status : Nat) (reply gap : Bool) (payload : Bytes) : (s.send sid type request status reply gap payload).obs = s.obs := (send_only s sid type request status reply gap payload).same .obs (by decide)

/-! ### What they read of the state is the same after -/

@[simp] theorem reg_raise (s : State) (code : Nat) (data : Bytes) (a : Nat) : (s.raise code data).reg a = s.reg a := reg_congr (by simp) a
@[simp] theorem fld_raise (s : State) (code : Nat) (data : Bytes) (a : Nat) (f : Field) : (s.raise code data).fld a f = s.fld a f := fld_congr (by simp) a f
@[simp] theorem flag_raise (s : State) (code : Nat) (data : Bytes) (a : Nat) (f : Field) : (s.raise code data).flag a f = s.flag a f := flag_congr (by simp) a f
@[simp] theorem reg_raiseLimited (s : State) (code key : Nat) (data : Bytes) (a : Nat) : (s.raiseLimited code key data).reg a = s.reg a := reg_congr (by simp) a
@[simp] theorem fld_raiseLimited (s : State) (code key : Nat) (data : Bytes) (a : Nat) (f : Field) : (s.raiseLimited code key data).fld a f = s.fld a f := fld_congr (by simp) a f
@[simp] theorem flag_raiseLimited (s : State) (code key : Nat) (data : Bytes) (a : Nat) (f : Field) : (s.raiseLimited code key data).flag a f = s.flag a f := flag_congr (by simp) a f
@[simp] theorem reg_count (s : State) (c : Ctr) (i : Nat) (a : Nat) : (s.count c i).reg a = s.reg a := reg_congr (by simp) a
@[simp] theorem fld_count (s : State) (c : Ctr) (i : Nat) (a : Nat) (f : Field) : (s.count c i).fld a f = s.fld a f := fld_congr (by simp) a f
@[simp] theorem flag_count (s : State) (c : Ctr) (i : Nat) (a : Nat) (f : Field) : (s.count c i).flag a f = s.flag a f := flag_congr (by simp) a f
@[simp] theorem reg_tele (s : State) (kind b : Nat) (body : Bytes) (a : Nat) : (s.tele kind b body).reg a = s.reg a := reg_congr (by simp) a
@[simp] theorem fld_tele (s : State) (kind b : Nat) (body : Bytes) (a : Nat) (f : Field) : (s.tele kind b body).fld a f = s.fld a f := fld_congr (by simp) a f
@[simp] theorem flag_tele (s : State) (kind b : Nat) (body : Bytes) (a : Nat) (f : Field) : (s.tele kind b body).flag a f = s.flag a f := flag_congr (by simp) a f

/-! ### Events -/

/-- A record among the last `n` + 1 of a list. -/
def InLast (n : Nat) (r : EventRec) (l : List EventRec) : Prop := ∃ a b, l = a ++ r :: b ∧ b.length ≤ n

theorem InLast.mem {n : Nat} {r : EventRec} {l : List EventRec} (h : InLast n r l) : r ∈ l := by
  obtain ⟨a, b, rfl, _⟩ := h; simp

theorem ringPut_ring (s : State) (code held : Nat) (time data : Bytes) :
    (s.ringPut code held time data).1.ev.ring = (if 65536 ≤ s.ev.ring.length then s.ev.ring.drop 1 else s.ev.ring) ++ [(s.ringPut code held time data).2] := by
  unfold State.ringPut
  dsimp only
  split <;> simp

theorem ringPut_inLast {s : State} {n : Nat} {r : EventRec} (h : InLast n r s.ev.ring) (hn : n + 1 < 65536) (code held : Nat) (time data : Bytes) :
    InLast (n + 1) r (s.ringPut code held time data).1.ev.ring := by
  rw [ringPut_ring]
  obtain ⟨a, b, hl, hb⟩ := h
  by_cases hf : 65536 ≤ s.ev.ring.length
  · rw [if_pos hf, hl]
    cases a with
    | nil => rw [hl] at hf; simp at hf; omega
    | cons x a => exact ⟨a, b ++ [_], by simp; rfl, by simp; omega⟩
  · rw [if_neg hf, hl]
    exact ⟨a, b ++ [_], by simp; rfl, by simp; omega⟩

theorem teleOnes_ev (kind : Nat) (body : Bytes) (l : List Nat) : ∀ r : State × List Nat, (l.foldl (teleOne kind body) r).1.ev = r.1.ev := by
  induction l with
  | nil => intro r; rfl
  | cons i l ih => intro r; rw [List.foldl_cons, ih]; unfold teleOne; split <;> rfl

@[simp] theorem telePut_ev (s : State) (kind b : Nat) (body : Bytes) : (s.telePut kind b body).1.ev = s.ev := by
  unfold State.telePut
  split
  · exact teleOnes_ev kind body _ _
  · rfl

theorem teleOnes_lost (kind : Nat) (body : Bytes) (l : List Nat) : ∀ r : State × List Nat, (l.foldl (teleOne kind body) r).2.length ≤ r.2.length + l.length := by
  induction l with
  | nil => intro r; simp
  | cons i l ih =>
    intro r
    refine Nat.le_trans (ih _) ?_
    unfold teleOne
    split <;> simp <;> omega

theorem collectorsFor_length (s : State) (b : Nat) : (s.collectorsFor b).length ≤ 4 := List.length_filter_le _ (List.range 4)

theorem telePut_lost (s : State) (kind b : Nat) (body : Bytes) : (s.telePut kind b body).2.length ≤ 4 := by
  unfold State.telePut
  split
  · refine Nat.le_trans (teleOnes_lost ..) ?_
    simpa using collectorsFor_length s b
  · simp

theorem filterCount_ev (s : State) (kind priv master : Nat) (addr tc : Option Nat) : (s.filterCount kind priv master addr tc).ev = s.ev :=
  (filterCount_only s kind priv master addr tc).same .events (by decide)

theorem filterCount_boot (s : State) (kind priv master : Nat) (addr tc : Option Nat) : (s.filterCount kind priv master addr tc).boot = s.boot :=
  (filterCount_only s kind priv master addr tc).same .boot (by decide)

/-- While events go to the ring, the core of recording one is a place in the ring, then what no longer touches the ring. -/
theorem recordCore_ring {s : State} (h : s.ringing = true) (code held : Nat) (data : Bytes) :
    ∃ u : State, u.ev = s.ev ∧ (s.recordCore code held data).1.ev = (u.ringPut code held (todBytes s.tod) data).1.ev
      ∧ (s.recordCore code held data).2.length ≤ 4 := by
  refine ⟨s.filterCount 5 0 (code / 256) (some code) none, filterCount_ev .., ?_⟩
  unfold State.recordCore
  dsimp only
  rw [if_pos (by simpa [State.ringing, filterCount_boot] using h)]
  exact ⟨by rw [telePut_ev, (sendEvent_only _ _).same .events (by decide)], telePut_lost ..⟩

theorem ringing_congr {s t : State} (h : t.boot = s.boot) : t.ringing = s.ringing := by simp [State.ringing, h]

theorem lostEvent_inLast {s : State} {n : Nat} {r : EventRec} (hs : s.ringing = true) (h : InLast n r s.ev.ring) (hn : n + 1 < 65536) (i kind : Nat) :
    InLast (n + 1) r (s.lostEvent i kind).ev.ring := by
  unfold State.lostEvent
  dsimp only
  split
  · obtain ⟨a, b, hl, hb⟩ := h
    exact ⟨a, b, hl, by omega⟩
  · obtain ⟨u, hu, he, _⟩ := recordCore_ring (s := { s with ev := { s.ev with windows := s.ev.windows ++ [{ code := 0x142, key := i, held := 0, data := [] }] } }) (by simpa [State.ringing] using hs) 0x142 0
      (natBe 1 i ++ natBe 1 kind)
    rw [he]
    exact ringPut_inLast (by rw [hu]; exact h) hn ..

theorem lostEvents_inLast {r : EventRec} (l : List Nat) : ∀ {s : State} {n : Nat}, s.ringing = true → InLast n r s.ev.ring → n + l.length < 65536 →
    InLast (n + l.length) r (l.foldl (fun s i => s.lostEvent i 3) s).ev.ring := by
  induction l with
  | nil => intro s n _ h _; exact h
  | cons i l ih =>
    intro s n hs h hn
    simp only [List.length_cons] at hn
    have h1 := lostEvent_inLast hs h (by omega) i 3
    have h2 := ih (s := s.lostEvent i 3) (n := n + 1) (by rw [ringing_congr ((lostEvent_only s i 3).same .boot (by decide)), hs]) h1 (by omega)
    simpa [Nat.add_assoc, Nat.add_comm 1] using h2

/-- Recording an event puts its record in the log, with the time of day. -/
theorem record_recorded (s : State) (code held : Nat) (data : Bytes) : Recorded s (s.record code held data) code data := by
  unfold Recorded State.eventLog
  rw [ringing_congr ((record_only s code held data).same .boot (by decide))]
  by_cases h : s.ringing = true
  · rw [if_pos h]
    obtain ⟨u, hu, he, hl⟩ := recordCore_ring h code held data
    refine ⟨(u.ringPut code held (todBytes s.tod) data).2, ?_, rfl, rfl, rfl⟩
    have h0 : InLast 0 (u.ringPut code held (todBytes s.tod) data).2 (s.recordCore code held data).1.ev.ring := by
      rw [he, ringPut_ring]; exact ⟨_, [], rfl, by simp⟩
    exact (lostEvents_inLast _ (by rw [ringing_congr ((recordCore_only s code held data).same .boot (by decide)), h]) h0 (by omega)).mem
  · rw [if_neg h]
    have hf : ¬ ((s.filterCount 5 0 (code / 256) (some code) none).boot.fwRunning || (s.filterCount 5 0 (code / 256) (some code) none).boot.stage == .recovery) = true := by
      simpa [State.ringing, filterCount_boot] using h
    unfold State.record State.recordCore
    dsimp only
    rw [if_neg hf]
    split
    · exact ⟨_, List.mem_append_right _ (List.mem_singleton.2 rfl), rfl, rfl, rfl⟩
    · exact ⟨_, List.mem_append_right _ (List.mem_singleton.2 rfl), rfl, rfl, rfl⟩

theorem raise_recorded (s : State) (code : Nat) (data : Bytes) : Recorded s (s.raise code data) code data := record_recorded s code 0 data

theorem raiseLimited_recorded {s : State} {code key : Nat} (h : s.noWindow code key) (data : Bytes) : Recorded s (s.raiseLimited code key data) code data := by
  unfold State.raiseLimited
  rw [if_neg]
  · exact record_recorded { s with ev := { s.ev with windows := s.ev.windows ++ [{ code := code, key := key, held := 0, data := [] }] } } code 0 data
  · simp only [State.noWindow, List.all_eq_true, Bool.not_eq_true'] at h
    simp only [List.any_eq_true, not_exists, not_and]
    intro w hw
    simp [h w hw]

/-- An event recorded after changes that leave the time of day alone. -/
theorem Recorded.of_tod {s u t : State} {code : Nat} {data : Bytes} (h : Recorded u t code data) (ht : u.time = s.time) : Recorded s t code data := by
  have : u.tod = s.tod := by simp [State.tod, ht]
  obtain ⟨r, h1, h2, h3, h4⟩ := h
  exact ⟨r, h1, h2, h3, by rw [h4, this]⟩

/-- What does not touch the event log keeps what is recorded. -/
theorem Recorded.keep {s t u : State} {code : Nat} {data : Bytes} (h : Recorded s t code data) (he : u.ev = t.ev) (hb : u.boot.fwRunning = t.boot.fwRunning)
    (hs : u.boot.stage = t.boot.stage) : Recorded s u code data := by
  obtain ⟨r, h1, h2⟩ := h
  exact ⟨r, by simpa [State.eventLog, State.ringing, he, hb, hs] using h1, h2⟩

/-! ### Counters that recording an event does not count -/

/-- The key of a named counter that recording an event leaves alone. -/
structure Quiet (k : Nat) : Prop where
  named : k < 2 ^ 44
  notTele : k ≠ ctrKey .controlTelemetryLost 0
  notEvent : k ≠ ctrKey .controlFcpEventLost 0
  notLog : k ≠ ctrKey .controlLoaderBootlogLost 0

theorem ctr_count (s : State) (c : Ctr) (i k : Nat) : (s.count c i).ctr k = if k = ctrKey c i then (s.ctr k).bump 1 else s.ctr k := by
  show (s.bumpKey (ctrKey c i) 1).ctr k = _
  rw [ctr_bumpKey]
  by_cases h : k = ctrKey c i <;> simp [h]

theorem filterCount_ctr (s : State) (kind priv master : Nat) (addr tc : Option Nat) {k : Nat} (h : k < 2 ^ 44) : (s.filterCount kind priv master addr tc).ctr k = s.ctr k := by
  unfold State.filterCount
  generalize filterHits s.obs.filters kind priv master addr tc = l
  induction l generalizing s with
  | nil => rfl
  | cons f l ih =>
    rw [List.foldl_cons, ih, ctr_bumpKey, if_neg]
    simp only [bankKey]; omega

theorem send_ctr (s : State) (sid type request status : Nat) (reply gap : Bool) (payload : Bytes) (k : Nat) : (s.send sid type request status reply gap payload).ctr k = s.ctr k :=
  ctr_congr (by simp) k

theorem sendEvent_ctr (s : State) (r : EventRec) (k : Nat) : (s.sendEvent r).ctr k = s.ctr k :=
  ctr_congr ((sendEvent_only s r).same .counters (by decide)) k

theorem ringPut_ctr (s : State) (code held : Nat) (time data : Bytes) {k : Nat} (h : Quiet k) : (s.ringPut code held time data).1.ctr k = s.ctr k := by
  unfold State.ringPut
  dsimp only
  split
  · rw [ctr_count, if_neg h.notEvent]; rfl
  · rfl

theorem teleOnes_ctr (kind : Nat) (body : Bytes) {k : Nat} (h : Quiet k) (l : List Nat) : ∀ r : State × List Nat, (l.foldl (teleOne kind body) r).1.ctr k = r.1.ctr k := by
  induction l with
  | nil => intro r; rfl
  | cons i l ih =>
    intro r
    rw [List.foldl_cons, ih]
    unfold teleOne State.teleLose
    split
    · dsimp only; rw [ctr_count, if_neg h.notTele]; rfl
    · rfl

theorem telePut_ctr (s : State) (kind b : Nat) (body : Bytes) {k : Nat} (h : Quiet k) : (s.telePut kind b body).1.ctr k = s.ctr k := by
  unfold State.telePut
  split
  · exact teleOnes_ctr kind body h _ (s, [])
  · rfl

theorem recordCore_ctr (s : State) (code held : Nat) (data : Bytes) {k : Nat} (h : Quiet k) : (s.recordCore code held data).1.ctr k = s.ctr k := by
  unfold State.recordCore
  dsimp only
  split
  · rw [telePut_ctr _ _ _ _ h, sendEvent_ctr, ringPut_ctr _ _ _ _ _ h, filterCount_ctr _ _ _ _ _ _ h.named]
  · split
    · exact filterCount_ctr _ _ _ _ _ _ h.named
    · rw [ctr_count, if_neg h.notLog]; exact filterCount_ctr _ _ _ _ _ _ h.named

theorem lostEvent_ctr (s : State) (i kind : Nat) {k : Nat} (h : Quiet k) : (s.lostEvent i kind).ctr k = s.ctr k := by
  unfold State.lostEvent
  dsimp only
  split
  · rfl
  · rw [recordCore_ctr _ _ _ _ h]; rfl

theorem record_ctr (s : State) (code held : Nat) (data : Bytes) {k : Nat} (h : Quiet k) : (s.record code held data).ctr k = s.ctr k := by
  have key : ∀ (l : List Nat) (s : State), (l.foldl (fun s i => s.lostEvent i 3) s).ctr k = s.ctr k := by
    intro l
    induction l with
    | nil => intro s; rfl
    | cons i l ih => intro s; rw [List.foldl_cons, ih, lostEvent_ctr _ _ _ h]
  unfold State.record
  dsimp only
  rw [key, recordCore_ctr _ _ _ _ h]

theorem raise_ctr (s : State) (code : Nat) (data : Bytes) {k : Nat} (h : Quiet k) : (s.raise code data).ctr k = s.ctr k := record_ctr s code 0 data h

theorem raiseLimited_ctr (s : State) (code key : Nat) (data : Bytes) {k : Nat} (h : Quiet k) : (s.raiseLimited code key data).ctr k = s.ctr k := by
  unfold State.raiseLimited
  split
  · rfl
  · rw [record_ctr _ _ _ _ h]; rfl

/-! ### Records stay in the ring -/

/-- From `s` to `t` at most `n` records have entered the ring: one among the last `m` + 1 is among the last `m` + `n` + 1. -/
structure Later (n : Nat) (s t : State) : Prop where
  keep : ∀ r m, InLast m r s.ev.ring → m + n < 65536 → InLast (m + n) r t.ev.ring

theorem InLast.mono {m n : Nat} {r : EventRec} {l : List EventRec} (h : InLast m r l) (hn : m ≤ n) : InLast n r l := by
  obtain ⟨a, b, hl, hb⟩ := h; exact ⟨a, b, hl, by omega⟩

theorem Later.of_ev {s t : State} (h : t.ev = s.ev) (n : Nat := 0) : Later n s t := ⟨fun r m hm _ => by rw [h]; exact hm.mono (by omega)⟩

theorem Later.trans {m n : Nat} {s t u : State} (h1 : Later m s t) (h2 : Later n t u) : Later (m + n) s u :=
  ⟨fun r k hk hb => by rw [← Nat.add_assoc]; exact h2.keep r (k + m) (h1.keep r k hk (by omega)) (by omega)⟩

theorem Later.mono {m n : Nat} {s t : State} (h : Later m s t) (hn : m ≤ n) : Later n s t :=
  ⟨fun r k hk hb => (h.keep r k hk (by omega)).mono (by omega)⟩

theorem Later.foldl {α : Type} {n : Nat} {g : State → α → State} (h : ∀ s x, Later n s (g s x)) (xs : List α) : ∀ s, Later (n * xs.length) s (xs.foldl g s) := by
  induction xs with
  | nil => intro s; exact Later.of_ev rfl
  | cons x xs ih => intro s; exact ((h s x).trans (ih _)).mono (by simp [Nat.mul_add]; omega)

theorem recordCore_later {s : State} (h : s.ringing = true) (code held : Nat) (data : Bytes) : Later 1 s (s.recordCore code held data).1 := by
  obtain ⟨u, hu, he, _⟩ := recordCore_ring h code held data
  refine ⟨fun r m hm hb => ?_⟩
  rw [he]
  exact ringPut_inLast (by rw [hu]; exact hm) (by omega) ..

theorem record_later (s : State) (code held : Nat) (data : Bytes) : Later 5 s (s.record code held data) := by
  by_cases h : s.ringing = true
  · obtain ⟨u, hu, he, hl⟩ := recordCore_ring h code held data
    refine ⟨fun r m hm hb => ?_⟩
    have h1 := (recordCore_later h code held data).keep r m hm (by omega)
    exact (lostEvents_inLast _ (by rw [ringing_congr ((recordCore_only s code held data).same .boot (by decide)), h]) h1 (by omega)).mono (by omega)
  · have hf : ¬ ((s.filterCount 5 0 (code / 256) (some code) none).boot.fwRunning || (s.filterCount 5 0 (code / 256) (some code) none).boot.stage == .recovery) = true := by
      simpa [State.ringing, filterCount_boot] using h
    refine ⟨fun r m hm _ => ?_⟩
    unfold State.record State.recordCore
    dsimp only
    rw [if_neg hf]
    split <;> exact (by simpa [filterCount_ev] using hm.mono (by omega))

theorem raise_later (s : State) (code : Nat) (data : Bytes) : Later 5 s (s.raise code data) := record_later s code 0 data

theorem raiseLimited_later (s : State) (code key : Nat) (data : Bytes) : Later 5 s (s.raiseLimited code key data) := by
  unfold State.raiseLimited
  split
  · exact ⟨fun r m hm _ => by simpa using hm.mono (by omega)⟩
  · exact Later.trans (n := 5) (m := 0) ⟨fun r m hm _ => by simpa using hm⟩ (record_later ..)

/-- A record made while events go to the ring stays recorded while fewer than 65,000 enter after it. -/
theorem Recorded.later {s t u : State} {code : Nat} {data : Bytes} (hs : s.ringing = true) (h : t = s.raise code data) {n : Nat} (hl : Later n t u) (hn : n < 65000)
    (hu : u.ringing = true) : Recorded s u code data := by
  subst h
  obtain ⟨v, hv, he, hlen⟩ := recordCore_ring hs code 0 data
  have h0 : InLast 0 (v.ringPut code 0 (todBytes s.tod) data).2 (s.recordCore code 0 data).1.ev.ring := by
    rw [he, ringPut_ring]; exact ⟨_, [], rfl, by simp⟩
  have h1 := lostEvents_inLast (s.recordCore code 0 data).2 (by rw [ringing_congr ((recordCore_only s code 0 data).same .boot (by decide)), hs]) h0 (by omega)
  have h2 := hl.keep _ _ h1 (by omega)
  exact ⟨_, by rw [State.eventLog, if_pos hu]; exact h2.mem, rfl, rfl, rfl⟩

end Sys2Proof.Machine
end

