-- ==== Sys2Proof/Laws/Canon.lean ====
section
/-! SUPPORT. The canonical form is kept: by every operation of table memory, and by the shared operations on registers, counters and events. -/

namespace Sys2Proof.Machine

/-! ### Table memory -/

theorem memPut_wf (bs : Bytes) : ∀ (m : List Host.Cell) (a : Nat), Memory.wf m = true → Memory.wf (memPut m a bs) = true := by
  induction bs with
  | nil => intro m a h; exact h
  | cons b bs ih => intro m a h; exact ih _ _ (mput_mwf _ _ _ h)

theorem setMemWord_wf (s : State) (a : Nat) (w : Word) (h : Memory.wf s.mem = true) : Memory.wf (s.setMemWord a w).mem = true := memPut_wf _ _ _ h

theorem setMemWords_wf (ws : List Word) : ∀ (s : State) (a : Nat), Memory.wf s.mem = true → Memory.wf (s.setMemWords a ws).mem = true := by
  induction ws with
  | nil => intro s a h; exact h
  | cons w ws ih => intro s a h; exact ih _ _ (setMemWord_wf s a w h)

theorem mrising_filter {α : Type} (q : Nat × α → Bool) (m : AMap α) : ∀ lo, mrising lo m = true → mrising lo (m.filter q) = true := by
  induction m with
  | nil => intro lo h; exact h
  | cons p m ih =>
    obtain ⟨k, v⟩ := p
    intro lo h
    simp only [mrising, Bool.and_eq_true] at h
    by_cases hq : q (k, v) = true
    · rw [List.filter_cons_of_pos hq]
      simp only [mrising, Bool.and_eq_true]
      exact ⟨h.1, ih _ h.2⟩
    · rw [List.filter_cons_of_neg hq]
      have hk : lo ≤ k := by simpa using h.1
      exact ih _ (mrising_le (by omega) h.2)

theorem mwf_filter {α : Type} [DecidableEq α] (d : Nat → α) (q : Nat × α → Bool) {m : AMap α} (h : mwf d m = true) : mwf d (m.filter q) = true := by
  simp only [mwf, Bool.and_eq_true, List.all_eq_true] at h ⊢
  exact ⟨mrising_filter q m 0 h.1, fun p hp => h.2 p (List.mem_filter.1 hp).1⟩

/-! ### The whole state -/

/-- From `s` to `t` the canonical form is kept. -/
structure Keeps (s t : State) : Prop where
  keep : s.canonical = true → t.canonical = true

theorem canonical_iff (s : State) : s.canonical = true ↔
    mwf resetOf s.regs = true ∧ mwf resetOf s.bankOdd = true ∧ mwf (fun _ => CtrVal.zero) s.ctrs = true ∧ Memory.wf s.mem = true := by
  simp only [State.canonical, Bool.and_eq_true]
  constructor
  · rintro ⟨⟨⟨a, b⟩, c⟩, d⟩; exact ⟨a, b, c, d⟩
  · rintro ⟨a, b, c, d⟩; exact ⟨⟨⟨a, b⟩, c⟩, d⟩

theorem Keeps.refl (s : State) : Keeps s s := ⟨id⟩

theorem Keeps.trans {s t u : State} (h : Keeps s t) (k : Keeps t u) : Keeps s u := ⟨fun c => k.keep (h.keep c)⟩

theorem Keeps.after {s t u : State} (k : Keeps t u) (h : Keeps s t) : Keeps s u := h.trans k

theorem Keeps.of_same {s t : State} (hr : t.regs = s.regs) (hb : t.bankOdd = s.bankOdd) (hc : t.ctrs = s.ctrs) (hm : t.mem = s.mem) : Keeps s t := by
  refine ⟨fun h => ?_⟩; rw [canonical_iff] at h ⊢; rw [hr, hb, hc, hm]; exact h

theorem Keeps.of_only {l : List Part} {s t : State} (h : Only l s t) (hl : (l.contains .regs || l.contains .banks || l.contains .counters || l.contains .mem) = false) : Keeps s t := by
  simp only [Bool.or_eq_false_iff] at hl
  exact Keeps.of_same (h.same .regs (by simpa using hl.1.1.1)) (h.same .banks (by simpa using hl.1.1.2)) (h.same .counters (by simpa using hl.1.2)) (h.same .mem (by simpa using hl.2))

theorem Keeps.foldl {α : Type} {g : State → α → State} (h : ∀ s x, Keeps s (g s x)) (xs : List α) : ∀ s, Keeps s (xs.foldl g s) := by
  induction xs with
  | nil => intro s; exact Keeps.refl s
  | cons x xs ih => intro s; exact (h s x).trans (ih _)

theorem setReg_keeps (s : State) (a : Nat) (w : Word) : Keeps s (s.setReg a w) := by
  refine ⟨fun h => ?_⟩; rw [canonical_iff] at h ⊢; exact ⟨mput_mwf _ _ _ h.1, h.2⟩

theorem bumpKey_keeps (s : State) (k n : Nat) : Keeps s (s.bumpKey k n) := by
  refine ⟨fun h => ?_⟩; rw [canonical_iff] at h ⊢; exact ⟨h.1, h.2.1, mput_mwf _ _ _ h.2.2.1, h.2.2.2⟩

theorem setMemWord_keeps (s : State) (a : Nat) (w : Word) : Keeps s (s.setMemWord a w) := by
  refine ⟨fun h => ?_⟩; rw [canonical_iff] at h ⊢; exact ⟨h.1, h.2.1, h.2.2.1, setMemWord_wf s a w h.2.2.2⟩

theorem count_keeps (s : State) (c : Ctr) (i : Nat) : Keeps s (s.count c i) := bumpKey_keeps ..

theorem filterCount_keeps (s : State) (kind priv master : Nat) (addr tc : Option Nat) : Keeps s (s.filterCount kind priv master addr tc) :=
  Keeps.foldl (fun s _ => bumpKey_keeps s _ _) _ s

theorem ringPut_keeps (s : State) (code held : Nat) (time data : Bytes) : Keeps s (s.ringPut code held time data).1 := by
  unfold State.ringPut
  dsimp only
  split
  · exact Keeps.after (count_keeps ..) (Keeps.of_same rfl rfl rfl rfl)
  · exact Keeps.of_same rfl rfl rfl rfl

theorem teleLose_keeps (s : State) (i : Nat) : Keeps s (s.teleLose i) := Keeps.after (count_keeps ..) (Keeps.of_same rfl rfl rfl rfl)

theorem teleOnes_keeps (kind : Nat) (body : Bytes) (l : List Nat) : ∀ r : State × List Nat, Keeps r.1 (l.foldl (teleOne kind body) r).1 := by
  induction l with
  | nil => intro r; exact Keeps.refl _
  | cons i l ih =>
    intro r
    refine Keeps.trans ?_ (ih _)
    unfold teleOne
    split
    · exact teleLose_keeps ..
    · exact Keeps.of_same rfl rfl rfl rfl

theorem telePut_keeps (s : State) (kind b : Nat) (body : Bytes) : Keeps s (s.telePut kind b body).1 := by
  unfold State.telePut
  split
  · exact teleOnes_keeps kind body _ (s, [])
  · exact Keeps.refl _

theorem recordCore_keeps (s : State) (code held : Nat) (data : Bytes) : Keeps s (s.recordCore code held data).1 := by
  unfold State.recordCore
  dsimp only
  refine Keeps.trans (filterCount_keeps s 5 0 (code / 256) (some code) none) ?_
  split
  · exact (ringPut_keeps ..).trans (Keeps.trans (Keeps.of_only (sendEvent_only _ _) (by decide)) (telePut_keeps ..))
  · split
    · exact Keeps.of_same rfl rfl rfl rfl
    · exact Keeps.after (count_keeps ..) (Keeps.of_same rfl rfl rfl rfl)

theorem lostEvent_keeps (s : State) (i kind : Nat) : Keeps s (s.lostEvent i kind) := by
  unfold State.lostEvent
  dsimp only
  split
  · exact Keeps.of_same rfl rfl rfl rfl
  · exact Keeps.after (recordCore_keeps ..) (Keeps.of_same rfl rfl rfl rfl)

theorem record_keeps (s : State) (code held : Nat) (data : Bytes) : Keeps s (s.record code held data) :=
  (recordCore_keeps ..).trans (Keeps.foldl (fun s i => lostEvent_keeps s i 3) _ _)

theorem raise_keeps (s : State) (code : Nat) (data : Bytes) : Keeps s (s.raise code data) := record_keeps ..

theorem tele_keeps (s : State) (kind b : Nat) (body : Bytes) : Keeps s (s.tele kind b body) :=
  (telePut_keeps ..).trans (Keeps.foldl (fun s i => lostEvent_keeps s i kind) _ _)

theorem raiseLimited_keeps (s : State) (code key : Nat) (data : Bytes) : Keeps s (s.raiseLimited code key data) := by
  unfold State.raiseLimited
  split
  · exact Keeps.of_same rfl rfl rfl rfl
  · exact Keeps.after (record_keeps ..) (Keeps.of_same rfl rfl rfl rfl)

end Sys2Proof.Machine
end

