-- ==== Sys2Proof/Laws/Frame.lean ====
section
/-! SUPPORT. Chaining what operations may change (`Tame`: only certain parts, the canonical form kept): `Tame` of a composition from `Tame` of its steps. -/

namespace Sys2Proof.Machine

/-- From `s` to `t` only the parts of `l` may have changed, and the canonical form is kept. -/
structure Tame (l : List Part) (s t : State) : Prop where
  only : Only l s t
  keeps : Keeps s t

theorem Tame.refl (l : List Part) (s : State) : Tame l s s := ⟨Only.refl l s, Keeps.refl s⟩

theorem Tame.mono {l m : List Part} {s t : State} (h : Tame l s t) (hm : ∀ p ∈ l, p ∈ m) : Tame m s t := ⟨h.only.mono hm, h.keeps⟩

theorem Tame.trans_same {l : List Part} {s t u : State} (h1 : Tame l s t) (h2 : Tame l t u) : Tame l s u := ⟨h1.only.trans_same h2.only, h1.keeps.trans h2.keeps⟩

theorem Tame.foldl {α : Type} {l : List Part} {g : State → α → State} (h : ∀ s x, Tame l s (g s x)) (xs : List α) (s : State) : Tame l s (xs.foldl g s) :=
  ⟨Only.foldl (fun s x => (h s x).only) xs s, Keeps.foldl (fun s x => (h s x).keeps) xs s⟩

theorem Tame.of_only {l : List Part} {s t : State} (h : Only l s t) (hl : (l.contains .regs || l.contains .banks || l.contains .counters || l.contains .mem) = false) : Tame l s t := ⟨h, Keeps.of_only h hl⟩

theorem bumpKey_tame (s : State) (k n : Nat) : Tame [.counters] s (s.bumpKey k n) := ⟨bumpKey_only .., bumpKey_keeps ..⟩
theorem count_tame (s : State) (c : Ctr) (i : Nat) : Tame [.counters] s (s.count c i) := ⟨count_only .., count_keeps ..⟩
theorem filterCount_tame (s : State) (kind priv master : Nat) (addr tc : Option Nat) : Tame [.counters] s (s.filterCount kind priv master addr tc) := ⟨filterCount_only .., filterCount_keeps ..⟩
theorem send_tame (s : State) (sid type request status : Nat) (reply gap : Bool) (payload : Bytes) : Tame [.fcp] s (s.send sid type request status reply gap payload) := .of_only (send_only ..) (by decide)
theorem sendEvent_tame (s : State) (r : EventRec) : Tame [.fcp] s (s.sendEvent r) := .of_only (sendEvent_only ..) (by decide)
theorem ringPut_tame (s : State) (code held : Nat) (time data : Bytes) : Tame eventParts s (s.ringPut code held time data).1 := ⟨ringPut_only .., ringPut_keeps ..⟩
theorem telePut_tame (s : State) (kind b : Nat) (body : Bytes) : Tame eventParts s (s.telePut kind b body).1 := ⟨telePut_only .., telePut_keeps ..⟩
theorem record_tame (s : State) (code held : Nat) (data : Bytes) : Tame eventParts s (s.record code held data) := ⟨record_only .., record_keeps ..⟩
theorem raise_tame (s : State) (code : Nat) (data : Bytes) : Tame eventParts s (s.raise code data) := ⟨raise_only .., raise_keeps ..⟩
theorem tele_tame (s : State) (kind b : Nat) (body : Bytes) : Tame eventParts s (s.tele kind b body) := ⟨tele_only .., tele_keeps ..⟩
theorem raiseLimited_tame (s : State) (code key : Nat) (data : Bytes) : Tame eventParts s (s.raiseLimited code key data) := ⟨raiseLimited_only .., raiseLimited_keeps ..⟩
theorem lostEvent_tame (s : State) (i kind : Nat) : Tame eventParts s (s.lostEvent i kind) := ⟨lostEvent_only .., lostEvent_keeps ..⟩
theorem recordCore_tame (s : State) (code held : Nat) (data : Bytes) : Tame eventParts s (s.recordCore code held data).1 := ⟨recordCore_only .., recordCore_keeps ..⟩
theorem teleLose_tame (s : State) (i : Nat) : Tame eventParts s (s.teleLose i) := ⟨teleLose_only .., teleLose_keeps ..⟩
theorem setReg_tame (s : State) (a : Nat) (w : Word) : Tame [.regs] s (s.setReg a w) := ⟨⟨fun p hp => by cases p <;> first | rfl | simp at hp⟩, setReg_keeps ..⟩
theorem setMemWord_tame (s : State) (a : Nat) (w : Word) : Tame [.mem] s (s.setMemWord a w) := ⟨⟨fun p hp => by cases p <;> first | rfl | simp at hp⟩, setMemWord_keeps ..⟩

theorem Tame.then {l m : List Part} {s t u : State} (k : Tame m t u) (h : Tame l s t) (hm : m.all (fun p => l.contains p) = true) : Tame l s u := by
  refine h.trans_same (k.mono (fun p hp => ?_))
  have := List.all_eq_true.1 hm p hp
  simpa using this

theorem Tame.thenFst {α : Type} {l m : List Part} {s t u : State} {p : State × α} {x : α} (k : Tame m t p.1)
    (e : p = (u, x)) (h : Tame l s t) (hm : m.all (fun p => l.contains p) = true) : Tame l s u := by
  subst e; exact Tame.then k h hm

theorem Tame.thenSnd {α : Type} {l m : List Part} {s t u : State} {p : α × State} {x : α} (k : Tame m t p.2)
    (e : p = (x, u)) (h : Tame l s t) (hm : m.all (fun p => l.contains p) = true) : Tame l s u := by
  subst e; exact Tame.then k h hm

theorem Tame.fold {α : Type} {l : List Part} {s t : State} {g : State → α → State} {xs : List α} (h : Tame l s t) (hg : ∀ s x, Tame l s (g s x)) : Tame l s (xs.foldl g t) :=
  h.trans_same (Tame.foldl hg xs t)

theorem Tame.foldFst {α β : Type} {l : List Part} {g : State × β → α → State × β} (hg : ∀ r x, Tame l r.1 (g r x).1) (xs : List α) :
    ∀ r : State × β, Tame l r.1 (xs.foldl g r).1 := by
  induction xs with
  | nil => intro r; exact Tame.refl l r.1
  | cons x xs ih => intro r; exact (hg r x).trans_same (ih _)

theorem Tame.set_regs {l : List Part} {s t : State} (h : Tame l s t) (x0 : AMap Word) (hm : (l.contains .regs) = true) (hx : mwf resetOf t.regs = true → mwf resetOf x0 = true) : Tame l s { t with regs := x0 } :=
  ⟨⟨fun p hp => by cases p <;> first | exact h.only.same _ hp | (simp at hm; simp_all)⟩, ⟨fun h0 => by have h1 := (canonical_iff _).1 (h.keeps.keep h0); exact (canonical_iff _).2 ⟨hx h1.1, h1.2.1, h1.2.2.1, h1.2.2.2⟩⟩⟩

theorem Tame.set_mem {l : List Part} {s t : State} (h : Tame l s t) (x0 : List Host.Cell) (hm : (l.contains .mem) = true) (hx : mwf (fun _ => (0 : Byte)) t.mem = true → mwf (fun _ => (0 : Byte)) x0 = true) : Tame l s { t with mem := x0 } :=
  ⟨⟨fun p hp => by cases p <;> first | exact h.only.same _ hp | (simp at hm; simp_all)⟩, ⟨fun h0 => by have h1 := (canonical_iff _).1 (h.keeps.keep h0); exact (canonical_iff _).2 ⟨h1.1, h1.2.1, h1.2.2.1, hx h1.2.2.2⟩⟩⟩

theorem Tame.set_bankOdd {l : List Part} {s t : State} (h : Tame l s t) (x0 : AMap Word) (hm : (l.contains .banks) = true) (hx : mwf resetOf t.bankOdd = true → mwf resetOf x0 = true) : Tame l s { t with bankOdd := x0 } :=
  ⟨⟨fun p hp => by cases p <;> first | exact h.only.same _ hp | (simp at hm; simp_all)⟩, ⟨fun h0 => by have h1 := (canonical_iff _).1 (h.keeps.keep h0); exact (canonical_iff _).2 ⟨h1.1, hx h1.2.1, h1.2.2.1, h1.2.2.2⟩⟩⟩

theorem Tame.set_ctrs {l : List Part} {s t : State} (h : Tame l s t) (x0 : AMap CtrVal) (hm : (l.contains .counters) = true) (hx : mwf (fun _ => CtrVal.zero) t.ctrs = true → mwf (fun _ => CtrVal.zero) x0 = true) : Tame l s { t with ctrs := x0 } :=
  ⟨⟨fun p hp => by cases p <;> first | exact h.only.same _ hp | (simp at hm; simp_all)⟩, ⟨fun h0 => by have h1 := (canonical_iff _).1 (h.keeps.keep h0); exact (canonical_iff _).2 ⟨h1.1, h1.2.1, hx h1.2.2.1, h1.2.2.2⟩⟩⟩

theorem Tame.set_pins {l : List Part} {s t : State} (h : Tame l s t) (x0 : Pins) (hm : (l.contains .pins) = true) : Tame l s { t with pins := x0 } :=
  ⟨⟨fun p hp => by cases p <;> first | exact h.only.same _ hp | (simp at hm; simp_all)⟩, h.keeps.trans (Keeps.of_same rfl rfl rfl rfl)⟩

theorem Tame.set_fuses {l : List Part} {s t : State} (h : Tame l s t) (x0 : Fuses) (hm : (l.contains .fuses) = true) : Tame l s { t with fuses := x0 } :=
  ⟨⟨fun p hp => by cases p <;> first | exact h.only.same _ hp | (simp at hm; simp_all)⟩, h.keeps.trans (Keeps.of_same rfl rfl rfl rfl)⟩

theorem Tame.set_boot {l : List Part} {s t : State} (h : Tame l s t) (x0 : Boot) (hm : (l.contains .boot) = true) : Tame l s { t with boot := x0 } :=
  ⟨⟨fun p hp => by cases p <;> first | exact h.only.same _ hp | (simp at hm; simp_all)⟩, h.keeps.trans (Keeps.of_same rfl rfl rfl rfl)⟩

theorem Tame.set_ev {l : List Part} {s t : State} (h : Tame l s t) (x0 : Events) (hm : (l.contains .events) = true) : Tame l s { t with ev := x0 } :=
  ⟨⟨fun p hp => by cases p <;> first | exact h.only.same _ hp | (simp at hm; simp_all)⟩, h.keeps.trans (Keeps.of_same rfl rfl rfl rfl)⟩

theorem Tame.set_fcp {l : List Part} {s t : State} (h : Tame l s t) (x0 : Fcp) (hm : (l.contains .fcp) = true) : Tame l s { t with fcp := x0 } :=
  ⟨⟨fun p hp => by cases p <;> first | exact h.only.same _ hp | (simp at hm; simp_all)⟩, h.keeps.trans (Keeps.of_same rfl rfl rfl rfl)⟩

theorem Tame.set_obs {l : List Part} {s t : State} (h : Tame l s t) (x0 : Obs) (hm : (l.contains .obs) = true) : Tame l s { t with obs := x0 } :=
  ⟨⟨fun p hp => by cases p <;> first | exact h.only.same _ hp | (simp at hm; simp_all)⟩, h.keeps.trans (Keeps.of_same rfl rfl rfl rfl)⟩

theorem Tame.set_bist {l : List Part} {s t : State} (h : Tame l s t) (x0 : Bist) (hm : (l.contains .bist) = true) : Tame l s { t with bist := x0 } :=
  ⟨⟨fun p hp => by cases p <;> first | exact h.only.same _ hp | (simp at hm; simp_all)⟩, h.keeps.trans (Keeps.of_same rfl rfl rfl rfl)⟩

theorem Tame.set_line {l : List Part} {s t : State} (h : Tame l s t) (x0 : Line) (hm : (l.contains .line) = true) : Tame l s { t with line := x0 } :=
  ⟨⟨fun p hp => by cases p <;> first | exact h.only.same _ hp | (simp at hm; simp_all)⟩, h.keeps.trans (Keeps.of_same rfl rfl rfl rfl)⟩

theorem Tame.set_hdrQ {l : List Part} {s t : State} (h : Tame l s t) (x0 : AMap (List RxPkt)) (hm : (l.contains .headers) = true) : Tame l s { t with hdrQ := x0 } :=
  ⟨⟨fun p hp => by cases p <;> first | exact h.only.same _ hp | (simp at hm; simp_all)⟩, h.keeps.trans (Keeps.of_same rfl rfl rfl rfl)⟩

theorem Tame.set_lookup {l : List Part} {s t : State} (h : Tame l s t) (x0 : Lookup) (hm : (l.contains .lookup) = true) : Tame l s { t with lookup := x0 } :=
  ⟨⟨fun p hp => by cases p <;> first | exact h.only.same _ hp | (simp at hm; simp_all)⟩, h.keeps.trans (Keeps.of_same rfl rfl rfl rfl)⟩

theorem Tame.set_engine {l : List Part} {s t : State} (h : Tame l s t) (x0 : EngineSt) (hm : (l.contains .engine) = true) : Tame l s { t with engine := x0 } :=
  ⟨⟨fun p hp => by cases p <;> first | exact h.only.same _ hp | (simp at hm; simp_all)⟩, h.keeps.trans (Keeps.of_same rfl rfl rfl rfl)⟩

theorem Tame.set_traffic {l : List Part} {s t : State} (h : Tame l s t) (x0 : Traffic) (hm : (l.contains .traffic) = true) : Tame l s { t with traffic := x0 } :=
  ⟨⟨fun p hp => by cases p <;> first | exact h.only.same _ hp | (simp at hm; simp_all)⟩, h.keeps.trans (Keeps.of_same rfl rfl rfl rfl)⟩

theorem Tame.set_hbm {l : List Part} {s t : State} (h : Tame l s t) (x0 : Hbm) (hm : (l.contains .hbm) = true) : Tame l s { t with hbm := x0 } :=
  ⟨⟨fun p hp => by cases p <;> first | exact h.only.same _ hp | (simp at hm; simp_all)⟩, h.keeps.trans (Keeps.of_same rfl rfl rfl rfl)⟩

theorem Tame.set_fabric {l : List Part} {s t : State} (h : Tame l s t) (x0 : Fabric) (hm : (l.contains .fabric) = true) : Tame l s { t with fabric := x0 } :=
  ⟨⟨fun p hp => by cases p <;> first | exact h.only.same _ hp | (simp at hm; simp_all)⟩, h.keeps.trans (Keeps.of_same rfl rfl rfl rfl)⟩

theorem Tame.set_gov {l : List Part} {s t : State} (h : Tame l s t) (x0 : Gov) (hm : (l.contains .gov) = true) : Tame l s { t with gov := x0 } :=
  ⟨⟨fun p hp => by cases p <;> first | exact h.only.same _ hp | (simp at hm; simp_all)⟩, h.keeps.trans (Keeps.of_same rfl rfl rfl rfl)⟩

theorem Tame.set_bridge {l : List Part} {s t : State} (h : Tame l s t) (x0 : AMap BridgeChan) (hm : (l.contains .bridge) = true) : Tame l s { t with bridge := x0 } :=
  ⟨⟨fun p hp => by cases p <;> first | exact h.only.same _ hp | (simp at hm; simp_all)⟩, h.keeps.trans (Keeps.of_same rfl rfl rfl rfl)⟩

theorem Tame.set_time {l : List Part} {s t : State} (h : Tame l s t) (x0 : TimeSt) (hm : (l.contains .time) = true) : Tame l s { t with time := x0 } :=
  ⟨⟨fun p hp => by cases p <;> first | exact h.only.same _ hp | (simp at hm; simp_all)⟩, h.keeps.trans (Keeps.of_same rfl rfl rfl rfl)⟩

theorem Tame.set_freeCtr {l : List Part} {s t : State} (h : Tame l s t) (x0 : Nat) (hm : (l.contains .free) = true) : Tame l s { t with freeCtr := x0 } :=
  ⟨⟨fun p hp => by cases p <;> first | exact h.only.same _ hp | (simp at hm; simp_all)⟩, h.keeps.trans (Keeps.of_same rfl rfl rfl rfl)⟩

theorem Tame.set_boot_pins {l : List Part} {s t : State} (h : Tame l s t) (x0 : Boot) (x1 : Pins) (hm : (l.contains .boot && l.contains .pins) = true) : Tame l s { t with boot := x0, pins := x1 } :=
  ⟨⟨fun p hp => by cases p <;> first | exact h.only.same _ hp | (simp at hm; simp_all)⟩, h.keeps.trans (Keeps.of_same rfl rfl rfl rfl)⟩

theorem Tame.set_ev_fcp {l : List Part} {s t : State} (h : Tame l s t) (x0 : Events) (x1 : Fcp) (hm : (l.contains .events && l.contains .fcp) = true) : Tame l s { t with ev := x0, fcp := x1 } :=
  ⟨⟨fun p hp => by cases p <;> first | exact h.only.same _ hp | (simp at hm; simp_all)⟩, h.keeps.trans (Keeps.of_same rfl rfl rfl rfl)⟩

theorem Tame.set_fabric_lookup {l : List Part} {s t : State} (h : Tame l s t) (x0 : Fabric) (x1 : Lookup) (hm : (l.contains .fabric && l.contains .lookup) = true) : Tame l s { t with fabric := x0, lookup := x1 } :=
  ⟨⟨fun p hp => by cases p <;> first | exact h.only.same _ hp | (simp at hm; simp_all)⟩, h.keeps.trans (Keeps.of_same rfl rfl rfl rfl)⟩

theorem Tame.set_fabric_line {l : List Part} {s t : State} (h : Tame l s t) (x0 : Fabric) (x1 : Line) (hm : (l.contains .fabric && l.contains .line) = true) : Tame l s { t with fabric := x0, line := x1 } :=
  ⟨⟨fun p hp => by cases p <;> first | exact h.only.same _ hp | (simp at hm; simp_all)⟩, h.keeps.trans (Keeps.of_same rfl rfl rfl rfl)⟩

theorem Tame.set_mem_lookup {l : List Part} {s t : State} (h : Tame l s t) (x0 : List Host.Cell) (x1 : Lookup) (hm : (l.contains .mem && l.contains .lookup) = true) (hx : mwf (fun _ => (0 : Byte)) t.mem = true → mwf (fun _ => (0 : Byte)) x0 = true) : Tame l s { t with mem := x0, lookup := x1 } :=
  ⟨⟨fun p hp => by cases p <;> first | exact h.only.same _ hp | (simp at hm; simp_all)⟩, ⟨fun h0 => by have h1 := (canonical_iff _).1 (h.keeps.keep h0); exact (canonical_iff _).2 ⟨h1.1, h1.2.1, h1.2.2.1, hx h1.2.2.2⟩⟩⟩

theorem Tame.set_pins_gov {l : List Part} {s t : State} (h : Tame l s t) (x0 : Pins) (x1 : Gov) (hm : (l.contains .pins && l.contains .gov) = true) : Tame l s { t with pins := x0, gov := x1 } :=
  ⟨⟨fun p hp => by cases p <;> first | exact h.only.same _ hp | (simp at hm; simp_all)⟩, h.keeps.trans (Keeps.of_same rfl rfl rfl rfl)⟩

theorem Tame.set_ctrs_obs {l : List Part} {s t : State} (h : Tame l s t) (x0 : AMap CtrVal) (x1 : Obs) (hm : (l.contains .counters && l.contains .obs) = true) (hx : mwf (fun _ => CtrVal.zero) t.ctrs = true → mwf (fun _ => CtrVal.zero) x0 = true) : Tame l s { t with ctrs := x0, obs := x1 } :=
  ⟨⟨fun p hp => by cases p <;> first | exact h.only.same _ hp | (simp at hm; simp_all)⟩, ⟨fun h0 => by have h1 := (canonical_iff _).1 (h.keeps.keep h0); exact (canonical_iff _).2 ⟨h1.1, h1.2.1, hx h1.2.2.1, h1.2.2.2⟩⟩⟩

theorem Tame.set_mem_obs {l : List Part} {s t : State} (h : Tame l s t) (x0 : List Host.Cell) (x1 : Obs) (hm : (l.contains .mem && l.contains .obs) = true) (hx : mwf (fun _ => (0 : Byte)) t.mem = true → mwf (fun _ => (0 : Byte)) x0 = true) : Tame l s { t with mem := x0, obs := x1 } :=
  ⟨⟨fun p hp => by cases p <;> first | exact h.only.same _ hp | (simp at hm; simp_all)⟩, ⟨fun h0 => by have h1 := (canonical_iff _).1 (h.keeps.keep h0); exact (canonical_iff _).2 ⟨h1.1, h1.2.1, h1.2.2.1, hx h1.2.2.2⟩⟩⟩

theorem Tame.set_traffic_fabric_lookup_line {l : List Part} {s t : State} (h : Tame l s t) (x0 : Traffic) (x1 : Fabric) (x2 : Lookup) (x3 : Line) (hm : (l.contains .traffic && l.contains .fabric && l.contains .lookup && l.contains .line) = true) : Tame l s { t with traffic := x0, fabric := x1, lookup := x2, line := x3 } :=
  ⟨⟨fun p hp => by cases p <;> first | exact h.only.same _ hp | (simp at hm; simp_all)⟩, h.keeps.trans (Keeps.of_same rfl rfl rfl rfl)⟩

theorem Tame.set_boot_fcp_obs {l : List Part} {s t : State} (h : Tame l s t) (x0 : Boot) (x1 : Fcp) (x2 : Obs) (hm : (l.contains .boot && l.contains .fcp && l.contains .obs) = true) : Tame l s { t with boot := x0, fcp := x1, obs := x2 } :=
  ⟨⟨fun p hp => by cases p <;> first | exact h.only.same _ hp | (simp at hm; simp_all)⟩, h.keeps.trans (Keeps.of_same rfl rfl rfl rfl)⟩

theorem Tame.set_freeCtr_pins {l : List Part} {s t : State} (h : Tame l s t) (x0 : Nat) (x1 : Pins) (hm : (l.contains .free && l.contains .pins) = true) : Tame l s { t with freeCtr := x0, pins := x1 } :=
  ⟨⟨fun p hp => by cases p <;> first | exact h.only.same _ hp | (simp at hm; simp_all)⟩, h.keeps.trans (Keeps.of_same rfl rfl rfl rfl)⟩

theorem Tame.iteEq {α : Type} {l : List Part} {s u : State} {p q : State × α} {x : α} {c : Prop} [Decidable c] (e : (if c then p else q) = (u, x))
    (ha : p = (u, x) → Tame l s u) (hb : q = (u, x) → Tame l s u) : Tame l s u := by
  by_cases h : c
  · rw [if_pos h] at e; exact ha e
  · rw [if_neg h] at e; exact hb e

theorem Tame.iteEqSnd {α : Type} {l : List Part} {s u : State} {p q : α × State} {x : α} {c : Prop} [Decidable c] (e : (if c then p else q) = (x, u))
    (ha : p = (x, u) → Tame l s u) (hb : q = (x, u) → Tame l s u) : Tame l s u := by
  by_cases h : c
  · rw [if_pos h] at e; exact ha e
  · rw [if_neg h] at e; exact hb e

theorem Tame.pairEq {α : Type} {l : List Part} {s t u : State} {x y : α} (e : (t, y) = (u, x)) (h : Tame l s t) : Tame l s u := by
  injection e with e1 _; rw [← e1]; exact h

theorem Tame.pairEqSnd {α : Type} {l : List Part} {s t u : State} {x y : α} (e : (y, t) = (x, u)) (h : Tame l s t) : Tame l s u := by
  injection e with _ e1; rw [← e1]; exact h

theorem Tame.foldPair {α β : Type} {l : List Part} {s t : State} {y : β} {g : State × β → α → State × β} {xs : List α} (h : Tame l s t)
    (hg : ∀ r x, Tame l r.1 (g r x).1) : Tame l s (xs.foldl g (t, y)).1 :=
  h.trans_same (Tame.foldFst hg xs (t, y))

theorem Tame.foldEq {α β : Type} {l : List Part} {s t u : State} {y z : β} {g : State × β → α → State × β} {xs : List α} (e : xs.foldl g (t, y) = (u, z))
    (h : Tame l s t) (hg : ∀ r x, Tame l r.1 (g r x).1) : Tame l s u := by
  have := Tame.foldPair (xs := xs) (y := y) h hg
  rw [e] at this; exact this

theorem Tame.foldSnd {α β : Type} {l : List Part} {g : β × State → α → β × State} (hg : ∀ r x, Tame l r.2 (g r x).2) (xs : List α) :
    ∀ r : β × State, Tame l r.2 (xs.foldl g r).2 := by
  induction xs with
  | nil => intro r; exact Tame.refl l r.2
  | cons x xs ih => intro r; exact (hg r x).trans_same (ih _)

theorem Tame.foldPairSnd {α β : Type} {l : List Part} {s t : State} {y : β} {g : β × State → α → β × State} {xs : List α} (h : Tame l s t)
    (hg : ∀ r x, Tame l r.2 (g r x).2) : Tame l s (xs.foldl g (y, t)).2 :=
  h.trans_same (Tame.foldSnd hg xs (y, t))

theorem Tame.foldEqSnd {α β : Type} {l : List Part} {s t u : State} {y z : β} {g : β × State → α → β × State} {xs : List α} (e : xs.foldl g (y, t) = (z, u))
    (h : Tame l s t) (hg : ∀ r x, Tame l r.2 (g r x).2) : Tame l s u := by
  have := Tame.foldPairSnd (xs := xs) (y := y) h hg
  rw [e] at this; exact this

theorem Tame.ite {l : List Part} {s a b : State} {c : Prop} [Decidable c] (ha : Tame l s a) (hb : Tame l s b) : Tame l s (if c then a else b) := by
  by_cases h : c
  · rw [if_pos h]; exact ha
  · rw [if_neg h]; exact hb

theorem Tame.iteFst {α : Type} {l : List Part} {s : State} {a b : State × α} {c : Prop} [Decidable c] (ha : Tame l s a.1) (hb : Tame l s b.1) :
    Tame l s (if c then a else b).1 := by
  by_cases h : c
  · rw [if_pos h]; exact ha
  · rw [if_neg h]; exact hb

theorem Tame.iteSnd {α : Type} {l : List Part} {s : State} {a b : α × State} {c : Prop} [Decidable c] (ha : Tame l s a.2) (hb : Tame l s b.2) :
    Tame l s (if c then a else b).2 := by
  by_cases h : c
  · rw [if_pos h]; exact ha
  · rw [if_neg h]; exact hb


/-- Every state a refusable operation answers differs from `s` only in the parts of `l`. -/
def OkTame {ε : Type} (l : List Part) (s : State) (r : Except ε State) : Prop := ∀ t, r = .ok t → Tame l s t

theorem OkTame.error {ε : Type} {l : List Part} {s : State} {e : ε} : OkTame l s (.error e) := fun _ h => by cases h

theorem OkTame.ok {ε : Type} {l : List Part} {s t : State} (h : Tame l s t) : OkTame (ε := ε) l s (.ok t) := fun _ e => by cases e; exact h

theorem OkTame.ite {ε : Type} {l : List Part} {s : State} {a b : Except ε State} {c : Prop} [Decidable c] (ha : OkTame l s a) (hb : OkTame l s b) : OkTame l s (if c then a else b) := by
  by_cases h : c
  · rw [if_pos h]; exact ha
  · rw [if_neg h]; exact hb

theorem OkTame.mono {ε : Type} {l m : List Part} {s : State} {r : Except ε State} (h : OkTame l s r) (hm : l.all (fun p => m.contains p) = true) : OkTame m s r := fun t e =>
  Tame.then (h t e) (Tame.refl ..) hm

end Sys2Proof.Machine
end

