-- ==== Sys2Proof/Laws/OpsFrames.lean ====
section
/-! SUPPORT. The parts that the operations of Machine/Ops may change. -/

namespace Sys2Proof.Machine

set_option linter.all false

theorem setFld_tame (s : State) (a : Nat) (f : Field) (v : Nat) : Tame [.regs] s (State.setFld s a f v) := by
  unfold State.setFld
  repeat' (first | (show (_ : Bool) = true; decide) | with_reducible exact Tame.refl .. | with_reducible apply Tame.then (setReg_tame ..) | with_reducible apply Tame.ite | split)

theorem setFlag_tame (s : State) (a : Nat) (f : Field) (b : Bool) : Tame [.regs] s (State.setFlag s a f b) := by
  unfold State.setFlag
  repeat' (first | (show (_ : Bool) = true; decide) | with_reducible exact Tame.refl .. | with_reducible apply Tame.then (setFld_tame ..) | with_reducible apply Tame.ite | split)

theorem setMemWords_tame (s : State) (a : Nat) (ws : List Word) : Tame [.mem] s (s.setMemWords a ws) := by
  induction ws generalizing s a with
  | nil => exact Tame.refl ..
  | cons w ws ih => exact (setMemWord_tame s a w).trans_same (ih _ _)

theorem draw_tame (s : State) : Tame [.free] s (State.draw s).2 := by
  unfold State.draw
  repeat' (first | (show (_ : Bool) = true; decide) | with_reducible exact Tame.refl .. | with_reducible apply Tame.ite | with_reducible apply Tame.iteSnd | with_reducible apply Tame.set_freeCtr | split)

theorem countN_tame (s : State) (c : Ctr) (i : Nat) (n : Nat) : Tame [.counters] s (State.countN s c i n) := by
  unfold State.countN
  repeat' (first | (show (_ : Bool) = true; decide) | with_reducible exact Tame.refl .. | with_reducible apply Tame.then (bumpKey_tame ..) | with_reducible apply Tame.ite | split)

theorem accCount_tame (s : State) (bank : Nat) (index : Nat) (n : Nat) : Tame [.counters, .obs] s (State.accCount s bank index n) := by
  unfold State.accCount
  repeat' (first | (show (_ : Bool) = true; decide) | with_reducible exact Tame.refl .. | with_reducible apply Tame.then (countN_tame ..) | with_reducible apply Tame.ite | with_reducible apply Tame.set_obs | split)

theorem queueCount_tame (s : State) (q : Nat) (k : Nat) (bytes : Nat) : Tame [.counters, .obs] s (State.queueCount s q k bytes) := by
  unfold State.queueCount
  repeat' (first | (show (_ : Bool) = true; decide) | with_reducible exact Tame.refl .. | with_reducible apply Tame.then (accCount_tame ..) | with_reducible apply Tame.ite | split)

theorem portCount_tame (s : State) (p : Nat) (c : Nat) (k : Nat) (bytes : Nat) : Tame [.counters] s (State.portCount s p c k bytes) := by
  unfold State.portCount
  repeat' (first | (show (_ : Bool) = true; decide) | with_reducible exact Tame.refl .. | with_reducible apply Tame.then (bumpKey_tame ..) | with_reducible apply Tame.ite | split)



theorem epochEnter_tame (s : State) (e : Nat) : Tame [.regs] s (State.epochEnter s e) := by
  unfold State.epochEnter
  repeat' (first | (show (_ : Bool) = true; decide) | with_reducible exact Tame.refl .. | with_reducible apply Tame.then (setFld_tame ..) | with_reducible apply Tame.ite | split)

theorem epochRetire_tame (s : State) : Tame [.regs, .counters, .events, .fcp, .obs] s (State.epochRetire s) := by
  unfold State.epochRetire
  repeat' (first | (show (_ : Bool) = true; decide) | with_reducible exact Tame.refl .. | with_reducible apply Tame.then (setFld_tame ..) | with_reducible apply Tame.then (raise_tame ..) | with_reducible apply Tame.ite | split)

theorem epochLeave_tame (s : State) (e : Nat) : Tame [.regs, .counters, .events, .fcp, .obs] s (State.epochLeave s e) := by
  unfold State.epochLeave
  repeat' (first | (show (_ : Bool) = true; decide) | with_reducible exact Tame.refl .. | with_reducible apply Tame.then (setFld_tame ..) | with_reducible apply Tame.then (epochRetire_tame ..) | with_reducible apply Tame.ite | split)

theorem txLeave_tame (s : State) (f : TxPkt) : Tame [.regs, .counters, .events, .fcp, .obs, .traffic] s (State.txLeave s f) := by
  unfold State.txLeave
  repeat' (first | (show (_ : Bool) = true; decide) | with_reducible exact Tame.refl .. | with_reducible apply Tame.then (epochLeave_tame ..) | with_reducible apply Tame.ite | with_reducible apply Tame.set_traffic | split)

theorem setRegPar_tame (s : State) (odd : Bool) (a : Nat) (w : Word) : Tame [.regs, .banks] s (State.setRegPar s odd a w) := by
  unfold State.setRegPar; try dsimp -proj -iota -eta only
  repeat' (first | (show (_ : Bool) = true; decide) | with_reducible exact Tame.refl .. | split | with_reducible apply Tame.then (setReg_tame ..) | with_reducible apply Tame.ite | with_reducible refine Tame.pairEq (by assumption) ?_ | with_reducible refine Tame.pairEqSnd (by assumption) ?_ | with_reducible refine Tame.iteEq (by assumption) (fun _ => ?_) (fun _ => ?_) | with_reducible refine Tame.iteEqSnd (by assumption) (fun _ => ?_) (fun _ => ?_) | (intro hx; first | exact mput_mwf _ _ _ hx | exact memPut_wf _ _ _ hx | exact mwf_filter _ _ hx) | with_reducible apply Tame.set_bankOdd)

theorem setPort_tame (s : State) (p : Nat) (x : LinePort) : Tame [.line] s (State.setPort s p x) := by
  unfold State.setPort
  repeat' (first | (show (_ : Bool) = true; decide) | with_reducible exact Tame.refl .. | with_reducible apply Tame.ite | with_reducible apply Tame.set_line | split)

theorem setChan_tame (s : State) (k : Nat) (toF : Bool) (c : BridgeChan) : Tame [.bridge] s (State.setChan s k toF c) := by
  unfold State.setChan
  repeat' (first | (show (_ : Bool) = true; decide) | with_reducible exact Tame.refl .. | with_reducible apply Tame.ite | with_reducible apply Tame.set_bridge | split)

theorem setPurse_tame (s : State) (c : Nat) (v : Nat) : Tame [.gov] s (State.setPurse s c v) := by
  unfold State.setPurse
  repeat' (first | (show (_ : Bool) = true; decide) | with_reducible exact Tame.refl .. | with_reducible apply Tame.ite | with_reducible apply Tame.set_gov | split)

theorem spend_tame (s : State) (c : Nat) (cost : Nat) : Tame [.gov] s (State.spend s c cost) := by
  unfold State.spend
  repeat' (first | (show (_ : Bool) = true; decide) | with_reducible exact Tame.refl .. | with_reducible apply Tame.then (setPurse_tame ..) | with_reducible apply Tame.ite | split)

end Sys2Proof.Machine
end

