-- ==== Sys2Proof/Laws/PoolFrames.lean ====
section
/-! SUPPORT. The parts that the operations of Machine/Pool may change. -/

namespace Sys2Proof.Machine

set_option linter.all false

theorem setBuf_tame (s : State) (h : Nat) (b : Buf) : Tame [.traffic] s (State.setBuf s h b) := by
  unfold State.setBuf
  repeat' (first | (show (_ : Bool) = true; decide) | with_reducible exact Tame.refl .. | with_reducible apply Tame.ite | with_reducible apply Tame.set_traffic | split)

theorem addFld_tame (s : State) (a : Nat) (f : Field) (d : Int) : Tame [.regs] s (State.addFld s a f d) := by
  unfold State.addFld
  repeat' (first | (show (_ : Bool) = true; decide) | with_reducible exact Tame.refl .. | with_reducible apply Tame.then (setFld_tame ..) | with_reducible apply Tame.ite | split)

theorem poolGrant_tame (s : State) (r : Nat) (pool : Nat) (kind : Nat) (owner : Nat) : Tame [.regs, .traffic] s (State.poolGrant s r pool kind owner).1 := by
  unfold State.poolGrant; try dsimp -proj -iota -eta only
  repeat' (first | (show (_ : Bool) = true; decide) | with_reducible exact Tame.refl .. | split | with_reducible apply Tame.then (setBuf_tame ..) | with_reducible apply Tame.then (addFld_tame ..) | with_reducible apply Tame.ite | with_reducible apply Tame.iteFst | with_reducible refine Tame.pairEq (by assumption) ?_ | with_reducible refine Tame.pairEqSnd (by assumption) ?_ | with_reducible refine Tame.iteEq (by assumption) (fun _ => ?_) (fun _ => ?_) | with_reducible refine Tame.iteEqSnd (by assumption) (fun _ => ?_) (fun _ => ?_) | with_reducible apply Tame.set_traffic)

theorem overClear_tame (s : State) (r : Nat) : Tame [.regs] s (State.overClear s r) := by
  unfold State.overClear
  repeat' (first | (show (_ : Bool) = true; decide) | with_reducible exact Tame.refl .. | with_reducible apply Tame.then (setFld_tame ..) | with_reducible apply Tame.ite | split)

theorem poolRejoin_tame (s : State) (c : Nat) : Tame [.regs, .counters, .events, .fcp, .obs] s (State.poolRejoin s c) := by
  unfold State.poolRejoin
  repeat' (first | (show (_ : Bool) = true; decide) | with_reducible exact Tame.refl .. | with_reducible apply Tame.then (addFld_tame ..) | with_reducible apply Tame.then (raise_tame ..) | with_reducible apply Tame.ite | split)

theorem setTaint_tame (s : State) (c : Nat) (l : List Nat) : Tame [.regs, .traffic] s (State.setTaint s c l) := by
  unfold State.setTaint
  repeat' (first | (show (_ : Bool) = true; decide) | with_reducible exact Tame.refl .. | with_reducible apply Tame.then (setFlag_tame ..) | with_reducible apply Tame.ite | with_reducible apply Tame.set_traffic | split)

theorem taintTake_tame (s : State) (c : Nat) : Tame [.regs, .counters, .events, .fcp, .obs, .traffic] s (State.taintTake s c) := by
  unfold State.taintTake
  repeat' (first | (show (_ : Bool) = true; decide) | with_reducible exact Tame.refl .. | with_reducible apply Tame.then (poolRejoin_tame ..) | with_reducible apply Tame.then (setTaint_tame ..) | with_reducible apply Tame.then (setFld_tame ..) | with_reducible apply Tame.then (raise_tame ..) | with_reducible apply Tame.ite | split)

theorem taintNext_tame (s : State) : Tame [.regs, .counters, .events, .fcp, .obs, .traffic] s (State.taintNext s) := by
  unfold State.taintNext; try dsimp -proj -iota -eta only
  repeat' (first | (show (_ : Bool) = true; decide) | with_reducible exact Tame.refl .. | split | with_reducible apply Tame.then (setFld_tame ..) | with_reducible apply Tame.then (taintTake_tame ..) | with_reducible apply Tame.ite | with_reducible refine Tame.pairEq (by assumption) ?_ | with_reducible refine Tame.pairEqSnd (by assumption) ?_ | with_reducible refine Tame.iteEq (by assumption) (fun _ => ?_) (fun _ => ?_) | with_reducible refine Tame.iteEqSnd (by assumption) (fun _ => ?_) (fun _ => ?_))

theorem taintFree_tame (s : State) (h : Nat) : Tame [.regs, .counters, .events, .fcp, .obs, .traffic] s (State.taintFree s h) := by
  unfold State.taintFree
  repeat' (first | (show (_ : Bool) = true; decide) | with_reducible exact Tame.refl .. | with_reducible apply Tame.then (setTaint_tame ..) | with_reducible apply Tame.then (taintNext_tame ..) | with_reducible apply Tame.ite | split)

theorem poolFree_tame (s : State) (kind : Nat) (owner : Nat) (unit : Nat) (h : Nat) : Tame [.regs, .counters, .events, .fcp, .obs, .traffic] s (State.poolFree s kind owner unit h) := by
  unfold State.poolFree
  repeat' (first | (show (_ : Bool) = true; decide) | with_reducible exact Tame.refl .. | with_reducible apply Tame.then (setBuf_tame ..) | with_reducible apply Tame.then (addFld_tame ..) | with_reducible apply Tame.then (overClear_tame ..) | with_reducible apply Tame.then (taintFree_tame ..) | with_reducible apply Tame.then (count_tame ..) | with_reducible apply Tame.then (raise_tame ..) | with_reducible apply Tame.ite | split)

theorem poolFreeAll_tame (s : State) (kind : Nat) (owner : Nat) (unit : Nat) (l : List Nat) : Tame [.regs, .counters, .events, .fcp, .obs, .traffic] s (State.poolFreeAll s kind owner unit l) := by
  unfold State.poolFreeAll
  repeat' (first | (show (_ : Bool) = true; decide) | with_reducible exact Tame.refl .. | with_reducible apply Tame.then (poolFree_tame ..) | with_reducible refine Tame.fold ?_ (fun s x => ?_) | with_reducible refine Tame.foldEq (by assumption) ?_ (fun r x => ?_) | with_reducible refine Tame.foldEqSnd (by assumption) ?_ (fun r x => ?_) | with_reducible refine Tame.foldPair ?_ (fun r x => ?_) | with_reducible refine Tame.foldPairSnd ?_ (fun r x => ?_) | with_reducible apply Tame.ite | split)

theorem poolChain_tame (s : State) (r pool kind owner n : Nat) : Tame [.regs, .counters, .events, .fcp, .obs, .traffic] s (s.poolChain r pool kind owner n).1 := by
  induction n generalizing s with
  | zero => exact Tame.refl ..
  | succ n ih =>
    unfold State.poolChain
    have hg := poolGrant_tame s r pool kind owner
    split
    next t e => rw [e] at hg; exact hg.mono (by simp)
    next t h e =>
      rw [e] at hg
      have hi := ih t
      split
      next u e2 => rw [e2] at hi; exact Tame.then (poolFree_tame ..) (Tame.trans_same (hg.mono (by simp)) hi) (by decide)
      next u l e2 => rw [e2] at hi; exact Tame.trans_same (hg.mono (by simp)) hi

theorem allocFail_tame (s : State) : Tame [.counters] s (State.allocFail s) := by
  unfold State.allocFail
  repeat' (first | (show (_ : Bool) = true; decide) | with_reducible exact Tame.refl .. | with_reducible apply Tame.then (count_tame ..) | with_reducible apply Tame.ite | split)

theorem unpark_tame (s : State) (k : Nat) (l : List Nat) : Tame [.regs, .counters, .events, .fcp, .obs, .traffic] s (State.unpark s k l) := by
  unfold State.unpark
  repeat' (first | (show (_ : Bool) = true; decide) | with_reducible exact Tame.refl .. | with_reducible apply Tame.then (poolFreeAll_tame ..) | with_reducible apply Tame.ite | split)

theorem poolFence_tame (s : State) (c : Nat) : Tame [.regs, .counters, .events, .fcp, .obs] s (State.poolFence s c) := by
  unfold State.poolFence
  repeat' (first | (show (_ : Bool) = true; decide) | with_reducible exact Tame.refl .. | with_reducible apply Tame.then (addFld_tame ..) | with_reducible apply Tame.then (raise_tame ..) | with_reducible apply Tame.ite | split)

end Sys2Proof.Machine
end

