-- ==== Sys2Proof/Laws/AccessFrames.lean ====
section
/-! SUPPORT. The parts that the operations of Machine/Access may change. -/

namespace Sys2Proof.Machine

set_option linter.all false

theorem hostWrite_tame {s t : State} {a : Nat} {w : Word} (h : s.hostWrite a w = some t) : Tame [.regs] s t := by
  unfold State.hostWrite at h
  split at h
  · cases h
  · split at h
    · cases h; exact setReg_tame ..
    · cases h

end Sys2Proof.Machine
end

