-- ==== Sys2Proof/Laws/LineFrames.lean ====
section
/-! SUPPORT. The parts that the operations of Machine/Line may change. -/

namespace Sys2Proof.Machine

set_option linter.all false

theorem toSlice_tame (s : State) (x : RxPkt) : Tame [.counters, .line, .headers] s (State.toSlice s x) := by
  unfold State.toSlice
  repeat' (first | (show (_ : Bool) = true; decide) | with_reducible exact Tame.refl .. | with_reducible apply Tame.then (count_tame ..) | with_reducible apply Tame.ite | with_reducible apply Tame.set_line | with_reducible apply Tame.set_hdrQ | split)

theorem macPass_tame (s : State) (p : Nat) (bytes : Bytes) (bad : Bool) : Tame [.counters, .line, .headers] s (State.macPass s p bytes bad) := by
  unfold State.macPass
  repeat' (first | (show (_ : Bool) = true; decide) | with_reducible exact Tame.refl .. | with_reducible apply Tame.then (setPort_tame ..) | with_reducible apply Tame.then (toSlice_tame ..) | with_reducible apply Tame.ite | split)

theorem rxFrame_tame (p : Nat) (frame : Bytes) (m : RxMarks) (s : State) : Tame [.counters, .line, .headers] s (rxFrame p frame m s) := by
  unfold rxFrame; try dsimp -proj -iota -eta only
  repeat' (first | (show (_ : Bool) = true; decide) | with_reducible exact Tame.refl .. | split | with_reducible apply Tame.then (count_tame ..) | with_reducible apply Tame.then (macPass_tame ..) | with_reducible apply Tame.then (countN_tame ..) | with_reducible apply Tame.ite | with_reducible refine Tame.pairEq (by assumption) ?_ | with_reducible refine Tame.pairEqSnd (by assumption) ?_ | with_reducible refine Tame.iteEq (by assumption) (fun _ => ?_) (fun _ => ?_) | with_reducible refine Tame.iteEqSnd (by assumption) (fun _ => ?_) (fun _ => ?_))

theorem setLane_tame (s : State) (l : Nat) (v : Nat) : Tame [.line] s (State.setLane s l v) := by
  unfold State.setLane
  repeat' (first | (show (_ : Bool) = true; decide) | with_reducible exact Tame.refl .. | with_reducible apply Tame.ite | with_reducible apply Tame.set_line | split)

theorem portDown_tame (s : State) (p : Nat) (cause : Nat) : Tame [.regs, .counters, .events, .fcp, .obs, .line, .traffic] s (State.portDown s p cause) := by
  unfold State.portDown; try dsimp -proj -iota -eta only
  repeat' (first | (show (_ : Bool) = true; decide) | with_reducible exact Tame.refl .. | split | with_reducible apply Tame.then (setFld_tame ..) | with_reducible apply Tame.then (count_tame ..) | with_reducible apply Tame.then (txLeave_tame ..) | with_reducible apply Tame.then (setPort_tame ..) | with_reducible apply Tame.then (raise_tame ..) | with_reducible apply Tame.ite | with_reducible refine Tame.pairEq (by assumption) ?_ | with_reducible refine Tame.pairEqSnd (by assumption) ?_ | with_reducible refine Tame.iteEq (by assumption) (fun _ => ?_) (fun _ => ?_) | with_reducible refine Tame.iteEqSnd (by assumption) (fun _ => ?_) (fun _ => ?_) | with_reducible apply Tame.set_line)

theorem portComesUp_tame (s : State) (p : Nat) : Tame [.regs, .counters, .events, .fcp, .obs, .line] s (State.portComesUp s p) := by
  unfold State.portComesUp
  repeat' (first | (show (_ : Bool) = true; decide) | with_reducible exact Tame.refl .. | with_reducible apply Tame.then (setFld_tame ..) | with_reducible apply Tame.then (setPort_tame ..) | with_reducible apply Tame.then (raise_tame ..) | with_reducible apply Tame.ite | with_reducible apply Tame.set_line | split)

theorem portEval_tame (s : State) (p : Nat) : Tame [.regs, .counters, .events, .fcp, .obs, .line, .traffic] s (State.portEval s p) := by
  unfold State.portEval
  repeat' (first | (show (_ : Bool) = true; decide) | with_reducible exact Tame.refl .. | with_reducible apply Tame.then (setPort_tame ..) | with_reducible apply Tame.then (setFld_tame ..) | with_reducible apply Tame.then (count_tame ..) | with_reducible apply Tame.then (portDown_tame ..) | with_reducible apply Tame.then (portComesUp_tame ..) | with_reducible apply Tame.ite | split)

theorem groupEval_tame (s : State) (k : Nat) : Tame [.regs, .counters, .events, .fcp, .obs] s (State.groupEval s k) := by
  unfold State.groupEval
  repeat' (first | (show (_ : Bool) = true; decide) | with_reducible exact Tame.refl .. | with_reducible apply Tame.then (setFld_tame ..) | with_reducible apply Tame.then (raise_tame ..) | with_reducible apply Tame.ite | split | with_reducible refine Tame.pairEq (by assumption) ?_ | with_reducible refine Tame.pairEqSnd (by assumption) ?_ | with_reducible refine Tame.iteEq (by assumption) (fun _ => ?_) (fun _ => ?_) | with_reducible refine Tame.iteEqSnd (by assumption) (fun _ => ?_) (fun _ => ?_))

theorem portChange_tame (s : State) (p : Nat) : Tame [.regs, .counters, .events, .fcp, .obs, .line, .traffic] s (State.portChange s p) := by
  unfold State.portChange
  repeat' (first | (show (_ : Bool) = true; decide) | with_reducible exact Tame.refl .. | with_reducible apply Tame.then (groupEval_tame ..) | with_reducible apply Tame.then (portEval_tame ..) | with_reducible refine Tame.fold ?_ (fun s x => ?_) | with_reducible refine Tame.foldEq (by assumption) ?_ (fun r x => ?_) | with_reducible refine Tame.foldEqSnd (by assumption) ?_ (fun r x => ?_) | with_reducible refine Tame.foldPair ?_ (fun r x => ?_) | with_reducible refine Tame.foldPairSnd ?_ (fun r x => ?_) | with_reducible apply Tame.ite | split)

theorem portsEval_tame (s : State) : Tame [.regs, .counters, .events, .fcp, .obs, .line, .traffic] s (State.portsEval s) := by
  unfold State.portsEval
  repeat' (first | (show (_ : Bool) = true; decide) | with_reducible exact Tame.refl .. | with_reducible apply Tame.then (portChange_tame ..) | with_reducible refine Tame.fold ?_ (fun s x => ?_) | with_reducible refine Tame.foldEq (by assumption) ?_ (fun r x => ?_) | with_reducible refine Tame.foldEqSnd (by assumption) ?_ (fun r x => ?_) | with_reducible refine Tame.foldPair ?_ (fun r x => ?_) | with_reducible refine Tame.foldPairSnd ?_ (fun r x => ?_) | with_reducible apply Tame.ite | split)

theorem laneChange_tame (s : State) (l : Nat) : Tame [.regs, .counters, .events, .fcp, .obs, .line, .traffic] s (State.laneChange s l) := by
  unfold State.laneChange; try dsimp -proj -iota -eta only
  repeat' (first | (show (_ : Bool) = true; decide) | with_reducible exact Tame.refl .. | split | with_reducible apply Tame.then (setFlag_tame ..) | with_reducible apply Tame.then (portChange_tame ..) | with_reducible apply Tame.ite | with_reducible refine Tame.pairEq (by assumption) ?_ | with_reducible refine Tame.pairEqSnd (by assumption) ?_ | with_reducible refine Tame.iteEq (by assumption) (fun _ => ?_) (fun _ => ?_) | with_reducible refine Tame.iteEqSnd (by assumption) (fun _ => ?_) (fun _ => ?_))

theorem lineLaneSignalLoss_tame (l : Nat) (s : State) : Tame [.regs, .counters, .events, .fcp, .obs, .line, .traffic] s (lineLaneSignalLoss l s) := by
  unfold lineLaneSignalLoss
  repeat' (first | (show (_ : Bool) = true; decide) | with_reducible exact Tame.refl .. | with_reducible apply Tame.then (setLane_tame ..) | with_reducible apply Tame.then (laneChange_tame ..) | with_reducible apply Tame.ite | split)

theorem lineLaneSignalReturn_tame (l : Nat) (s : State) : Tame [.regs, .counters, .events, .fcp, .obs, .line, .traffic, .gov] s (lineLaneSignalReturn l s) := by
  unfold lineLaneSignalReturn
  repeat' (first | (show (_ : Bool) = true; decide) | with_reducible exact Tame.refl .. | with_reducible apply Tame.then (spend_tame ..) | with_reducible apply Tame.then (setLane_tame ..) | with_reducible apply Tame.then (laneChange_tame ..) | with_reducible apply Tame.then (count_tame ..) | with_reducible apply Tame.ite | split)

theorem laneRetrainDone_tame (l : Nat) (s : State) : Tame [.regs, .counters, .events, .fcp, .obs, .line, .traffic] s (laneRetrainDone l s) := by
  unfold laneRetrainDone
  repeat' (first | (show (_ : Bool) = true; decide) | with_reducible exact Tame.refl .. | with_reducible apply Tame.then (setLane_tame ..) | with_reducible apply Tame.then (laneChange_tame ..) | with_reducible apply Tame.ite | split)

theorem retrainWaiting_tame (s : State) : Tame [.line, .gov] s (State.retrainWaiting s) := by
  unfold State.retrainWaiting
  repeat' (first | (show (_ : Bool) = true; decide) | with_reducible exact Tame.refl .. | with_reducible apply Tame.then (spend_tame ..) | with_reducible apply Tame.then (setLane_tame ..) | with_reducible refine Tame.fold ?_ (fun s x => ?_) | with_reducible refine Tame.foldEq (by assumption) ?_ (fun r x => ?_) | with_reducible refine Tame.foldEqSnd (by assumption) ?_ (fun r x => ?_) | with_reducible refine Tame.foldPair ?_ (fun r x => ?_) | with_reducible refine Tame.foldPairSnd ?_ (fun r x => ?_) | with_reducible apply Tame.ite | split)

theorem linkFaultChange_tame (p : Nat) (c : LinkCond) (s : State) : Tame [.regs, .counters, .events, .fcp, .obs, .line, .traffic] s (linkFaultChange p c s) := by
  unfold linkFaultChange; try dsimp -proj -iota -eta only
  repeat' (first | (show (_ : Bool) = true; decide) | with_reducible exact Tame.refl .. | split | with_reducible apply Tame.then (setFld_tame ..) | with_reducible apply Tame.then (portChange_tame ..) | with_reducible apply Tame.then (setFlag_tame ..) | with_reducible apply Tame.ite | with_reducible refine Tame.pairEq (by assumption) ?_ | with_reducible refine Tame.pairEqSnd (by assumption) ?_ | with_reducible refine Tame.iteEq (by assumption) (fun _ => ?_) (fun _ => ?_) | with_reducible refine Tame.iteEqSnd (by assumption) (fun _ => ?_) (fun _ => ?_))

theorem linkDownHoldExpiry_tame (p : Nat) (s : State) : Tame [.regs, .counters, .events, .fcp, .obs, .line, .traffic] s (linkDownHoldExpiry p s) := by
  unfold linkDownHoldExpiry
  repeat' (first | (show (_ : Bool) = true; decide) | with_reducible exact Tame.refl .. | with_reducible apply Tame.then (portDown_tame ..) | with_reducible apply Tame.ite | split)

theorem linkUpHoldExpiry_tame (p : Nat) (s : State) : Tame [.regs, .counters, .events, .fcp, .obs, .line] s (linkUpHoldExpiry p s) := by
  unfold linkUpHoldExpiry
  repeat' (first | (show (_ : Bool) = true; decide) | with_reducible exact Tame.refl .. | with_reducible apply Tame.then (portComesUp_tame ..) | with_reducible apply Tame.ite | split)

theorem adminUpWrite_tame (p : Nat) (up : Bool) (s : State) : Tame [.regs, .counters, .events, .fcp, .obs, .line, .traffic] s (adminUpWrite p up s) := by
  unfold adminUpWrite
  repeat' (first | (show (_ : Bool) = true; decide) | with_reducible exact Tame.refl .. | with_reducible apply Tame.then (setFlag_tame ..) | with_reducible apply Tame.then (portChange_tame ..) | with_reducible apply Tame.ite | split)

theorem degradeClear_tame (s : State) (p : Nat) : Tame [.regs, .counters, .events, .fcp, .obs, .line, .traffic] s (State.degradeClear s p) := by
  unfold State.degradeClear
  repeat' (first | (show (_ : Bool) = true; decide) | with_reducible exact Tame.refl .. | with_reducible apply Tame.then (setFld_tame ..) | with_reducible apply Tame.then (setPort_tame ..) | with_reducible apply Tame.then (raise_tame ..) | with_reducible apply Tame.then (portChange_tame ..) | with_reducible apply Tame.ite | split)

theorem degThreshWrite_tame (p : Nat) (v : Nat) (s : State) : Tame [.regs, .counters, .events, .fcp, .obs, .line, .traffic] s (degThreshWrite p v s) := by
  unfold degThreshWrite
  repeat' (first | (show (_ : Bool) = true; decide) | with_reducible exact Tame.refl .. | with_reducible apply Tame.then (setFld_tame ..) | with_reducible apply Tame.then (degradeClear_tame ..) | with_reducible apply Tame.ite | split)

theorem fecWindowEnd_tame (p : Nat) (corrected : Nat) (uncorrectable : Nat) (evaluated : Bool) (s : State) : Tame [.regs, .counters, .events, .fcp, .obs, .line, .traffic] s (fecWindowEnd p corrected uncorrectable evaluated s) := by
  unfold fecWindowEnd
  repeat' (first | (show (_ : Bool) = true; decide) | with_reducible exact Tame.refl .. | with_reducible apply Tame.then (countN_tame ..) | with_reducible apply Tame.then (setPort_tame ..) | with_reducible apply Tame.then (degradeClear_tame ..) | with_reducible apply Tame.then (setFld_tame ..) | with_reducible apply Tame.then (raise_tame ..) | with_reducible apply Tame.then (portChange_tame ..) | with_reducible apply Tame.ite | split)

theorem tspRing_tame (s : State) (p : Nat) (tag : Nat) : Tame [.regs, .counters, .events, .fcp, .obs] s (State.tspRing s p tag) := by
  unfold State.tspRing
  repeat' (first | (show (_ : Bool) = true; decide) | with_reducible exact Tame.refl .. | with_reducible apply Tame.then (count_tame ..) | with_reducible apply Tame.then (raiseLimited_tame ..) | with_reducible apply Tame.then (setReg_tame ..) | with_reducible apply Tame.then (setFld_tame ..) | with_reducible apply Tame.ite | split)

theorem txFrameEnd_tame (p : Nat) (s : State) : Tame [.regs, .counters, .events, .fcp, .obs, .line, .traffic] s (txFrameEnd p s) := by
  unfold txFrameEnd; try dsimp -proj -iota -eta only
  repeat' (first | (show (_ : Bool) = true; decide) | with_reducible exact Tame.refl .. | split | with_reducible apply Tame.then (setPort_tame ..) | with_reducible apply Tame.then (count_tame ..) | with_reducible apply Tame.then (tspRing_tame ..) | with_reducible apply Tame.then (portCount_tame ..) | with_reducible apply Tame.then (txLeave_tame ..) | with_reducible apply Tame.ite | with_reducible refine Tame.pairEq (by assumption) ?_ | with_reducible refine Tame.pairEqSnd (by assumption) ?_ | with_reducible refine Tame.iteEq (by assumption) (fun _ => ?_) (fun _ => ?_) | with_reducible refine Tame.iteEqSnd (by assumption) (fun _ => ?_) (fun _ => ?_) | with_reducible apply Tame.set_line)

theorem flexeOverheadBlock_tame (k : Nat) (j : Nat) (ohGood : Bool) (mfGood : Bool) (grp : Nat) (phyNo : Nat) (cal : Nat) (skewNs : Nat) (s : State) : Tame [.regs, .counters, .events, .fcp, .obs, .line, .traffic] s (flexeOverheadBlock k j ohGood mfGood grp phyNo cal skewNs s) := by
  unfold flexeOverheadBlock; try dsimp -proj -iota -eta only
  repeat' (first | (show (_ : Bool) = true; decide) | with_reducible exact Tame.refl .. | split | with_reducible apply Tame.then (setFld_tame ..) | with_reducible apply Tame.then (setFlag_tame ..) | with_reducible apply Tame.then (raise_tame ..) | with_reducible apply Tame.then (portChange_tame ..) | with_reducible apply Tame.ite | with_reducible refine Tame.pairEq (by assumption) ?_ | with_reducible refine Tame.pairEqSnd (by assumption) ?_ | with_reducible refine Tame.iteEq (by assumption) (fun _ => ?_) (fun _ => ?_) | with_reducible refine Tame.iteEqSnd (by assumption) (fun _ => ?_) (fun _ => ?_) | with_reducible apply Tame.set_line)

theorem flexeCalendarRequest_tame (k : Nat) (cal : Nat) (s : State) : Tame [.counters, .events, .fcp, .obs, .line] s (flexeCalendarRequest k cal s) := by
  unfold flexeCalendarRequest
  repeat' (first | (show (_ : Bool) = true; decide) | with_reducible exact Tame.refl .. | with_reducible apply Tame.then (raise_tame ..) | with_reducible apply Tame.ite | with_reducible apply Tame.set_line | split)

theorem flexeSwitchWrite_tame (k : Nat) (s : State) : Tame [.regs, .line] s (flexeSwitchWrite k s) := by
  unfold flexeSwitchWrite
  repeat' (first | (show (_ : Bool) = true; decide) | with_reducible exact Tame.refl .. | with_reducible apply Tame.then (setFld_tame ..) | with_reducible apply Tame.ite | with_reducible apply Tame.set_line | split)

theorem flexeCalendarSwitch_tame (k : Nat) (s : State) : Tame [.regs, .line] s (flexeCalendarSwitch k s) := by
  unfold flexeCalendarSwitch
  repeat' (first | (show (_ : Bool) = true; decide) | with_reducible exact Tame.refl .. | with_reducible apply Tame.then (setFld_tame ..) | with_reducible apply Tame.ite | with_reducible apply Tame.set_line | split)

theorem flexeSwitchAbandon_tame (k : Nat) (s : State) : Tame [.regs, .line] s (flexeSwitchAbandon k s) := by
  unfold flexeSwitchAbandon
  repeat' (first | (show (_ : Bool) = true; decide) | with_reducible exact Tame.refl .. | with_reducible apply Tame.then (setFld_tame ..) | with_reducible apply Tame.ite | with_reducible apply Tame.set_line | split)

end Sys2Proof.Machine
end

