-- ==== Sys2Proof/Laws/MacsecFrames.lean ====
section
/-! SUPPORT. The parts that the operations of Machine/Macsec may change. -/

namespace Sys2Proof.Machine

set_option linter.all false

theorem setSa_tame (s : State) (p : Nat) (c : Nat) (a : Nat) (x : MacsecSa) : Tame [.line] s (State.setSa s p c a x) := by
  unfold State.setSa
  repeat' (first | (show (_ : Bool) = true; decide) | with_reducible exact Tame.refl .. | with_reducible apply Tame.ite | with_reducible apply Tame.set_line | split)

theorem setSaState_tame (s : State) (p : Nat) (c : Nat) (a : Nat) (v : Nat) : Tame [.regs, .line] s (State.setSaState s p c a v) := by
  unfold State.setSaState
  repeat' (first | (show (_ : Bool) = true; decide) | with_reducible exact Tame.refl .. | with_reducible apply Tame.then (setSa_tame ..) | with_reducible apply Tame.then (setFld_tame ..) | with_reducible apply Tame.ite | split)

theorem install_tame (p : Nat) (c : Nat) (a : Nat) (s : State) : Tame [.regs, .counters, .events, .fcp, .obs, .line] s (install p c a s) := by
  unfold install
  repeat' (first | (show (_ : Bool) = true; decide) | with_reducible exact Tame.refl .. | with_reducible apply Tame.then (setSa_tame ..) | with_reducible apply Tame.then (setReg_tame ..) | with_reducible apply Tame.then (setFld_tame ..) | with_reducible apply Tame.then (setSaState_tame ..) | with_reducible apply Tame.then (raise_tame ..) | with_reducible apply Tame.then (count_tame ..) | with_reducible apply Tame.ite | split)

theorem retire_tame (p : Nat) (c : Nat) (a : Nat) (s : State) : Tame [.regs, .line] s (retire p c a s) := by
  unfold retire
  repeat' (first | (show (_ : Bool) = true; decide) | with_reducible exact Tame.refl .. | with_reducible apply Tame.then (setSaState_tame ..) | with_reducible apply Tame.ite | split)

theorem saRetireDone_tame (p : Nat) (c : Nat) (a : Nat) (s : State) : Tame [.regs, .line] s (saRetireDone p c a s) := by
  unfold saRetireDone
  repeat' (first | (show (_ : Bool) = true; decide) | with_reducible exact Tame.refl .. | with_reducible apply Tame.then (setSa_tame ..) | with_reducible apply Tame.then (setSaState_tame ..) | with_reducible apply Tame.ite | split)

theorem txAnWrite_tame (p : Nat) (an : Nat) (s : State) : Tame [.regs] s (txAnWrite p an s) := by
  unfold txAnWrite
  repeat' (first | (show (_ : Bool) = true; decide) | with_reducible exact Tame.refl .. | with_reducible apply Tame.then (setFld_tame ..) | with_reducible apply Tame.ite | split)

theorem txSwitch_tame (s : State) (p : Nat) : Tame [.regs, .line] s (State.txSwitch s p) := by
  unfold State.txSwitch
  repeat' (first | (show (_ : Bool) = true; decide) | with_reducible exact Tame.refl .. | with_reducible apply Tame.then (setSaState_tame ..) | with_reducible apply Tame.ite | with_reducible apply Tame.set_line | split)

theorem eraseKeys_tame (s : State) : Tame [.regs, .line] s (State.eraseKeys s) := by
  unfold State.eraseKeys
  repeat' (first | (show (_ : Bool) = true; decide) | with_reducible exact Tame.refl .. | with_reducible apply Tame.then (setFld_tame ..) | with_reducible refine Tame.fold ?_ (fun s x => ?_) | with_reducible refine Tame.foldEq (by assumption) ?_ (fun r x => ?_) | with_reducible refine Tame.foldEqSnd (by assumption) ?_ (fun r x => ?_) | with_reducible refine Tame.foldPair ?_ (fun r x => ?_) | with_reducible refine Tame.foldPairSnd ?_ (fun r x => ?_) | with_reducible apply Tame.ite | with_reducible apply Tame.set_line | split)

theorem stompProtected_tame (s : State) : Tame [.counters, .line] s (State.stompProtected s) := by
  unfold State.stompProtected; try dsimp -proj -iota -eta only
  repeat' (first | (show (_ : Bool) = true; decide) | with_reducible exact Tame.refl .. | split | with_reducible apply Tame.then (setPort_tame ..) | with_reducible apply Tame.then (count_tame ..) | with_reducible refine Tame.fold ?_ (fun s x => ?_) | with_reducible refine Tame.foldEq (by assumption) ?_ (fun r x => ?_) | with_reducible refine Tame.foldEqSnd (by assumption) ?_ (fun r x => ?_) | with_reducible refine Tame.foldPair ?_ (fun r x => ?_) | with_reducible refine Tame.foldPairSnd ?_ (fun r x => ?_) | with_reducible apply Tame.ite | with_reducible refine Tame.pairEq (by assumption) ?_ | with_reducible refine Tame.pairEqSnd (by assumption) ?_ | with_reducible refine Tame.iteEq (by assumption) (fun _ => ?_) (fun _ => ?_) | with_reducible refine Tame.iteEqSnd (by assumption) (fun _ => ?_) (fun _ => ?_))

theorem fireAlarm_tame (s : State) (src : AlarmSource) : Tame [.regs, .counters, .events, .fcp, .obs, .line] s (State.fireAlarm s src) := by
  unfold State.fireAlarm
  repeat' (first | (show (_ : Bool) = true; decide) | with_reducible exact Tame.refl .. | with_reducible apply Tame.then (stompProtected_tame ..) | with_reducible apply Tame.then (eraseKeys_tame ..) | with_reducible apply Tame.then (setFld_tame ..) | with_reducible apply Tame.then (raise_tame ..) | with_reducible apply Tame.ite | with_reducible apply Tame.set_line | split)

theorem macsecAlarmFire_tame (src : AlarmSource) (s : State) : Tame [.regs, .counters, .events, .fcp, .obs, .line] s (macsecAlarmFire src s) := by
  unfold macsecAlarmFire
  repeat' (first | (show (_ : Bool) = true; decide) | with_reducible exact Tame.refl .. | with_reducible apply Tame.then (fireAlarm_tame ..) | with_reducible apply Tame.ite | split)

theorem voltageExcursion_tame (ns : Nat) (s : State) : Tame [.regs, .counters, .events, .fcp, .obs, .line] s (voltageExcursion ns s) := by
  unfold voltageExcursion
  repeat' (first | (show (_ : Bool) = true; decide) | with_reducible exact Tame.refl .. | with_reducible apply Tame.then (fireAlarm_tame ..) | with_reducible apply Tame.ite | split)

theorem faultInjectionDetect_tame (s : State) : Tame [.regs, .counters, .events, .fcp, .obs, .line] s (faultInjectionDetect s) := by
  unfold faultInjectionDetect
  repeat' (first | (show (_ : Bool) = true; decide) | with_reducible exact Tame.refl .. | with_reducible apply Tame.then (fireAlarm_tame ..) | with_reducible apply Tame.ite | split)

theorem pllOutputDeparts_tame (s : State) : Tame [.regs, .counters, .events, .fcp, .obs, .line] s (pllOutputDeparts s) := by
  unfold pllOutputDeparts
  repeat' (first | (show (_ : Bool) = true; decide) | with_reducible exact Tame.refl .. | with_reducible apply Tame.then (fireAlarm_tame ..) | with_reducible apply Tame.ite | split)

theorem alarmSourceStopsFiring_tame (src : AlarmSource) (s : State) : Tame [.line] s (alarmSourceStopsFiring src s) := by
  unfold alarmSourceStopsFiring
  repeat' (first | (show (_ : Bool) = true; decide) | with_reducible exact Tame.refl .. | with_reducible apply Tame.ite | with_reducible apply Tame.set_line | split)

theorem macsecAlarmClear_tame (mask : Nat) (s : State) : Tame [.regs, .counters, .events, .fcp, .obs] s (macsecAlarmClear mask s) := by
  unfold macsecAlarmClear
  repeat' (first | (show (_ : Bool) = true; decide) | with_reducible exact Tame.refl .. | with_reducible apply Tame.then (setFld_tame ..) | with_reducible apply Tame.then (raise_tame ..) | with_reducible refine Tame.fold ?_ (fun s x => ?_) | with_reducible refine Tame.foldEq (by assumption) ?_ (fun r x => ?_) | with_reducible refine Tame.foldEqSnd (by assumption) ?_ (fun r x => ?_) | with_reducible refine Tame.foldPair ?_ (fun r x => ?_) | with_reducible refine Tame.foldPairSnd ?_ (fun r x => ?_) | with_reducible apply Tame.ite | split)

theorem macVerified_tame (s : State) (p : Nat) (c : Nat) (an : Nat) (pn : Nat) : Tame [.regs, .counters, .events, .fcp, .obs, .line] s (State.macVerified s p c an pn) := by
  unfold State.macVerified
  repeat' (first | (show (_ : Bool) = true; decide) | with_reducible exact Tame.refl .. | with_reducible apply Tame.then (setReg_tame ..) | with_reducible apply Tame.then (setSaState_tame ..) | with_reducible apply Tame.then (raise_tame ..) | with_reducible apply Tame.ite | split)

theorem macsecRxFrame_tame (p : Nat) (icvOk : Bool) (plain : Bytes) (s : State) : Tame [.regs, .counters, .events, .fcp, .obs, .line, .headers] s (macsecRxFrame p icvOk plain s) := by
  unfold macsecRxFrame; try dsimp -proj -iota -eta only
  repeat' (first | (show (_ : Bool) = true; decide) | with_reducible exact Tame.refl .. | split | with_reducible apply Tame.then (setPort_tame ..) | with_reducible apply Tame.then (count_tame ..) | with_reducible apply Tame.then (macVerified_tame ..) | with_reducible apply Tame.then (toSlice_tame ..) | with_reducible apply Tame.ite | with_reducible refine Tame.pairEq (by assumption) ?_ | with_reducible refine Tame.pairEqSnd (by assumption) ?_ | with_reducible refine Tame.iteEq (by assumption) (fun _ => ?_) (fun _ => ?_) | with_reducible refine Tame.iteEqSnd (by assumption) (fun _ => ?_) (fun _ => ?_))

theorem pnAdvance_tame (s : State) (p : Nat) (an : Nat) : Tame [.regs, .counters, .events, .fcp, .obs, .line] s (State.pnAdvance s p an) := by
  unfold State.pnAdvance
  repeat' (first | (show (_ : Bool) = true; decide) | with_reducible exact Tame.refl .. | with_reducible apply Tame.then (setSaState_tame ..) | with_reducible apply Tame.then (raise_tame ..) | with_reducible apply Tame.then (setReg_tame ..) | with_reducible apply Tame.then (setSa_tame ..) | with_reducible apply Tame.ite | split)

theorem toMac_tame (s : State) (p : Nat) (f : TxPkt) : Tame [.line] s (State.toMac s p f) := by
  unfold State.toMac
  repeat' (first | (show (_ : Bool) = true; decide) | with_reducible exact Tame.refl .. | with_reducible apply Tame.then (setPort_tame ..) | with_reducible apply Tame.ite | split)

theorem macsecTxFrame_tame (p : Nat) (s : State) : Tame [.regs, .counters, .events, .fcp, .obs, .line, .traffic] s (macsecTxFrame p s) := by
  unfold macsecTxFrame; try dsimp -proj -iota -eta only
  repeat' (first | (show (_ : Bool) = true; decide) | with_reducible exact Tame.refl .. | split | with_reducible apply Tame.then (setPort_tame ..) | with_reducible apply Tame.then (txSwitch_tame ..) | with_reducible apply Tame.then (count_tame ..) | with_reducible apply Tame.then (toMac_tame ..) | with_reducible apply Tame.then (txLeave_tame ..) | with_reducible apply Tame.then (pnAdvance_tame ..) | with_reducible apply Tame.ite | with_reducible refine Tame.pairEq (by assumption) ?_ | with_reducible refine Tame.pairEqSnd (by assumption) ?_ | with_reducible refine Tame.iteEq (by assumption) (fun _ => ?_) (fun _ => ?_) | with_reducible refine Tame.iteEqSnd (by assumption) (fun _ => ?_) (fun _ => ?_))

end Sys2Proof.Machine
end

