-- ==== Sys2Proof/Laws/BridgeFrames.lean ====
section
/-! SUPPORT. The parts that the operations of Machine/Bridge may change. -/

namespace Sys2Proof.Machine

set_option linter.all false

theorem bridgeBits_tame (s : State) (k : Nat) : Tame [.regs] s (State.bridgeBits s k) := by
  unfold State.bridgeBits
  repeat' (first | (show (_ : Bool) = true; decide) | with_reducible exact Tame.refl .. | with_reducible apply Tame.then (setFld_tame ..) | with_reducible apply Tame.ite | split)

theorem slicePortsEval_tame (s : State) (k : Nat) : Tame [.regs, .counters, .events, .fcp, .obs, .line, .traffic] s (State.slicePortsEval s k) := by
  unfold State.slicePortsEval
  repeat' (first | (show (_ : Bool) = true; decide) | with_reducible exact Tame.refl .. | with_reducible apply Tame.then (portChange_tame ..) | with_reducible refine Tame.fold ?_ (fun s x => ?_) | with_reducible refine Tame.foldEq (by assumption) ?_ (fun r x => ?_) | with_reducible refine Tame.foldEqSnd (by assumption) ?_ (fun r x => ?_) | with_reducible refine Tame.foldPair ?_ (fun r x => ?_) | with_reducible refine Tame.foldPairSnd ?_ (fun r x => ?_) | with_reducible apply Tame.ite | split)

theorem bridgeBeatError_tame (k : Nat) (toF : Bool) (replayOk : Bool) (s : State) : Tame [.bridge] s (bridgeBeatError k toF replayOk s) := by
  unfold bridgeBeatError
  repeat' (first | (show (_ : Bool) = true; decide) | with_reducible exact Tame.refl .. | with_reducible apply Tame.then (setChan_tame ..) | with_reducible apply Tame.ite | split)

theorem bridgeRetrainDone_tame (k : Nat) (toF : Bool) (ok : Bool) (s : State) : Tame [.regs, .counters, .events, .fcp, .obs, .line, .traffic, .bridge] s (bridgeRetrainDone k toF ok s) := by
  unfold bridgeRetrainDone
  repeat' (first | (show (_ : Bool) = true; decide) | with_reducible exact Tame.refl .. | with_reducible apply Tame.then (setChan_tame ..) | with_reducible apply Tame.then (bridgeBits_tame ..) | with_reducible apply Tame.then (raise_tame ..) | with_reducible apply Tame.then (slicePortsEval_tame ..) | with_reducible apply Tame.ite | split)

theorem bridgeRetrainWrite_tame (mask : Nat) (s : State) : Tame [.regs, .bridge] s (bridgeRetrainWrite mask s) := by
  unfold bridgeRetrainWrite
  repeat' (first | (show (_ : Bool) = true; decide) | with_reducible exact Tame.refl .. | with_reducible apply Tame.then (setFld_tame ..) | with_reducible apply Tame.then (setChan_tame ..) | with_reducible refine Tame.fold ?_ (fun s x => ?_) | with_reducible refine Tame.foldEq (by assumption) ?_ (fun r x => ?_) | with_reducible refine Tame.foldEqSnd (by assumption) ?_ (fun r x => ?_) | with_reducible refine Tame.foldPair ?_ (fun r x => ?_) | with_reducible refine Tame.foldPairSnd ?_ (fun r x => ?_) | with_reducible apply Tame.ite | split)

end Sys2Proof.Machine
end

