-- ==== Sys2Proof/Laws/ParserFrames.lean ====
section
/-! SUPPORT. The parts that the operations of Machine/Parser may change. -/

namespace Sys2Proof.Machine

set_option linter.all false

theorem toLook_tame (s : State) (x : Pass) : Tame [.lookup] s (State.toLook s x) := by
  unfold State.toLook
  repeat' (first | (show (_ : Bool) = true; decide) | with_reducible exact Tame.refl .. | with_reducible apply Tame.ite | with_reducible apply Tame.set_lookup | split)

theorem epochDrop_tame (s : State) (agent : Nat) : Tame [.counters] s (State.epochDrop s agent) := by
  unfold State.epochDrop
  repeat' (first | (show (_ : Bool) = true; decide) | with_reducible exact Tame.refl .. | with_reducible apply Tame.then (count_tame ..) | with_reducible apply Tame.ite | split)

theorem fragUsedAdd_tame (s : State) (shared : Bool) (k : Nat) (d : Int) : Tame [.regs] s (State.fragUsedAdd s shared k d) := by
  unfold State.fragUsedAdd
  repeat' (first | (show (_ : Bool) = true; decide) | with_reducible exact Tame.refl .. | with_reducible apply Tame.then (setFld_tame ..) | with_reducible apply Tame.ite | split)

theorem setFrag_tame (s : State) (shared : Bool) (k : Nat) (i : Nat) (e : FragEntry) : Tame [.regs, .lookup] s (State.setFrag s shared k i e) := by
  unfold State.setFrag
  repeat' (first | (show (_ : Bool) = true; decide) | with_reducible exact Tame.refl .. | with_reducible apply Tame.then (fragUsedAdd_tame ..) | with_reducible apply Tame.ite | with_reducible apply Tame.set_lookup | split)

theorem fragReserve_tame (s : State) (scope : Nat) (k : Nat) (epoch : Nat) (key : List Nat) : Tame [.regs, .counters, .events, .fcp, .obs, .lookup] s (State.fragReserve s scope k epoch key).1 := by
  unfold State.fragReserve; try dsimp -proj -iota -eta only
  repeat' (first | (show (_ : Bool) = true; decide) | with_reducible exact Tame.refl .. | split | with_reducible apply Tame.then (setFrag_tame ..) | with_reducible apply Tame.then (count_tame ..) | with_reducible apply Tame.then (raiseLimited_tame ..) | with_reducible apply Tame.ite | with_reducible apply Tame.iteFst | with_reducible refine Tame.pairEq (by assumption) ?_ | with_reducible refine Tame.pairEqSnd (by assumption) ?_ | with_reducible refine Tame.iteEq (by assumption) (fun _ => ?_) (fun _ => ?_) | with_reducible refine Tame.iteEqSnd (by assumption) (fun _ => ?_) (fun _ => ?_))

theorem setHold_tame (s : State) (k : Nat) (l : List Held) : Tame [.regs, .lookup] s (State.setHold s k l) := by
  unfold State.setHold
  repeat' (first | (show (_ : Bool) = true; decide) | with_reducible exact Tame.refl .. | with_reducible apply Tame.then (setFld_tame ..) | with_reducible apply Tame.ite | with_reducible apply Tame.set_lookup | split)

theorem fragNoEntry_tame (s : State) (x : Pass) : Tame [.regs, .counters, .lookup, .free] s (State.fragNoEntry s x) := by
  unfold State.fragNoEntry; try dsimp -proj -iota -eta only
  repeat' (first | (show (_ : Bool) = true; decide) | with_reducible exact Tame.refl .. | split | with_reducible apply Tame.then (setFrag_tame ..) | with_reducible apply Tame.then (count_tame ..) | with_reducible apply Tame.then (draw_tame ..) | with_reducible refine Tame.thenSnd (draw_tame ..) (by assumption) ?_ ?_ | with_reducible apply Tame.then (toLook_tame ..) | with_reducible apply Tame.ite | with_reducible refine Tame.pairEq (by assumption) ?_ | with_reducible refine Tame.pairEqSnd (by assumption) ?_ | with_reducible refine Tame.iteEq (by assumption) (fun _ => ?_) (fun _ => ?_) | with_reducible refine Tame.iteEqSnd (by assumption) (fun _ => ?_) (fun _ => ?_))

theorem fragLater_tame (s : State) (x : Pass) (scope : Nat) (key : List Nat) : Tame [.regs, .counters, .lookup, .free] s (State.fragLater s x scope key) := by
  unfold State.fragLater; try dsimp -proj -iota -eta only
  repeat' (first | (show (_ : Bool) = true; decide) | with_reducible exact Tame.refl .. | split | with_reducible apply Tame.then (fragNoEntry_tame ..) | with_reducible apply Tame.then (setFrag_tame ..) | with_reducible apply Tame.then (setHold_tame ..) | with_reducible apply Tame.then (count_tame ..) | with_reducible apply Tame.then (toLook_tame ..) | with_reducible apply Tame.ite | with_reducible refine Tame.pairEq (by assumption) ?_ | with_reducible refine Tame.pairEqSnd (by assumption) ?_ | with_reducible refine Tame.iteEq (by assumption) (fun _ => ?_) (fun _ => ?_) | with_reducible refine Tame.iteEqSnd (by assumption) (fun _ => ?_) (fun _ => ?_))

theorem fragComplete_tame (s : State) (k : Nat) (slot : Option (Bool × Nat)) (st : Stamp) (meter : Option Nat) : Tame [.regs, .counters, .lookup] s (State.fragComplete s k slot st meter) := by
  unfold State.fragComplete; try dsimp -proj -iota -eta only
  repeat' (first | (show (_ : Bool) = true; decide) | with_reducible exact Tame.refl .. | split | with_reducible apply Tame.then (setFrag_tame ..) | with_reducible apply Tame.then (count_tame ..) | with_reducible apply Tame.then (toLook_tame ..) | with_reducible apply Tame.then (epochDrop_tame ..) | with_reducible apply Tame.then (setHold_tame ..) | with_reducible refine Tame.fold ?_ (fun s x => ?_) | with_reducible refine Tame.foldEq (by assumption) ?_ (fun r x => ?_) | with_reducible refine Tame.foldEqSnd (by assumption) ?_ (fun r x => ?_) | with_reducible refine Tame.foldPair ?_ (fun r x => ?_) | with_reducible refine Tame.foldPairSnd ?_ (fun r x => ?_) | with_reducible apply Tame.ite | with_reducible refine Tame.pairEq (by assumption) ?_ | with_reducible refine Tame.pairEqSnd (by assumption) ?_ | with_reducible refine Tame.iteEq (by assumption) (fun _ => ?_) (fun _ => ?_) | with_reducible refine Tame.iteEqSnd (by assumption) (fun _ => ?_) (fun _ => ?_))

theorem newPid_tame (s : State) : Tame [.lookup] s (State.newPid s).2 := by
  unfold State.newPid
  repeat' (first | (show (_ : Bool) = true; decide) | with_reducible exact Tame.refl .. | with_reducible apply Tame.ite | with_reducible apply Tame.iteSnd | with_reducible apply Tame.set_lookup | split)

theorem setRec_tame (s : State) (k : Nat) (l : List Pass) : Tame [.regs, .lookup] s (State.setRec s k l) := by
  unfold State.setRec
  repeat' (first | (show (_ : Bool) = true; decide) | with_reducible exact Tame.refl .. | with_reducible apply Tame.then (setFld_tame ..) | with_reducible apply Tame.ite | with_reducible apply Tame.set_lookup | split)

theorem afterParse_tame (s : State) (x : Pass) (w : Walk) : Tame [.regs, .counters, .events, .fcp, .obs, .lookup, .free] s (State.afterParse s x w) := by
  unfold State.afterParse
  extract_lets cfg s1 act scope key
  have h1 : Tame [.regs, .counters, .events, .fcp, .obs, .lookup, .free] s s1 :=
    Tame.ite (Tame.refl ..) (Tame.then (count_tame ..) (Tame.refl ..) (by decide))
  split
  next t y e =>
    have h2 : Tame [.regs, .counters, .events, .fcp, .obs, .lookup, .free] s t := by
      split at e
      · split at e
        next a b e2 => injection e with e1 _; subst e1; exact Tame.thenFst (fragReserve_tame ..) e2 h1 (by decide)
      · injection e with e1 _; subst e1; exact h1
    apply Tame.ite
    · exact Tame.then (toLook_tame ..) (Tame.then (count_tame ..) (Tame.then (draw_tame t) h2 (by decide)) (by decide)) (by decide)
    · apply Tame.ite
      · exact Tame.then (toLook_tame ..) (Tame.then (draw_tame t) h2 (by decide)) (by decide)
      · apply Tame.ite
        · exact Tame.then (fragLater_tame ..) h2 (by decide)
        · exact Tame.then (toLook_tame ..) h2 (by decide)

theorem headerParse_tame (k : Nat) (s : State) : Tame [.regs, .counters, .events, .fcp, .obs, .headers, .lookup, .traffic, .free] s (headerParse k s) := by
  unfold headerParse; try dsimp -proj -iota -eta only
  repeat' (first | (show (_ : Bool) = true; decide) | with_reducible exact Tame.refl .. | split | with_reducible apply Tame.then (newPid_tame ..) | with_reducible refine Tame.thenSnd (newPid_tame ..) (by assumption) ?_ ?_ | with_reducible apply Tame.then (epochEnter_tame ..) | with_reducible apply Tame.then (afterParse_tame ..) | with_reducible apply Tame.then (setRec_tame ..) | with_reducible apply Tame.then (unpark_tame ..) | with_reducible apply Tame.then (epochDrop_tame ..) | with_reducible apply Tame.ite | with_reducible refine Tame.pairEq (by assumption) ?_ | with_reducible refine Tame.pairEqSnd (by assumption) ?_ | with_reducible refine Tame.iteEq (by assumption) (fun _ => ?_) (fun _ => ?_) | with_reducible refine Tame.iteEqSnd (by assumption) (fun _ => ?_) (fun _ => ?_) | with_reducible apply Tame.set_hdrQ)

theorem fragHoldTimeout_tame (k : Nat) (s : State) : Tame [.regs, .counters, .lookup, .free] s (fragHoldTimeout k s) := by
  unfold fragHoldTimeout; try dsimp -proj -iota -eta only
  repeat' (first | (show (_ : Bool) = true; decide) | with_reducible exact Tame.refl .. | split | with_reducible apply Tame.then (setHold_tame ..) | with_reducible apply Tame.then (setFrag_tame ..) | with_reducible apply Tame.then (count_tame ..) | with_reducible apply Tame.then (fragNoEntry_tame ..) | with_reducible apply Tame.then (epochDrop_tame ..) | with_reducible apply Tame.ite | with_reducible refine Tame.pairEq (by assumption) ?_ | with_reducible refine Tame.pairEqSnd (by assumption) ?_ | with_reducible refine Tame.iteEq (by assumption) (fun _ => ?_) (fun _ => ?_) | with_reducible refine Tame.iteEqSnd (by assumption) (fun _ => ?_) (fun _ => ?_))

theorem fragEntryExpiry_tame (k : Nat) (shared : Bool) (i : Nat) (s : State) : Tame [.regs, .lookup] s (fragEntryExpiry k shared i s) := by
  unfold fragEntryExpiry
  repeat' (first | (show (_ : Bool) = true; decide) | with_reducible exact Tame.refl .. | with_reducible apply Tame.then (setFrag_tame ..) | with_reducible apply Tame.ite | split)

theorem recirculate_tame (s : State) (x : Pass) (form : Nat) (strip : Nat) (data : Nat) : Tame [.regs, .counters, .events, .fcp, .obs, .lookup, .traffic] s (State.recirculate s x form strip data) := by
  unfold State.recirculate; try dsimp -proj -iota -eta only
  repeat' (first | (show (_ : Bool) = true; decide) | with_reducible exact Tame.refl .. | split | with_reducible apply Tame.then (count_tame ..) | with_reducible apply Tame.then (unpark_tame ..) | with_reducible apply Tame.then (epochLeave_tame ..) | with_reducible apply Tame.then (raiseLimited_tame ..) | with_reducible apply Tame.then (poolChain_tame ..) | with_reducible refine Tame.thenFst (poolChain_tame ..) (by assumption) ?_ ?_ | with_reducible apply Tame.then (allocFail_tame ..) | with_reducible apply Tame.then (setRec_tame ..) | with_reducible apply Tame.ite | with_reducible refine Tame.pairEq (by assumption) ?_ | with_reducible refine Tame.pairEqSnd (by assumption) ?_ | with_reducible refine Tame.iteEq (by assumption) (fun _ => ?_) (fun _ => ?_) | with_reducible refine Tame.iteEqSnd (by assumption) (fun _ => ?_) (fun _ => ?_))

end Sys2Proof.Machine
end

