-- ==== Sys2Proof/Laws/TablesFrames.lean ====
section
/-! SUPPORT. The parts that the operations of Machine/Tables may change. -/

namespace Sys2Proof.Machine

set_option linter.all false

theorem tblPut_tame (s : State) (a : Nat) (w : Nat) : Tame [.regs, .mem] s (State.tblPut s a w) := by
  unfold State.tblPut; try dsimp -proj -iota -eta only
  repeat' (first | (show (_ : Bool) = true; decide) | with_reducible exact Tame.refl .. | split | with_reducible apply Tame.then (setMemWord_tame ..) | with_reducible apply Tame.then (setFld_tame ..) | with_reducible apply Tame.ite | with_reducible refine Tame.pairEq (by assumption) ?_ | with_reducible refine Tame.pairEqSnd (by assumption) ?_ | with_reducible refine Tame.iteEq (by assumption) (fun _ => ?_) (fun _ => ?_) | with_reducible refine Tame.iteEqSnd (by assumption) (fun _ => ?_) (fun _ => ?_))

theorem shPut_tame (s : State) (a : Nat) (w : Nat) : Tame [.lookup] s (State.shPut s a w) := by
  unfold State.shPut
  repeat' (first | (show (_ : Bool) = true; decide) | with_reducible exact Tame.refl .. | with_reducible apply Tame.ite | with_reducible apply Tame.set_lookup | split)

theorem put_tame (s : State) (fw : Bool) (a : Nat) (w : Nat) : Tame [.regs, .mem, .lookup] s (State.put s fw a w) := by
  unfold State.put
  repeat' (first | (show (_ : Bool) = true; decide) | with_reducible exact Tame.refl .. | with_reducible apply Tame.then (tblPut_tame ..) | with_reducible apply Tame.then (shPut_tame ..) | with_reducible apply Tame.ite | split)

theorem put128_tame (s : State) (fw : Bool) (a : Nat) (w : Nat) : Tame [.regs, .mem, .lookup] s (State.put128 s fw a w) := by
  unfold State.put128
  repeat' (first | (show (_ : Bool) = true; decide) | with_reducible exact Tame.refl .. | with_reducible apply Tame.then (put_tame ..) | with_reducible apply Tame.ite | split)

theorem hashHit_tame (s : State) (t : Nat) (a : Nat) : Tame [.regs, .mem] s (State.hashHit s t a) := by
  unfold State.hashHit
  repeat' (first | (show (_ : Bool) = true; decide) | with_reducible exact Tame.refl .. | with_reducible apply Tame.then (tblPut_tame ..) | with_reducible apply Tame.ite | split)

theorem putEntry_tame (s : State) (fw : Bool) (a : Nat) (ws : List Nat) : Tame [.regs, .mem, .lookup] s (State.putEntry s fw a ws) := by
  unfold State.putEntry
  repeat' (first | (show (_ : Bool) = true; decide) | with_reducible exact Tame.refl .. | with_reducible apply Tame.then (put_tame ..) | with_reducible refine Tame.fold ?_ (fun s x => ?_) | with_reducible refine Tame.foldEq (by assumption) ?_ (fun r x => ?_) | with_reducible refine Tame.foldEqSnd (by assumption) ?_ (fun r x => ?_) | with_reducible refine Tame.foldPair ?_ (fun r x => ?_) | with_reducible refine Tame.foldPairSnd ?_ (fun r x => ?_) | with_reducible apply Tame.ite | split)

theorem clearEntry_tame (s : State) (fw : Bool) (a : Nat) : Tame [.regs, .mem, .lookup] s (State.clearEntry s fw a) := by
  unfold State.clearEntry
  repeat' (first | (show (_ : Bool) = true; decide) | with_reducible exact Tame.refl .. | with_reducible apply Tame.then (put_tame ..) | with_reducible refine Tame.fold ?_ (fun s x => ?_) | with_reducible refine Tame.foldEq (by assumption) ?_ (fun r x => ?_) | with_reducible refine Tame.foldEqSnd (by assumption) ?_ (fun r x => ?_) | with_reducible refine Tame.foldPair ?_ (fun r x => ?_) | with_reducible refine Tame.foldPairSnd ?_ (fun r x => ?_) | with_reducible apply Tame.ite | split)

theorem moveEntry_tame (s : State) (fw : Bool) (a : Nat) (b : Nat) : Tame [.regs, .mem, .lookup] s (State.moveEntry s fw a b) := by
  unfold State.moveEntry
  repeat' (first | (show (_ : Bool) = true; decide) | with_reducible exact Tame.refl .. | with_reducible apply Tame.then (putEntry_tame ..) | with_reducible apply Tame.then (clearEntry_tame ..) | with_reducible apply Tame.ite | split)

theorem hashPlace_tame (s : State) (fw : Bool) (deep : Bool) (t : Nat) (w : Nat) (key : Bytes) : Tame [.regs, .mem, .lookup] s (State.hashPlace s fw deep t w key).2 := by
  unfold State.hashPlace; try dsimp -proj -iota -eta only
  repeat' (first | (show (_ : Bool) = true; decide) | with_reducible exact Tame.refl .. | split | with_reducible apply Tame.then (moveEntry_tame ..) | with_reducible refine Tame.fold ?_ (fun s x => ?_) | with_reducible refine Tame.foldEq (by assumption) ?_ (fun r x => ?_) | with_reducible refine Tame.foldEqSnd (by assumption) ?_ (fun r x => ?_) | with_reducible refine Tame.foldPair ?_ (fun r x => ?_) | with_reducible refine Tame.foldPairSnd ?_ (fun r x => ?_) | with_reducible apply Tame.ite | with_reducible apply Tame.iteSnd | with_reducible refine Tame.pairEq (by assumption) ?_ | with_reducible refine Tame.pairEqSnd (by assumption) ?_ | with_reducible refine Tame.iteEq (by assumption) (fun _ => ?_) (fun _ => ?_) | with_reducible refine Tame.iteEqSnd (by assumption) (fun _ => ?_) (fun _ => ?_))

theorem insertFull_tame (s : State) (t : Nat) : Tame [.counters, .events, .fcp, .obs] s (State.insertFull s t) := by
  unfold State.insertFull
  repeat' (first | (show (_ : Bool) = true; decide) | with_reducible exact Tame.refl .. | with_reducible apply Tame.then (count_tame ..) | with_reducible apply Tame.then (raise_tame ..) | with_reducible apply Tame.ite | split)

theorem stashReturn_tame (s : State) (fw : Bool) (bank : Nat) : Tame [.regs, .mem, .counters, .lookup] s (State.stashReturn s fw bank) := by
  unfold State.stashReturn; try dsimp -proj -iota -eta only
  repeat' (first | (show (_ : Bool) = true; decide) | with_reducible exact Tame.refl .. | split | with_reducible apply Tame.then (moveEntry_tame ..) | with_reducible apply Tame.then (count_tame ..) | with_reducible refine Tame.fold ?_ (fun s x => ?_) | with_reducible refine Tame.foldEq (by assumption) ?_ (fun r x => ?_) | with_reducible refine Tame.foldEqSnd (by assumption) ?_ (fun r x => ?_) | with_reducible refine Tame.foldPair ?_ (fun r x => ?_) | with_reducible refine Tame.foldPairSnd ?_ (fun r x => ?_) | with_reducible apply Tame.ite | with_reducible refine Tame.pairEq (by assumption) ?_ | with_reducible refine Tame.pairEqSnd (by assumption) ?_ | with_reducible refine Tame.iteEq (by assumption) (fun _ => ?_) (fun _ => ?_) | with_reducible refine Tame.iteEqSnd (by assumption) (fun _ => ?_) (fun _ => ?_))

theorem hashRemove_tame (s : State) (fw : Bool) (a : Nat) : Tame [.regs, .mem, .counters, .lookup] s (State.hashRemove s fw a) := by
  unfold State.hashRemove
  repeat' (first | (show (_ : Bool) = true; decide) | with_reducible exact Tame.refl .. | with_reducible apply Tame.then (clearEntry_tame ..) | with_reducible apply Tame.then (stashReturn_tame ..) | with_reducible apply Tame.ite | split)

theorem flowOvfAdd_tame (s : State) (fw : Bool) (b : Nat) (d : Int) : Tame [.regs, .mem, .lookup] s (State.flowOvfAdd s fw b d) := by
  unfold State.flowOvfAdd
  repeat' (first | (show (_ : Bool) = true; decide) | with_reducible exact Tame.refl .. | with_reducible apply Tame.then (put_tame ..) | with_reducible apply Tame.ite | split)

theorem putFlow_tame (s : State) (fw : Bool) (a : Nat) (w : Nat) (key : Bytes) : Tame [.regs, .mem, .lookup] s (State.putFlow s fw a w key) := by
  unfold State.putFlow
  repeat' (first | (show (_ : Bool) = true; decide) | with_reducible exact Tame.refl .. | with_reducible apply Tame.then (put_tame ..) | with_reducible refine Tame.fold ?_ (fun s x => ?_) | with_reducible refine Tame.foldEq (by assumption) ?_ (fun r x => ?_) | with_reducible refine Tame.foldEqSnd (by assumption) ?_ (fun r x => ?_) | with_reducible refine Tame.foldPair ?_ (fun r x => ?_) | with_reducible refine Tame.foldPairSnd ?_ (fun r x => ?_) | with_reducible apply Tame.ite | split)

theorem clearFlow_tame (s : State) (fw : Bool) (a : Nat) : Tame [.regs, .mem, .lookup] s (State.clearFlow s fw a) := by
  unfold State.clearFlow
  repeat' (first | (show (_ : Bool) = true; decide) | with_reducible exact Tame.refl .. | with_reducible apply Tame.then (put_tame ..) | with_reducible refine Tame.fold ?_ (fun s x => ?_) | with_reducible refine Tame.foldEq (by assumption) ?_ (fun r x => ?_) | with_reducible refine Tame.foldEqSnd (by assumption) ?_ (fun r x => ?_) | with_reducible refine Tame.foldPair ?_ (fun r x => ?_) | with_reducible refine Tame.foldPairSnd ?_ (fun r x => ?_) | with_reducible apply Tame.ite | split)

theorem moveFlow_tame (s : State) (fw : Bool) (a : Nat) (d : Nat) : Tame [.regs, .mem, .lookup] s (State.moveFlow s fw a d) := by
  unfold State.moveFlow
  repeat' (first | (show (_ : Bool) = true; decide) | with_reducible exact Tame.refl .. | with_reducible apply Tame.then (putFlow_tame ..) | with_reducible apply Tame.then (clearFlow_tame ..) | with_reducible apply Tame.then (flowOvfAdd_tame ..) | with_reducible apply Tame.ite | split)

theorem flowPlace_tame (s : State) (fw : Bool) (f : Nat) (key : Bytes) : Tame [.regs, .mem, .lookup] s (State.flowPlace s fw f key).2 := by
  unfold State.flowPlace; try dsimp -proj -iota -eta only
  repeat' (first | (show (_ : Bool) = true; decide) | with_reducible exact Tame.refl .. | split | with_reducible apply Tame.then (flowOvfAdd_tame ..) | with_reducible apply Tame.then (moveFlow_tame ..) | with_reducible refine Tame.fold ?_ (fun s x => ?_) | with_reducible refine Tame.foldEq (by assumption) ?_ (fun r x => ?_) | with_reducible refine Tame.foldEqSnd (by assumption) ?_ (fun r x => ?_) | with_reducible refine Tame.foldPair ?_ (fun r x => ?_) | with_reducible refine Tame.foldPairSnd ?_ (fun r x => ?_) | with_reducible apply Tame.ite | with_reducible apply Tame.iteSnd | with_reducible refine Tame.pairEq (by assumption) ?_ | with_reducible refine Tame.pairEqSnd (by assumption) ?_ | with_reducible refine Tame.iteEq (by assumption) (fun _ => ?_) (fun _ => ?_) | with_reducible refine Tame.iteEqSnd (by assumption) (fun _ => ?_) (fun _ => ?_))

theorem flowRemove_tame (s : State) (fw : Bool) (a : Nat) : Tame [.regs, .mem, .lookup] s (State.flowRemove s fw a) := by
  unfold State.flowRemove
  repeat' (first | (show (_ : Bool) = true; decide) | with_reducible exact Tame.refl .. | with_reducible apply Tame.then (clearFlow_tame ..) | with_reducible apply Tame.then (flowOvfAdd_tame ..) | with_reducible apply Tame.ite | split)

theorem flowHit_tame (s : State) (a : Nat) : Tame [.regs, .mem] s (State.flowHit s a) := by
  unfold State.flowHit
  repeat' (first | (show (_ : Bool) = true; decide) | with_reducible exact Tame.refl .. | with_reducible apply Tame.then (tblPut_tame ..) | with_reducible apply Tame.ite | split)

end Sys2Proof.Machine
end

