-- ==== Sys2Proof/Laws/ClassifyFrames.lean ====
section
/-! SUPPORT. The parts that the operations of Machine/Classify may change. -/

namespace Sys2Proof.Machine

set_option linter.all false

theorem merge_tame (s : State) (x : Pass) (r : Nat) : Tame [.counters] s (State.merge s x r).1 := by
  unfold State.merge
  repeat' (first | (show (_ : Bool) = true; decide) | with_reducible exact Tame.refl .. | with_reducible apply Tame.then (count_tame ..) | with_reducible apply Tame.ite | with_reducible apply Tame.iteFst | split)

theorem mergeError_tame (s : State) (x : Pass) (act : Nat) (why : Nat) (miss : Nat) : Tame [.counters] s (State.mergeError s x act why miss).1 := by
  unfold State.mergeError
  repeat' (first | (show (_ : Bool) = true; decide) | with_reducible exact Tame.refl .. | with_reducible apply Tame.then (merge_tame ..) | with_reducible refine Tame.thenFst (merge_tame ..) (by assumption) ?_ ?_ | with_reducible apply Tame.ite | with_reducible apply Tame.iteFst | split)

theorem stageHit_tame (s : State) (x : Pass) (ty : Nat) (r : Nat) : Tame [.counters] s (State.stageHit s x ty r).1 := by
  unfold State.stageHit; try dsimp -proj -iota -eta only
  repeat' (first | (show (_ : Bool) = true; decide) | with_reducible exact Tame.refl .. | split | with_reducible apply Tame.then (merge_tame ..) | with_reducible refine Tame.thenFst (merge_tame ..) (by assumption) ?_ ?_ | with_reducible apply Tame.ite | with_reducible apply Tame.iteFst | with_reducible refine Tame.pairEq (by assumption) ?_ | with_reducible refine Tame.pairEqSnd (by assumption) ?_ | with_reducible refine Tame.iteEq (by assumption) (fun _ => ?_) (fun _ => ?_) | with_reducible refine Tame.iteEqSnd (by assumption) (fun _ => ?_) (fun _ => ?_))

theorem stageMiss_tame (s : State) (x : Pass) (ty : Nat) : Tame [.counters] s (State.stageMiss s x ty).1 := by
  unfold State.stageMiss; try dsimp -proj -iota -eta only
  repeat' (first | (show (_ : Bool) = true; decide) | with_reducible exact Tame.refl .. | split | with_reducible apply Tame.then (merge_tame ..) | with_reducible refine Tame.thenFst (merge_tame ..) (by assumption) ?_ ?_ | with_reducible apply Tame.ite | with_reducible apply Tame.iteFst | with_reducible refine Tame.pairEq (by assumption) ?_ | with_reducible refine Tame.pairEqSnd (by assumption) ?_ | with_reducible refine Tame.iteEq (by assumption) (fun _ => ?_) (fun _ => ?_) | with_reducible refine Tame.iteEqSnd (by assumption) (fun _ => ?_) (fun _ => ?_))

theorem stageError_tame (s : State) (x : Pass) (ty : Nat) : Tame [.counters] s (State.stageError s x ty).1 := by
  unfold State.stageError; try dsimp -proj -iota -eta only
  repeat' (first | (show (_ : Bool) = true; decide) | with_reducible exact Tame.refl .. | split | with_reducible apply Tame.then (mergeError_tame ..) | with_reducible refine Tame.thenFst (mergeError_tame ..) (by assumption) ?_ ?_ | with_reducible apply Tame.ite | with_reducible apply Tame.iteFst | with_reducible refine Tame.pairEq (by assumption) ?_ | with_reducible refine Tame.pairEqSnd (by assumption) ?_ | with_reducible refine Tame.iteEq (by assumption) (fun _ => ?_) (fun _ => ?_) | with_reducible refine Tame.iteEqSnd (by assumption) (fun _ => ?_) (fun _ => ?_))

theorem hashSearch_tame (s : State) (t : Nat) (e : Nat) (key : Bytes) : Tame [.regs, .mem, .counters] s (State.hashSearch s t e key).1 := by
  unfold State.hashSearch; try dsimp -proj -iota -eta only
  repeat' (first | (show (_ : Bool) = true; decide) | with_reducible exact Tame.refl .. | split | with_reducible apply Tame.then (count_tame ..) | with_reducible apply Tame.then (hashHit_tame ..) | with_reducible apply Tame.ite | with_reducible apply Tame.iteFst | with_reducible refine Tame.pairEq (by assumption) ?_ | with_reducible refine Tame.pairEqSnd (by assumption) ?_ | with_reducible refine Tame.iteEq (by assumption) (fun _ => ?_) (fun _ => ?_) | with_reducible refine Tame.iteEqSnd (by assumption) (fun _ => ?_) (fun _ => ?_))

theorem hashRepair_tame (s : State) (a : Nat) : Tame [.regs, .mem, .lookup] s (State.hashRepair s a) := by
  unfold State.hashRepair
  repeat' (first | (show (_ : Bool) = true; decide) | with_reducible exact Tame.refl .. | with_reducible apply Tame.then (tblPut_tame ..) | with_reducible apply Tame.then (clearEntry_tame ..) | with_reducible refine Tame.fold ?_ (fun s x => ?_) | with_reducible refine Tame.foldEq (by assumption) ?_ (fun r x => ?_) | with_reducible refine Tame.foldEqSnd (by assumption) ?_ (fun r x => ?_) | with_reducible refine Tame.foldPair ?_ (fun r x => ?_) | with_reducible refine Tame.foldPairSnd ?_ (fun r x => ?_) | with_reducible apply Tame.ite | split)

theorem chain_tame (s : State) (x : Pass) (n : Nat) : Tame [.regs, .mem, .counters, .lookup] s (State.chain s x n).1 := by
  induction n generalizing s x with
  | zero => exact Tame.refl ..
  | succ f ih =>
    unfold State.chain; dsimp only
    repeat' (first | (show (_ : Bool) = true; decide) | with_reducible exact Tame.refl .. | with_reducible apply Tame.ite | with_reducible apply Tame.iteFst | split | with_reducible apply Tame.then (ih ..) | with_reducible apply Tame.then (stageHit_tame ..) | with_reducible apply Tame.then (stageMiss_tame ..) | with_reducible apply Tame.then (stageError_tame ..) | with_reducible apply Tame.then (hashRepair_tame ..) | with_reducible apply Tame.then (hashSearch_tame ..) | with_reducible apply Tame.then (count_tame ..) | with_reducible refine Tame.thenFst (ih ..) (by assumption) ?_ ?_ | with_reducible refine Tame.thenFst (stageHit_tame ..) (by assumption) ?_ ?_ | with_reducible refine Tame.thenFst (stageMiss_tame ..) (by assumption) ?_ ?_ | with_reducible refine Tame.thenFst (stageError_tame ..) (by assumption) ?_ ?_ | with_reducible refine Tame.thenFst (hashRepair_tame ..) (by assumption) ?_ ?_ | with_reducible refine Tame.thenFst (hashSearch_tame ..) (by assumption) ?_ ?_ | with_reducible refine Tame.thenFst (count_tame ..) (by assumption) ?_ ?_)

theorem spreadFail_tame (s : State) (g : Nat) (reason : Nat) : Tame [.counters, .events, .fcp, .obs] s (State.spreadFail s g reason) := by
  unfold State.spreadFail
  repeat' (first | (show (_ : Bool) = true; decide) | with_reducible exact Tame.refl .. | with_reducible apply Tame.then (count_tame ..) | with_reducible apply Tame.then (raiseLimited_tame ..) | with_reducible apply Tame.ite | split)

theorem setMeter_tame (s : State) (m : Nat) (tc : Nat) (tp : Nat) (last : Nat) : Tame [.regs, .mem, .lookup] s (State.setMeter s m tc tp last) := by
  unfold State.setMeter
  repeat' (first | (show (_ : Bool) = true; decide) | with_reducible exact Tame.refl .. | with_reducible apply Tame.then (put128_tame ..) | with_reducible apply Tame.ite | split)

theorem meterPacket_tame (s : State) (m : Nat) (pre : Nat) : Tame [.regs, .mem, .counters, .obs, .lookup] s (State.meterPacket s m pre).1 := by
  unfold State.meterPacket; try dsimp -proj -iota -eta only
  repeat' (first | (show (_ : Bool) = true; decide) | with_reducible exact Tame.refl .. | split | with_reducible apply Tame.then (setMeter_tame ..) | with_reducible apply Tame.then (accCount_tame ..) | with_reducible apply Tame.then (count_tame ..) | with_reducible apply Tame.ite | with_reducible apply Tame.iteFst | with_reducible refine Tame.pairEq (by assumption) ?_ | with_reducible refine Tame.pairEqSnd (by assumption) ?_ | with_reducible refine Tame.iteEq (by assumption) (fun _ => ?_) (fun _ => ?_) | with_reducible refine Tame.iteEqSnd (by assumption) (fun _ => ?_) (fun _ => ?_))

theorem meterRefresh_tame (m : Nat) (s : State) : Tame [.regs, .mem, .lookup] s (meterRefresh m s) := by
  unfold meterRefresh; try dsimp -proj -iota -eta only
  repeat' (first | (show (_ : Bool) = true; decide) | with_reducible exact Tame.refl .. | split | with_reducible apply Tame.then (setMeter_tame ..) | with_reducible apply Tame.ite | with_reducible refine Tame.pairEq (by assumption) ?_ | with_reducible refine Tame.pairEqSnd (by assumption) ?_ | with_reducible refine Tame.iteEq (by assumption) (fun _ => ?_) (fun _ => ?_) | with_reducible refine Tame.iteEqSnd (by assumption) (fun _ => ?_) (fun _ => ?_))

theorem toBridge_tame (s : State) (d : Desc) : Tame [.lookup] s (State.toBridge s d) := by
  unfold State.toBridge
  repeat' (first | (show (_ : Bool) = true; decide) | with_reducible exact Tame.refl .. | with_reducible apply Tame.ite | with_reducible apply Tame.set_lookup | split)

theorem mirrorCopy_tame (s : State) (n : Nat) (d : Desc) (dropped : Bool) : Tame [.lookup] s (State.mirrorCopy s n d dropped) := by
  unfold State.mirrorCopy
  repeat' (first | (show (_ : Bool) = true; decide) | with_reducible exact Tame.refl .. | with_reducible apply Tame.then (toBridge_tame ..) | with_reducible apply Tame.ite | split)

theorem setSampler_tame (s : State) (n : Nat) (x : Sampler) : Tame [.lookup] s (State.setSampler s n x) := by
  unfold State.setSampler
  repeat' (first | (show (_ : Bool) = true; decide) | with_reducible exact Tame.refl .. | with_reducible apply Tame.ite | with_reducible apply Tame.set_lookup | split)

theorem sampleCount_tame (s : State) (mode : Nat) (n : Nat) : Tame [.free] s (State.sampleCount s mode n).2 := by
  unfold State.sampleCount; try dsimp -proj -iota -eta only
  repeat' (first | (show (_ : Bool) = true; decide) | with_reducible exact Tame.refl .. | split | with_reducible apply Tame.then (draw_tame ..) | with_reducible refine Tame.thenSnd (draw_tame ..) (by assumption) ?_ ?_ | with_reducible apply Tame.ite | with_reducible apply Tame.iteSnd | with_reducible refine Tame.pairEq (by assumption) ?_ | with_reducible refine Tame.pairEqSnd (by assumption) ?_ | with_reducible refine Tame.iteEq (by assumption) (fun _ => ?_) (fun _ => ?_) | with_reducible refine Tame.iteEqSnd (by assumption) (fun _ => ?_) (fun _ => ?_))

theorem takeSample_tame (s : State) (n : Nat) (frame : Bytes) (i : SampleInfo) : Tame [.counters, .events, .fcp, .obs, .lookup] s (State.takeSample s n frame i) := by
  unfold State.takeSample
  repeat' (first | (show (_ : Bool) = true; decide) | with_reducible exact Tame.refl .. | with_reducible apply Tame.then (raiseLimited_tame ..) | with_reducible apply Tame.then (count_tame ..) | with_reducible apply Tame.then (setSampler_tame ..) | with_reducible apply Tame.then (tele_tame ..) | with_reducible apply Tame.ite | with_reducible apply Tame.set_lookup | split)

theorem sample_tame (s : State) (n : Nat) (frame : Bytes) (i : SampleInfo) : Tame [.counters, .events, .fcp, .obs, .lookup, .free] s (State.sample s n frame i) := by
  unfold State.sample; try dsimp -proj -iota -eta only
  repeat' (first | (show (_ : Bool) = true; decide) | with_reducible exact Tame.refl .. | split | with_reducible apply Tame.then (count_tame ..) | with_reducible apply Tame.then (setSampler_tame ..) | with_reducible apply Tame.then (sampleCount_tame ..) | with_reducible refine Tame.thenSnd (sampleCount_tame ..) (by assumption) ?_ ?_ | with_reducible apply Tame.then (takeSample_tame ..) | with_reducible apply Tame.ite | with_reducible refine Tame.pairEq (by assumption) ?_ | with_reducible refine Tame.pairEqSnd (by assumption) ?_ | with_reducible refine Tame.iteEq (by assumption) (fun _ => ?_) (fun _ => ?_) | with_reducible refine Tame.iteEqSnd (by assumption) (fun _ => ?_) (fun _ => ?_))

theorem samplerReload_tame (s : State) (n : Nat) : Tame [.lookup, .free] s (State.samplerReload s n) := by
  unfold State.samplerReload; try dsimp -proj -iota -eta only
  repeat' (first | (show (_ : Bool) = true; decide) | with_reducible exact Tame.refl .. | split | with_reducible apply Tame.then (sampleCount_tame ..) | with_reducible refine Tame.thenSnd (sampleCount_tame ..) (by assumption) ?_ ?_ | with_reducible apply Tame.then (setSampler_tame ..) | with_reducible apply Tame.ite | with_reducible refine Tame.pairEq (by assumption) ?_ | with_reducible refine Tame.pairEqSnd (by assumption) ?_ | with_reducible refine Tame.iteEq (by assumption) (fun _ => ?_) (fun _ => ?_) | with_reducible refine Tame.iteEqSnd (by assumption) (fun _ => ?_) (fun _ => ?_))

theorem samplerCfgWrite_tame (n : Nat) (v : Word) (s : State) : Tame [.regs, .lookup, .free] s (samplerCfgWrite n v s) := by
  unfold samplerCfgWrite
  split
  · exact Tame.refl ..
  next t e => exact Tame.then (samplerReload_tame ..) ((hostWrite_tame e).mono (by simp)) (by decide)

theorem emhashBankRead_tame (_bank : Nat) (waited : Nat) (s : State) : Tame [.counters] s (emhashBankRead _bank waited s) := by
  unfold emhashBankRead
  repeat' (first | (show (_ : Bool) = true; decide) | with_reducible exact Tame.refl .. | with_reducible apply Tame.then (count_tame ..) | with_reducible apply Tame.ite | split)

end Sys2Proof.Machine
end

