-- ==== Sys2Proof/Laws/AssocFrames.lean ====
section
/-! SUPPORT. The parts that the operations of Machine/Assoc may change. -/

namespace Sys2Proof.Machine

set_option linter.all false

theorem replicaPick_tame (s : State) (t : Nat) (lead : Nat) : Tame [.lookup] s (State.replicaPick s t lead).1 := by
  unfold State.replicaPick
  repeat' (first | (show (_ : Bool) = true; decide) | with_reducible exact Tame.refl .. | with_reducible refine Tame.fold ?_ (fun s x => ?_) | with_reducible refine Tame.foldEq (by assumption) ?_ (fun r x => ?_) | with_reducible refine Tame.foldEqSnd (by assumption) ?_ (fun r x => ?_) | with_reducible refine Tame.foldPair ?_ (fun r x => ?_) | with_reducible refine Tame.foldPairSnd ?_ (fun r x => ?_) | with_reducible apply Tame.ite | with_reducible apply Tame.iteFst | with_reducible apply Tame.set_lookup | split)

theorem issueSearch_tame (s : State) (x : Pass) (i : Nat) : Tame [.counters, .lookup] s (State.issueSearch s x i).1 := by
  unfold State.issueSearch; try dsimp -proj -iota -eta only
  repeat' (first | (show (_ : Bool) = true; decide) | with_reducible exact Tame.refl .. | split | with_reducible apply Tame.then (count_tame ..) | with_reducible apply Tame.then (replicaPick_tame ..) | with_reducible refine Tame.thenFst (replicaPick_tame ..) (by assumption) ?_ ?_ | with_reducible refine Tame.fold ?_ (fun s x => ?_) | with_reducible refine Tame.foldEq (by assumption) ?_ (fun r x => ?_) | with_reducible refine Tame.foldEqSnd (by assumption) ?_ (fun r x => ?_) | with_reducible refine Tame.foldPair ?_ (fun r x => ?_) | with_reducible refine Tame.foldPairSnd ?_ (fun r x => ?_) | with_reducible apply Tame.ite | with_reducible apply Tame.iteFst | with_reducible refine Tame.pairEq (by assumption) ?_ | with_reducible refine Tame.pairEqSnd (by assumption) ?_ | with_reducible refine Tame.iteEq (by assumption) (fun _ => ?_) (fun _ => ?_) | with_reducible refine Tame.iteEqSnd (by assumption) (fun _ => ?_) (fun _ => ?_))

theorem issueSearches_tame (s : State) (x : Pass) : Tame [.counters, .lookup] s (State.issueSearches s x).1 := by
  unfold State.issueSearches; try dsimp -proj -iota -eta only
  repeat' (first | (show (_ : Bool) = true; decide) | with_reducible exact Tame.refl .. | split | with_reducible apply Tame.then (issueSearch_tame ..) | with_reducible refine Tame.thenFst (issueSearch_tame ..) (by assumption) ?_ ?_ | with_reducible refine Tame.fold ?_ (fun s x => ?_) | with_reducible refine Tame.foldEq (by assumption) ?_ (fun r x => ?_) | with_reducible refine Tame.foldEqSnd (by assumption) ?_ (fun r x => ?_) | with_reducible refine Tame.foldPair ?_ (fun r x => ?_) | with_reducible refine Tame.foldPairSnd ?_ (fun r x => ?_) | with_reducible apply Tame.ite | with_reducible apply Tame.iteFst | with_reducible refine Tame.pairEq (by assumption) ?_ | with_reducible refine Tame.pairEqSnd (by assumption) ?_ | with_reducible refine Tame.iteEq (by assumption) (fun _ => ?_) (fun _ => ?_) | with_reducible refine Tame.iteEqSnd (by assumption) (fun _ => ?_) (fun _ => ?_))

theorem mergeSearches_tame (s : State) (x : Pass) : Tame [.counters] s (State.mergeSearches s x).1 := by
  unfold State.mergeSearches; try dsimp -proj -iota -eta only
  repeat' (first | (show (_ : Bool) = true; decide) | with_reducible exact Tame.refl .. | split | with_reducible apply Tame.then (count_tame ..) | with_reducible apply Tame.then (mergeError_tame ..) | with_reducible refine Tame.thenFst (mergeError_tame ..) (by assumption) ?_ ?_ | with_reducible apply Tame.then (merge_tame ..) | with_reducible refine Tame.thenFst (merge_tame ..) (by assumption) ?_ ?_ | with_reducible refine Tame.fold ?_ (fun s x => ?_) | with_reducible refine Tame.foldEq (by assumption) ?_ (fun r x => ?_) | with_reducible refine Tame.foldEqSnd (by assumption) ?_ (fun r x => ?_) | with_reducible refine Tame.foldPair ?_ (fun r x => ?_) | with_reducible refine Tame.foldPairSnd ?_ (fun r x => ?_) | with_reducible apply Tame.ite | with_reducible apply Tame.iteFst | with_reducible refine Tame.pairEq (by assumption) ?_ | with_reducible refine Tame.pairEqSnd (by assumption) ?_ | with_reducible refine Tame.iteEq (by assumption) (fun _ => ?_) (fun _ => ?_) | with_reducible refine Tame.iteEqSnd (by assumption) (fun _ => ?_) (fun _ => ?_))

theorem setWaiting_tame (s : State) (x : Pass) : Tame [.lookup] s (State.setWaiting s x) := by
  unfold State.setWaiting
  repeat' (first | (show (_ : Bool) = true; decide) | with_reducible exact Tame.refl .. | with_reducible apply Tame.ite | with_reducible apply Tame.set_lookup | split)

theorem searchOutcome_tame (s : State) (x : Pass) (i : Nat) (ecc : EccResult) : Tame [.counters, .events, .fcp, .obs, .lookup] s (State.searchOutcome s x i ecc).1 := by
  unfold State.searchOutcome; try dsimp -proj -iota -eta only
  repeat' (first | (show (_ : Bool) = true; decide) | with_reducible exact Tame.refl .. | split | with_reducible apply Tame.then (count_tame ..) | with_reducible apply Tame.then (raise_tame ..) | with_reducible apply Tame.ite | with_reducible apply Tame.iteFst | with_reducible refine Tame.pairEq (by assumption) ?_ | with_reducible refine Tame.pairEqSnd (by assumption) ?_ | with_reducible refine Tame.iteEq (by assumption) (fun _ => ?_) (fun _ => ?_) | with_reducible refine Tame.iteEqSnd (by assumption) (fun _ => ?_) (fun _ => ?_) | with_reducible apply Tame.set_lookup)

theorem searchTimeout_tame (s : State) (x : Pass) (i : Nat) : Tame [.counters, .events, .fcp, .obs] s (State.searchTimeout s x i).1 := by
  unfold State.searchTimeout
  repeat' (first | (show (_ : Bool) = true; decide) | with_reducible exact Tame.refl .. | with_reducible apply Tame.then (count_tame ..) | with_reducible apply Tame.then (raiseLimited_tame ..) | with_reducible apply Tame.ite | with_reducible apply Tame.iteFst | split)

theorem assocKeyQueued_tame (k : Nat) (s : State) : Tame [.lookup] s (assocKeyQueued k s) := by
  unfold assocKeyQueued; try dsimp -proj -iota -eta only
  repeat' (first | (show (_ : Bool) = true; decide) | with_reducible exact Tame.refl .. | split | with_reducible apply Tame.then (setWaiting_tame ..) | with_reducible apply Tame.ite | with_reducible refine Tame.pairEq (by assumption) ?_ | with_reducible refine Tame.pairEqSnd (by assumption) ?_ | with_reducible refine Tame.iteEq (by assumption) (fun _ => ?_) (fun _ => ?_) | with_reducible refine Tame.iteEqSnd (by assumption) (fun _ => ?_) (fun _ => ?_))

theorem copyRow_tame (s : State) (n : Nat) (a : Nat) (r : Nat) (b : Nat) (q : Nat) : Tame [.regs, .mem, .lookup] s (State.copyRow s n a r b q) := by
  unfold State.copyRow
  repeat' (first | (show (_ : Bool) = true; decide) | with_reducible exact Tame.refl .. | with_reducible apply Tame.then (put_tame ..) | with_reducible refine Tame.fold ?_ (fun s x => ?_) | with_reducible refine Tame.foldEq (by assumption) ?_ (fun r x => ?_) | with_reducible refine Tame.foldEqSnd (by assumption) ?_ (fun r x => ?_) | with_reducible refine Tame.foldPair ?_ (fun r x => ?_) | with_reducible refine Tame.foldPairSnd ?_ (fun r x => ?_) | with_reducible apply Tame.ite | split)

theorem clearRow_tame (s : State) (n : Nat) (a : Nat) (r : Nat) : Tame [.regs, .mem, .lookup] s (State.clearRow s n a r) := by
  unfold State.clearRow
  repeat' (first | (show (_ : Bool) = true; decide) | with_reducible exact Tame.refl .. | with_reducible apply Tame.then (put_tame ..) | with_reducible refine Tame.fold ?_ (fun s x => ?_) | with_reducible refine Tame.foldEq (by assumption) ?_ (fun r x => ?_) | with_reducible refine Tame.foldEqSnd (by assumption) ?_ (fun r x => ?_) | with_reducible refine Tame.foldPair ?_ (fun r x => ?_) | with_reducible refine Tame.foldPairSnd ?_ (fun r x => ?_) | with_reducible apply Tame.ite | split)

theorem assocMoveStart_tame (a : Nat) (src : Nat) (dst : Nat) (count : Nat) (dstArray : Nat) (s : State) : Tame [.regs, .counters, .events, .fcp, .obs, .lookup] s (assocMoveStart a src dst count dstArray s) := by
  unfold assocMoveStart
  repeat' (first | (show (_ : Bool) = true; decide) | with_reducible exact Tame.refl .. | with_reducible apply Tame.then (setReg_tame ..) | with_reducible apply Tame.then (setFld_tame ..) | with_reducible apply Tame.then (raise_tame ..) | with_reducible apply Tame.then (setFlag_tame ..) | with_reducible apply Tame.ite | with_reducible apply Tame.set_lookup | split)

theorem rowMoved_tame (s : State) (a : Nat) (mv : RowMove) : Tame [.regs, .counters, .lookup] s (State.rowMoved s a mv) := by
  unfold State.rowMoved
  repeat' (first | (show (_ : Bool) = true; decide) | with_reducible exact Tame.refl .. | with_reducible apply Tame.then (setFld_tame ..) | with_reducible apply Tame.then (count_tame ..) | with_reducible apply Tame.then (setFlag_tame ..) | with_reducible apply Tame.ite | with_reducible apply Tame.set_lookup | split)

theorem assocRowMove_tame (a : Nat) (s : State) : Tame [.regs, .mem, .counters, .lookup] s (assocRowMove a s) := by
  unfold assocRowMove
  repeat' (first | (show (_ : Bool) = true; decide) | with_reducible exact Tame.refl .. | with_reducible apply Tame.then (copyRow_tame ..) | with_reducible apply Tame.then (clearRow_tame ..) | with_reducible apply Tame.then (rowMoved_tame ..) | with_reducible apply Tame.ite | with_reducible apply Tame.set_lookup | split)

theorem assocMoveSourceClear_tame (a : Nat) (s : State) : Tame [.regs, .mem, .counters, .lookup] s (assocMoveSourceClear a s) := by
  unfold assocMoveSourceClear; try dsimp -proj -iota -eta only
  repeat' (first | (show (_ : Bool) = true; decide) | with_reducible exact Tame.refl .. | split | with_reducible apply Tame.then (clearRow_tame ..) | with_reducible apply Tame.then (rowMoved_tame ..) | with_reducible apply Tame.ite | with_reducible refine Tame.pairEq (by assumption) ?_ | with_reducible refine Tame.pairEqSnd (by assumption) ?_ | with_reducible refine Tame.iteEq (by assumption) (fun _ => ?_) (fun _ => ?_) | with_reducible refine Tame.iteEqSnd (by assumption) (fun _ => ?_) (fun _ => ?_))

theorem assocScrubRead_tame (a : Nat) (parityOk : Bool) (s : State) : Tame [.regs, .mem, .counters, .events, .fcp, .obs, .lookup] s (assocScrubRead a parityOk s) := by
  unfold assocScrubRead
  repeat' (first | (show (_ : Bool) = true; decide) | with_reducible exact Tame.refl .. | with_reducible apply Tame.then (setFld_tame ..) | with_reducible apply Tame.then (count_tame ..) | with_reducible apply Tame.then (raise_tame ..) | with_reducible apply Tame.then (setFlag_tame ..) | with_reducible apply Tame.then (tblPut_tame ..) | with_reducible apply Tame.ite | with_reducible apply Tame.set_lookup | split)

theorem assocRowRepair_tame (a : Nat) (r : Nat) (s : State) : Tame [.regs, .mem, .counters, .events, .fcp, .obs, .lookup] s (assocRowRepair a r s) := by
  unfold assocRowRepair
  repeat' (first | (show (_ : Bool) = true; decide) | with_reducible exact Tame.refl .. | with_reducible apply Tame.then (tblPut_tame ..) | with_reducible apply Tame.then (count_tame ..) | with_reducible apply Tame.then (raise_tame ..) | with_reducible refine Tame.fold ?_ (fun s x => ?_) | with_reducible refine Tame.foldEq (by assumption) ?_ (fun r x => ?_) | with_reducible refine Tame.foldEqSnd (by assumption) ?_ (fun r x => ?_) | with_reducible refine Tame.foldPair ?_ (fun r x => ?_) | with_reducible refine Tame.foldPairSnd ?_ (fun r x => ?_) | with_reducible apply Tame.ite | with_reducible apply Tame.set_lookup | split)

end Sys2Proof.Machine
end

