-- ==== Sys2Proof/Laws/DitFrames.lean ====
section
/-! SUPPORT. The parts that the operations of Machine/Dit may change. -/

namespace Sys2Proof.Machine

set_option linter.all false

theorem resFail_tame (s : State) (r : Nat) : Tame [.counters] s (State.resFail s r).1 := by
  unfold State.resFail
  repeat' (first | (show (_ : Bool) = true; decide) | with_reducible exact Tame.refl .. | with_reducible apply Tame.then (count_tame ..) | with_reducible apply Tame.ite | with_reducible apply Tame.iteFst | split)

theorem ditError_tame (s : State) (table : Nat) (index : Nat) (a : Nat) (words : Nat) : Tame [.regs, .mem, .counters, .events, .fcp, .obs] s (State.ditError s table index a words) := by
  unfold State.ditError
  repeat' (first | (show (_ : Bool) = true; decide) | with_reducible exact Tame.refl .. | with_reducible apply Tame.then (raise_tame ..) | with_reducible apply Tame.then (tblPut_tame ..) | with_reducible refine Tame.fold ?_ (fun s x => ?_) | with_reducible refine Tame.foldEq (by assumption) ?_ (fun r x => ?_) | with_reducible refine Tame.foldEqSnd (by assumption) ?_ (fun r x => ?_) | with_reducible refine Tame.foldPair ?_ (fun r x => ?_) | with_reducible refine Tame.foldPairSnd ?_ (fun r x => ?_) | with_reducible apply Tame.ite | split)

theorem resLag_tame (s : State) (x : Pass) (r : Res) (g : Nat) (ecmpHash : Option Nat) : Tame [.counters, .events, .fcp, .obs] s (State.resLag s x r g ecmpHash).1 := by
  unfold State.resLag; try dsimp -proj -iota -eta only
  repeat' (first | (show (_ : Bool) = true; decide) | with_reducible exact Tame.refl .. | split | with_reducible apply Tame.then (spreadFail_tame ..) | with_reducible apply Tame.then (resFail_tame ..) | with_reducible refine Tame.thenFst (resFail_tame ..) (by assumption) ?_ ?_ | with_reducible apply Tame.ite | with_reducible apply Tame.iteFst | with_reducible refine Tame.pairEq (by assumption) ?_ | with_reducible refine Tame.pairEqSnd (by assumption) ?_ | with_reducible refine Tame.iteEq (by assumption) (fun _ => ?_) (fun _ => ?_) | with_reducible refine Tame.iteEqSnd (by assumption) (fun _ => ?_) (fun _ => ?_))

theorem readNh_tame (s : State) (x : Pass) (r : Res) (i : Nat) : Tame [.regs, .mem, .counters, .events, .fcp, .obs] s (State.readNh s x r i).1 := by
  unfold State.readNh
  repeat' (first | (show (_ : Bool) = true; decide) | with_reducible exact Tame.refl .. | with_reducible apply Tame.then (ditError_tame ..) | with_reducible apply Tame.ite | with_reducible apply Tame.iteFst | split)

theorem resNh2_tame (s : State) (x : Pass) (r : Res) (i : Nat) (h : Nat) : Tame [.regs, .mem, .counters, .events, .fcp, .obs] s (State.resNh2 s x r i h).1 := by
  unfold State.resNh2; try dsimp -proj -iota -eta only
  repeat' (first | (show (_ : Bool) = true; decide) | with_reducible exact Tame.refl .. | split | with_reducible apply Tame.then (readNh_tame ..) | with_reducible refine Tame.thenFst (readNh_tame ..) (by assumption) ?_ ?_ | with_reducible apply Tame.then (resFail_tame ..) | with_reducible refine Tame.thenFst (resFail_tame ..) (by assumption) ?_ ?_ | with_reducible apply Tame.then (resLag_tame ..) | with_reducible refine Tame.thenFst (resLag_tame ..) (by assumption) ?_ ?_ | with_reducible apply Tame.ite | with_reducible apply Tame.iteFst | with_reducible refine Tame.pairEq (by assumption) ?_ | with_reducible refine Tame.pairEqSnd (by assumption) ?_ | with_reducible refine Tame.iteEq (by assumption) (fun _ => ?_) (fun _ => ?_) | with_reducible refine Tame.iteEqSnd (by assumption) (fun _ => ?_) (fun _ => ?_))

theorem resEcmp_tame (s : State) (x : Pass) (r : Res) (g : Nat) : Tame [.regs, .mem, .counters, .events, .fcp, .obs] s (State.resEcmp s x r g).1 := by
  unfold State.resEcmp; try dsimp -proj -iota -eta only
  repeat' (first | (show (_ : Bool) = true; decide) | with_reducible exact Tame.refl .. | split | with_reducible apply Tame.then (spreadFail_tame ..) | with_reducible apply Tame.then (resNh2_tame ..) | with_reducible refine Tame.thenFst (resNh2_tame ..) (by assumption) ?_ ?_ | with_reducible apply Tame.ite | with_reducible apply Tame.iteFst | with_reducible refine Tame.pairEq (by assumption) ?_ | with_reducible refine Tame.pairEqSnd (by assumption) ?_ | with_reducible refine Tame.iteEq (by assumption) (fun _ => ?_) (fun _ => ?_) | with_reducible refine Tame.iteEqSnd (by assumption) (fun _ => ?_) (fun _ => ?_))

theorem resNh_tame (s : State) (x : Pass) (r : Res) (i : Nat) : Tame [.regs, .mem, .counters, .events, .fcp, .obs] s (State.resNh s x r i).1 := by
  unfold State.resNh; try dsimp -proj -iota -eta only
  repeat' (first | (show (_ : Bool) = true; decide) | with_reducible exact Tame.refl .. | split | with_reducible apply Tame.then (readNh_tame ..) | with_reducible refine Tame.thenFst (readNh_tame ..) (by assumption) ?_ ?_ | with_reducible apply Tame.then (resFail_tame ..) | with_reducible refine Tame.thenFst (resFail_tame ..) (by assumption) ?_ ?_ | with_reducible apply Tame.then (resEcmp_tame ..) | with_reducible refine Tame.thenFst (resEcmp_tame ..) (by assumption) ?_ ?_ | with_reducible apply Tame.then (resLag_tame ..) | with_reducible refine Tame.thenFst (resLag_tame ..) (by assumption) ?_ ?_ | with_reducible apply Tame.ite | with_reducible apply Tame.iteFst | with_reducible refine Tame.pairEq (by assumption) ?_ | with_reducible refine Tame.pairEqSnd (by assumption) ?_ | with_reducible refine Tame.iteEq (by assumption) (fun _ => ?_) (fun _ => ?_) | with_reducible refine Tame.iteEqSnd (by assumption) (fun _ => ?_) (fun _ => ?_))

theorem readLabel_tame (s : State) (x : Pass) (r : Res) (i : Nat) : Tame [.regs, .mem, .counters, .events, .fcp, .obs] s (State.readLabel s x r i).1 := by
  unfold State.readLabel
  repeat' (first | (show (_ : Bool) = true; decide) | with_reducible exact Tame.refl .. | with_reducible apply Tame.then (ditError_tame ..) | with_reducible apply Tame.ite | with_reducible apply Tame.iteFst | split)

theorem l3Strip_tame (s : State) (x : Pass) : Tame [.free] s (State.l3Strip s x).1 := by
  unfold State.l3Strip; try dsimp -proj -iota -eta only
  repeat' (first | (show (_ : Bool) = true; decide) | with_reducible exact Tame.refl .. | split | with_reducible apply Tame.then (draw_tame ..) | with_reducible refine Tame.thenSnd (draw_tame ..) (by assumption) ?_ ?_ | with_reducible apply Tame.ite | with_reducible apply Tame.iteFst | with_reducible refine Tame.pairEq (by assumption) ?_ | with_reducible refine Tame.pairEqSnd (by assumption) ?_ | with_reducible refine Tame.iteEq (by assumption) (fun _ => ?_) (fun _ => ?_) | with_reducible refine Tame.iteEqSnd (by assumption) (fun _ => ?_) (fun _ => ?_))

theorem labelAct_tame (s : State) (x : Pass) (r : Res) (e : Nat) (lab : Nat) (popped : Bool) : Tame [.regs, .mem, .counters, .events, .fcp, .obs, .free] s (State.labelAct s x r e lab popped).1 := by
  unfold State.labelAct; try dsimp -proj -iota -eta only
  repeat' (first | (show (_ : Bool) = true; decide) | with_reducible exact Tame.refl .. | split | with_reducible apply Tame.then (resFail_tame ..) | with_reducible refine Tame.thenFst (resFail_tame ..) (by assumption) ?_ ?_ | with_reducible apply Tame.then (resNh_tame ..) | with_reducible refine Tame.thenFst (resNh_tame ..) (by assumption) ?_ ?_ | with_reducible apply Tame.then (l3Strip_tame ..) | with_reducible refine Tame.thenFst (l3Strip_tame ..) (by assumption) ?_ ?_ | with_reducible apply Tame.ite | with_reducible apply Tame.iteFst | with_reducible refine Tame.pairEq (by assumption) ?_ | with_reducible refine Tame.pairEqSnd (by assumption) ?_ | with_reducible refine Tame.iteEq (by assumption) (fun _ => ?_) (fun _ => ?_) | with_reducible refine Tame.iteEqSnd (by assumption) (fun _ => ?_) (fun _ => ?_))

theorem resLabel_tame (s : State) (x : Pass) (r : Res) (arg : Nat) : Tame [.regs, .mem, .counters, .events, .fcp, .obs, .free] s (State.resLabel s x r arg).1 := by
  unfold State.resLabel; try dsimp -proj -iota -eta only
  repeat' (first | (show (_ : Bool) = true; decide) | with_reducible exact Tame.refl .. | split | with_reducible apply Tame.then (readLabel_tame ..) | with_reducible refine Tame.thenFst (readLabel_tame ..) (by assumption) ?_ ?_ | with_reducible apply Tame.then (resFail_tame ..) | with_reducible refine Tame.thenFst (resFail_tame ..) (by assumption) ?_ ?_ | with_reducible apply Tame.then (labelAct_tame ..) | with_reducible refine Tame.thenFst (labelAct_tame ..) (by assumption) ?_ ?_ | with_reducible apply Tame.ite | with_reducible apply Tame.iteFst | with_reducible refine Tame.pairEq (by assumption) ?_ | with_reducible refine Tame.pairEqSnd (by assumption) ?_ | with_reducible refine Tame.iteEq (by assumption) (fun _ => ?_) (fun _ => ?_) | with_reducible refine Tame.iteEqSnd (by assumption) (fun _ => ?_) (fun _ => ?_))

theorem macLookup_tame (s : State) (x : Pass) (n : Nat) (t : Nat) (bd : Nat) (mac : Bytes) : Tame [.regs, .mem, .counters, .lookup] s (State.macLookup s x n t bd mac).1 := by
  unfold State.macLookup; try dsimp -proj -iota -eta only
  repeat' (first | (show (_ : Bool) = true; decide) | with_reducible exact Tame.refl .. | split | with_reducible apply Tame.then (count_tame ..) | with_reducible apply Tame.then (hashRepair_tame ..) | with_reducible apply Tame.then (hashSearch_tame ..) | with_reducible refine Tame.thenFst (hashSearch_tame ..) (by assumption) ?_ ?_ | with_reducible apply Tame.ite | with_reducible apply Tame.iteFst | with_reducible refine Tame.pairEq (by assumption) ?_ | with_reducible refine Tame.pairEqSnd (by assumption) ?_ | with_reducible refine Tame.iteEq (by assumption) (fun _ => ?_) (fun _ => ?_) | with_reducible refine Tame.iteEqSnd (by assumption) (fun _ => ?_) (fun _ => ?_))

theorem unknownDest_tame (s : State) (x : Pass) (r : Res) (act : Nat) (flood : Nat) : Tame [.regs, .mem, .counters, .events, .fcp, .obs] s (State.unknownDest s x r act flood).1 := by
  unfold State.unknownDest; try dsimp -proj -iota -eta only
  repeat' (first | (show (_ : Bool) = true; decide) | with_reducible exact Tame.refl .. | split | with_reducible apply Tame.then (resFail_tame ..) | with_reducible refine Tame.thenFst (resFail_tame ..) (by assumption) ?_ ?_ | with_reducible apply Tame.then (resNh_tame ..) | with_reducible refine Tame.thenFst (resNh_tame ..) (by assumption) ?_ ?_ | with_reducible apply Tame.ite | with_reducible apply Tame.iteFst | with_reducible refine Tame.pairEq (by assumption) ?_ | with_reducible refine Tame.pairEqSnd (by assumption) ?_ | with_reducible refine Tame.iteEq (by assumption) (fun _ => ?_) (fun _ => ?_) | with_reducible refine Tame.iteEqSnd (by assumption) (fun _ => ?_) (fun _ => ?_))

theorem resBridge_tame (s : State) (x : Pass) (r : Res) (bd : Nat) : Tame [.regs, .mem, .counters, .events, .fcp, .obs, .lookup] s (State.resBridge s x r bd).1 := by
  unfold State.resBridge; try dsimp -proj -iota -eta only
  repeat' (first | (show (_ : Bool) = true; decide) | with_reducible exact Tame.refl .. | split | with_reducible apply Tame.then (ditError_tame ..) | with_reducible apply Tame.then (resFail_tame ..) | with_reducible refine Tame.thenFst (resFail_tame ..) (by assumption) ?_ ?_ | with_reducible apply Tame.then (resNh_tame ..) | with_reducible refine Tame.thenFst (resNh_tame ..) (by assumption) ?_ ?_ | with_reducible apply Tame.then (macLookup_tame ..) | with_reducible refine Tame.thenFst (macLookup_tame ..) (by assumption) ?_ ?_ | with_reducible apply Tame.then (unknownDest_tame ..) | with_reducible refine Tame.thenFst (unknownDest_tame ..) (by assumption) ?_ ?_ | with_reducible apply Tame.ite | with_reducible apply Tame.iteFst | with_reducible refine Tame.pairEq (by assumption) ?_ | with_reducible refine Tame.pairEqSnd (by assumption) ?_ | with_reducible refine Tame.iteEq (by assumption) (fun _ => ?_) (fun _ => ?_) | with_reducible refine Tame.iteEqSnd (by assumption) (fun _ => ?_) (fun _ => ?_))

theorem resolve_tame (s : State) (x : Pass) : Tame [.regs, .mem, .counters, .events, .fcp, .obs, .lookup, .free] s (State.resolve s x).1 := by
  unfold State.resolve; try dsimp -proj -iota -eta only
  repeat' (first | (show (_ : Bool) = true; decide) | with_reducible exact Tame.refl .. | split | with_reducible apply Tame.then (resNh_tame ..) | with_reducible refine Tame.thenFst (resNh_tame ..) (by assumption) ?_ ?_ | with_reducible apply Tame.then (resEcmp_tame ..) | with_reducible refine Tame.thenFst (resEcmp_tame ..) (by assumption) ?_ ?_ | with_reducible apply Tame.then (resLag_tame ..) | with_reducible refine Tame.thenFst (resLag_tame ..) (by assumption) ?_ ?_ | with_reducible apply Tame.then (resLabel_tame ..) | with_reducible refine Tame.thenFst (resLabel_tame ..) (by assumption) ?_ ?_ | with_reducible apply Tame.then (resBridge_tame ..) | with_reducible refine Tame.thenFst (resBridge_tame ..) (by assumption) ?_ ?_ | with_reducible apply Tame.then (count_tame ..) | with_reducible apply Tame.ite | with_reducible apply Tame.iteFst | with_reducible refine Tame.pairEq (by assumption) ?_ | with_reducible refine Tame.pairEqSnd (by assumption) ?_ | with_reducible refine Tame.iteEq (by assumption) (fun _ => ?_) (fun _ => ?_) | with_reducible refine Tame.iteEqSnd (by assumption) (fun _ => ?_) (fun _ => ?_))

theorem ttlCheck_tame (s : State) (x : Pass) (r : Res) (e : Ending) : Tame [.counters] s (State.ttlCheck s x r e).1 := by
  unfold State.ttlCheck; try dsimp -proj -iota -eta only
  repeat' (first | (show (_ : Bool) = true; decide) | with_reducible exact Tame.refl .. | split | with_reducible apply Tame.then (resFail_tame ..) | with_reducible refine Tame.thenFst (resFail_tame ..) (by assumption) ?_ ?_ | with_reducible apply Tame.ite | with_reducible apply Tame.iteFst | with_reducible refine Tame.pairEq (by assumption) ?_ | with_reducible refine Tame.pairEqSnd (by assumption) ?_ | with_reducible refine Tame.iteEq (by assumption) (fun _ => ?_) (fun _ => ?_) | with_reducible refine Tame.iteEqSnd (by assumption) (fun _ => ?_) (fun _ => ?_))

theorem learnRequest_tame (s : State) (q : LearnReq) : Tame [.counters, .lookup] s (State.learnRequest s q) := by
  unfold State.learnRequest
  repeat' (first | (show (_ : Bool) = true; decide) | with_reducible exact Tame.refl .. | with_reducible apply Tame.then (count_tame ..) | with_reducible apply Tame.ite | with_reducible apply Tame.set_lookup | split)

theorem learn_tame (s : State) (x : Pass) (bd : Nat) (t : Stamp) : Tame [.regs, .mem, .counters, .lookup] s (State.learn s x bd t).1 := by
  unfold State.learn; try dsimp -proj -iota -eta only
  repeat' (first | (show (_ : Bool) = true; decide) | with_reducible exact Tame.refl .. | split | with_reducible apply Tame.then (macLookup_tame ..) | with_reducible refine Tame.thenFst (macLookup_tame ..) (by assumption) ?_ ?_ | with_reducible apply Tame.then (count_tame ..) | with_reducible apply Tame.then (learnRequest_tame ..) | with_reducible apply Tame.ite | with_reducible apply Tame.iteFst | with_reducible refine Tame.pairEq (by assumption) ?_ | with_reducible refine Tame.pairEqSnd (by assumption) ?_ | with_reducible refine Tame.iteEq (by assumption) (fun _ => ?_) (fun _ => ?_) | with_reducible refine Tame.iteEqSnd (by assumption) (fun _ => ?_) (fun _ => ?_))

theorem tracePass_tame (s : State) (x : Pass) (st : Nat) : Tame [.counters, .lookup] s (State.tracePass s x st) := by
  unfold State.tracePass
  repeat' (first | (show (_ : Bool) = true; decide) | with_reducible exact Tame.refl .. | with_reducible apply Tame.then (count_tame ..) | with_reducible apply Tame.ite | with_reducible apply Tame.set_lookup | split)

theorem leaveSlice_tame (s : State) (d : Desc) : Tame [.regs, .counters, .events, .fcp, .obs, .lookup, .traffic] s (State.leaveSlice s d) := by
  unfold State.leaveSlice
  repeat' (first | (show (_ : Bool) = true; decide) | with_reducible exact Tame.refl .. | with_reducible apply Tame.then (fragComplete_tame ..) | with_reducible apply Tame.then (unpark_tame ..) | with_reducible apply Tame.then (epochLeave_tame ..) | with_reducible apply Tame.then (toBridge_tame ..) | with_reducible apply Tame.ite | split)

theorem meterStamp_tame (s : State) (x : Pass) (t : Stamp) : Tame [.regs, .mem, .counters, .obs, .lookup] s (State.meterStamp s x t).1 := by
  unfold State.meterStamp; try dsimp -proj -iota -eta only
  repeat' (first | (show (_ : Bool) = true; decide) | with_reducible exact Tame.refl .. | split | with_reducible apply Tame.then (meterPacket_tame ..) | with_reducible refine Tame.thenFst (meterPacket_tame ..) (by assumption) ?_ ?_ | with_reducible apply Tame.ite | with_reducible apply Tame.iteFst | with_reducible refine Tame.pairEq (by assumption) ?_ | with_reducible refine Tame.pairEqSnd (by assumption) ?_ | with_reducible refine Tame.iteEq (by assumption) (fun _ => ?_) (fun _ => ?_) | with_reducible refine Tame.iteEqSnd (by assumption) (fun _ => ?_) (fun _ => ?_))

theorem observe_tame (s : State) (x : Pass) (t : Stamp) : Tame [.counters, .events, .fcp, .obs, .lookup, .free] s (State.observe s x t) := by
  unfold State.observe
  repeat' (first | (show (_ : Bool) = true; decide) | with_reducible exact Tame.refl .. | with_reducible apply Tame.then (mirrorCopy_tame ..) | with_reducible apply Tame.then (sample_tame ..) | with_reducible apply Tame.then (tracePass_tame ..) | with_reducible apply Tame.ite | split)

theorem finish_tame (s : State) (x : Pass) (t : Stamp) : Tame [.regs, .mem, .counters, .events, .fcp, .obs, .lookup, .traffic, .free] s (State.finish s x t) := by
  unfold State.finish; try dsimp -proj -iota -eta only
  repeat' (first | (show (_ : Bool) = true; decide) | with_reducible exact Tame.refl .. | split | with_reducible apply Tame.then (meterStamp_tame ..) | with_reducible refine Tame.thenFst (meterStamp_tame ..) (by assumption) ?_ ?_ | with_reducible apply Tame.then (accCount_tame ..) | with_reducible apply Tame.then (observe_tame ..) | with_reducible apply Tame.then (leaveSlice_tame ..) | with_reducible apply Tame.ite | with_reducible refine Tame.pairEq (by assumption) ?_ | with_reducible refine Tame.pairEqSnd (by assumption) ?_ | with_reducible refine Tame.iteEq (by assumption) (fun _ => ?_) (fun _ => ?_) | with_reducible refine Tame.iteEqSnd (by assumption) (fun _ => ?_) (fun _ => ?_) | with_reducible apply Tame.set_lookup)

theorem finishRecirc_tame (s : State) (x : Pass) (form : Nat) (strip : Nat) (data : Nat) : Tame [.regs, .mem, .counters, .events, .fcp, .obs, .lookup, .traffic, .free] s (State.finishRecirc s x form strip data) := by
  unfold State.finishRecirc; try dsimp -proj -iota -eta only
  repeat' (first | (show (_ : Bool) = true; decide) | with_reducible exact Tame.refl .. | split | with_reducible apply Tame.then (meterStamp_tame ..) | with_reducible refine Tame.thenFst (meterStamp_tame ..) (by assumption) ?_ ?_ | with_reducible apply Tame.then (observe_tame ..) | with_reducible apply Tame.then (leaveSlice_tame ..) | with_reducible apply Tame.then (recirculate_tame ..) | with_reducible apply Tame.ite | with_reducible refine Tame.pairEq (by assumption) ?_ | with_reducible refine Tame.pairEqSnd (by assumption) ?_ | with_reducible refine Tame.iteEq (by assumption) (fun _ => ?_) (fun _ => ?_) | with_reducible refine Tame.iteEqSnd (by assumption) (fun _ => ?_) (fun _ => ?_))

theorem endLookup_tame (s : State) (x : Pass) : Tame [.regs, .mem, .counters, .events, .fcp, .obs, .lookup, .traffic, .free] s (State.endLookup s x) := by
  unfold State.endLookup; try dsimp -proj -iota -eta only
  repeat' (first | (show (_ : Bool) = true; decide) | with_reducible exact Tame.refl .. | split | with_reducible apply Tame.then (mergeSearches_tame ..) | with_reducible refine Tame.thenFst (mergeSearches_tame ..) (by assumption) ?_ ?_ | with_reducible apply Tame.then (resolve_tame ..) | with_reducible refine Tame.thenFst (resolve_tame ..) (by assumption) ?_ ?_ | with_reducible apply Tame.then (ttlCheck_tame ..) | with_reducible refine Tame.thenFst (ttlCheck_tame ..) (by assumption) ?_ ?_ | with_reducible apply Tame.then (finishRecirc_tame ..) | with_reducible apply Tame.then (learn_tame ..) | with_reducible refine Tame.thenFst (learn_tame ..) (by assumption) ?_ ?_ | with_reducible apply Tame.then (finish_tame ..) | with_reducible apply Tame.ite | with_reducible refine Tame.pairEq (by assumption) ?_ | with_reducible refine Tame.pairEqSnd (by assumption) ?_ | with_reducible refine Tame.iteEq (by assumption) (fun _ => ?_) (fun _ => ?_) | with_reducible refine Tame.iteEqSnd (by assumption) (fun _ => ?_) (fun _ => ?_))

theorem afterChain_tame (s : State) (x : Pass) : Tame [.regs, .mem, .counters, .events, .fcp, .obs, .lookup, .traffic, .free] s (State.afterChain s x) := by
  unfold State.afterChain; try dsimp -proj -iota -eta only
  repeat' (first | (show (_ : Bool) = true; decide) | with_reducible exact Tame.refl .. | split | with_reducible apply Tame.then (issueSearches_tame ..) | with_reducible refine Tame.thenFst (issueSearches_tame ..) (by assumption) ?_ ?_ | with_reducible apply Tame.then (endLookup_tame ..) | with_reducible apply Tame.ite | with_reducible refine Tame.pairEq (by assumption) ?_ | with_reducible refine Tame.pairEqSnd (by assumption) ?_ | with_reducible refine Tame.iteEq (by assumption) (fun _ => ?_) (fun _ => ?_) | with_reducible refine Tame.iteEqSnd (by assumption) (fun _ => ?_) (fun _ => ?_) | with_reducible apply Tame.set_lookup)

theorem runChain_tame (s : State) (x : Pass) : Tame [.regs, .mem, .counters, .events, .fcp, .obs, .lookup, .traffic, .free] s (State.runChain s x) := by
  unfold State.runChain; try dsimp -proj -iota -eta only
  repeat' (first | (show (_ : Bool) = true; decide) | with_reducible exact Tame.refl .. | split | with_reducible apply Tame.then (chain_tame ..) | with_reducible refine Tame.thenFst (chain_tame ..) (by assumption) ?_ ?_ | with_reducible apply Tame.then (afterChain_tame ..) | with_reducible apply Tame.ite | with_reducible refine Tame.pairEq (by assumption) ?_ | with_reducible refine Tame.pairEqSnd (by assumption) ?_ | with_reducible refine Tame.iteEq (by assumption) (fun _ => ?_) (fun _ => ?_) | with_reducible refine Tame.iteEqSnd (by assumption) (fun _ => ?_) (fun _ => ?_) | with_reducible apply Tame.set_lookup)

theorem ingressLookup_tame (k : Nat) (errs : EccErrs) (s : State) : Tame [.regs, .mem, .counters, .events, .fcp, .obs, .lookup, .traffic, .free] s (ingressLookup k errs s) := by
  unfold ingressLookup; try dsimp -proj -iota -eta only
  repeat' (first | (show (_ : Bool) = true; decide) | with_reducible exact Tame.refl .. | split | with_reducible apply Tame.then (finish_tame ..) | with_reducible apply Tame.then (countN_tame ..) | with_reducible apply Tame.then (runChain_tame ..) | with_reducible apply Tame.ite | with_reducible refine Tame.pairEq (by assumption) ?_ | with_reducible refine Tame.pairEqSnd (by assumption) ?_ | with_reducible refine Tame.iteEq (by assumption) (fun _ => ?_) (fun _ => ?_) | with_reducible refine Tame.iteEqSnd (by assumption) (fun _ => ?_) (fun _ => ?_) | with_reducible apply Tame.set_lookup)

theorem flowTake_tame (s : State) (pid : Nat) : Tame [.lookup] s (State.flowTake s pid) := by
  unfold State.flowTake
  repeat' (first | (show (_ : Bool) = true; decide) | with_reducible exact Tame.refl .. | with_reducible apply Tame.ite | with_reducible apply Tame.set_lookup | split)

theorem flowError_tame (s : State) (x : Pass) : Tame [.regs, .mem, .counters, .events, .fcp, .obs, .lookup, .traffic, .free] s (State.flowError s x) := by
  unfold State.flowError; try dsimp -proj -iota -eta only
  repeat' (first | (show (_ : Bool) = true; decide) | with_reducible exact Tame.refl .. | split | with_reducible apply Tame.then (count_tame ..) | with_reducible apply Tame.then (raiseLimited_tame ..) | with_reducible apply Tame.then (stageError_tame ..) | with_reducible refine Tame.thenFst (stageError_tame ..) (by assumption) ?_ ?_ | with_reducible apply Tame.then (runChain_tame ..) | with_reducible apply Tame.ite | with_reducible refine Tame.pairEq (by assumption) ?_ | with_reducible refine Tame.pairEqSnd (by assumption) ?_ | with_reducible refine Tame.iteEq (by assumption) (fun _ => ?_) (fun _ => ?_) | with_reducible refine Tame.iteEqSnd (by assumption) (fun _ => ?_) (fun _ => ?_))

theorem flowLookupResponse_tame (pid : Nat) (uncorrectable : Bool) (s : State) : Tame [.regs, .mem, .counters, .events, .fcp, .obs, .lookup, .traffic, .free] s (flowLookupResponse pid uncorrectable s) := by
  unfold flowLookupResponse; try dsimp -proj -iota -eta only
  repeat' (first | (show (_ : Bool) = true; decide) | with_reducible exact Tame.refl .. | split | with_reducible apply Tame.then (flowTake_tame ..) | with_reducible apply Tame.then (flowHit_tame ..) | with_reducible apply Tame.then (stageHit_tame ..) | with_reducible refine Tame.thenFst (stageHit_tame ..) (by assumption) ?_ ?_ | with_reducible apply Tame.then (runChain_tame ..) | with_reducible apply Tame.then (stageMiss_tame ..) | with_reducible refine Tame.thenFst (stageMiss_tame ..) (by assumption) ?_ ?_ | with_reducible apply Tame.then (flowError_tame ..) | with_reducible apply Tame.ite | with_reducible refine Tame.pairEq (by assumption) ?_ | with_reducible refine Tame.pairEqSnd (by assumption) ?_ | with_reducible refine Tame.iteEq (by assumption) (fun _ => ?_) (fun _ => ?_) | with_reducible refine Tame.iteEqSnd (by assumption) (fun _ => ?_) (fun _ => ?_))

theorem flowLookupTimeout_tame (pid : Nat) (s : State) : Tame [.regs, .mem, .counters, .events, .fcp, .obs, .lookup, .traffic, .free] s (flowLookupTimeout pid s) := by
  unfold flowLookupTimeout; try dsimp -proj -iota -eta only
  repeat' (first | (show (_ : Bool) = true; decide) | with_reducible exact Tame.refl .. | split | with_reducible apply Tame.then (flowTake_tame ..) | with_reducible apply Tame.then (flowError_tame ..) | with_reducible apply Tame.ite | with_reducible refine Tame.pairEq (by assumption) ?_ | with_reducible refine Tame.pairEqSnd (by assumption) ?_ | with_reducible refine Tame.iteEq (by assumption) (fun _ => ?_) (fun _ => ?_) | with_reducible refine Tame.iteEqSnd (by assumption) (fun _ => ?_) (fun _ => ?_))

theorem searchEnded_tame (s : State) (x : Pass) : Tame [.regs, .mem, .counters, .events, .fcp, .obs, .lookup, .traffic, .free] s (State.searchEnded s x) := by
  unfold State.searchEnded
  repeat' (first | (show (_ : Bool) = true; decide) | with_reducible exact Tame.refl .. | with_reducible apply Tame.then (endLookup_tame ..) | with_reducible apply Tame.then (setWaiting_tame ..) | with_reducible apply Tame.ite | with_reducible apply Tame.set_lookup | split)

theorem assocSearchResult_tame (pid : Nat) (i : Nat) (ecc : EccResult) (s : State) : Tame [.regs, .mem, .counters, .events, .fcp, .obs, .lookup, .traffic, .free] s (assocSearchResult pid i ecc s) := by
  unfold assocSearchResult; try dsimp -proj -iota -eta only
  repeat' (first | (show (_ : Bool) = true; decide) | with_reducible exact Tame.refl .. | split | with_reducible apply Tame.then (searchOutcome_tame ..) | with_reducible refine Tame.thenFst (searchOutcome_tame ..) (by assumption) ?_ ?_ | with_reducible apply Tame.then (searchEnded_tame ..) | with_reducible apply Tame.ite | with_reducible refine Tame.pairEq (by assumption) ?_ | with_reducible refine Tame.pairEqSnd (by assumption) ?_ | with_reducible refine Tame.iteEq (by assumption) (fun _ => ?_) (fun _ => ?_) | with_reducible refine Tame.iteEqSnd (by assumption) (fun _ => ?_) (fun _ => ?_))

theorem assocDispatchTimeout_tame (pid : Nat) (i : Nat) (s : State) : Tame [.regs, .mem, .counters, .events, .fcp, .obs, .lookup, .traffic, .free] s (assocDispatchTimeout pid i s) := by
  unfold assocDispatchTimeout; try dsimp -proj -iota -eta only
  repeat' (first | (show (_ : Bool) = true; decide) | with_reducible exact Tame.refl .. | split | with_reducible apply Tame.then (searchTimeout_tame ..) | with_reducible refine Tame.thenFst (searchTimeout_tame ..) (by assumption) ?_ ?_ | with_reducible apply Tame.then (searchEnded_tame ..) | with_reducible apply Tame.ite | with_reducible refine Tame.pairEq (by assumption) ?_ | with_reducible refine Tame.pairEqSnd (by assumption) ?_ | with_reducible refine Tame.iteEq (by assumption) (fun _ => ?_) (fun _ => ?_) | with_reducible refine Tame.iteEqSnd (by assumption) (fun _ => ?_) (fun _ => ?_))

end Sys2Proof.Machine
end

