-- ==== Sys2Proof/Laws/LearnFrames.lean ====
section
/-! SUPPORT. The parts that the operations of Machine/Learn may change. -/

namespace Sys2Proof.Machine

set_option linter.all false

theorem learnLog_tame (s : State) (r : LearnRec) : Tame [.regs, .mem, .counters, .events, .fcp, .obs] s (State.learnLog s r) := by
  unfold State.learnLog
  repeat' (first | (show (_ : Bool) = true; decide) | with_reducible exact Tame.refl .. | with_reducible apply Tame.then (count_tame ..) | with_reducible apply Tame.then (setFlag_tame ..) | with_reducible apply Tame.then (raise_tame ..) | with_reducible apply Tame.then (setFld_tame ..) | with_reducible apply Tame.ite | with_reducible apply Tame.set_mem | split | (intro hx; first | exact mput_mwf _ _ _ hx | exact memPut_wf _ _ _ hx | exact mwf_filter _ _ hx))

theorem learnedAdd_tame (s : State) (nh : Nat) (d : Int) : Tame [.regs] s (State.learnedAdd s nh d) := by
  unfold State.learnedAdd
  repeat' (first | (show (_ : Bool) = true; decide) | with_reducible exact Tame.refl .. | with_reducible apply Tame.then (setFld_tame ..) | with_reducible refine Tame.fold ?_ (fun s x => ?_) | with_reducible refine Tame.foldEq (by assumption) ?_ (fun r x => ?_) | with_reducible refine Tame.foldEqSnd (by assumption) ?_ (fun r x => ?_) | with_reducible refine Tame.foldPair ?_ (fun r x => ?_) | with_reducible refine Tame.foldPairSnd ?_ (fun r x => ?_) | with_reducible apply Tame.ite | split)

theorem learnNew_tame (s : State) (q : LearnReq) (deep : Bool) : Tame [.regs, .mem, .counters, .events, .fcp, .obs, .lookup] s (State.learnNew s q deep) := by
  unfold State.learnNew; try dsimp -proj -iota -eta only
  repeat' (first | (show (_ : Bool) = true; decide) | with_reducible exact Tame.refl .. | split | with_reducible apply Tame.then (count_tame ..) | with_reducible apply Tame.then (learnLog_tame ..) | with_reducible apply Tame.then (raiseLimited_tame ..) | with_reducible apply Tame.then (hashPlace_tame ..) | with_reducible refine Tame.thenSnd (hashPlace_tame ..) (by assumption) ?_ ?_ | with_reducible apply Tame.then (putEntry_tame ..) | with_reducible apply Tame.then (learnedAdd_tame ..) | with_reducible apply Tame.then (insertFull_tame ..) | with_reducible apply Tame.then (raise_tame ..) | with_reducible apply Tame.ite | with_reducible refine Tame.pairEq (by assumption) ?_ | with_reducible refine Tame.pairEqSnd (by assumption) ?_ | with_reducible refine Tame.iteEq (by assumption) (fun _ => ?_) (fun _ => ?_) | with_reducible refine Tame.iteEqSnd (by assumption) (fun _ => ?_) (fun _ => ?_) | with_reducible apply Tame.set_lookup)

theorem learnFound_tame (s : State) (q : LearnReq) (a : Nat) : Tame [.regs, .mem, .counters, .events, .fcp, .obs] s (State.learnFound s q a) := by
  unfold State.learnFound; try dsimp -proj -iota -eta only
  repeat' (first | (show (_ : Bool) = true; decide) | with_reducible exact Tame.refl .. | split | with_reducible apply Tame.then (count_tame ..) | with_reducible apply Tame.then (tblPut_tame ..) | with_reducible apply Tame.then (learnedAdd_tame ..) | with_reducible apply Tame.then (learnLog_tame ..) | with_reducible apply Tame.then (raise_tame ..) | with_reducible apply Tame.ite | with_reducible refine Tame.pairEq (by assumption) ?_ | with_reducible refine Tame.pairEqSnd (by assumption) ?_ | with_reducible refine Tame.iteEq (by assumption) (fun _ => ?_) (fun _ => ?_) | with_reducible refine Tame.iteEqSnd (by assumption) (fun _ => ?_) (fun _ => ?_))

theorem learnServe_tame (s : State) (q : LearnReq) (deep : Bool) : Tame [.regs, .mem, .counters, .events, .fcp, .obs, .lookup] s (State.learnServe s q deep) := by
  unfold State.learnServe; try dsimp -proj -iota -eta only
  repeat' (first | (show (_ : Bool) = true; decide) | with_reducible exact Tame.refl .. | split | with_reducible apply Tame.then (learnFound_tame ..) | with_reducible apply Tame.then (learnNew_tame ..) | with_reducible apply Tame.ite | with_reducible refine Tame.pairEq (by assumption) ?_ | with_reducible refine Tame.pairEqSnd (by assumption) ?_ | with_reducible refine Tame.iteEq (by assumption) (fun _ => ?_) (fun _ => ?_) | with_reducible refine Tame.iteEqSnd (by assumption) (fun _ => ?_) (fun _ => ?_))

theorem learnArbiterServe_tame (l : Nat) (s : State) : Tame [.regs, .mem, .counters, .events, .fcp, .obs, .lookup] s (learnArbiterServe l s) := by
  unfold learnArbiterServe; try dsimp -proj -iota -eta only
  repeat' (first | (show (_ : Bool) = true; decide) | with_reducible exact Tame.refl .. | split | with_reducible apply Tame.then (learnServe_tame ..) | with_reducible apply Tame.ite | with_reducible refine Tame.pairEq (by assumption) ?_ | with_reducible refine Tame.pairEqSnd (by assumption) ?_ | with_reducible refine Tame.iteEq (by assumption) (fun _ => ?_) (fun _ => ?_) | with_reducible refine Tame.iteEqSnd (by assumption) (fun _ => ?_) (fun _ => ?_) | with_reducible apply Tame.set_lookup)

theorem learnHandoffInsert_tame (s : State) : Tame [.regs, .mem, .counters, .events, .fcp, .obs, .lookup] s (learnHandoffInsert s) := by
  unfold learnHandoffInsert; try dsimp -proj -iota -eta only
  repeat' (first | (show (_ : Bool) = true; decide) | with_reducible exact Tame.refl .. | split | with_reducible apply Tame.then (learnServe_tame ..) | with_reducible apply Tame.ite | with_reducible refine Tame.pairEq (by assumption) ?_ | with_reducible refine Tame.pairEqSnd (by assumption) ?_ | with_reducible refine Tame.iteEq (by assumption) (fun _ => ?_) (fun _ => ?_) | with_reducible refine Tame.iteEqSnd (by assumption) (fun _ => ?_) (fun _ => ?_) | with_reducible apply Tame.set_lookup)

theorem learnRemove_tame (s : State) (a : Nat) (ty : Nat) : Tame [.regs, .mem, .counters, .events, .fcp, .obs, .lookup] s (State.learnRemove s a ty) := by
  unfold State.learnRemove
  repeat' (first | (show (_ : Bool) = true; decide) | with_reducible exact Tame.refl .. | with_reducible apply Tame.then (hashRemove_tame ..) | with_reducible apply Tame.then (learnedAdd_tame ..) | with_reducible apply Tame.then (learnLog_tame ..) | with_reducible apply Tame.ite | split)

theorem pouncerPortFlush_tame (p : Nat) (s : State) : Tame [.regs, .mem, .counters, .events, .fcp, .obs, .line, .lookup] s (pouncerPortFlush p s) := by
  unfold pouncerPortFlush
  repeat' (first | (show (_ : Bool) = true; decide) | with_reducible exact Tame.refl .. | with_reducible apply Tame.then (learnRemove_tame ..) | with_reducible refine Tame.fold ?_ (fun s x => ?_) | with_reducible refine Tame.foldEq (by assumption) ?_ (fun r x => ?_) | with_reducible refine Tame.foldEqSnd (by assumption) ?_ (fun r x => ?_) | with_reducible refine Tame.foldPair ?_ (fun r x => ?_) | with_reducible refine Tame.foldPairSnd ?_ (fun r x => ?_) | with_reducible apply Tame.ite | with_reducible apply Tame.set_line | split)

theorem pouncerAgeVisit_tame (a : Nat) (s : State) : Tame [.regs, .mem, .counters, .events, .fcp, .obs, .lookup, .gov] s (pouncerAgeVisit a s) := by
  unfold pouncerAgeVisit
  repeat' (first | (show (_ : Bool) = true; decide) | with_reducible exact Tame.refl .. | with_reducible apply Tame.then (spend_tame ..) | with_reducible apply Tame.then (learnRemove_tame ..) | with_reducible apply Tame.ite | split)

theorem pouncerIdlePass_tame (f : Nat) (b : Nat) (way : Nat) (s : State) : Tame [.regs, .mem, .counters, .events, .fcp, .obs, .lookup, .gov] s (pouncerIdlePass f b way s) := by
  unfold pouncerIdlePass
  repeat' (first | (show (_ : Bool) = true; decide) | with_reducible exact Tame.refl .. | with_reducible apply Tame.then (spend_tame ..) | with_reducible apply Tame.then (tblPut_tame ..) | with_reducible apply Tame.then (flowRemove_tame ..) | with_reducible apply Tame.then (learnLog_tame ..) | with_reducible apply Tame.ite | split)

theorem compareWalkRead_tame (addr : Nat) (s : State) : Tame [.lookup, .gov] s (compareWalkRead addr s) := by
  unfold compareWalkRead; try dsimp -proj -iota -eta only
  repeat' (first | (show (_ : Bool) = true; decide) | with_reducible exact Tame.refl .. | split | with_reducible apply Tame.then (spend_tame ..) | with_reducible apply Tame.ite | with_reducible refine Tame.pairEq (by assumption) ?_ | with_reducible refine Tame.pairEqSnd (by assumption) ?_ | with_reducible refine Tame.iteEq (by assumption) (fun _ => ?_) (fun _ => ?_) | with_reducible refine Tame.iteEqSnd (by assumption) (fun _ => ?_) (fun _ => ?_) | with_reducible apply Tame.set_lookup)

theorem compareConfirm_tame (addr : Nat) (s : State) : Tame [.regs, .mem, .counters, .events, .fcp, .obs, .lookup] s (compareConfirm addr s) := by
  unfold compareConfirm; try dsimp -proj -iota -eta only
  repeat' (first | (show (_ : Bool) = true; decide) | with_reducible exact Tame.refl .. | split | with_reducible apply Tame.then (count_tame ..) | with_reducible apply Tame.then (raise_tame ..) | with_reducible apply Tame.then (tblPut_tame ..) | with_reducible refine Tame.fold ?_ (fun s x => ?_) | with_reducible refine Tame.foldEq (by assumption) ?_ (fun r x => ?_) | with_reducible refine Tame.foldEqSnd (by assumption) ?_ (fun r x => ?_) | with_reducible refine Tame.foldPair ?_ (fun r x => ?_) | with_reducible refine Tame.foldPairSnd ?_ (fun r x => ?_) | with_reducible apply Tame.ite | with_reducible refine Tame.pairEq (by assumption) ?_ | with_reducible refine Tame.pairEqSnd (by assumption) ?_ | with_reducible refine Tame.iteEq (by assumption) (fun _ => ?_) (fun _ => ?_) | with_reducible refine Tame.iteEqSnd (by assumption) (fun _ => ?_) (fun _ => ?_) | with_reducible apply Tame.set_lookup)

theorem comparePeriodOverrun_tame (s : State) : Tame [.regs] s (comparePeriodOverrun s) := by
  unfold comparePeriodOverrun
  repeat' (first | (show (_ : Bool) = true; decide) | with_reducible exact Tame.refl .. | with_reducible apply Tame.then (setFlag_tame ..) | with_reducible apply Tame.ite | split)

theorem encapHoldExpiry_tame (i : Nat) (s : State) : Tame [.regs, .mem, .lookup] s (encapHoldExpiry i s) := by
  unfold encapHoldExpiry
  repeat' (first | (show (_ : Bool) = true; decide) | with_reducible exact Tame.refl .. | with_reducible apply Tame.then (put_tame ..) | with_reducible apply Tame.ite | with_reducible apply Tame.set_lookup | split)

end Sys2Proof.Machine
end

