-- ==== Sys2Proof/Laws/EngineFrames.lean ====
section
/-! SUPPORT. The parts that the operations of Machine/Engine may change. -/

namespace Sys2Proof.Machine

set_option linter.all false

theorem setEng_tame (s : State) (e : Nat) (x : Engine) : Tame [.engine] s (State.setEng s e x) := by
  unfold State.setEng
  repeat' (first | (show (_ : Bool) = true; decide) | with_reducible exact Tame.refl .. | with_reducible apply Tame.ite | with_reducible apply Tame.set_engine | split)

theorem setOut_tame (s : State) (k : Nat) (l : List Dispatched) : Tame [.engine] s (State.setOut s k l) := by
  unfold State.setOut
  repeat' (first | (show (_ : Bool) = true; decide) | with_reducible exact Tame.refl .. | with_reducible apply Tame.ite | with_reducible apply Tame.set_engine | split)

theorem setEngHold_tame (s : State) (k : Nat) (l : List Desc) : Tame [.engine] s (State.setEngHold s k l) := by
  unfold State.setEngHold
  repeat' (first | (show (_ : Bool) = true; decide) | with_reducible exact Tame.refl .. | with_reducible apply Tame.ite | with_reducible apply Tame.set_engine | split)

theorem setCq_tame (s : State) (c : Nat) (l : List (Nat × Nat)) : Tame [.regs, .engine] s (State.setCq s c l) := by
  unfold State.setCq
  repeat' (first | (show (_ : Bool) = true; decide) | with_reducible exact Tame.refl .. | with_reducible apply Tame.then (setFld_tame ..) | with_reducible apply Tame.ite | with_reducible apply Tame.set_engine | split)

theorem busyEval_tame (s : State) (c : Nat) : Tame [.regs] s (State.busyEval s c) := by
  unfold State.busyEval
  repeat' (first | (show (_ : Bool) = true; decide) | with_reducible exact Tame.refl .. | with_reducible apply Tame.then (setFld_tame ..) | with_reducible apply Tame.ite | split)

theorem clusterEval_tame (s : State) (c : Nat) : Tame [.regs] s (State.clusterEval s c) := by
  unfold State.clusterEval
  repeat' (first | (show (_ : Bool) = true; decide) | with_reducible exact Tame.refl .. | with_reducible apply Tame.then (setFlag_tame ..) | with_reducible apply Tame.ite | split)

theorem tryDispatch_tame {s t : State} {d : Desc} (h : s.tryDispatch d = some t) : Tame [.regs, .engine, .gov] s t := by
  unfold State.tryDispatch at h
  split at h
  · cases h
  · split at h
    · cases h
    · injection h with h
      subst h
      exact Tame.set_engine (Tame.then (setCq_tame ..) (Tame.then (setOut_tame ..) (Tame.then (spend_tame ..) (Tame.refl ..) (by decide)) (by decide)) (by decide)) _ (by decide)

theorem engSkip_tame (s : State) (d : Desc) : Tame [.regs, .counters, .events, .fcp, .obs, .lookup, .traffic] s (State.engSkip s d) := by
  unfold State.engSkip
  repeat' (first | (show (_ : Bool) = true; decide) | with_reducible exact Tame.refl .. | with_reducible apply Tame.then (leaveSlice_tame ..) | with_reducible apply Tame.ite | split)

theorem engDrop_tame (s : State) (d : Desc) (reason : Nat) : Tame [.regs, .counters, .events, .fcp, .obs, .lookup, .traffic] s (State.engDrop s d reason) := by
  unfold State.engDrop
  repeat' (first | (show (_ : Bool) = true; decide) | with_reducible exact Tame.refl .. | with_reducible apply Tame.then (raiseLimited_tame ..) | with_reducible apply Tame.then (leaveSlice_tame ..) | with_reducible apply Tame.ite | split)

theorem engExpire_tame (s : State) (d : Desc) : Tame [.regs, .counters, .events, .fcp, .obs, .lookup, .traffic] s (State.engExpire s d) := by
  unfold State.engExpire
  repeat' (first | (show (_ : Bool) = true; decide) | with_reducible exact Tame.refl .. | with_reducible apply Tame.then (engDrop_tame ..) | with_reducible apply Tame.then (engSkip_tame ..) | with_reducible apply Tame.ite | split)

theorem engineDispatch_tame (k : Nat) (s : State) : Tame [.regs, .counters, .events, .fcp, .obs, .lookup, .engine, .traffic, .gov] s (engineDispatch k s) := by
  unfold engineDispatch; try dsimp -proj -iota -eta only
  repeat' (first | (show (_ : Bool) = true; decide) | with_reducible exact Tame.refl .. | split | with_reducible apply Tame.then (count_tame ..) | with_reducible apply Tame.then (engSkip_tame ..) | with_reducible refine Tame.then (tryDispatch_tame (by assumption)) ?_ ?_ | with_reducible apply Tame.then (setEngHold_tame ..) | with_reducible apply Tame.then (engExpire_tame ..) | with_reducible apply Tame.then (engDrop_tame ..) | with_reducible apply Tame.ite | with_reducible refine Tame.pairEq (by assumption) ?_ | with_reducible refine Tame.pairEqSnd (by assumption) ?_ | with_reducible refine Tame.iteEq (by assumption) (fun _ => ?_) (fun _ => ?_) | with_reducible refine Tame.iteEqSnd (by assumption) (fun _ => ?_) (fun _ => ?_) | with_reducible apply Tame.set_lookup)

theorem engineHoldRetry_tame (k : Nat) (s : State) : Tame [.regs, .engine, .gov] s (engineHoldRetry k s) := by
  unfold engineHoldRetry; try dsimp -proj -iota -eta only
  repeat' (first | (show (_ : Bool) = true; decide) | with_reducible exact Tame.refl .. | split | with_reducible refine Tame.then (tryDispatch_tame (by assumption)) ?_ ?_ | with_reducible apply Tame.then (setEngHold_tame ..) | with_reducible apply Tame.ite | with_reducible refine Tame.pairEq (by assumption) ?_ | with_reducible refine Tame.pairEqSnd (by assumption) ?_ | with_reducible refine Tame.iteEq (by assumption) (fun _ => ?_) (fun _ => ?_) | with_reducible refine Tame.iteEqSnd (by assumption) (fun _ => ?_) (fun _ => ?_))

theorem engineWaitExpiry_tame (k : Nat) (s : State) : Tame [.regs, .counters, .events, .fcp, .obs, .lookup, .engine, .traffic] s (engineWaitExpiry k s) := by
  unfold engineWaitExpiry; try dsimp -proj -iota -eta only
  repeat' (first | (show (_ : Bool) = true; decide) | with_reducible exact Tame.refl .. | split | with_reducible apply Tame.then (setEngHold_tame ..) | with_reducible apply Tame.then (count_tame ..) | with_reducible apply Tame.then (engExpire_tame ..) | with_reducible apply Tame.ite | with_reducible refine Tame.pairEq (by assumption) ?_ | with_reducible refine Tame.pairEqSnd (by assumption) ?_ | with_reducible refine Tame.iteEq (by assumption) (fun _ => ?_) (fun _ => ?_) | with_reducible refine Tame.iteEqSnd (by assumption) (fun _ => ?_) (fun _ => ?_))

theorem engWrite_tame (s : State) (c : Nat) (x : Engine) (a : Nat) (n : Nat) (v : Nat) : Tame [.mem] s (State.engWrite s c x a n v).1 := by
  unfold State.engWrite
  repeat' (first | (show (_ : Bool) = true; decide) | with_reducible exact Tame.refl .. | with_reducible apply Tame.ite | with_reducible apply Tame.iteFst | with_reducible apply Tame.set_mem | split | (intro hx; first | exact mput_mwf _ _ _ hx | exact memPut_wf _ _ _ hx | exact mwf_filter _ _ hx))

theorem programStart_tame (e : Nat) (s : State) : Tame [.regs, .engine] s (programStart e s) := by
  unfold programStart; try dsimp -proj -iota -eta only
  repeat' (first | (show (_ : Bool) = true; decide) | with_reducible exact Tame.refl .. | split | with_reducible apply Tame.then (setCq_tame ..) | with_reducible apply Tame.then (setEng_tame ..) | with_reducible apply Tame.then (busyEval_tame ..) | with_reducible apply Tame.ite | with_reducible refine Tame.pairEq (by assumption) ?_ | with_reducible refine Tame.pairEqSnd (by assumption) ?_ | with_reducible refine Tame.iteEq (by assumption) (fun _ => ?_) (fun _ => ?_) | with_reducible refine Tame.iteEqSnd (by assumption) (fun _ => ?_) (fun _ => ?_) | (intro hx; first | exact mput_mwf _ _ _ hx | exact memPut_wf _ _ _ hx | exact mwf_filter _ _ hx) | with_reducible apply Tame.set_regs)

theorem engSample_tame (s : State) (e : Nat) (x : Engine) (op : Nat) (fault : Nat) (addr : Nat) (clocks : Nat) (issue : Nat) (kind : Nat) : Tame [.regs, .mem, .counters, .events, .fcp, .obs] s (State.engSample s e x op fault addr clocks issue kind) := by
  unfold State.engSample
  repeat' (first | (show (_ : Bool) = true; decide) | with_reducible exact Tame.refl .. | with_reducible apply Tame.then (count_tame ..) | with_reducible apply Tame.then (raiseLimited_tame ..) | with_reducible apply Tame.then (setMemWord_tame ..) | with_reducible apply Tame.then (setFld_tame ..) | with_reducible apply Tame.ite | split)

theorem engSampled_tame (s : State) (e : Nat) (x : Engine) (op : Nat) (addr : Nat) (clocks : Nat) (issue : Nat) : Tame [.regs, .mem, .counters, .events, .fcp, .obs, .engine, .free] s (State.engSampled s e x op addr clocks issue) := by
  unfold State.engSampled; try dsimp -proj -iota -eta only
  repeat' (first | (show (_ : Bool) = true; decide) | with_reducible exact Tame.refl .. | split | with_reducible apply Tame.then (draw_tame ..) | with_reducible refine Tame.thenSnd (draw_tame ..) (by assumption) ?_ ?_ | with_reducible apply Tame.then (engSample_tame ..) | with_reducible apply Tame.ite | with_reducible refine Tame.pairEq (by assumption) ?_ | with_reducible refine Tame.pairEqSnd (by assumption) ?_ | with_reducible refine Tame.iteEq (by assumption) (fun _ => ?_) (fun _ => ?_) | with_reducible refine Tame.iteEqSnd (by assumption) (fun _ => ?_) (fun _ => ?_) | with_reducible apply Tame.set_engine)

theorem verdictCount_tame (s : State) (c : Nat) (act : Nat) : Tame [.counters] s (State.verdictCount s c act) := by
  unfold State.verdictCount
  repeat' (first | (show (_ : Bool) = true; decide) | with_reducible exact Tame.refl .. | with_reducible apply Tame.then (count_tame ..) | with_reducible apply Tame.ite | split)

theorem scanNext_tame (s : State) (c : Nat) (find : State → Engine → Scan → Word) : Tame [.engine] s (State.scanNext s c find) := by
  unfold State.scanNext; try dsimp -proj -iota -eta only
  repeat' (first | (show (_ : Bool) = true; decide) | with_reducible exact Tame.refl .. | split | with_reducible apply Tame.then (setEng_tame ..) | with_reducible apply Tame.ite | with_reducible refine Tame.pairEq (by assumption) ?_ | with_reducible refine Tame.pairEqSnd (by assumption) ?_ | with_reducible refine Tame.iteEq (by assumption) (fun _ => ?_) (fun _ => ?_) | with_reducible refine Tame.iteEqSnd (by assumption) (fun _ => ?_) (fun _ => ?_) | with_reducible apply Tame.set_engine)

theorem progEnd_tame (s : State) (e : Nat) (x : Engine) (t : Stamp) (inspect : Nat) : Tame [.regs, .counters, .engine] s (State.progEnd s e x t inspect) := by
  unfold State.progEnd
  repeat' (first | (show (_ : Bool) = true; decide) | with_reducible exact Tame.refl .. | with_reducible apply Tame.then (count_tame ..) | with_reducible apply Tame.then (countN_tame ..) | with_reducible apply Tame.then (setOut_tame ..) | with_reducible apply Tame.then (setEng_tame ..) | with_reducible apply Tame.then (busyEval_tame ..) | with_reducible apply Tame.then (scanNext_tame ..) | with_reducible apply Tame.ite | with_reducible apply Tame.set_engine | split)

theorem progAbort_tame (s : State) (e : Nat) (x : Engine) (action : Nat) (reason : Nat) : Tame [.regs, .counters, .engine] s (State.progAbort s e x action reason) := by
  unfold State.progAbort
  repeat' (first | (show (_ : Bool) = true; decide) | with_reducible exact Tame.refl .. | with_reducible apply Tame.then (verdictCount_tame ..) | with_reducible apply Tame.then (progEnd_tame ..) | with_reducible apply Tame.ite | split)

theorem engFault_tame (s : State) (e : Nat) (x : Engine) (op : Nat) (kind : Nat) : Tame [.regs, .mem, .counters, .events, .fcp, .obs, .engine] s (State.engFault s e x op kind) := by
  unfold State.engFault
  repeat' (first | (show (_ : Bool) = true; decide) | with_reducible exact Tame.refl .. | with_reducible apply Tame.then (count_tame ..) | with_reducible apply Tame.then (raiseLimited_tame ..) | with_reducible apply Tame.then (engSample_tame ..) | with_reducible apply Tame.then (progAbort_tame ..) | with_reducible apply Tame.ite | split)

theorem engEcc_tame (s : State) (c : Nat) (store : Nat) (word : Nat) : Tame [.mem, .counters, .events, .fcp, .obs] s (State.engEcc s c store word) := by
  unfold State.engEcc
  repeat' (first | (show (_ : Bool) = true; decide) | with_reducible exact Tame.refl .. | with_reducible apply Tame.then (raise_tame ..) | with_reducible apply Tame.then (setMemWord_tame ..) | with_reducible apply Tame.ite | split)

theorem issue_tame (s : State) (i : Issue) (op : Nat) (store : State → Engine → Nat × Nat) (f : State → Engine → Eff)
    (hf : ∀ (t u : State) (x y : Engine) (n pc : Nat), f t x = .go u y n pc → Tame [.regs, .mem, .counters, .events, .fcp, .obs, .engine, .free] t u) : Tame [.regs, .mem, .counters, .events, .fcp, .obs, .engine, .free] s (State.issue s i op store f) := by
  unfold State.issue
  extract_lets x p
  apply Tame.ite
  · exact Tame.refl ..
  apply Tame.ite
  · exact Tame.then (engFault_tame ..) (Tame.refl ..) (by decide)
  split
  · exact Tame.then (engFault_tame ..) (Tame.then (engEcc_tame ..) (Tame.refl ..) (by decide)) (by decide)
  · have h1 : Tame [.regs, .mem, .counters, .events, .fcp, .obs, .engine, .free] s (if i.ecc = .corrected then s.count .engineClusterEccCorr (i.e / 32) else s) :=
      Tame.ite (Tame.then (count_tame ..) (Tame.refl ..) (by decide)) (Tame.refl ..)
    split
    · exact Tame.then (engFault_tame ..) h1 (by decide)
    next u y n pc e => exact Tame.then (engSampled_tame ..) (Tame.then (setEng_tame ..) (h1.trans_same (hf _ _ _ _ _ _ e)) (by decide)) (by decide)

theorem aluOp_tame (s : State) (i : Issue) (op n rd : Nat) (v : Engine → Word) : Tame [.regs, .mem, .counters, .events, .fcp, .obs, .engine, .free] s (State.aluOp s i op n rd v) :=
  issue_tame _ _ _ _ _ (fun t u x y n pc h => by injection h with h _; subst h; exact Tame.refl ..)

theorem engAdd_tame (i : Issue) (rd : Nat) (ra : Nat) (rb : Nat) (s : State) : Tame [.regs, .mem, .counters, .events, .fcp, .obs, .engine, .free] s (engAdd i rd ra rb s) :=
  aluOp_tame ..

theorem engSub_tame (i : Issue) (rd : Nat) (ra : Nat) (rb : Nat) (s : State) : Tame [.regs, .mem, .counters, .events, .fcp, .obs, .engine, .free] s (engSub i rd ra rb s) :=
  aluOp_tame ..

theorem engAnd_tame (i : Issue) (rd : Nat) (ra : Nat) (rb : Nat) (s : State) : Tame [.regs, .mem, .counters, .events, .fcp, .obs, .engine, .free] s (engAnd i rd ra rb s) :=
  aluOp_tame ..

theorem engOr_tame (i : Issue) (rd : Nat) (ra : Nat) (rb : Nat) (s : State) : Tame [.regs, .mem, .counters, .events, .fcp, .obs, .engine, .free] s (engOr i rd ra rb s) :=
  aluOp_tame ..

theorem engXor_tame (i : Issue) (rd : Nat) (ra : Nat) (rb : Nat) (s : State) : Tame [.regs, .mem, .counters, .events, .fcp, .obs, .engine, .free] s (engXor i rd ra rb s) :=
  aluOp_tame ..

theorem engShl_tame (i : Issue) (rd : Nat) (ra : Nat) (rb : Nat) (s : State) : Tame [.regs, .mem, .counters, .events, .fcp, .obs, .engine, .free] s (engShl i rd ra rb s) :=
  aluOp_tame ..

theorem engShr_tame (i : Issue) (rd : Nat) (ra : Nat) (rb : Nat) (s : State) : Tame [.regs, .mem, .counters, .events, .fcp, .obs, .engine, .free] s (engShr i rd ra rb s) :=
  aluOp_tame ..

theorem engMin_tame (i : Issue) (rd : Nat) (ra : Nat) (rb : Nat) (s : State) : Tame [.regs, .mem, .counters, .events, .fcp, .obs, .engine, .free] s (engMin i rd ra rb s) :=
  aluOp_tame ..

theorem engMax_tame (i : Issue) (rd : Nat) (ra : Nat) (rb : Nat) (s : State) : Tame [.regs, .mem, .counters, .events, .fcp, .obs, .engine, .free] s (engMax i rd ra rb s) :=
  aluOp_tame ..

theorem engCrc_tame (i : Issue) (rd : Nat) (ra : Nat) (rb : Nat) (s : State) : Tame [.regs, .mem, .counters, .events, .fcp, .obs, .engine, .free] s (engCrc i rd ra rb s) :=
  aluOp_tame ..

theorem engClz_tame (i : Issue) (rd : Nat) (ra : Nat) (s : State) : Tame [.regs, .mem, .counters, .events, .fcp, .obs, .engine, .free] s (engClz i rd ra s) :=
  aluOp_tame ..

theorem engAddi_tame (i : Issue) (rd : Nat) (ra : Nat) (imm : BitVec 16) (s : State) : Tame [.regs, .mem, .counters, .events, .fcp, .obs, .engine, .free] s (engAddi i rd ra imm s) :=
  aluOp_tame ..

theorem engAndi_tame (i : Issue) (rd : Nat) (ra : Nat) (imm : BitVec 16) (s : State) : Tame [.regs, .mem, .counters, .events, .fcp, .obs, .engine, .free] s (engAndi i rd ra imm s) :=
  aluOp_tame ..

theorem engOri_tame (i : Issue) (rd : Nat) (ra : Nat) (imm : BitVec 16) (s : State) : Tame [.regs, .mem, .counters, .events, .fcp, .obs, .engine, .free] s (engOri i rd ra imm s) :=
  aluOp_tame ..

theorem engXori_tame (i : Issue) (rd : Nat) (ra : Nat) (imm : BitVec 16) (s : State) : Tame [.regs, .mem, .counters, .events, .fcp, .obs, .engine, .free] s (engXori i rd ra imm s) :=
  aluOp_tame ..

theorem engShli_tame (i : Issue) (rd : Nat) (ra : Nat) (imm : BitVec 16) (s : State) : Tame [.regs, .mem, .counters, .events, .fcp, .obs, .engine, .free] s (engShli i rd ra imm s) :=
  aluOp_tame ..

theorem engShri_tame (i : Issue) (rd : Nat) (ra : Nat) (imm : BitVec 16) (s : State) : Tame [.regs, .mem, .counters, .events, .fcp, .obs, .engine, .free] s (engShri i rd ra imm s) :=
  aluOp_tame ..

theorem engMovi_tame (i : Issue) (rd : Nat) (imm : BitVec 16) (s : State) : Tame [.regs, .mem, .counters, .events, .fcp, .obs, .engine, .free] s (engMovi i rd imm s) :=
  aluOp_tame ..

theorem engInsh_tame (i : Issue) (rd : Nat) (sz : Nat) (imm : BitVec 16) (s : State) : Tame [.regs, .mem, .counters, .events, .fcp, .obs, .engine, .free] s (engInsh i rd sz imm s) :=
  aluOp_tame ..

theorem engLd_tame (i : Issue) (rd : Nat) (ra : Nat) (sz : Nat) (imm : BitVec 16) (s : State) : Tame [.regs, .mem, .counters, .events, .fcp, .obs, .engine, .free] s (engLd i rd ra sz imm s) :=
  issue_tame _ _ _ _ _ (fun t u x y n pc h => by 
    dsimp only at h
    split at h
    · cases h
    · split at h
      · cases h
      · injection h with h _; subst h; exact Tame.refl ..
    · injection h with h _; subst h; exact Tame.refl ..)

theorem engSt_tame (i : Issue) (rd : Nat) (ra : Nat) (sz : Nat) (imm : BitVec 16) (s : State) : Tame [.regs, .mem, .counters, .events, .fcp, .obs, .engine, .free] s (engSt i rd ra sz imm s) :=
  issue_tame _ _ _ _ _ (fun t u x y n pc h => by 
    dsimp only at h
    have hw (k a v : Nat) : Tame [.regs, .mem, .counters, .events, .fcp, .obs, .engine, .free] t (t.engWrite (i.e / 32) x a k v).1 := (engWrite_tame ..).mono (by simp)
    split at h
    · cases h
    · split at h
      · cases h
      · injection h with h _; subst h; exact hw ..
    · injection h with h _; subst h; exact hw ..
    · cases h)

theorem engXadd_tame (i : Issue) (rd : Nat) (ra : Nat) (rb : Nat) (s : State) : Tame [.regs, .mem, .counters, .events, .fcp, .obs, .engine, .free] s (engXadd i rd ra rb s) :=
  issue_tame _ _ _ _ _ (fun t u x y n pc h => by 
    dsimp only at h
    have hw (k a v : Nat) : Tame [.regs, .mem, .counters, .events, .fcp, .obs, .engine, .free] t (t.engWrite (i.e / 32) x a k v).1 := (engWrite_tame ..).mono (by simp)
    split at h
    · cases h
    · split at h
      · cases h
      · injection h with h _; subst h; exact hw ..
    · cases h
    · cases h)

theorem branchOp_tame (s : State) (i : Issue) (op target : Nat) (c : Engine → Bool) : Tame [.regs, .mem, .counters, .events, .fcp, .obs, .engine, .free] s (State.branchOp s i op target c) :=
  issue_tame _ _ _ _ _ (fun t u x y n pc h => by split at h <;> (injection h with h _; subst h; exact Tame.refl ..))

theorem engBeq_tame (i : Issue) (ra : Nat) (rb : Nat) (target : Nat) (s : State) : Tame [.regs, .mem, .counters, .events, .fcp, .obs, .engine, .free] s (engBeq i ra rb target s) :=
  branchOp_tame ..

theorem engBne_tame (i : Issue) (ra : Nat) (rb : Nat) (target : Nat) (s : State) : Tame [.regs, .mem, .counters, .events, .fcp, .obs, .engine, .free] s (engBne i ra rb target s) :=
  branchOp_tame ..

theorem engBlt_tame (i : Issue) (ra : Nat) (rb : Nat) (target : Nat) (s : State) : Tame [.regs, .mem, .counters, .events, .fcp, .obs, .engine, .free] s (engBlt i ra rb target s) :=
  branchOp_tame ..

theorem engBge_tame (i : Issue) (ra : Nat) (rb : Nat) (target : Nat) (s : State) : Tame [.regs, .mem, .counters, .events, .fcp, .obs, .engine, .free] s (engBge i ra rb target s) :=
  branchOp_tame ..

theorem engJmp_tame (i : Issue) (target : Nat) (s : State) : Tame [.regs, .mem, .counters, .events, .fcp, .obs, .engine, .free] s (engJmp i target s) :=
  issue_tame _ _ _ _ _ (fun t u x y n pc h => by injection h with h _; subst h; exact Tame.refl ..)

theorem engCall_tame (i : Issue) (target : Nat) (s : State) : Tame [.regs, .mem, .counters, .events, .fcp, .obs, .engine, .free] s (engCall i target s) :=
  issue_tame _ _ _ _ _ (fun t u x y n pc h => by 
    split at h
    · cases h
    · injection h with h _; subst h; exact Tame.refl ..)

theorem engRet_tame (i : Issue) (s : State) : Tame [.regs, .mem, .counters, .events, .fcp, .obs, .engine, .free] s (engRet i s) :=
  issue_tame _ _ _ _ _ (fun t u x y n pc h => by 
    split at h
    · cases h
    · injection h with h _; subst h; exact Tame.refl ..)

theorem engPfind_tame (i : Issue) (rd : Nat) (ra : Nat) (rb : Nat) (set : Nat) (s : State) : Tame [.regs, .mem, .counters, .events, .fcp, .obs, .engine, .free] s (engPfind i rd ra rb set s) :=
  issue_tame _ _ _ _ _ (fun t u x y n pc h => by 
    dsimp only at h
    injection h with h _; subst h
    exact Tame.then (scanNext_tame ..) (Tame.set_engine (Tame.then (setEng_tame ..) (Tame.refl ..) (by decide)) _ (by decide)) (by decide))

theorem pfindScanDone_tame (e : Nat) (wait : Nat) (s : State) : Tame [.regs, .mem, .counters, .events, .fcp, .obs, .engine, .free] s (pfindScanDone e wait s) := by
  unfold pfindScanDone; try dsimp -proj -iota -eta only
  repeat' (first | (show (_ : Bool) = true; decide) | with_reducible exact Tame.refl .. | split | with_reducible apply Tame.then (setEng_tame ..) | with_reducible apply Tame.then (setReg_tame ..) | with_reducible apply Tame.then (engSampled_tame ..) | with_reducible apply Tame.then (scanNext_tame ..) | with_reducible apply Tame.ite | with_reducible refine Tame.pairEq (by assumption) ?_ | with_reducible refine Tame.pairEqSnd (by assumption) ?_ | with_reducible refine Tame.iteEq (by assumption) (fun _ => ?_) (fun _ => ?_) | with_reducible refine Tame.iteEqSnd (by assumption) (fun _ => ?_) (fun _ => ?_))

theorem engPmatch_tame (i : Issue) (rd : Nat) (ra : Nat) (set : Nat) (s : State) : Tame [.regs, .mem, .counters, .events, .fcp, .obs, .engine, .free] s (engPmatch i rd ra set s) :=
  issue_tame _ _ _ _ _ (fun t u x y n pc h => by injection h with h _; subst h; exact Tame.refl ..)

theorem engVerdict_tame (i : Issue) (action : Nat) (colourSet : Bool) (colour : Nat) (value : BitVec 16) (s : State) : Tame [.regs, .mem, .counters, .events, .fcp, .obs, .engine, .free] s (engVerdict i action colourSet colour value s) :=
  issue_tame _ _ _ _ _ (fun t u x y n pc h => by injection h with h _; subst h; exact Tame.refl ..)

theorem engEnd_tame (i : Issue) (s : State) : Tame [.regs, .mem, .counters, .events, .fcp, .obs, .engine, .free] s (engEnd i s) :=
  by
  unfold engEnd
  have h1 : Tame [.regs, .mem, .counters, .events, .fcp, .obs, .engine, .free] s (s.issue i 0x3D fetchStore (fun s x => .go s x 1 (x.pc + 1))) := issue_tame _ _ _ _ _ (fun t u x y n pc h => by injection h with h _; subst h; exact Tame.refl ..)
  exact Tame.ite (Tame.then (progEnd_tame ..) (Tame.then (verdictCount_tame ..) h1 (by decide)) (by decide)) h1

theorem engNop_tame (i : Issue) (s : State) : Tame [.regs, .mem, .counters, .events, .fcp, .obs, .engine, .free] s (engNop i s) :=
  issue_tame _ _ _ _ _ (fun t u x y n pc h => by injection h with h _; subst h; exact Tame.refl ..)

theorem programBudgetExpiry_tame (e : Nat) (s : State) : Tame [.regs, .mem, .counters, .events, .fcp, .obs, .engine] s (programBudgetExpiry e s) := by
  unfold programBudgetExpiry
  repeat' (first | (show (_ : Bool) = true; decide) | with_reducible exact Tame.refl .. | with_reducible apply Tame.then (count_tame ..) | with_reducible apply Tame.then (raiseLimited_tame ..) | with_reducible apply Tame.then (engSample_tame ..) | with_reducible apply Tame.then (progAbort_tame ..) | with_reducible apply Tame.ite | split)

theorem engineResultReturn_tame (k : Nat) (s : State) : Tame [.regs, .counters, .events, .fcp, .obs, .lookup, .engine, .traffic] s (engineResultReturn k s) := by
  unfold engineResultReturn; try dsimp -proj -iota -eta only
  repeat' (first | (show (_ : Bool) = true; decide) | with_reducible exact Tame.refl .. | split | with_reducible apply Tame.then (setOut_tame ..) | with_reducible apply Tame.then (leaveSlice_tame ..) | with_reducible apply Tame.then (unpark_tame ..) | with_reducible apply Tame.then (epochDrop_tame ..) | with_reducible apply Tame.ite | with_reducible refine Tame.pairEq (by assumption) ?_ | with_reducible refine Tame.pairEqSnd (by assumption) ?_ | with_reducible refine Tame.iteEq (by assumption) (fun _ => ?_) (fun _ => ?_) | with_reducible refine Tame.iteEqSnd (by assumption) (fun _ => ?_) (fun _ => ?_))

theorem engineDrainWrite_tame (c : Nat) (v : Bool) (s : State) : Tame [.regs, .counters, .events, .fcp, .obs] s (engineDrainWrite c v s) := by
  unfold engineDrainWrite
  repeat' (first | (show (_ : Bool) = true; decide) | with_reducible exact Tame.refl .. | with_reducible apply Tame.then (count_tame ..) | with_reducible apply Tame.then (setFlag_tame ..) | with_reducible apply Tame.then (clusterEval_tame ..) | with_reducible apply Tame.then (raise_tame ..) | with_reducible apply Tame.ite | split)

theorem clusterDrained_tame (c : Nat) (s : State) : Tame [.regs, .counters, .events, .fcp, .obs] s (clusterDrained c s) := by
  unfold clusterDrained
  repeat' (first | (show (_ : Bool) = true; decide) | with_reducible exact Tame.refl .. | with_reducible apply Tame.then (setFlag_tame ..) | with_reducible apply Tame.then (raise_tame ..) | with_reducible apply Tame.ite | split)

end Sys2Proof.Machine
end

