-- ==== Sys2Proof/Laws/HbmFrames.lean ====
section
/-! SUPPORT. The parts that the operations of Machine/Hbm may change. -/

namespace Sys2Proof.Machine

set_option linter.all false

theorem setCtl_tame (s : State) (x : Nat) (c : HbmCtl) : Tame [.hbm] s (State.setCtl s x c) := by
  unfold State.setCtl
  repeat' (first | (show (_ : Bool) = true; decide) | with_reducible exact Tame.refl .. | with_reducible apply Tame.ite | with_reducible apply Tame.set_hbm | split)

theorem setHbmState_tame (s : State) (x : Nat) (v : Nat) : Tame [.regs] s (State.setHbmState s x v) := by
  unfold State.setHbmState
  repeat' (first | (show (_ : Bool) = true; decide) | with_reducible exact Tame.refl .. | with_reducible apply Tame.then (setFld_tame ..) | with_reducible apply Tame.ite | split)

theorem freeBytes_tame (s : State) (n : Nat) : Tame [.free] s (State.freeBytes s n).2 := by
  unfold State.freeBytes
  repeat' (first | (show (_ : Bool) = true; decide) | with_reducible exact Tame.refl .. | with_reducible apply Tame.ite | with_reducible apply Tame.iteSnd | with_reducible apply Tame.set_freeCtr | split)

theorem hbmAnswer_tame (s : State) (x : Nat) (tag : Nat) (status : Nat) (data : Bytes) : Tame [.hbm] s (State.hbmAnswer s x tag status data) := by
  unfold State.hbmAnswer
  repeat' (first | (show (_ : Bool) = true; decide) | with_reducible exact Tame.refl .. | with_reducible apply Tame.ite | with_reducible apply Tame.set_hbm | split)

theorem hbmData_tame (s : State) (x : Nat) (r : HbmReq) : Tame [.free] s (State.hbmData s x r).2 := by
  unfold State.hbmData
  repeat' (first | (show (_ : Bool) = true; decide) | with_reducible exact Tame.refl .. | with_reducible apply Tame.then (freeBytes_tame ..) | with_reducible refine Tame.thenSnd (freeBytes_tame ..) (by assumption) ?_ ?_ | with_reducible apply Tame.ite | with_reducible apply Tame.iteSnd | split)

theorem hbmCmd_tame (s : State) (x : Nat) (op : Nat) (bank : Nat) (row : Nat) (col : Nat) (tag : Nat) (cls : Nat) : Tame [.hbm, .free] s (State.hbmCmd s x op bank row col tag cls) := by
  unfold State.hbmCmd; try dsimp -proj -iota -eta only
  repeat' (first | (show (_ : Bool) = true; decide) | with_reducible exact Tame.refl .. | split | with_reducible apply Tame.then (draw_tame ..) | with_reducible refine Tame.thenSnd (draw_tame ..) (by assumption) ?_ ?_ | with_reducible apply Tame.then (setCtl_tame ..) | with_reducible apply Tame.ite | with_reducible refine Tame.pairEq (by assumption) ?_ | with_reducible refine Tame.pairEqSnd (by assumption) ?_ | with_reducible refine Tame.iteEq (by assumption) (fun _ => ?_) (fun _ => ?_) | with_reducible refine Tame.iteEqSnd (by assumption) (fun _ => ?_) (fun _ => ?_))

theorem precharge_tame (s : State) (x : Nat) (bank : Nat) : Tame [.hbm, .free] s (State.precharge s x bank) := by
  unfold State.precharge
  repeat' (first | (show (_ : Bool) = true; decide) | with_reducible exact Tame.refl .. | with_reducible apply Tame.then (hbmCmd_tame ..) | with_reducible apply Tame.then (setCtl_tame ..) | with_reducible apply Tame.ite | split)

theorem refreshBank_tame (s : State) (x : Nat) (bank : Nat) : Tame [.counters, .hbm, .free] s (State.refreshBank s x bank) := by
  unfold State.refreshBank
  repeat' (first | (show (_ : Bool) = true; decide) | with_reducible exact Tame.refl .. | with_reducible apply Tame.then (precharge_tame ..) | with_reducible apply Tame.then (hbmCmd_tame ..) | with_reducible apply Tame.then (count_tame ..) | with_reducible apply Tame.then (setCtl_tame ..) | with_reducible apply Tame.ite | split)

theorem refreshSettle_tame (s : State) (x : Nat) (bank : Nat) : Tame [.counters, .events, .fcp, .obs, .hbm, .free] s (State.refreshSettle s x bank) := by
  unfold State.refreshSettle
  repeat' (first | (show (_ : Bool) = true; decide) | with_reducible exact Tame.refl .. | with_reducible apply Tame.then (precharge_tame ..) | with_reducible apply Tame.then (hbmCmd_tame ..) | with_reducible apply Tame.then (count_tame ..) | with_reducible apply Tame.then (raiseLimited_tame ..) | with_reducible apply Tame.then (setCtl_tame ..) | with_reducible apply Tame.then (refreshBank_tame ..) | with_reducible refine Tame.fold ?_ (fun s x => ?_) | with_reducible refine Tame.foldEq (by assumption) ?_ (fun r x => ?_) | with_reducible refine Tame.foldEqSnd (by assumption) ?_ (fun r x => ?_) | with_reducible refine Tame.foldPair ?_ (fun r x => ?_) | with_reducible refine Tame.foldPairSnd ?_ (fun r x => ?_) | with_reducible apply Tame.ite | split)

theorem poisonUsed_tame (s : State) (x : Nat) : Tame [.regs] s (State.poisonUsed s x) := by
  unfold State.poisonUsed
  repeat' (first | (show (_ : Bool) = true; decide) | with_reducible exact Tame.refl .. | with_reducible apply Tame.then (setFld_tame ..) | with_reducible apply Tame.ite | split)

theorem poisonAdd_tame (s : State) (x : Nat) (b : Nat) : Tame [.regs, .counters, .events, .fcp, .obs] s (State.poisonAdd s x b) := by
  unfold State.poisonAdd; try dsimp -proj -iota -eta only
  repeat' (first | (show (_ : Bool) = true; decide) | with_reducible exact Tame.refl .. | split | with_reducible apply Tame.then (setReg_tame ..) | with_reducible apply Tame.then (poisonUsed_tame ..) | with_reducible apply Tame.then (raise_tame ..) | with_reducible apply Tame.ite | with_reducible refine Tame.pairEq (by assumption) ?_ | with_reducible refine Tame.pairEqSnd (by assumption) ?_ | with_reducible refine Tame.iteEq (by assumption) (fun _ => ?_) (fun _ => ?_) | with_reducible refine Tame.iteEqSnd (by assumption) (fun _ => ?_) (fun _ => ?_))

theorem poisonClear_tame (s : State) (x : Nat) (lo : Nat) (n : Nat) : Tame [.regs] s (State.poisonClear s x lo n) := by
  unfold State.poisonClear
  repeat' (first | (show (_ : Bool) = true; decide) | with_reducible exact Tame.refl .. | with_reducible apply Tame.then (setReg_tame ..) | with_reducible apply Tame.then (poisonUsed_tame ..) | with_reducible refine Tame.fold ?_ (fun s x => ?_) | with_reducible refine Tame.foldEq (by assumption) ?_ (fun r x => ?_) | with_reducible refine Tame.foldEqSnd (by assumption) ?_ (fun r x => ?_) | with_reducible refine Tame.foldPair ?_ (fun r x => ?_) | with_reducible refine Tame.foldPairSnd ?_ (fun r x => ?_) | with_reducible apply Tame.ite | split)

theorem hbmRetire_tame (s : State) (x : Nat) (reason : Nat) : Tame [.regs, .counters, .events, .fcp, .obs] s (State.hbmRetire s x reason) := by
  unfold State.hbmRetire
  repeat' (first | (show (_ : Bool) = true; decide) | with_reducible exact Tame.refl .. | with_reducible apply Tame.then (setHbmState_tame ..) | with_reducible apply Tame.then (raise_tame ..) | with_reducible apply Tame.ite | split)

theorem hbmCapture_tame (s : State) (x : Nat) : Tame [.regs] s (State.hbmCapture s x) := by
  unfold State.hbmCapture
  repeat' (first | (show (_ : Bool) = true; decide) | with_reducible exact Tame.refl .. | with_reducible apply Tame.then (setReg_tame ..) | with_reducible apply Tame.then (setFld_tame ..) | with_reducible refine Tame.fold ?_ (fun s x => ?_) | with_reducible refine Tame.foldEq (by assumption) ?_ (fun r x => ?_) | with_reducible refine Tame.foldEqSnd (by assumption) ?_ (fun r x => ?_) | with_reducible refine Tame.foldPair ?_ (fun r x => ?_) | with_reducible refine Tame.foldPairSnd ?_ (fun r x => ?_) | with_reducible apply Tame.ite | split)

theorem hbmFreeze_tame (s : State) (x : Nat) (cause : Nat) (r : Option HbmReq) (burst : Nat) (syn : Nat) : Tame [.regs, .counters, .events, .fcp, .obs, .hbm] s (State.hbmFreeze s x cause r burst syn) := by
  unfold State.hbmFreeze
  repeat' (first | (show (_ : Bool) = true; decide) | with_reducible exact Tame.refl .. | with_reducible apply Tame.then (count_tame ..) | with_reducible apply Tame.then (setHbmState_tame ..) | with_reducible apply Tame.then (hbmCapture_tame ..) | with_reducible apply Tame.then (setReg_tame ..) | with_reducible apply Tame.then (setFld_tame ..) | with_reducible apply Tame.then (hbmAnswer_tame ..) | with_reducible apply Tame.then (setCtl_tame ..) | with_reducible apply Tame.then (countN_tame ..) | with_reducible apply Tame.then (raise_tame ..) | with_reducible apply Tame.then (poisonAdd_tame ..) | with_reducible apply Tame.then (poolFence_tame ..) | with_reducible apply Tame.then (hbmRetire_tame ..) | with_reducible refine Tame.fold ?_ (fun s x => ?_) | with_reducible refine Tame.foldEq (by assumption) ?_ (fun r x => ?_) | with_reducible refine Tame.foldEqSnd (by assumption) ?_ (fun r x => ?_) | with_reducible refine Tame.foldPair ?_ (fun r x => ?_) | with_reducible refine Tame.foldPairSnd ?_ (fun r x => ?_) | with_reducible apply Tame.ite | split)

theorem drainEval_tame (s : State) (x : Nat) : Tame [.hbm] s (State.drainEval s x) := by
  unfold State.drainEval
  repeat' (first | (show (_ : Bool) = true; decide) | with_reducible exact Tame.refl .. | with_reducible apply Tame.then (setCtl_tame ..) | with_reducible apply Tame.ite | split)

theorem hbmRequest_tame (x : Nat) (r : HbmReq) (s : State) : Tame [.counters, .hbm] s (hbmRequest x r s) := by
  unfold hbmRequest; try dsimp -proj -iota -eta only
  repeat' (first | (show (_ : Bool) = true; decide) | with_reducible exact Tame.refl .. | split | with_reducible apply Tame.then (filterCount_tame ..) | with_reducible apply Tame.then (count_tame ..) | with_reducible apply Tame.then (hbmAnswer_tame ..) | with_reducible apply Tame.then (setCtl_tame ..) | with_reducible apply Tame.then (drainEval_tame ..) | with_reducible apply Tame.ite | with_reducible refine Tame.pairEq (by assumption) ?_ | with_reducible refine Tame.pairEqSnd (by assumption) ?_ | with_reducible refine Tame.iteEq (by assumption) (fun _ => ?_) (fun _ => ?_) | with_reducible refine Tame.iteEqSnd (by assumption) (fun _ => ?_) (fun _ => ?_))

theorem hbmActivate_tame {s t : State} {x : Nat} {r : HbmReq} (h : s.hbmActivate x r = some t) : Tame [.counters, .hbm, .gov, .free] s t := by
  unfold State.hbmActivate at h
  dsimp only at h
  split at h
  · injection h with h; subst h; exact Tame.refl ..
  · split at h
    · cases h
    · injection h with h
      subst h
      exact Tame.then (setCtl_tame ..) (Tame.then (count_tame ..) (Tame.then (hbmCmd_tame ..) (Tame.then (precharge_tame ..) (Tame.then (spend_tame ..) (Tame.refl ..)
        (by decide)) (by decide)) (by decide)) (by decide)) (by decide)

theorem hbmColumns_tame (s : State) (x : Nat) (r : HbmReq) : Tame [.hbm, .free] s (State.hbmColumns s x r) := by
  unfold State.hbmColumns
  repeat' (first | (show (_ : Bool) = true; decide) | with_reducible exact Tame.refl .. | with_reducible apply Tame.then (hbmCmd_tame ..) | with_reducible apply Tame.then (setCtl_tame ..) | with_reducible refine Tame.fold ?_ (fun s x => ?_) | with_reducible refine Tame.foldEq (by assumption) ?_ (fun r x => ?_) | with_reducible refine Tame.foldEqSnd (by assumption) ?_ (fun r x => ?_) | with_reducible refine Tame.foldPair ?_ (fun r x => ?_) | with_reducible refine Tame.foldPairSnd ?_ (fun r x => ?_) | with_reducible apply Tame.ite | split)

theorem hbmStore_tame (s : State) (x : Nat) (r : HbmReq) : Tame [.regs, .mem] s (State.hbmStore s x r) := by
  unfold State.hbmStore
  repeat' (first | (show (_ : Bool) = true; decide) | with_reducible exact Tame.refl .. | with_reducible apply Tame.then (poisonClear_tame ..) | with_reducible refine Tame.fold ?_ (fun s x => ?_) | with_reducible refine Tame.foldEq (by assumption) ?_ (fun r x => ?_) | with_reducible refine Tame.foldEqSnd (by assumption) ?_ (fun r x => ?_) | with_reducible refine Tame.foldPair ?_ (fun r x => ?_) | with_reducible refine Tame.foldPairSnd ?_ (fun r x => ?_) | with_reducible apply Tame.ite | with_reducible apply Tame.set_mem | split | (intro hx; first | exact mput_mwf _ _ _ hx | exact memPut_wf _ _ _ hx | exact mwf_filter _ _ hx))

theorem hbmRead_tame (s : State) (x : Nat) (r : HbmReq) (ecc : EccResult) : Tame [.regs, .counters, .events, .fcp, .obs, .hbm, .free] s (State.hbmRead s x r ecc) := by
  unfold State.hbmRead; try dsimp -proj -iota -eta only
  repeat' (first | (show (_ : Bool) = true; decide) | with_reducible exact Tame.refl .. | split | with_reducible apply Tame.then (count_tame ..) | with_reducible apply Tame.then (hbmAnswer_tame ..) | with_reducible apply Tame.then (hbmData_tame ..) | with_reducible refine Tame.thenSnd (hbmData_tame ..) (by assumption) ?_ ?_ | with_reducible apply Tame.then (draw_tame ..) | with_reducible refine Tame.thenSnd (draw_tame ..) (by assumption) ?_ ?_ | with_reducible apply Tame.then (hbmFreeze_tame ..) | with_reducible apply Tame.ite | with_reducible refine Tame.pairEq (by assumption) ?_ | with_reducible refine Tame.pairEqSnd (by assumption) ?_ | with_reducible refine Tame.iteEq (by assumption) (fun _ => ?_) (fun _ => ?_) | with_reducible refine Tame.iteEqSnd (by assumption) (fun _ => ?_) (fun _ => ?_))

theorem hbmResponse_tame (x : Nat) (tag : Nat) (ecc : EccResult) (s : State) : Tame [.regs, .mem, .counters, .events, .fcp, .obs, .hbm, .gov, .free] s (hbmResponse x tag ecc s) := by
  unfold hbmResponse; try dsimp -proj -iota -eta only
  repeat' (first | (show (_ : Bool) = true; decide) | with_reducible exact Tame.refl .. | split | with_reducible refine Tame.then (hbmActivate_tame (by assumption)) ?_ ?_ | with_reducible apply Tame.then (setCtl_tame ..) | with_reducible apply Tame.then (hbmColumns_tame ..) | with_reducible apply Tame.then (hbmStore_tame ..) | with_reducible apply Tame.then (hbmAnswer_tame ..) | with_reducible apply Tame.then (hbmRead_tame ..) | with_reducible apply Tame.then (refreshSettle_tame ..) | with_reducible apply Tame.then (drainEval_tame ..) | with_reducible apply Tame.ite | with_reducible refine Tame.pairEq (by assumption) ?_ | with_reducible refine Tame.pairEqSnd (by assumption) ?_ | with_reducible refine Tame.iteEq (by assumption) (fun _ => ?_) (fun _ => ?_) | with_reducible refine Tame.iteEqSnd (by assumption) (fun _ => ?_) (fun _ => ?_))

theorem openRowTimeout_tame (x : Nat) (bank : Nat) (s : State) : Tame [.counters, .events, .fcp, .obs, .hbm, .free] s (openRowTimeout x bank s) := by
  unfold openRowTimeout
  repeat' (first | (show (_ : Bool) = true; decide) | with_reducible exact Tame.refl .. | with_reducible apply Tame.then (precharge_tame ..) | with_reducible apply Tame.then (refreshSettle_tame ..) | with_reducible apply Tame.ite | split)

theorem fz24WriteAge_tame (x : Nat) (s : State) : Tame [.hbm] s (fz24WriteAge x s) := by
  unfold fz24WriteAge
  repeat' (first | (show (_ : Bool) = true; decide) | with_reducible exact Tame.refl .. | with_reducible apply Tame.then (setCtl_tame ..) | with_reducible apply Tame.ite | split)

theorem refreshDue_tame (x : Nat) (bank : Nat) (s : State) : Tame [.counters, .events, .fcp, .obs, .hbm, .free] s (refreshDue x bank s) := by
  unfold refreshDue
  repeat' (first | (show (_ : Bool) = true; decide) | with_reducible exact Tame.refl .. | with_reducible apply Tame.then (count_tame ..) | with_reducible apply Tame.then (setCtl_tame ..) | with_reducible apply Tame.then (refreshSettle_tame ..) | with_reducible apply Tame.ite | split)

theorem setPass_tame (s : State) (n : Nat) (p : HbmPass) : Tame [.hbm] s (State.setPass s n p) := by
  unfold State.setPass
  repeat' (first | (show (_ : Bool) = true; decide) | with_reducible exact Tame.refl .. | with_reducible apply Tame.ite | with_reducible apply Tame.set_hbm | split)

theorem passStart_tame (s : State) (n : Nat) : Tame [.regs, .hbm] s (State.passStart s n) := by
  unfold State.passStart
  repeat' (first | (show (_ : Bool) = true; decide) | with_reducible exact Tame.refl .. | with_reducible apply Tame.then (setPass_tame ..) | with_reducible apply Tame.then (setFld_tame ..) | with_reducible apply Tame.ite | split)

theorem trainPassStart_tame (n : Nat) (t : Int) (s : State) : Tame [.regs, .hbm] s (trainPassStart n t s) := by
  unfold trainPassStart
  repeat' (first | (show (_ : Bool) = true; decide) | with_reducible exact Tame.refl .. | with_reducible apply Tame.then (setFld_tame ..) | with_reducible apply Tame.then (passStart_tame ..) | with_reducible apply Tame.ite | split)

theorem trainNowWrite_tame (n : Nat) (s : State) : Tame [.regs, .hbm] s (trainNowWrite n s) := by
  unfold trainNowWrite
  repeat' (first | (show (_ : Bool) = true; decide) | with_reducible exact Tame.refl .. | with_reducible apply Tame.then (passStart_tame ..) | with_reducible apply Tame.ite | split)

theorem passNext_tame (s : State) (n : Nat) : Tame [.regs, .hbm] s (State.passNext s n) := by
  unfold State.passNext
  repeat' (first | (show (_ : Bool) = true; decide) | with_reducible exact Tame.refl .. | with_reducible apply Tame.then (setPass_tame ..) | with_reducible apply Tame.then (setFld_tame ..) | with_reducible apply Tame.then (passStart_tame ..) | with_reducible apply Tame.ite | split)

theorem trainPause_tame (x : Nat) (ok : Bool) (s : State) : Tame [.regs, .counters, .events, .fcp, .obs, .hbm, .free] s (trainPause x ok s) := by
  unfold trainPause
  repeat' (first | (show (_ : Bool) = true; decide) | with_reducible exact Tame.refl .. | with_reducible apply Tame.then (passNext_tame ..) | with_reducible apply Tame.then (hbmCmd_tame ..) | with_reducible apply Tame.then (setHbmState_tame ..) | with_reducible apply Tame.then (hbmFreeze_tame ..) | with_reducible apply Tame.ite | split)

theorem trainingPauseEnds_tame (x : Nat) (s : State) : Tame [.regs] s (trainingPauseEnds x s) := by
  unfold trainingPauseEnds
  repeat' (first | (show (_ : Bool) = true; decide) | with_reducible exact Tame.refl .. | with_reducible apply Tame.then (setHbmState_tame ..) | with_reducible apply Tame.ite | split)

theorem retrainFail_tame (s : State) (x : Nat) : Tame [.regs, .counters, .events, .fcp, .obs, .hbm] s (State.retrainFail s x) := by
  unfold State.retrainFail
  repeat' (first | (show (_ : Bool) = true; decide) | with_reducible exact Tame.refl .. | with_reducible apply Tame.then (setCtl_tame ..) | with_reducible apply Tame.then (hbmRetire_tame ..) | with_reducible apply Tame.ite | split)

theorem hbmCaParity_tame (x : Nat) (s : State) : Tame [.regs, .counters, .events, .fcp, .obs, .hbm] s (hbmCaParity x s) := by
  unfold hbmCaParity
  repeat' (first | (show (_ : Bool) = true; decide) | with_reducible exact Tame.refl .. | with_reducible apply Tame.then (count_tame ..) | with_reducible apply Tame.then (retrainFail_tame ..) | with_reducible apply Tame.then (hbmFreeze_tame ..) | with_reducible apply Tame.ite | split)

theorem hbmCmdTimeout_tame (x : Nat) (tag : Nat) (s : State) : Tame [.regs, .counters, .events, .fcp, .obs, .hbm] s (hbmCmdTimeout x tag s) := by
  unfold hbmCmdTimeout; try dsimp -proj -iota -eta only
  repeat' (first | (show (_ : Bool) = true; decide) | with_reducible exact Tame.refl .. | split | with_reducible apply Tame.then (hbmFreeze_tame ..) | with_reducible apply Tame.ite | with_reducible refine Tame.pairEq (by assumption) ?_ | with_reducible refine Tame.pairEqSnd (by assumption) ?_ | with_reducible refine Tame.iteEq (by assumption) (fun _ => ?_) (fun _ => ?_) | with_reducible refine Tame.iteEqSnd (by assumption) (fun _ => ?_) (fun _ => ?_))

theorem hbmReturn_tame (s : State) (x : Nat) : Tame [.regs, .hbm] s (State.hbmReturn s x) := by
  unfold State.hbmReturn
  repeat' (first | (show (_ : Bool) = true; decide) | with_reducible exact Tame.refl .. | with_reducible apply Tame.then (setHbmState_tame ..) | with_reducible apply Tame.then (setCtl_tame ..) | with_reducible apply Tame.ite | split)

theorem hbmDiagnosis_tame (s : State) (x : Nat) : Tame [.regs, .hbm] s (State.hbmDiagnosis s x) := by
  unfold State.hbmDiagnosis
  repeat' (first | (show (_ : Bool) = true; decide) | with_reducible exact Tame.refl .. | with_reducible apply Tame.then (hbmReturn_tame ..) | with_reducible apply Tame.ite | split)

theorem hbmFreezeTimeout_tame (x : Nat) (s : State) : Tame [.regs, .hbm] s (hbmFreezeTimeout x s) := by
  unfold hbmFreezeTimeout
  repeat' (first | (show (_ : Bool) = true; decide) | with_reducible exact Tame.refl .. | with_reducible apply Tame.then (hbmDiagnosis_tame ..) | with_reducible apply Tame.ite | split)

theorem hbmRelease_tame (x : Nat) (s : State) : Tame [.regs, .hbm] s (hbmRelease x s) := by
  unfold hbmRelease
  repeat' (first | (show (_ : Bool) = true; decide) | with_reducible exact Tame.refl .. | with_reducible apply Tame.then (hbmReturn_tame ..) | with_reducible apply Tame.ite | split)

theorem shadowRestore_tame (s : State) (x : Nat) : Tame [.mem] s (State.shadowRestore s x) := by
  unfold State.shadowRestore
  repeat' (first | (show (_ : Bool) = true; decide) | with_reducible exact Tame.refl .. | with_reducible refine Tame.fold ?_ (fun s x => ?_) | with_reducible refine Tame.foldEq (by assumption) ?_ (fun r x => ?_) | with_reducible refine Tame.foldEqSnd (by assumption) ?_ (fun r x => ?_) | with_reducible refine Tame.foldPair ?_ (fun r x => ?_) | with_reducible refine Tame.foldPairSnd ?_ (fun r x => ?_) | with_reducible apply Tame.ite | with_reducible apply Tame.set_mem | split | (intro hx; first | exact mput_mwf _ _ _ hx | exact memPut_wf _ _ _ hx | exact mwf_filter _ _ hx))

theorem tableReturn_tame (s : State) (x : Nat) : Tame [.regs, .mem] s (State.tableReturn s x) := by
  unfold State.tableReturn
  repeat' (first | (show (_ : Bool) = true; decide) | with_reducible exact Tame.refl .. | with_reducible apply Tame.then (shadowRestore_tame ..) | with_reducible apply Tame.then (setFld_tame ..) | with_reducible refine Tame.fold ?_ (fun s x => ?_) | with_reducible refine Tame.foldEq (by assumption) ?_ (fun r x => ?_) | with_reducible refine Tame.foldEqSnd (by assumption) ?_ (fun r x => ?_) | with_reducible refine Tame.foldPair ?_ (fun r x => ?_) | with_reducible refine Tame.foldPairSnd ?_ (fun r x => ?_) | with_reducible apply Tame.ite | split)

theorem counterRewrite_tame (s : State) (x : Nat) : Tame [.counters, .events, .fcp, .obs] s (State.counterRewrite s x) := by
  unfold State.counterRewrite
  repeat' (first | (show (_ : Bool) = true; decide) | with_reducible exact Tame.refl .. | with_reducible apply Tame.then (raise_tame ..) | with_reducible refine Tame.fold ?_ (fun s x => ?_) | with_reducible refine Tame.foldEq (by assumption) ?_ (fun r x => ?_) | with_reducible refine Tame.foldEqSnd (by assumption) ?_ (fun r x => ?_) | with_reducible refine Tame.foldPair ?_ (fun r x => ?_) | with_reducible refine Tame.foldPairSnd ?_ (fun r x => ?_) | with_reducible apply Tame.ite | with_reducible apply Tame.set_obs | split)

theorem hbmRetrainDone_tame (x : Nat) (ok : Bool) (us : Nat) (s : State) : Tame [.regs, .mem, .counters, .events, .fcp, .obs, .traffic, .hbm] s (hbmRetrainDone x ok us s) := by
  unfold hbmRetrainDone
  repeat' (first | (show (_ : Bool) = true; decide) | with_reducible exact Tame.refl .. | with_reducible apply Tame.then (count_tame ..) | with_reducible apply Tame.then (retrainFail_tame ..) | with_reducible apply Tame.then (setHbmState_tame ..) | with_reducible apply Tame.then (setCtl_tame ..) | with_reducible apply Tame.then (raise_tame ..) | with_reducible apply Tame.then (taintTake_tame ..) | with_reducible apply Tame.then (tableReturn_tame ..) | with_reducible apply Tame.then (counterRewrite_tame ..) | with_reducible apply Tame.ite | split)

end Sys2Proof.Machine
end

