-- ==== Sys2Proof/Laws/QueuesFrames.lean ====
section
/-! SUPPORT. The parts that the operations of Machine/Queues may change. -/

namespace Sys2Proof.Machine

set_option linter.all false

theorem setQueue_tame (s : State) (q : Nat) (x : Queue) : Tame [.traffic] s (State.setQueue s q x) := by
  unfold State.setQueue
  repeat' (first | (show (_ : Bool) = true; decide) | with_reducible exact Tame.refl .. | with_reducible apply Tame.ite | with_reducible apply Tame.set_traffic | split)

theorem egrAdd_tame (s : State) (d : Desc) (v : Int) : Tame [.traffic] s (State.egrAdd s d v) := by
  unfold State.egrAdd; try dsimp -proj -iota -eta only
  repeat' (first | (show (_ : Bool) = true; decide) | with_reducible exact Tame.refl .. | split | with_reducible apply Tame.ite | with_reducible refine Tame.pairEq (by assumption) ?_ | with_reducible refine Tame.pairEqSnd (by assumption) ?_ | with_reducible refine Tame.iteEq (by assumption) (fun _ => ?_) (fun _ => ?_) | with_reducible refine Tame.iteEqSnd (by assumption) (fun _ => ?_) (fun _ => ?_) | with_reducible apply Tame.set_traffic)

theorem ingAdd_tame (s : State) (d : Desc) (v : Int) : Tame [.traffic] s (State.ingAdd s d v) := by
  unfold State.ingAdd; try dsimp -proj -iota -eta only
  repeat' (first | (show (_ : Bool) = true; decide) | with_reducible exact Tame.refl .. | split | with_reducible apply Tame.ite | with_reducible refine Tame.pairEq (by assumption) ?_ | with_reducible refine Tame.pairEqSnd (by assumption) ?_ | with_reducible refine Tame.iteEq (by assumption) (fun _ => ?_) (fun _ => ?_) | with_reducible refine Tame.iteEqSnd (by assumption) (fun _ => ?_) (fun _ => ?_) | with_reducible apply Tame.set_traffic)

theorem reserve_tame (s : State) (q : Nat) (req : Nat) (pool : Nat) (size : Nat) : Tame [.regs, .counters, .events, .fcp, .obs, .traffic] s (State.reserve s q req pool size).1 := by
  unfold State.reserve; try dsimp -proj -iota -eta only
  repeat' (first | (show (_ : Bool) = true; decide) | with_reducible exact Tame.refl .. | split | with_reducible apply Tame.then (poolChain_tame ..) | with_reducible refine Tame.thenFst (poolChain_tame ..) (by assumption) ?_ ?_ | with_reducible apply Tame.ite | with_reducible apply Tame.iteFst | with_reducible refine Tame.pairEq (by assumption) ?_ | with_reducible refine Tame.pairEqSnd (by assumption) ?_ | with_reducible refine Tame.iteEq (by assumption) (fun _ => ?_) (fun _ => ?_) | with_reducible refine Tame.iteEqSnd (by assumption) (fun _ => ?_) (fun _ => ?_))

theorem enqueue_tame (s : State) (q : Nat) (r : Rec) (opn : Option (Nat × Nat)) : Tame [.counters, .obs, .traffic] s (State.enqueue s q r opn) := by
  unfold State.enqueue
  repeat' (first | (show (_ : Bool) = true; decide) | with_reducible exact Tame.refl .. | with_reducible apply Tame.then (setQueue_tame ..) | with_reducible apply Tame.then (egrAdd_tame ..) | with_reducible apply Tame.then (ingAdd_tame ..) | with_reducible apply Tame.then (queueCount_tame ..) | with_reducible apply Tame.ite | split)

theorem freeRec_tame (s : State) (q : Nat) (r : Rec) : Tame [.regs, .counters, .events, .fcp, .obs, .traffic] s (State.freeRec s q r) := by
  unfold State.freeRec; try dsimp -proj -iota -eta only
  repeat' (first | (show (_ : Bool) = true; decide) | with_reducible exact Tame.refl .. | split | with_reducible apply Tame.then (setQueue_tame ..) | with_reducible apply Tame.then (poolFree_tame ..) | with_reducible refine Tame.fold ?_ (fun s x => ?_) | with_reducible refine Tame.foldEq (by assumption) ?_ (fun r x => ?_) | with_reducible refine Tame.foldEqSnd (by assumption) ?_ (fun r x => ?_) | with_reducible refine Tame.foldPair ?_ (fun r x => ?_) | with_reducible refine Tame.foldPairSnd ?_ (fun r x => ?_) | with_reducible apply Tame.ite | with_reducible refine Tame.pairEq (by assumption) ?_ | with_reducible refine Tame.pairEqSnd (by assumption) ?_ | with_reducible refine Tame.iteEq (by assumption) (fun _ => ?_) (fun _ => ?_) | with_reducible refine Tame.iteEqSnd (by assumption) (fun _ => ?_) (fun _ => ?_))

theorem setRepl_tame (s : State) (c : Nat) (x : ReplCtx) : Tame [.regs, .traffic] s (State.setRepl s c x) := by
  unfold State.setRepl
  repeat' (first | (show (_ : Bool) = true; decide) | with_reducible exact Tame.refl .. | with_reducible apply Tame.then (setFld_tame ..) | with_reducible apply Tame.ite | with_reducible apply Tame.set_traffic | split)

theorem replSettle_tame (s : State) (c : Nat) : Tame [.regs, .mem, .counters, .events, .fcp, .obs, .lookup, .traffic] s (State.replSettle s c) := by
  unfold State.replSettle
  repeat' (first | (show (_ : Bool) = true; decide) | with_reducible exact Tame.refl .. | with_reducible apply Tame.then (setRepl_tame ..) | with_reducible apply Tame.then (poolFreeAll_tame ..) | with_reducible apply Tame.then (chain_tame ..) | with_reducible refine Tame.thenFst (chain_tame ..) (by assumption) ?_ ?_ | with_reducible apply Tame.then (ingAdd_tame ..) | with_reducible apply Tame.then (epochLeave_tame ..) | with_reducible apply Tame.ite | split)

theorem replRelease_tame (s : State) (c : Nat) : Tame [.regs, .mem, .counters, .events, .fcp, .obs, .lookup, .traffic] s (State.replRelease s c) := by
  unfold State.replRelease
  repeat' (first | (show (_ : Bool) = true; decide) | with_reducible exact Tame.refl .. | with_reducible apply Tame.then (setRepl_tame ..) | with_reducible apply Tame.then (replSettle_tame ..) | with_reducible apply Tame.ite | split)

theorem recLeave_tame (s : State) (r : Rec) (gone : Bool) : Tame [.regs, .mem, .counters, .events, .fcp, .obs, .lookup, .traffic] s (State.recLeave s r gone) := by
  unfold State.recLeave; try dsimp -proj -iota -eta only
  repeat' (first | (show (_ : Bool) = true; decide) | with_reducible exact Tame.refl .. | split | with_reducible apply Tame.then (ingAdd_tame ..) | with_reducible apply Tame.then (replRelease_tame ..) | with_reducible apply Tame.then (epochLeave_tame ..) | with_reducible apply Tame.ite | with_reducible refine Tame.pairEq (by assumption) ?_ | with_reducible refine Tame.pairEqSnd (by assumption) ?_ | with_reducible refine Tame.iteEq (by assumption) (fun _ => ?_) (fun _ => ?_) | with_reducible refine Tame.iteEqSnd (by assumption) (fun _ => ?_) (fun _ => ?_))

theorem popHead_tame (s : State) (q : Nat) : Tame [.traffic] s (State.popHead s q) := by
  unfold State.popHead; try dsimp -proj -iota -eta only
  repeat' (first | (show (_ : Bool) = true; decide) | with_reducible exact Tame.refl .. | split | with_reducible apply Tame.then (setQueue_tame ..) | with_reducible apply Tame.then (egrAdd_tame ..) | with_reducible apply Tame.ite | with_reducible refine Tame.pairEq (by assumption) ?_ | with_reducible refine Tame.pairEqSnd (by assumption) ?_ | with_reducible refine Tame.iteEq (by assumption) (fun _ => ?_) (fun _ => ?_) | with_reducible refine Tame.iteEqSnd (by assumption) (fun _ => ?_) (fun _ => ?_))

theorem headClean_tame (s : State) (q : Nat) (n : Nat) : Tame [.regs, .mem, .counters, .events, .fcp, .obs, .lookup, .traffic] s (State.headClean s q n) := by
  induction n generalizing s with
  | zero => exact Tame.refl ..
  | succ n ih =>
    unfold State.headClean; try dsimp -proj -iota -eta only
    repeat' (first | (show (_ : Bool) = true; decide) | with_reducible exact Tame.refl .. | with_reducible apply Tame.ite | with_reducible apply Tame.iteFst | split | with_reducible apply Tame.then (ih ..) | with_reducible apply Tame.then (popHead_tame ..) | with_reducible apply Tame.then (queueCount_tame ..) | with_reducible apply Tame.then (count_tame ..) | with_reducible apply Tame.then (freeRec_tame ..) | with_reducible apply Tame.then (recLeave_tame ..) | with_reducible refine Tame.thenFst (ih ..) (by assumption) ?_ ?_ | with_reducible refine Tame.thenFst (popHead_tame ..) (by assumption) ?_ ?_ | with_reducible refine Tame.thenFst (queueCount_tame ..) (by assumption) ?_ ?_ | with_reducible refine Tame.thenFst (count_tame ..) (by assumption) ?_ ?_ | with_reducible refine Tame.thenFst (freeRec_tame ..) (by assumption) ?_ ?_ | with_reducible refine Tame.thenFst (recLeave_tame ..) (by assumption) ?_ ?_)

theorem cleanHead_tame (s : State) (q : Nat) : Tame [.regs, .mem, .counters, .events, .fcp, .obs, .lookup, .traffic] s (State.cleanHead s q) := by
  unfold State.cleanHead
  repeat' (first | (show (_ : Bool) = true; decide) | with_reducible exact Tame.refl .. | with_reducible apply Tame.then (headClean_tame ..) | with_reducible apply Tame.ite | split)

theorem flushRegs_tame (s : State) : Tame [.regs] s (State.flushRegs s) := by
  unfold State.flushRegs
  repeat' (first | (show (_ : Bool) = true; decide) | with_reducible exact Tame.refl .. | with_reducible apply Tame.then (setFld_tame ..) | with_reducible apply Tame.ite | split)

theorem detach_tame (s : State) (q : Nat) (port : Option Nat) (c : Ctr) : Tame [.regs, .counters, .events, .fcp, .obs, .traffic] s (State.detach s q port c) := by
  unfold State.detach; try dsimp -proj -iota -eta only
  repeat' (first | (show (_ : Bool) = true; decide) | with_reducible exact Tame.refl .. | split | with_reducible apply Tame.then (setQueue_tame ..) | with_reducible apply Tame.then (epochLeave_tame ..) | with_reducible apply Tame.then (egrAdd_tame ..) | with_reducible apply Tame.then (ingAdd_tame ..) | with_reducible apply Tame.then (queueCount_tame ..) | with_reducible apply Tame.then (flushRegs_tame ..) | with_reducible apply Tame.then (countN_tame ..) | with_reducible refine Tame.fold ?_ (fun s x => ?_) | with_reducible refine Tame.foldEq (by assumption) ?_ (fun r x => ?_) | with_reducible refine Tame.foldEqSnd (by assumption) ?_ (fun r x => ?_) | with_reducible refine Tame.foldPair ?_ (fun r x => ?_) | with_reducible refine Tame.foldPairSnd ?_ (fun r x => ?_) | with_reducible apply Tame.ite | with_reducible refine Tame.pairEq (by assumption) ?_ | with_reducible refine Tame.pairEqSnd (by assumption) ?_ | with_reducible refine Tame.iteEq (by assumption) (fun _ => ?_) (fun _ => ?_) | with_reducible refine Tame.iteEqSnd (by assumption) (fun _ => ?_) (fun _ => ?_) | with_reducible apply Tame.set_traffic)

theorem detachOrWait_tame (s : State) (q : Nat) (port : Nat) (isLocal : Bool) (c : Ctr) : Tame [.regs, .counters, .events, .fcp, .obs, .traffic] s (State.detachOrWait s q port isLocal c) := by
  unfold State.detachOrWait
  repeat' (first | (show (_ : Bool) = true; decide) | with_reducible exact Tame.refl .. | with_reducible apply Tame.then (detach_tame ..) | with_reducible apply Tame.then (setQueue_tame ..) | with_reducible apply Tame.then (raise_tame ..) | with_reducible apply Tame.ite | with_reducible apply Tame.set_traffic | split)

theorem surrenderAll_tame (s : State) (q : Nat) : Tame [.traffic] s (State.surrenderAll s q) := by
  unfold State.surrenderAll
  repeat' (first | (show (_ : Bool) = true; decide) | with_reducible exact Tame.refl .. | with_reducible apply Tame.then (setQueue_tame ..) | with_reducible apply Tame.ite | split)

theorem closeVoqs_tame (s : State) (dev : Nat) (port : Nat) : Tame [.regs, .counters, .events, .fcp, .obs, .traffic] s (State.closeVoqs s dev port) := by
  unfold State.closeVoqs; try dsimp -proj -iota -eta only
  repeat' (first | (show (_ : Bool) = true; decide) | with_reducible exact Tame.refl .. | split | with_reducible apply Tame.then (detachOrWait_tame ..) | with_reducible apply Tame.then (surrenderAll_tame ..) | with_reducible refine Tame.fold ?_ (fun s x => ?_) | with_reducible refine Tame.foldEq (by assumption) ?_ (fun r x => ?_) | with_reducible refine Tame.foldEqSnd (by assumption) ?_ (fun r x => ?_) | with_reducible refine Tame.foldPair ?_ (fun r x => ?_) | with_reducible refine Tame.foldPairSnd ?_ (fun r x => ?_) | with_reducible apply Tame.ite | with_reducible refine Tame.pairEq (by assumption) ?_ | with_reducible refine Tame.pairEqSnd (by assumption) ?_ | with_reducible refine Tame.iteEq (by assumption) (fun _ => ?_) (fun _ => ?_) | with_reducible refine Tame.iteEqSnd (by assumption) (fun _ => ?_) (fun _ => ?_))

end Sys2Proof.Machine
end

