-- ==== Sys2Proof/Laws/BuffersFrames.lean ====
section
/-! SUPPORT. The parts that the operations of Machine/Buffers may change. -/

namespace Sys2Proof.Machine

set_option linter.all false

theorem refuse_tame (s : State) (d : Desc) (q : Option Nat) (c : Ctr) : Tame [.regs, .counters, .events, .fcp, .obs] s (State.refuse s d q c) := by
  unfold State.refuse; try dsimp -proj -iota -eta only
  repeat' (first | (show (_ : Bool) = true; decide) | with_reducible exact Tame.refl .. | split | with_reducible apply Tame.then (count_tame ..) | with_reducible apply Tame.then (filterCount_tame ..) | with_reducible apply Tame.then (queueCount_tame ..) | with_reducible apply Tame.then (raiseLimited_tame ..) | with_reducible apply Tame.then (epochLeave_tame ..) | with_reducible apply Tame.ite | with_reducible refine Tame.pairEq (by assumption) ?_ | with_reducible refine Tame.pairEqSnd (by assumption) ?_ | with_reducible refine Tame.iteEq (by assumption) (fun _ => ?_) (fun _ => ?_) | with_reducible refine Tame.iteEqSnd (by assumption) (fun _ => ?_) (fun _ => ?_))

theorem admitted_tame (s : State) (d : Desc) (q : Option Nat) : Tame [.counters] s (State.admitted s d q) := by
  unfold State.admitted; try dsimp -proj -iota -eta only
  repeat' (first | (show (_ : Bool) = true; decide) | with_reducible exact Tame.refl .. | split | with_reducible apply Tame.then (count_tame ..) | with_reducible apply Tame.then (filterCount_tame ..) | with_reducible apply Tame.then (portCount_tame ..) | with_reducible apply Tame.ite | with_reducible refine Tame.pairEq (by assumption) ?_ | with_reducible refine Tame.pairEqSnd (by assumption) ?_ | with_reducible refine Tame.iteEq (by assumption) (fun _ => ?_) (fun _ => ?_) | with_reducible refine Tame.iteEqSnd (by assumption) (fun _ => ?_) (fun _ => ?_))

theorem newStream_tame (s : State) : Tame [.traffic] s (State.newStream s).2 := by
  unfold State.newStream
  repeat' (first | (show (_ : Bool) = true; decide) | with_reducible exact Tame.refl .. | with_reducible apply Tame.ite | with_reducible apply Tame.iteSnd | with_reducible apply Tame.set_traffic | split)

theorem enqueueChain_tame (s : State) (q : Nat) (d : Desc) (chain : List Nat) : Tame [.regs, .mem, .counters, .obs, .lookup, .traffic] s (State.enqueueChain s q d chain) := by
  unfold State.enqueueChain
  repeat' (first | (show (_ : Bool) = true; decide) | with_reducible exact Tame.refl .. | with_reducible apply Tame.then (enqueue_tame ..) | with_reducible apply Tame.then (chain_tame ..) | with_reducible refine Tame.thenFst (chain_tame ..) (by assumption) ?_ ?_ | with_reducible apply Tame.ite | split)

theorem replBegin_tame (s : State) (d : Desc) : Tame [.regs, .counters, .events, .fcp, .obs, .traffic] s (State.replBegin s d) := by
  unfold State.replBegin; try dsimp -proj -iota -eta only
  repeat' (first | (show (_ : Bool) = true; decide) | with_reducible exact Tame.refl .. | split | with_reducible apply Tame.then (refuse_tame ..) | with_reducible apply Tame.then (count_tame ..) | with_reducible apply Tame.then (raiseLimited_tame ..) | with_reducible apply Tame.then (epochLeave_tame ..) | with_reducible apply Tame.then (poolChain_tame ..) | with_reducible refine Tame.thenFst (poolChain_tame ..) (by assumption) ?_ ?_ | with_reducible apply Tame.then (setRepl_tame ..) | with_reducible apply Tame.then (ingAdd_tame ..) | with_reducible apply Tame.then (admitted_tame ..) | with_reducible apply Tame.ite | with_reducible refine Tame.pairEq (by assumption) ?_ | with_reducible refine Tame.pairEqSnd (by assumption) ?_ | with_reducible refine Tame.iteEq (by assumption) (fun _ => ?_) (fun _ => ?_) | with_reducible refine Tame.iteEqSnd (by assumption) (fun _ => ?_) (fun _ => ?_))

theorem setStreams_tame (s : State) (k : Nat) (l : List Stream) : Tame [.traffic] s (State.setStreams s k l) := by
  unfold State.setStreams
  repeat' (first | (show (_ : Bool) = true; decide) | with_reducible exact Tame.refl .. | with_reducible apply Tame.ite | with_reducible apply Tame.set_traffic | split)

theorem admitWhole_tame (s : State) (d : Desc) (q : Nat) : Tame [.regs, .counters, .events, .fcp, .obs, .traffic] s (State.admitWhole s d q) := by
  unfold State.admitWhole; try dsimp -proj -iota -eta only
  repeat' (first | (show (_ : Bool) = true; decide) | with_reducible exact Tame.refl .. | split | with_reducible apply Tame.then (reserve_tame ..) | with_reducible refine Tame.thenFst (reserve_tame ..) (by assumption) ?_ ?_ | with_reducible apply Tame.then (refuse_tame ..) | with_reducible apply Tame.then (enqueue_tame ..) | with_reducible apply Tame.then (admitted_tame ..) | with_reducible apply Tame.ite | with_reducible refine Tame.pairEq (by assumption) ?_ | with_reducible refine Tame.pairEqSnd (by assumption) ?_ | with_reducible refine Tame.iteEq (by assumption) (fun _ => ?_) (fun _ => ?_) | with_reducible refine Tame.iteEqSnd (by assumption) (fun _ => ?_) (fun _ => ?_))

theorem admitHead_tame (s : State) (k : Nat) (d : Desc) (q : Nat) : Tame [.regs, .mem, .counters, .events, .fcp, .obs, .lookup, .traffic] s (State.admitHead s k d q) := by
  unfold State.admitHead; try dsimp -proj -iota -eta only
  repeat' (first | (show (_ : Bool) = true; decide) | with_reducible exact Tame.refl .. | split | with_reducible apply Tame.then (poolGrant_tame ..) | with_reducible refine Tame.thenFst (poolGrant_tame ..) (by assumption) ?_ ?_ | with_reducible apply Tame.then (refuse_tame ..) | with_reducible apply Tame.then (newStream_tame ..) | with_reducible refine Tame.thenSnd (newStream_tame ..) (by assumption) ?_ ?_ | with_reducible apply Tame.then (setStreams_tame ..) | with_reducible apply Tame.then (enqueueChain_tame ..) | with_reducible apply Tame.then (admitted_tame ..) | with_reducible apply Tame.ite | with_reducible refine Tame.pairEq (by assumption) ?_ | with_reducible refine Tame.pairEqSnd (by assumption) ?_ | with_reducible refine Tame.iteEq (by assumption) (fun _ => ?_) (fun _ => ?_) | with_reducible refine Tame.iteEqSnd (by assumption) (fun _ => ?_) (fun _ => ?_))

theorem admitFabric_tame (s : State) (d : Desc) (q : Nat) : Tame [.regs, .mem, .counters, .events, .fcp, .obs, .lookup, .traffic] s (State.admitFabric s d q) := by
  unfold State.admitFabric; try dsimp -proj -iota -eta only
  repeat' (first | (show (_ : Bool) = true; decide) | with_reducible exact Tame.refl .. | split | with_reducible apply Tame.then (poolChain_tame ..) | with_reducible refine Tame.thenFst (poolChain_tame ..) (by assumption) ?_ ?_ | with_reducible apply Tame.then (refuse_tame ..) | with_reducible apply Tame.then (poolFreeAll_tame ..) | with_reducible apply Tame.then (count_tame ..) | with_reducible apply Tame.then (newStream_tame ..) | with_reducible refine Tame.thenSnd (newStream_tame ..) (by assumption) ?_ ?_ | with_reducible apply Tame.then (enqueueChain_tame ..) | with_reducible apply Tame.then (admitted_tame ..) | with_reducible apply Tame.ite | with_reducible refine Tame.pairEq (by assumption) ?_ | with_reducible refine Tame.pairEqSnd (by assumption) ?_ | with_reducible refine Tame.iteEq (by assumption) (fun _ => ?_) (fun _ => ?_) | with_reducible refine Tame.iteEqSnd (by assumption) (fun _ => ?_) (fun _ => ?_))

theorem admitPacket_tame (s : State) (k : Nat) (fab : Bool) (d : Desc) : Tame [.regs, .mem, .counters, .events, .fcp, .obs, .lookup, .traffic] s (State.admitPacket s k fab d) := by
  unfold State.admitPacket; try dsimp -proj -iota -eta only
  repeat' (first | (show (_ : Bool) = true; decide) | with_reducible exact Tame.refl .. | split | with_reducible apply Tame.then (epochLeave_tame ..) | with_reducible apply Tame.then (refuse_tame ..) | with_reducible apply Tame.then (replBegin_tame ..) | with_reducible apply Tame.then (newStream_tame ..) | with_reducible refine Tame.thenSnd (newStream_tame ..) (by assumption) ?_ ?_ | with_reducible apply Tame.then (setStreams_tame ..) | with_reducible apply Tame.then (raiseLimited_tame ..) | with_reducible apply Tame.then (admitWhole_tame ..) | with_reducible apply Tame.then (admitFabric_tame ..) | with_reducible apply Tame.then (admitHead_tame ..) | with_reducible apply Tame.ite | with_reducible refine Tame.pairEq (by assumption) ?_ | with_reducible refine Tame.pairEqSnd (by assumption) ?_ | with_reducible refine Tame.iteEq (by assumption) (fun _ => ?_) (fun _ => ?_) | with_reducible refine Tame.iteEqSnd (by assumption) (fun _ => ?_) (fun _ => ?_))

theorem packetAdmit_tame (k : Nat) (fromFabric : Bool) (s : State) : Tame [.regs, .mem, .counters, .events, .fcp, .obs, .lookup, .traffic, .fabric] s (packetAdmit k fromFabric s) := by
  unfold packetAdmit; try dsimp -proj -iota -eta only
  repeat' (first | (show (_ : Bool) = true; decide) | with_reducible exact Tame.refl .. | split | with_reducible apply Tame.then (admitPacket_tame ..) | with_reducible apply Tame.then (unpark_tame ..) | with_reducible apply Tame.ite | with_reducible refine Tame.pairEq (by assumption) ?_ | with_reducible refine Tame.pairEqSnd (by assumption) ?_ | with_reducible refine Tame.iteEq (by assumption) (fun _ => ?_) (fun _ => ?_) | with_reducible refine Tame.iteEqSnd (by assumption) (fun _ => ?_) (fun _ => ?_) | with_reducible apply Tame.set_lookup | with_reducible apply Tame.set_fabric | with_reducible apply Tame.set_fabric_lookup)

theorem streamMark_tame (s : State) (n : Nat) (q : Nat) (bufs : List Nat) (bad : Bool) : Tame [.line, .lookup, .traffic, .fabric] s (State.streamMark s n q bufs bad) := by
  unfold State.streamMark
  repeat' (first | (show (_ : Bool) = true; decide) | with_reducible exact Tame.refl .. | with_reducible apply Tame.then (setQueue_tame ..) | with_reducible apply Tame.ite | with_reducible apply Tame.set_line | with_reducible apply Tame.set_lookup | with_reducible apply Tame.set_traffic | with_reducible apply Tame.set_fabric | with_reducible apply Tame.set_fabric_lookup | with_reducible apply Tame.set_fabric_line | with_reducible apply Tame.set_traffic_fabric_lookup_line | split)

theorem streamTail_tame (k : Nat) (bad : Bool) (s : State) : Tame [.regs, .mem, .counters, .events, .fcp, .obs, .line, .lookup, .traffic, .fabric] s (streamTail k bad s) := by
  unfold streamTail; try dsimp -proj -iota -eta only
  repeat' (first | (show (_ : Bool) = true; decide) | with_reducible exact Tame.refl .. | split | with_reducible apply Tame.then (setStreams_tame ..) | with_reducible apply Tame.then (refuse_tame ..) | with_reducible apply Tame.then (replBegin_tame ..) | with_reducible apply Tame.then (chain_tame ..) | with_reducible refine Tame.thenFst (chain_tame ..) (by assumption) ?_ ?_ | with_reducible apply Tame.then (poolChain_tame ..) | with_reducible refine Tame.thenFst (poolChain_tame ..) (by assumption) ?_ ?_ | with_reducible apply Tame.then (streamMark_tame ..) | with_reducible apply Tame.then (count_tame ..) | with_reducible apply Tame.then (poolFreeAll_tame ..) | with_reducible apply Tame.then (enqueueChain_tame ..) | with_reducible apply Tame.ite | with_reducible refine Tame.pairEq (by assumption) ?_ | with_reducible refine Tame.pairEqSnd (by assumption) ?_ | with_reducible refine Tame.iteEq (by assumption) (fun _ => ?_) (fun _ => ?_) | with_reducible refine Tame.iteEqSnd (by assumption) (fun _ => ?_) (fun _ => ?_))

theorem setDeparting_tame (s : State) (n : Nat) (l : List (Nat × Rec)) : Tame [.traffic] s (State.setDeparting s n l) := by
  unfold State.setDeparting
  repeat' (first | (show (_ : Bool) = true; decide) | with_reducible exact Tame.refl .. | with_reducible apply Tame.ite | with_reducible apply Tame.set_traffic | split)

theorem winLess_tame (s : State) (n : Nat) (w : Nat) : Tame [.traffic] s (State.winLess s n w) := by
  unfold State.winLess
  repeat' (first | (show (_ : Bool) = true; decide) | with_reducible exact Tame.refl .. | with_reducible apply Tame.ite | with_reducible apply Tame.set_traffic | split)

theorem deliver_tame (s : State) (n : Nat) (d : Desc) : Tame [.counters, .events, .fcp, .obs, .lookup, .traffic] s (State.deliver s n d) := by
  unfold State.deliver; try dsimp -proj -iota -eta only
  repeat' (first | (show (_ : Bool) = true; decide) | with_reducible exact Tame.refl .. | split | with_reducible apply Tame.then (portCount_tame ..) | with_reducible apply Tame.then (winLess_tame ..) | with_reducible apply Tame.then (tele_tame ..) | with_reducible apply Tame.ite | with_reducible refine Tame.pairEq (by assumption) ?_ | with_reducible refine Tame.pairEqSnd (by assumption) ?_ | with_reducible refine Tame.iteEq (by assumption) (fun _ => ?_) (fun _ => ?_) | with_reducible refine Tame.iteEqSnd (by assumption) (fun _ => ?_) (fun _ => ?_) | with_reducible apply Tame.set_lookup | with_reducible apply Tame.set_traffic)

theorem packetDepart_tame (n : Nat) (s : State) : Tame [.regs, .mem, .counters, .events, .fcp, .obs, .lookup, .traffic] s (packetDepart n s) := by
  unfold packetDepart; try dsimp -proj -iota -eta only
  repeat' (first | (show (_ : Bool) = true; decide) | with_reducible exact Tame.refl .. | split | with_reducible apply Tame.then (setDeparting_tame ..) | with_reducible apply Tame.then (freeRec_tame ..) | with_reducible apply Tame.then (recLeave_tame ..) | with_reducible apply Tame.then (deliver_tame ..) | with_reducible apply Tame.ite | with_reducible refine Tame.pairEq (by assumption) ?_ | with_reducible refine Tame.pairEqSnd (by assumption) ?_ | with_reducible refine Tame.iteEq (by assumption) (fun _ => ?_) (fun _ => ?_) | with_reducible refine Tame.iteEqSnd (by assumption) (fun _ => ?_) (fun _ => ?_))

theorem bufferReadError_tame (voq : Bool) (n : Nat) (status : Nat) (s : State) : Tame [.regs, .mem, .counters, .events, .fcp, .obs, .line, .lookup, .traffic, .fabric, .free] s (bufferReadError voq n status s) := by
  unfold bufferReadError; try dsimp -proj -iota -eta only
  repeat' (first | (show (_ : Bool) = true; decide) | with_reducible exact Tame.refl .. | split | with_reducible apply Tame.then (draw_tame ..) | with_reducible refine Tame.thenSnd (draw_tame ..) (by assumption) ?_ ?_ | with_reducible apply Tame.then (count_tame ..) | with_reducible apply Tame.then (setDeparting_tame ..) | with_reducible apply Tame.then (freeRec_tame ..) | with_reducible apply Tame.then (recLeave_tame ..) | with_reducible apply Tame.then (winLess_tame ..) | with_reducible apply Tame.then (queueCount_tame ..) | with_reducible apply Tame.then (setPort_tame ..) | with_reducible apply Tame.ite | with_reducible refine Tame.pairEq (by assumption) ?_ | with_reducible refine Tame.pairEqSnd (by assumption) ?_ | with_reducible refine Tame.iteEq (by assumption) (fun _ => ?_) (fun _ => ?_) | with_reducible refine Tame.iteEqSnd (by assumption) (fun _ => ?_) (fun _ => ?_) | with_reducible apply Tame.set_fabric)

theorem quotaWrite_tame (r : Nat) (onDieQ : Nat) (hbmQ : Nat) (s : State) : Tame [.regs, .counters, .events, .fcp, .obs] s (quotaWrite r onDieQ hbmQ s) := by
  unfold quotaWrite
  repeat' (first | (show (_ : Bool) = true; decide) | with_reducible exact Tame.refl .. | with_reducible apply Tame.then (setFld_tame ..) | with_reducible apply Tame.then (raise_tame ..) | with_reducible apply Tame.then (overClear_tame ..) | with_reducible apply Tame.ite | split)

theorem portQueuesClose_tame (p : Nat) (s : State) : Tame [.regs, .counters, .events, .fcp, .obs, .line, .traffic] s (portQueuesClose p s) := by
  unfold portQueuesClose
  repeat' (first | (show (_ : Bool) = true; decide) | with_reducible exact Tame.refl .. | with_reducible apply Tame.then (setFld_tame ..) | with_reducible apply Tame.then (detachOrWait_tame ..) | with_reducible apply Tame.then (closeVoqs_tame ..) | with_reducible refine Tame.fold ?_ (fun s x => ?_) | with_reducible refine Tame.foldEq (by assumption) ?_ (fun r x => ?_) | with_reducible refine Tame.foldEqSnd (by assumption) ?_ (fun r x => ?_) | with_reducible refine Tame.foldPair ?_ (fun r x => ?_) | with_reducible refine Tame.foldPairSnd ?_ (fun r x => ?_) | with_reducible apply Tame.ite | with_reducible apply Tame.set_line | split)

theorem voqCloseOnNotice_tame (dev : Nat) (port : Nat) (s : State) : Tame [.regs, .counters, .events, .fcp, .obs, .traffic, .fabric] s (voqCloseOnNotice dev port s) := by
  unfold voqCloseOnNotice
  repeat' (first | (show (_ : Bool) = true; decide) | with_reducible exact Tame.refl .. | with_reducible apply Tame.then (closeVoqs_tame ..) | with_reducible apply Tame.then (raise_tame ..) | with_reducible apply Tame.ite | with_reducible apply Tame.set_fabric | split)

theorem flushChainFree_tame (s : State) : Tame [.regs, .mem, .counters, .events, .fcp, .obs, .lookup, .traffic] s (flushChainFree s) := by
  unfold flushChainFree; try dsimp -proj -iota -eta only
  repeat' (first | (show (_ : Bool) = true; decide) | with_reducible exact Tame.refl .. | split | with_reducible apply Tame.then (poolFreeAll_tame ..) | with_reducible apply Tame.then (countN_tame ..) | with_reducible apply Tame.then (replRelease_tame ..) | with_reducible apply Tame.then (flushRegs_tame ..) | with_reducible apply Tame.then (raise_tame ..) | with_reducible refine Tame.fold ?_ (fun s x => ?_) | with_reducible refine Tame.foldEq (by assumption) ?_ (fun r x => ?_) | with_reducible refine Tame.foldEqSnd (by assumption) ?_ (fun r x => ?_) | with_reducible refine Tame.foldPair ?_ (fun r x => ?_) | with_reducible refine Tame.foldPairSnd ?_ (fun r x => ?_) | with_reducible apply Tame.ite | with_reducible refine Tame.pairEq (by assumption) ?_ | with_reducible refine Tame.pairEqSnd (by assumption) ?_ | with_reducible refine Tame.iteEq (by assumption) (fun _ => ?_) (fun _ => ?_) | with_reducible refine Tame.iteEqSnd (by assumption) (fun _ => ?_) (fun _ => ?_) | with_reducible apply Tame.set_traffic)

theorem flushListAdmit_tame (s : State) : Tame [.regs, .counters, .events, .fcp, .obs, .traffic] s (flushListAdmit s) := by
  unfold flushListAdmit; try dsimp -proj -iota -eta only
  repeat' (first | (show (_ : Bool) = true; decide) | with_reducible exact Tame.refl .. | split | with_reducible apply Tame.then (detach_tame ..) | with_reducible apply Tame.ite | with_reducible refine Tame.pairEq (by assumption) ?_ | with_reducible refine Tame.pairEqSnd (by assumption) ?_ | with_reducible refine Tame.iteEq (by assumption) (fun _ => ?_) (fun _ => ?_) | with_reducible refine Tame.iteEqSnd (by assumption) (fun _ => ?_) (fun _ => ?_) | with_reducible apply Tame.set_traffic)

end Sys2Proof.Machine
end

