-- ==== Sys2Proof/Laws/EgressFrames.lean ====
section
/-! SUPPORT. The parts that the operations of Machine/Egress may change. -/

namespace Sys2Proof.Machine

set_option linter.all false

theorem typeOf_tame (s : State) (b : Bytes) : Tame [.free] s (State.typeOf s b).2 := by
  unfold State.typeOf; try dsimp -proj -iota -eta only
  repeat' (first | (show (_ : Bool) = true; decide) | with_reducible exact Tame.refl .. | split | with_reducible apply Tame.then (draw_tame ..) | with_reducible refine Tame.thenSnd (draw_tame ..) (by assumption) ?_ ?_ | with_reducible apply Tame.ite | with_reducible apply Tame.iteSnd | with_reducible refine Tame.pairEq (by assumption) ?_ | with_reducible refine Tame.pairEqSnd (by assumption) ?_ | with_reducible refine Tame.iteEq (by assumption) (fun _ => ?_) (fun _ => ?_) | with_reducible refine Tame.iteEqSnd (by assumption) (fun _ => ?_) (fun _ => ?_))

theorem parts_tame (s : State) (d : Desc) : Tame [.free] s (State.parts s d).2 := by
  unfold State.parts; try dsimp -proj -iota -eta only
  repeat' (first | (show (_ : Bool) = true; decide) | with_reducible exact Tame.refl .. | split | with_reducible apply Tame.then (typeOf_tame ..) | with_reducible refine Tame.thenSnd (typeOf_tame ..) (by assumption) ?_ ?_ | with_reducible apply Tame.ite | with_reducible apply Tame.iteSnd | with_reducible refine Tame.pairEq (by assumption) ?_ | with_reducible refine Tame.pairEqSnd (by assumption) ?_ | with_reducible refine Tame.iteEq (by assumption) (fun _ => ?_) (fun _ => ?_) | with_reducible refine Tame.iteEqSnd (by assumption) (fun _ => ?_) (fun _ => ?_))

theorem labelStep_tame (s : State) (op : Nat) (newLabel : Nat) (p : Parts) : Tame [.free] s (State.labelStep s op newLabel p).2 := by
  unfold State.labelStep; try dsimp -proj -iota -eta only
  repeat' (first | (show (_ : Bool) = true; decide) | with_reducible exact Tame.refl .. | split | with_reducible apply Tame.then (typeOf_tame ..) | with_reducible refine Tame.thenSnd (typeOf_tame ..) (by assumption) ?_ ?_ | with_reducible apply Tame.ite | with_reducible apply Tame.iteSnd | with_reducible refine Tame.pairEq (by assumption) ?_ | with_reducible refine Tame.pairEqSnd (by assumption) ?_ | with_reducible refine Tame.iteEq (by assumption) (fun _ => ?_) (fun _ => ?_) | with_reducible refine Tame.iteEqSnd (by assumption) (fun _ => ?_) (fun _ => ?_))

theorem ttlBelow_tame (s : State) (p : Parts) : Tame [.free] s (State.ttlBelow s p).2 := by
  unfold State.ttlBelow; try dsimp -proj -iota -eta only
  repeat' (first | (show (_ : Bool) = true; decide) | with_reducible exact Tame.refl .. | split | with_reducible apply Tame.then (draw_tame ..) | with_reducible refine Tame.thenSnd (draw_tame ..) (by assumption) ?_ ?_ | with_reducible apply Tame.ite | with_reducible apply Tame.iteSnd | with_reducible refine Tame.pairEq (by assumption) ?_ | with_reducible refine Tame.pairEqSnd (by assumption) ?_ | with_reducible refine Tame.iteEq (by assumption) (fun _ => ?_) (fun _ => ?_) | with_reducible refine Tame.iteEqSnd (by assumption) (fun _ => ?_) (fun _ => ?_))

theorem push_tame (s : State) (tc : Nat) (label : Nat) (p : Parts) : Tame [.free] s (State.push s tc label p).2 := by
  unfold State.push; try dsimp -proj -iota -eta only
  repeat' (first | (show (_ : Bool) = true; decide) | with_reducible exact Tame.refl .. | split | with_reducible apply Tame.then (ttlBelow_tame ..) | with_reducible refine Tame.thenSnd (ttlBelow_tame ..) (by assumption) ?_ ?_ | with_reducible apply Tame.ite | with_reducible apply Tame.iteSnd | with_reducible refine Tame.pairEq (by assumption) ?_ | with_reducible refine Tame.pairEqSnd (by assumption) ?_ | with_reducible refine Tame.iteEq (by assumption) (fun _ => ?_) (fun _ => ?_) | with_reducible refine Tame.iteEqSnd (by assumption) (fun _ => ?_) (fun _ => ?_))

theorem vxlan_tame (s : State) (e : Nat) (i : Nat) (spread : Nat) (inner : Bytes) : Tame [.free] s (State.vxlan s e i spread inner).2 := by
  unfold State.vxlan; try dsimp -proj -iota -eta only
  repeat' (first | (show (_ : Bool) = true; decide) | with_reducible exact Tame.refl .. | split | with_reducible apply Tame.then (draw_tame ..) | with_reducible refine Tame.thenSnd (draw_tame ..) (by assumption) ?_ ?_ | with_reducible apply Tame.ite | with_reducible apply Tame.iteSnd | with_reducible refine Tame.pairEq (by assumption) ?_ | with_reducible refine Tame.pairEqSnd (by assumption) ?_ | with_reducible refine Tame.iteEq (by assumption) (fun _ => ?_) (fun _ => ?_) | with_reducible refine Tame.iteEqSnd (by assumption) (fun _ => ?_) (fun _ => ?_))

theorem encapsulate_tame (s : State) (d : Desc) (i : Nat) (p : Parts) : Tame [.free] s (State.encapsulate s d i p).2 := by
  unfold State.encapsulate; try dsimp -proj -iota -eta only
  repeat' (first | (show (_ : Bool) = true; decide) | with_reducible exact Tame.refl .. | split | with_reducible apply Tame.then (push_tame ..) | with_reducible refine Tame.thenSnd (push_tame ..) (by assumption) ?_ ?_ | with_reducible apply Tame.then (vxlan_tame ..) | with_reducible refine Tame.thenSnd (vxlan_tame ..) (by assumption) ?_ ?_ | with_reducible apply Tame.ite | with_reducible apply Tame.iteSnd | with_reducible refine Tame.pairEq (by assumption) ?_ | with_reducible refine Tame.pairEqSnd (by assumption) ?_ | with_reducible refine Tame.iteEq (by assumption) (fun _ => ?_) (fun _ => ?_) | with_reducible refine Tame.iteEqSnd (by assumption) (fun _ => ?_) (fun _ => ?_))

theorem rewrite_tame (s : State) (d : Desc) : Tame [.free] s (State.rewrite s d).2 := by
  unfold State.rewrite; try dsimp -proj -iota -eta only
  repeat' (first | (show (_ : Bool) = true; decide) | with_reducible exact Tame.refl .. | split | with_reducible apply Tame.then (parts_tame ..) | with_reducible refine Tame.thenSnd (parts_tame ..) (by assumption) ?_ ?_ | with_reducible apply Tame.then (labelStep_tame ..) | with_reducible refine Tame.thenSnd (labelStep_tame ..) (by assumption) ?_ ?_ | with_reducible apply Tame.then (encapsulate_tame ..) | with_reducible refine Tame.thenSnd (encapsulate_tame ..) (by assumption) ?_ ?_ | with_reducible apply Tame.ite | with_reducible apply Tame.iteSnd | with_reducible refine Tame.pairEq (by assumption) ?_ | with_reducible refine Tame.pairEqSnd (by assumption) ?_ | with_reducible refine Tame.iteEq (by assumption) (fun _ => ?_) (fun _ => ?_) | with_reducible refine Tame.iteEqSnd (by assumption) (fun _ => ?_) (fun _ => ?_))

theorem oneStep_tame (s : State) (b : Bytes) : Tame [.free] s (State.oneStep s b).2 := by
  unfold State.oneStep; try dsimp -proj -iota -eta only
  repeat' (first | (show (_ : Bool) = true; decide) | with_reducible exact Tame.refl .. | split | with_reducible apply Tame.then (freeBytes_tame ..) | with_reducible refine Tame.thenSnd (freeBytes_tame ..) (by assumption) ?_ ?_ | with_reducible apply Tame.ite | with_reducible apply Tame.iteSnd | with_reducible refine Tame.pairEq (by assumption) ?_ | with_reducible refine Tame.pairEqSnd (by assumption) ?_ | with_reducible refine Tame.iteEq (by assumption) (fun _ => ?_) (fun _ => ?_) | with_reducible refine Tame.iteEqSnd (by assumption) (fun _ => ?_) (fun _ => ?_))

theorem egrDrop_tame (s : State) (d : Desc) : Tame [.regs, .counters, .events, .fcp, .obs, .traffic] s (State.egrDrop s d) := by
  unfold State.egrDrop
  repeat' (first | (show (_ : Bool) = true; decide) | with_reducible exact Tame.refl .. | with_reducible apply Tame.then (winLess_tame ..) | with_reducible apply Tame.then (epochLeave_tame ..) | with_reducible apply Tame.ite | split)

theorem egrObserve_tame (s : State) (d : Desc) (p : Nat) (b : Bytes) : Tame [.counters, .events, .fcp, .obs, .lookup, .free] s (State.egrObserve s d p b) := by
  unfold State.egrObserve
  repeat' (first | (show (_ : Bool) = true; decide) | with_reducible exact Tame.refl .. | with_reducible apply Tame.then (mirrorCopy_tame ..) | with_reducible apply Tame.then (sample_tame ..) | with_reducible apply Tame.ite | split)

theorem toPort_tame (s : State) (p : Nat) (f : TxPkt) : Tame [.line] s (State.toPort s p f) := by
  unfold State.toPort
  repeat' (first | (show (_ : Bool) = true; decide) | with_reducible exact Tame.refl .. | with_reducible apply Tame.then (setPort_tame ..) | with_reducible apply Tame.then (toMac_tame ..) | with_reducible apply Tame.ite | split)

theorem egrSend_tame (s : State) (d : Desc) (p : Nat) (ts : TsReq) (underrun : Bool) (out : Bytes) : Tame [.counters, .events, .fcp, .obs, .line, .lookup, .free] s (State.egrSend s d p ts underrun out) := by
  unfold State.egrSend; try dsimp -proj -iota -eta only
  repeat' (first | (show (_ : Bool) = true; decide) | with_reducible exact Tame.refl .. | split | with_reducible apply Tame.then (oneStep_tame ..) | with_reducible refine Tame.thenSnd (oneStep_tame ..) (by assumption) ?_ ?_ | with_reducible apply Tame.then (count_tame ..) | with_reducible apply Tame.then (draw_tame ..) | with_reducible refine Tame.thenSnd (draw_tame ..) (by assumption) ?_ ?_ | with_reducible apply Tame.then (egrObserve_tame ..) | with_reducible apply Tame.then (toPort_tame ..) | with_reducible apply Tame.ite | with_reducible refine Tame.pairEq (by assumption) ?_ | with_reducible refine Tame.pairEqSnd (by assumption) ?_ | with_reducible refine Tame.iteEq (by assumption) (fun _ => ?_) (fun _ => ?_) | with_reducible refine Tame.iteEqSnd (by assumption) (fun _ => ?_) (fun _ => ?_))

theorem egressProcess_tame (k : Nat) (underrun : Bool) (aclDrop : Bool) (ts : TsReq) (s : State) : Tame [.regs, .counters, .events, .fcp, .obs, .line, .lookup, .traffic, .free] s (egressProcess k underrun aclDrop ts s) := by
  unfold egressProcess; try dsimp -proj -iota -eta only
  repeat' (first | (show (_ : Bool) = true; decide) | with_reducible exact Tame.refl .. | split | with_reducible apply Tame.then (epochDrop_tame ..) | with_reducible apply Tame.then (winLess_tame ..) | with_reducible apply Tame.then (egrDrop_tame ..) | with_reducible apply Tame.then (count_tame ..) | with_reducible apply Tame.then (rewrite_tame ..) | with_reducible refine Tame.thenSnd (rewrite_tame ..) (by assumption) ?_ ?_ | with_reducible apply Tame.then (egrSend_tame ..) | with_reducible apply Tame.ite | with_reducible refine Tame.pairEq (by assumption) ?_ | with_reducible refine Tame.pairEqSnd (by assumption) ?_ | with_reducible refine Tame.iteEq (by assumption) (fun _ => ?_) (fun _ => ?_) | with_reducible refine Tame.iteEqSnd (by assumption) (fun _ => ?_) (fun _ => ?_) | with_reducible apply Tame.set_lookup)

end Sys2Proof.Machine
end

