-- ==== Sys2Proof/Laws/SchedFrames.lean ====
section
/-! SUPPORT. The parts that the operations of Machine/Sched may change. -/

namespace Sys2Proof.Machine

set_option linter.all false

theorem gateIntervalEnd_tame (p : Nat) (s : State) : Tame [.regs, .counters, .events, .fcp, .obs] s (gateIntervalEnd p s) := by
  unfold gateIntervalEnd; try dsimp -proj -iota -eta only
  repeat' (first | (show (_ : Bool) = true; decide) | with_reducible exact Tame.refl .. | split | with_reducible apply Tame.then (setFld_tame ..) | with_reducible apply Tame.then (count_tame ..) | with_reducible apply Tame.then (raiseLimited_tame ..) | with_reducible apply Tame.ite | with_reducible refine Tame.pairEq (by assumption) ?_ | with_reducible refine Tame.pairEqSnd (by assumption) ?_ | with_reducible refine Tame.iteEq (by assumption) (fun _ => ?_) (fun _ => ?_) | with_reducible refine Tame.iteEqSnd (by assumption) (fun _ => ?_) (fun _ => ?_))

theorem hatbandCommit_tame (p : Nat) (s : State) : Tame [.regs, .counters, .events, .fcp, .obs, .traffic] s (hatbandCommit p s) := by
  unfold hatbandCommit
  repeat' (first | (show (_ : Bool) = true; decide) | with_reducible exact Tame.refl .. | with_reducible apply Tame.then (setFld_tame ..) | with_reducible apply Tame.then (raise_tame ..) | with_reducible apply Tame.ite | with_reducible apply Tame.set_traffic | split)

theorem hatbandCancel_tame (p : Nat) (s : State) : Tame [.regs] s (hatbandCancel p s) := by
  unfold hatbandCancel
  repeat' (first | (show (_ : Bool) = true; decide) | with_reducible exact Tame.refl .. | with_reducible apply Tame.then (setFld_tame ..) | with_reducible apply Tame.ite | split)

theorem hatbandTakeover_tame (p : Nat) (s : State) : Tame [.regs, .counters, .events, .fcp, .obs] s (hatbandTakeover p s) := by
  unfold hatbandTakeover
  repeat' (first | (show (_ : Bool) = true; decide) | with_reducible exact Tame.refl .. | with_reducible apply Tame.then (setFld_tame ..) | with_reducible apply Tame.then (raise_tame ..) | with_reducible apply Tame.ite | split)

theorem setShaper_tame (s : State) (kind : Nat) (i : Nat) (x : Shaper) : Tame [.traffic] s (State.setShaper s kind i x) := by
  unfold State.setShaper
  repeat' (first | (show (_ : Bool) = true; decide) | with_reducible exact Tame.refl .. | with_reducible apply Tame.ite | with_reducible apply Tame.set_traffic | split)

theorem refillShaper_tame (s : State) (kind : Nat) (i : Nat) : Tame [.traffic] s (State.refillShaper s kind i) := by
  unfold State.refillShaper
  repeat' (first | (show (_ : Bool) = true; decide) | with_reducible exact Tame.refl .. | with_reducible apply Tame.then (setShaper_tame ..) | with_reducible apply Tame.ite | split)

theorem charge_tame (s : State) (kind : Nat) (i : Nat) (n : Nat) : Tame [.counters, .traffic] s (State.charge s kind i n) := by
  unfold State.charge; try dsimp -proj -iota -eta only
  repeat' (first | (show (_ : Bool) = true; decide) | with_reducible exact Tame.refl .. | split | with_reducible apply Tame.then (setShaper_tame ..) | with_reducible apply Tame.then (count_tame ..) | with_reducible apply Tame.ite | with_reducible refine Tame.pairEq (by assumption) ?_ | with_reducible refine Tame.pairEqSnd (by assumption) ?_ | with_reducible refine Tame.iteEq (by assumption) (fun _ => ?_) (fun _ => ?_) | with_reducible refine Tame.iteEqSnd (by assumption) (fun _ => ?_) (fun _ => ?_))

theorem shaperRefresh_tame (kind : Nat) (i : Nat) (s : State) : Tame [.traffic] s (shaperRefresh kind i s) := by
  unfold shaperRefresh
  repeat' (first | (show (_ : Bool) = true; decide) | with_reducible exact Tame.refl .. | with_reducible apply Tame.then (refillShaper_tame ..) | with_reducible apply Tame.ite | split)

theorem startSweep_tame (s : State) (w : Sweep) : Tame [.regs, .traffic] s (State.startSweep s w) := by
  unfold State.startSweep
  repeat' (first | (show (_ : Bool) = true; decide) | with_reducible exact Tame.refl .. | with_reducible apply Tame.then (setFld_tame ..) | with_reducible apply Tame.ite | with_reducible apply Tame.set_traffic | split)

theorem shaperProfileWrite_tame (i : Nat) (hi : Word) (lo : Word) (s : State) : Tame [.regs, .traffic] s (shaperProfileWrite i hi lo s) := by
  unfold shaperProfileWrite
  repeat' (first | (show (_ : Bool) = true; decide) | with_reducible exact Tame.refl .. | with_reducible apply Tame.then (setReg_tame ..) | with_reducible apply Tame.then (startSweep_tame ..) | with_reducible apply Tame.ite | split)

theorem shaperAssignStart_tame (kind : Nat) (index : Nat) (profile : Nat) (s : State) : Tame [.regs, .traffic] s (shaperAssignStart kind index profile s) := by
  unfold shaperAssignStart
  repeat' (first | (show (_ : Bool) = true; decide) | with_reducible exact Tame.refl .. | with_reducible apply Tame.then (setFld_tame ..) | with_reducible apply Tame.then (startSweep_tame ..) | with_reducible apply Tame.ite | split)

theorem shaperSweepDone_tame (s : State) : Tame [.regs, .traffic] s (shaperSweepDone s) := by
  unfold shaperSweepDone; try dsimp -proj -iota -eta only
  repeat' (first | (show (_ : Bool) = true; decide) | with_reducible exact Tame.refl .. | split | with_reducible apply Tame.then (refillShaper_tame ..) | with_reducible apply Tame.then (setShaper_tame ..) | with_reducible apply Tame.then (setFld_tame ..) | with_reducible refine Tame.fold ?_ (fun s x => ?_) | with_reducible refine Tame.foldEq (by assumption) ?_ (fun r x => ?_) | with_reducible refine Tame.foldEqSnd (by assumption) ?_ (fun r x => ?_) | with_reducible refine Tame.foldPair ?_ (fun r x => ?_) | with_reducible refine Tame.foldPairSnd ?_ (fun r x => ?_) | with_reducible apply Tame.ite | with_reducible refine Tame.pairEq (by assumption) ?_ | with_reducible refine Tame.pairEqSnd (by assumption) ?_ | with_reducible refine Tame.iteEq (by assumption) (fun _ => ?_) (fun _ => ?_) | with_reducible refine Tame.iteEqSnd (by assumption) (fun _ => ?_) (fun _ => ?_) | with_reducible apply Tame.set_traffic)

theorem takeBatch_tame (s : State) (n c q f total ch : Nat) : Tame [.traffic] s (s.takeBatch n c q f total ch).1 := by
  induction f generalizing s total ch with
  | zero => exact Tame.refl ..
  | succ f ih =>
    unfold State.takeBatch; dsimp only
    split
    · exact Tame.refl ..
    · apply Tame.iteFst
      · exact Tame.refl ..
      · apply Tame.iteFst
        · exact Tame.refl ..
        · exact Tame.trans_same (Tame.set_traffic (Tame.then (setDeparting_tame ..) (Tame.then (popHead_tame ..) (Tame.refl ..) (by decide)) (by decide)) _ (by decide)) (ih ..)

theorem setPtr_tame (s : State) (i : Nat) (v : Nat) : Tame [.traffic] s (State.setPtr s i v) := by
  unfold State.setPtr
  repeat' (first | (show (_ : Bool) = true; decide) | with_reducible exact Tame.refl .. | with_reducible apply Tame.ite | with_reducible apply Tame.set_traffic | split)

theorem refillNode_tame (s : State) (n : Nat) : Tame [.traffic] s (State.refillNode s n) := by
  unfold State.refillNode; try dsimp -proj -iota -eta only
  repeat' (first | (show (_ : Bool) = true; decide) | with_reducible exact Tame.refl .. | split | with_reducible apply Tame.then (refillShaper_tame ..) | with_reducible refine Tame.fold ?_ (fun s x => ?_) | with_reducible refine Tame.foldEq (by assumption) ?_ (fun r x => ?_) | with_reducible refine Tame.foldEqSnd (by assumption) ?_ (fun r x => ?_) | with_reducible refine Tame.foldPair ?_ (fun r x => ?_) | with_reducible refine Tame.foldPairSnd ?_ (fun r x => ?_) | with_reducible apply Tame.ite | with_reducible refine Tame.pairEq (by assumption) ?_ | with_reducible refine Tame.pairEqSnd (by assumption) ?_ | with_reducible refine Tame.iteEq (by assumption) (fun _ => ?_) (fun _ => ?_) | with_reducible refine Tame.iteEqSnd (by assumption) (fun _ => ?_) (fun _ => ?_))

theorem cleanNode_tame (s : State) (n : Nat) : Tame [.regs, .mem, .counters, .events, .fcp, .obs, .lookup, .traffic] s (State.cleanNode s n) := by
  unfold State.cleanNode
  repeat' (first | (show (_ : Bool) = true; decide) | with_reducible exact Tame.refl .. | with_reducible apply Tame.then (cleanHead_tame ..) | with_reducible refine Tame.fold ?_ (fun s x => ?_) | with_reducible refine Tame.foldEq (by assumption) ?_ (fun r x => ?_) | with_reducible refine Tame.foldEqSnd (by assumption) ?_ (fun r x => ?_) | with_reducible refine Tame.foldPair ?_ (fun r x => ?_) | with_reducible refine Tame.foldPairSnd ?_ (fun r x => ?_) | with_reducible apply Tame.ite | split)

theorem countDefers_tame (s : State) (n : Nat) (excess : Bool) : Tame [.counters] s (State.countDefers s n excess) := by
  unfold State.countDefers; try dsimp -proj -iota -eta only
  repeat' (first | (show (_ : Bool) = true; decide) | with_reducible exact Tame.refl .. | split | with_reducible apply Tame.then (countN_tame ..) | with_reducible apply Tame.ite | with_reducible refine Tame.pairEq (by assumption) ?_ | with_reducible refine Tame.pairEqSnd (by assumption) ?_ | with_reducible refine Tame.iteEq (by assumption) (fun _ => ?_) (fun _ => ?_) | with_reducible refine Tame.iteEqSnd (by assumption) (fun _ => ?_) (fun _ => ?_))

theorem setDeficits_tame (s : State) (isGroup : Bool) (ds : List (Nat × Int)) : Tame [.traffic] s (State.setDeficits s isGroup ds) := by
  unfold State.setDeficits
  repeat' (first | (show (_ : Bool) = true; decide) | with_reducible exact Tame.refl .. | with_reducible apply Tame.then (setShaper_tame ..) | with_reducible apply Tame.then (setQueue_tame ..) | with_reducible refine Tame.fold ?_ (fun s x => ?_) | with_reducible refine Tame.foldEq (by assumption) ?_ (fun r x => ?_) | with_reducible refine Tame.foldEqSnd (by assumption) ?_ (fun r x => ?_) | with_reducible refine Tame.foldPair ?_ (fun r x => ?_) | with_reducible refine Tame.foldPairSnd ?_ (fun r x => ?_) | with_reducible apply Tame.ite | split)

theorem settleBatch_tame (s : State) (n : Nat) (g : Nat) (q : Nat) (ch : Nat) : Tame [.counters, .traffic] s (State.settleBatch s n g q ch) := by
  unfold State.settleBatch; try dsimp -proj -iota -eta only
  repeat' (first | (show (_ : Bool) = true; decide) | with_reducible exact Tame.refl .. | split | with_reducible apply Tame.then (charge_tame ..) | with_reducible apply Tame.then (setQueue_tame ..) | with_reducible apply Tame.then (setPtr_tame ..) | with_reducible apply Tame.then (setShaper_tame ..) | with_reducible apply Tame.ite | with_reducible refine Tame.pairEq (by assumption) ?_ | with_reducible refine Tame.pairEqSnd (by assumption) ?_ | with_reducible refine Tame.iteEq (by assumption) (fun _ => ?_) (fun _ => ?_) | with_reducible refine Tame.iteEqSnd (by assumption) (fun _ => ?_) (fun _ => ?_))

theorem schedDecision_tame (n : Nat) (s : State) : Tame [.regs, .mem, .counters, .events, .fcp, .obs, .lookup, .traffic] s (schedDecision n s) := by
  unfold schedDecision; try dsimp -proj -iota -eta only
  repeat' (first | (show (_ : Bool) = true; decide) | with_reducible exact Tame.refl .. | split | with_reducible apply Tame.then (refillNode_tame ..) | with_reducible apply Tame.then (cleanNode_tame ..) | with_reducible apply Tame.then (countDefers_tame ..) | with_reducible apply Tame.then (setDeficits_tame ..) | with_reducible apply Tame.then (takeBatch_tame ..) | with_reducible refine Tame.thenFst (takeBatch_tame ..) (by assumption) ?_ ?_ | with_reducible apply Tame.then (settleBatch_tame ..) | with_reducible apply Tame.ite | with_reducible refine Tame.pairEq (by assumption) ?_ | with_reducible refine Tame.pairEqSnd (by assumption) ?_ | with_reducible refine Tame.iteEq (by assumption) (fun _ => ?_) (fun _ => ?_) | with_reducible refine Tame.iteEqSnd (by assumption) (fun _ => ?_) (fun _ => ?_))

theorem walkEnd_tame (s : State) (c : Nat) : Tame [.regs, .mem, .counters, .events, .fcp, .obs, .lookup, .traffic] s (State.walkEnd s c) := by
  unfold State.walkEnd
  repeat' (first | (show (_ : Bool) = true; decide) | with_reducible exact Tame.refl .. | with_reducible apply Tame.then (setRepl_tame ..) | with_reducible apply Tame.then (replSettle_tame ..) | with_reducible apply Tame.ite | split)

theorem walkCut_tame (s : State) (c : Nat) (cause : Nat) : Tame [.regs, .mem, .counters, .events, .fcp, .obs, .lookup, .traffic] s (State.walkCut s c cause) := by
  unfold State.walkCut
  repeat' (first | (show (_ : Bool) = true; decide) | with_reducible exact Tame.refl .. | with_reducible apply Tame.then (count_tame ..) | with_reducible apply Tame.then (raiseLimited_tame ..) | with_reducible apply Tame.then (walkEnd_tame ..) | with_reducible apply Tame.ite | split)

theorem makeReplica_tame (s : State) (c : Nat) (d : Desc) (q : Nat) : Tame [.regs, .counters, .events, .fcp, .obs, .traffic] s (State.makeReplica s c d q) := by
  unfold State.makeReplica; try dsimp -proj -iota -eta only
  repeat' (first | (show (_ : Bool) = true; decide) | with_reducible exact Tame.refl .. | split | with_reducible apply Tame.then (count_tame ..) | with_reducible apply Tame.then (filterCount_tame ..) | with_reducible apply Tame.then (queueCount_tame ..) | with_reducible apply Tame.then (reserve_tame ..) | with_reducible refine Tame.thenFst (reserve_tame ..) (by assumption) ?_ ?_ | with_reducible apply Tame.then (raiseLimited_tame ..) | with_reducible apply Tame.then (setBuf_tame ..) | with_reducible apply Tame.then (enqueue_tame ..) | with_reducible apply Tame.then (setRepl_tame ..) | with_reducible refine Tame.fold ?_ (fun s x => ?_) | with_reducible refine Tame.foldEq (by assumption) ?_ (fun r x => ?_) | with_reducible refine Tame.foldEqSnd (by assumption) ?_ (fun r x => ?_) | with_reducible refine Tame.foldPair ?_ (fun r x => ?_) | with_reducible refine Tame.foldPairSnd ?_ (fun r x => ?_) | with_reducible apply Tame.ite | with_reducible refine Tame.pairEq (by assumption) ?_ | with_reducible refine Tame.pairEqSnd (by assumption) ?_ | with_reducible refine Tame.iteEq (by assumption) (fun _ => ?_) (fun _ => ?_) | with_reducible refine Tame.iteEqSnd (by assumption) (fun _ => ?_) (fun _ => ?_))

theorem replElement_tame (s : State) (c : Nat) (e : Nat) : Tame [.regs, .counters, .events, .fcp, .obs, .traffic] s (State.replElement s c e) := by
  unfold State.replElement; try dsimp -proj -iota -eta only
  repeat' (first | (show (_ : Bool) = true; decide) | with_reducible exact Tame.refl .. | split | with_reducible apply Tame.then (makeReplica_tame ..) | with_reducible apply Tame.then (count_tame ..) | with_reducible apply Tame.then (raiseLimited_tame ..) | with_reducible apply Tame.ite | with_reducible refine Tame.pairEq (by assumption) ?_ | with_reducible refine Tame.pairEqSnd (by assumption) ?_ | with_reducible refine Tame.iteEq (by assumption) (fun _ => ?_) (fun _ => ?_) | with_reducible refine Tame.iteEqSnd (by assumption) (fun _ => ?_) (fun _ => ?_))

theorem walkStep_tame (s : State) (c : Nat) : Tame [.regs, .mem, .counters, .events, .fcp, .obs, .lookup, .traffic] s (State.walkStep s c) := by
  unfold State.walkStep
  repeat' (first | (show (_ : Bool) = true; decide) | with_reducible exact Tame.refl .. | with_reducible apply Tame.then (walkEnd_tame ..) | with_reducible apply Tame.then (setRepl_tame ..) | with_reducible apply Tame.then (walkCut_tame ..) | with_reducible apply Tame.then (replElement_tame ..) | with_reducible apply Tame.ite | split)

theorem replWalk_tame (c : Nat) (s : State) : Tame [.regs, .mem, .counters, .events, .fcp, .obs, .lookup, .traffic] s (replWalk c s) := by
  unfold replWalk
  repeat' (first | (show (_ : Bool) = true; decide) | with_reducible exact Tame.refl .. | with_reducible apply Tame.then (walkStep_tame ..) | with_reducible apply Tame.ite | split)

theorem replWalkTimeout_tame (c : Nat) (s : State) : Tame [.regs, .mem, .counters, .events, .fcp, .obs, .lookup, .traffic] s (replWalkTimeout c s) := by
  unfold replWalkTimeout
  repeat' (first | (show (_ : Bool) = true; decide) | with_reducible exact Tame.refl .. | with_reducible apply Tame.then (walkCut_tame ..) | with_reducible apply Tame.ite | split)

theorem stuckQueueVisit_tame (q : Nat) (s : State) : Tame [.regs, .counters, .events, .fcp, .obs, .traffic] s (stuckQueueVisit q s) := by
  unfold stuckQueueVisit; try dsimp -proj -iota -eta only
  repeat' (first | (show (_ : Bool) = true; decide) | with_reducible exact Tame.refl .. | split | with_reducible apply Tame.then (detachOrWait_tame ..) | with_reducible apply Tame.then (surrenderAll_tame ..) | with_reducible apply Tame.then (setQueue_tame ..) | with_reducible apply Tame.then (raise_tame ..) | with_reducible apply Tame.ite | with_reducible refine Tame.pairEq (by assumption) ?_ | with_reducible refine Tame.pairEqSnd (by assumption) ?_ | with_reducible refine Tame.iteEq (by assumption) (fun _ => ?_) (fun _ => ?_) | with_reducible refine Tame.iteEqSnd (by assumption) (fun _ => ?_) (fun _ => ?_))

end Sys2Proof.Machine
end

