-- ==== Sys2Proof/Laws/FabricFrames.lean ====
section
/-! SUPPORT. The parts that the operations of Machine/Fabric may change. -/

namespace Sys2Proof.Machine

set_option linter.all false

theorem setFabLane_tame (s : State) (l : Nat) (x : FabLane) : Tame [.fabric] s (State.setFabLane s l x) := by
  unfold State.setFabLane
  repeat' (first | (show (_ : Bool) = true; decide) | with_reducible exact Tame.refl .. | with_reducible apply Tame.ite | with_reducible apply Tame.set_fabric | split)

theorem groupUpdate_tame (s : State) (g : Nat) : Tame [.regs, .counters, .events, .fcp, .obs] s (State.groupUpdate s g) := by
  unfold State.groupUpdate
  repeat' (first | (show (_ : Bool) = true; decide) | with_reducible exact Tame.refl .. | with_reducible apply Tame.then (setFlag_tame ..) | with_reducible apply Tame.then (setFld_tame ..) | with_reducible apply Tame.then (raise_tame ..) | with_reducible refine Tame.fold ?_ (fun s x => ?_) | with_reducible refine Tame.foldEq (by assumption) ?_ (fun r x => ?_) | with_reducible refine Tame.foldEqSnd (by assumption) ?_ (fun r x => ?_) | with_reducible refine Tame.foldPair ?_ (fun r x => ?_) | with_reducible refine Tame.foldPairSnd ?_ (fun r x => ?_) | with_reducible apply Tame.ite | split)

theorem fabricStep_tame (s : State) : Tame [.regs, .boot] s (State.fabricStep s) := by
  unfold State.fabricStep
  repeat' (first | (show (_ : Bool) = true; decide) | with_reducible exact Tame.refl .. | with_reducible apply Tame.then (setFld_tame ..) | with_reducible apply Tame.ite | with_reducible apply Tame.set_boot | split)

theorem laneHunt_tame (s : State) (l : Nat) : Tame [.regs, .fabric] s (State.laneHunt s l) := by
  unfold State.laneHunt
  repeat' (first | (show (_ : Bool) = true; decide) | with_reducible exact Tame.refl .. | with_reducible apply Tame.then (setFabLane_tame ..) | with_reducible apply Tame.then (setFld_tame ..) | with_reducible apply Tame.ite | split)

theorem alignLost_tame (s : State) (g : Nat) (l : Nat) : Tame [.regs, .counters, .events, .fcp, .obs, .fabric] s (State.alignLost s g l) := by
  unfold State.alignLost
  repeat' (first | (show (_ : Bool) = true; decide) | with_reducible exact Tame.refl .. | with_reducible apply Tame.then (laneHunt_tame ..) | with_reducible apply Tame.then (count_tame ..) | with_reducible apply Tame.then (raise_tame ..) | with_reducible apply Tame.then (groupUpdate_tame ..) | with_reducible apply Tame.ite | split)

theorem fabricLaneSignalLoss_tame (l : Nat) (s : State) : Tame [.regs, .counters, .events, .fcp, .obs, .fabric] s (fabricLaneSignalLoss l s) := by
  unfold fabricLaneSignalLoss; try dsimp -proj -iota -eta only
  repeat' (first | (show (_ : Bool) = true; decide) | with_reducible exact Tame.refl .. | split | with_reducible apply Tame.then (alignLost_tame ..) | with_reducible apply Tame.then (laneHunt_tame ..) | with_reducible apply Tame.ite | with_reducible refine Tame.pairEq (by assumption) ?_ | with_reducible refine Tame.pairEqSnd (by assumption) ?_ | with_reducible refine Tame.iteEq (by assumption) (fun _ => ?_) (fun _ => ?_) | with_reducible refine Tame.iteEqSnd (by assumption) (fun _ => ?_) (fun _ => ?_))

theorem goodFrame_tame (s : State) (g : Nat) (l : Nat) (o : Overhead) : Tame [.regs, .counters, .boot, .events, .fcp, .obs, .fabric] s (State.goodFrame s g l o) := by
  unfold State.goodFrame
  repeat' (first | (show (_ : Bool) = true; decide) | with_reducible exact Tame.refl .. | with_reducible apply Tame.then (setFabLane_tame ..) | with_reducible apply Tame.then (setFld_tame ..) | with_reducible apply Tame.then (raise_tame ..) | with_reducible apply Tame.then (groupUpdate_tame ..) | with_reducible apply Tame.then (fabricStep_tame ..) | with_reducible refine Tame.fold ?_ (fun s x => ?_) | with_reducible refine Tame.foldEq (by assumption) ?_ (fun r x => ?_) | with_reducible refine Tame.foldEqSnd (by assumption) ?_ (fun r x => ?_) | with_reducible refine Tame.foldPair ?_ (fun r x => ?_) | with_reducible refine Tame.foldPairSnd ?_ (fun r x => ?_) | with_reducible apply Tame.ite | split)

theorem malythFrameRx_tame (l : Nat) (o : Overhead) (s : State) : Tame [.regs, .counters, .boot, .events, .fcp, .obs, .fabric] s (malythFrameRx l o s) := by
  unfold malythFrameRx; try dsimp -proj -iota -eta only
  repeat' (first | (show (_ : Bool) = true; decide) | with_reducible exact Tame.refl .. | split | with_reducible apply Tame.then (setFabLane_tame ..) | with_reducible apply Tame.then (setFld_tame ..) | with_reducible apply Tame.then (count_tame ..) | with_reducible apply Tame.then (laneHunt_tame ..) | with_reducible apply Tame.then (goodFrame_tame ..) | with_reducible apply Tame.then (raise_tame ..) | with_reducible apply Tame.then (alignLost_tame ..) | with_reducible apply Tame.ite | with_reducible refine Tame.pairEq (by assumption) ?_ | with_reducible refine Tame.pairEqSnd (by assumption) ?_ | with_reducible refine Tame.iteEq (by assumption) (fun _ => ?_) (fun _ => ?_) | with_reducible refine Tame.iteEqSnd (by assumption) (fun _ => ?_) (fun _ => ?_))

theorem setReasm_tame (s : State) (k : Nat) (x : Reasm) : Tame [.fabric] s (State.setReasm s k x) := by
  unfold State.setReasm
  repeat' (first | (show (_ : Bool) = true; decide) | with_reducible exact Tame.refl .. | with_reducible apply Tame.ite | with_reducible apply Tame.set_fabric | split)

theorem deliverRec_tame (s : State) (dev : Nat) (f : FabDesc) (b : Bytes) (bad : Bool) : Tame [.regs, .counters, .events, .fcp, .obs, .fabric] s (State.deliverRec s dev f b bad) := by
  unfold State.deliverRec
  repeat' (first | (show (_ : Bool) = true; decide) | with_reducible exact Tame.refl .. | with_reducible apply Tame.then (count_tame ..) | with_reducible apply Tame.then (raiseLimited_tame ..) | with_reducible apply Tame.then (epochEnter_tame ..) | with_reducible apply Tame.ite | with_reducible apply Tame.set_fabric | split)

theorem readCell_tame (s : State) (k : Nat) (c : Cell) : Tame [.regs, .counters, .events, .fcp, .obs, .fabric] s (State.readCell s k c) := by
  unfold State.readCell; try dsimp -proj -iota -eta only
  repeat' (first | (show (_ : Bool) = true; decide) | with_reducible exact Tame.refl .. | split | with_reducible apply Tame.then (deliverRec_tame ..) | with_reducible apply Tame.then (setReasm_tame ..) | with_reducible refine Tame.fold ?_ (fun s x => ?_) | with_reducible refine Tame.foldEq (by assumption) ?_ (fun r x => ?_) | with_reducible refine Tame.foldEqSnd (by assumption) ?_ (fun r x => ?_) | with_reducible refine Tame.foldPair ?_ (fun r x => ?_) | with_reducible refine Tame.foldPairSnd ?_ (fun r x => ?_) | with_reducible apply Tame.ite | with_reducible refine Tame.pairEq (by assumption) ?_ | with_reducible refine Tame.pairEqSnd (by assumption) ?_ | with_reducible refine Tame.iteEq (by assumption) (fun _ => ?_) (fun _ => ?_) | with_reducible refine Tame.iteEqSnd (by assumption) (fun _ => ?_) (fun _ => ?_))

theorem readHeld_tame (s : State) (k : Nat) (n : Nat) : Tame [.regs, .counters, .events, .fcp, .obs, .fabric] s (State.readHeld s k n) := by
  induction n generalizing s with
  | zero => exact Tame.refl ..
  | succ n ih =>
    unfold State.readHeld; try dsimp -proj -iota -eta only
    repeat' (first | (show (_ : Bool) = true; decide) | with_reducible exact Tame.refl .. | with_reducible apply Tame.ite | with_reducible apply Tame.iteFst | split | with_reducible apply Tame.then (ih ..) | with_reducible apply Tame.then (setReasm_tame ..) | with_reducible apply Tame.then (readCell_tame ..) | with_reducible refine Tame.thenFst (ih ..) (by assumption) ?_ ?_ | with_reducible refine Tame.thenFst (setReasm_tame ..) (by assumption) ?_ ?_ | with_reducible refine Tame.thenFst (readCell_tame ..) (by assumption) ?_ ?_ | with_reducible apply Tame.set_fabric)

theorem addOwed_tame (s : State) (port : Nat) (tc : Nat) (v : Int) : Tame [.fabric] s (State.addOwed s port tc v) := by
  unfold State.addOwed
  repeat' (first | (show (_ : Bool) = true; decide) | with_reducible exact Tame.refl .. | with_reducible apply Tame.ite | with_reducible apply Tame.set_fabric | split)

theorem received_tame (s : State) (c : Cell) : Tame [.fabric] s (State.received s c) := by
  unfold State.received
  repeat' (first | (show (_ : Bool) = true; decide) | with_reducible exact Tame.refl .. | with_reducible apply Tame.then (addOwed_tame ..) | with_reducible apply Tame.ite | split)

theorem reasmCell_tame (s : State) (c : Cell) : Tame [.regs, .counters, .events, .fcp, .obs, .fabric] s (State.reasmCell s c) := by
  unfold State.reasmCell
  repeat' (first | (show (_ : Bool) = true; decide) | with_reducible exact Tame.refl .. | with_reducible apply Tame.then (count_tame ..) | with_reducible apply Tame.then (raiseLimited_tame ..) | with_reducible apply Tame.then (setReasm_tame ..) | with_reducible apply Tame.then (received_tame ..) | with_reducible apply Tame.then (readCell_tame ..) | with_reducible apply Tame.then (readHeld_tame ..) | with_reducible apply Tame.ite | with_reducible apply Tame.set_fabric | split)

theorem cellRx_tame (l : Nat) (c : Cell) (cdcOverrun : Bool) (s : State) : Tame [.regs, .counters, .events, .fcp, .obs, .fabric] s (cellRx l c cdcOverrun s) := by
  unfold cellRx; try dsimp -proj -iota -eta only
  repeat' (first | (show (_ : Bool) = true; decide) | with_reducible exact Tame.refl .. | split | with_reducible apply Tame.then (count_tame ..) | with_reducible apply Tame.then (setFld_tame ..) | with_reducible apply Tame.then (reasmCell_tame ..) | with_reducible apply Tame.ite | with_reducible refine Tame.pairEq (by assumption) ?_ | with_reducible refine Tame.pairEqSnd (by assumption) ?_ | with_reducible refine Tame.iteEq (by assumption) (fun _ => ?_) (fun _ => ?_) | with_reducible refine Tame.iteEqSnd (by assumption) (fun _ => ?_) (fun _ => ?_))

theorem reasmTimeout_tame (dev : Nat) (type : Nat) (port : Nat) (tc : Nat) (s : State) : Tame [.regs, .counters, .events, .fcp, .obs, .fabric] s (reasmTimeout dev type port tc s) := by
  unfold reasmTimeout; try dsimp -proj -iota -eta only
  repeat' (first | (show (_ : Bool) = true; decide) | with_reducible exact Tame.refl .. | split | with_reducible apply Tame.then (countN_tame ..) | with_reducible apply Tame.then (raiseLimited_tame ..) | with_reducible apply Tame.then (deliverRec_tame ..) | with_reducible apply Tame.then (count_tame ..) | with_reducible apply Tame.then (setReasm_tame ..) | with_reducible apply Tame.then (readHeld_tame ..) | with_reducible apply Tame.ite | with_reducible refine Tame.pairEq (by assumption) ?_ | with_reducible refine Tame.pairEqSnd (by assumption) ?_ | with_reducible refine Tame.iteEq (by assumption) (fun _ => ?_) (fun _ => ?_) | with_reducible refine Tame.iteEqSnd (by assumption) (fun _ => ?_) (fun _ => ?_))

theorem reasmContextIdle_tame (dev : Nat) (type : Nat) (port : Nat) (tc : Nat) (s : State) : Tame [.fabric] s (reasmContextIdle dev type port tc s) := by
  unfold reasmContextIdle
  repeat' (first | (show (_ : Bool) = true; decide) | with_reducible exact Tame.refl .. | with_reducible apply Tame.then (setReasm_tame ..) | with_reducible apply Tame.ite | split)

theorem setSeg_tame (s : State) (q : Nat) (x : Seg) : Tame [.fabric] s (State.setSeg s q x) := by
  unfold State.setSeg
  repeat' (first | (show (_ : Bool) = true; decide) | with_reducible exact Tame.refl .. | with_reducible apply Tame.ite | with_reducible apply Tame.set_fabric | split)

theorem standCredit_tame (s : State) (q : Nat) : Tame [.traffic] s (State.standCredit s q) := by
  unfold State.standCredit
  repeat' (first | (show (_ : Bool) = true; decide) | with_reducible exact Tame.refl .. | with_reducible apply Tame.then (setQueue_tame ..) | with_reducible apply Tame.ite | split)

theorem segTake_tame (s : State) (q : Nat) (uni : Bool) (v1 : Bool) (n : Nat) : Tame [.regs, .mem, .counters, .events, .fcp, .obs, .lookup, .traffic, .fabric] s (State.segTake s q uni v1 n) := by
  induction n generalizing s with
  | zero => exact Tame.refl ..
  | succ n ih =>
    unfold State.segTake; try dsimp -proj -iota -eta only
    repeat' (first | (show (_ : Bool) = true; decide) | with_reducible exact Tame.refl .. | with_reducible apply Tame.ite | with_reducible apply Tame.iteFst | split | with_reducible apply Tame.then (ih ..) | with_reducible apply Tame.then (cleanHead_tame ..) | with_reducible apply Tame.then (popHead_tame ..) | with_reducible apply Tame.then (freeRec_tame ..) | with_reducible apply Tame.then (recLeave_tame ..) | with_reducible apply Tame.then (epochDrop_tame ..) | with_reducible apply Tame.then (standCredit_tame ..) | with_reducible apply Tame.then (setQueue_tame ..) | with_reducible apply Tame.then (setSeg_tame ..) | with_reducible refine Tame.thenFst (ih ..) (by assumption) ?_ ?_ | with_reducible refine Tame.thenFst (cleanHead_tame ..) (by assumption) ?_ ?_ | with_reducible refine Tame.thenFst (popHead_tame ..) (by assumption) ?_ ?_ | with_reducible refine Tame.thenFst (freeRec_tame ..) (by assumption) ?_ ?_ | with_reducible refine Tame.thenFst (recLeave_tame ..) (by assumption) ?_ ?_ | with_reducible refine Tame.thenFst (epochDrop_tame ..) (by assumption) ?_ ?_ | with_reducible refine Tame.thenFst (standCredit_tame ..) (by assumption) ?_ ?_ | with_reducible refine Tame.thenFst (setQueue_tame ..) (by assumption) ?_ ?_ | with_reducible refine Tame.thenFst (setSeg_tame ..) (by assumption) ?_ ?_)

theorem spray_tame (s : State) (l : Nat) (c : Cell) : Tame [.regs, .fabric] s (State.spray s l c) := by
  unfold State.spray
  repeat' (first | (show (_ : Bool) = true; decide) | with_reducible exact Tame.refl .. | with_reducible apply Tame.then (setFabLane_tame ..) | with_reducible apply Tame.then (setFld_tame ..) | with_reducible apply Tame.ite | with_reducible apply Tame.set_fabric | split)

theorem Fill.run_tame (q : Nat) (uni v1 closed : Bool) (cap n : Nat) : ∀ f : Fill,
    Tame [.regs, .mem, .counters, .events, .fcp, .obs, .lookup, .traffic, .fabric] f.s (Fill.run q uni v1 closed cap n f).s := by
  induction n with
  | zero => intro f; exact Tame.refl ..
  | succ n ih =>
    intro f
    unfold Fill.run
    dsimp only
    repeat' (first | (show (_ : Bool) = true; decide) | exact Tame.refl .. | split | with_reducible refine Tame.trans_same ?_ (ih _) | with_reducible apply Tame.then (recLeave_tame ..) | with_reducible apply Tame.then (freeRec_tame ..) | with_reducible apply Tame.then (setSeg_tame ..) | with_reducible apply Tame.then (segTake_tame ..))

theorem cellSend_tame (q : Nat) (s : State) : Tame [.regs, .mem, .counters, .events, .fcp, .obs, .lookup, .traffic, .fabric] s (cellSend q s) := by
  unfold cellSend
  split
  · exact Tame.refl ..
  next dev port e =>
    apply Tame.ite
    · exact Tame.refl ..
    extract_lets v1 cap closed f g cutOff used
    have hf : Tame [.regs, .mem, .counters, .events, .fcp, .obs, .lookup, .traffic, .fabric] s f.s :=
      Fill.run_tame q port.isSome v1 closed cap (3 * cap) { s := s, room := cap, pay := [], start := 255, bad := false, stop := false }
    clear_value used cutOff g f
    apply Tame.ite
    · exact hf
    split
    · exact Tame.refl ..
    · refine Tame.then (spray_tame ..) ?_ (by decide)
      show Tame _ s (match g.cur, cutOff with | some r, true => _ | _, _ => _)
      split
      · exact Tame.then (recLeave_tame ..) (Tame.then (freeRec_tame ..) (Tame.then (setSeg_tame ..) hf (by decide)) (by decide)) (by decide)
      · exact Tame.then (setSeg_tame ..) hf (by decide)

theorem creditRequestSend_tame (q : Nat) (s : State) : Tame [.traffic, .fabric] s (creditRequestSend q s) := by
  unfold creditRequestSend; try dsimp -proj -iota -eta only
  repeat' (first | (show (_ : Bool) = true; decide) | with_reducible exact Tame.refl .. | split | with_reducible apply Tame.then (setQueue_tame ..) | with_reducible apply Tame.ite | with_reducible refine Tame.pairEq (by assumption) ?_ | with_reducible refine Tame.pairEqSnd (by assumption) ?_ | with_reducible refine Tame.iteEq (by assumption) (fun _ => ?_) (fun _ => ?_) | with_reducible refine Tame.iteEqSnd (by assumption) (fun _ => ?_) (fun _ => ?_) | with_reducible apply Tame.set_fabric)

theorem setWants_tame (s : State) (port : Nat) (tc : Nat) (l : List CreditWant) : Tame [.fabric] s (State.setWants s port tc l) := by
  unfold State.setWants
  repeat' (first | (show (_ : Bool) = true; decide) | with_reducible exact Tame.refl .. | with_reducible apply Tame.ite | with_reducible apply Tame.set_fabric | split)

theorem creditRequestRx_tame (r : CreditReq) (s : State) : Tame [.fabric] s (creditRequestRx r s) := by
  unfold creditRequestRx
  repeat' (first | (show (_ : Bool) = true; decide) | with_reducible exact Tame.refl .. | with_reducible apply Tame.then (addOwed_tame ..) | with_reducible apply Tame.then (setWants_tame ..) | with_reducible apply Tame.ite | split)

theorem creditGrantIssue_tame (port : Nat) (tc : Nat) (s : State) : Tame [.fabric] s (creditGrantIssue port tc s) := by
  unfold creditGrantIssue; try dsimp -proj -iota -eta only
  repeat' (first | (show (_ : Bool) = true; decide) | with_reducible exact Tame.refl .. | split | with_reducible apply Tame.then (addOwed_tame ..) | with_reducible apply Tame.then (setWants_tame ..) | with_reducible apply Tame.ite | with_reducible refine Tame.pairEq (by assumption) ?_ | with_reducible refine Tame.pairEqSnd (by assumption) ?_ | with_reducible refine Tame.iteEq (by assumption) (fun _ => ?_) (fun _ => ?_) | with_reducible refine Tame.iteEqSnd (by assumption) (fun _ => ?_) (fun _ => ?_) | with_reducible apply Tame.set_fabric)

theorem creditGrantRx_tame (q : Nat) (units : Nat) (s : State) : Tame [.traffic] s (creditGrantRx q units s) := by
  unfold creditGrantRx
  repeat' (first | (show (_ : Bool) = true; decide) | with_reducible exact Tame.refl .. | with_reducible apply Tame.then (setQueue_tame ..) | with_reducible apply Tame.ite | split)

theorem standingCreditExpiry_tame (q : Nat) (s : State) : Tame [.traffic] s (standingCreditExpiry q s) := by
  unfold standingCreditExpiry
  repeat' (first | (show (_ : Bool) = true; decide) | with_reducible exact Tame.refl .. | with_reducible apply Tame.then (surrenderAll_tame ..) | with_reducible apply Tame.ite | split)

theorem starveTimeout_tame (q : Nat) (s : State) : Tame [.regs, .counters, .events, .fcp, .obs, .traffic, .fabric] s (starveTimeout q s) := by
  unfold starveTimeout; try dsimp -proj -iota -eta only
  repeat' (first | (show (_ : Bool) = true; decide) | with_reducible exact Tame.refl .. | split | with_reducible apply Tame.then (count_tame ..) | with_reducible apply Tame.then (setFld_tame ..) | with_reducible apply Tame.then (creditRequestSend_tame ..) | with_reducible apply Tame.then (raiseLimited_tame ..) | with_reducible apply Tame.ite | with_reducible refine Tame.pairEq (by assumption) ?_ | with_reducible refine Tame.pairEqSnd (by assumption) ?_ | with_reducible refine Tame.iteEq (by assumption) (fun _ => ?_) (fun _ => ?_) | with_reducible refine Tame.iteEqSnd (by assumption) (fun _ => ?_) (fun _ => ?_))

theorem timeCellSend_tame (s : State) : Tame [.regs, .fabric] s (timeCellSend s) := by
  unfold timeCellSend; try dsimp -proj -iota -eta only
  repeat' (first | (show (_ : Bool) = true; decide) | with_reducible exact Tame.refl .. | split | with_reducible apply Tame.then (setFabLane_tame ..) | with_reducible apply Tame.then (setFld_tame ..) | with_reducible refine Tame.fold ?_ (fun s x => ?_) | with_reducible refine Tame.foldEq (by assumption) ?_ (fun r x => ?_) | with_reducible refine Tame.foldEqSnd (by assumption) ?_ (fun r x => ?_) | with_reducible refine Tame.foldPair ?_ (fun r x => ?_) | with_reducible refine Tame.foldPairSnd ?_ (fun r x => ?_) | with_reducible apply Tame.ite | with_reducible refine Tame.pairEq (by assumption) ?_ | with_reducible refine Tame.pairEqSnd (by assumption) ?_ | with_reducible refine Tame.iteEq (by assumption) (fun _ => ?_) (fun _ => ?_) | with_reducible refine Tame.iteEqSnd (by assumption) (fun _ => ?_) (fun _ => ?_) | with_reducible apply Tame.set_fabric)

theorem setNotice_tame (s : State) (p : Nat) (x : NoticeOut) : Tame [.regs, .fabric] s (State.setNotice s p x) := by
  unfold State.setNotice
  repeat' (first | (show (_ : Bool) = true; decide) | with_reducible exact Tame.refl .. | with_reducible apply Tame.then (setFlag_tame ..) | with_reducible apply Tame.ite | with_reducible apply Tame.set_fabric | split)

theorem putNotice_tame (s : State) (n : Notice) : Tame [.fabric] s (State.putNotice s n) := by
  unfold State.putNotice
  repeat' (first | (show (_ : Bool) = true; decide) | with_reducible exact Tame.refl .. | with_reducible apply Tame.ite | with_reducible apply Tame.set_fabric | split)

theorem portNoticeSend_tame (p : Nat) (s : State) : Tame [.regs, .line, .fabric] s (portNoticeSend p s) := by
  unfold portNoticeSend; try dsimp -proj -iota -eta only
  repeat' (first | (show (_ : Bool) = true; decide) | with_reducible exact Tame.refl .. | split | with_reducible apply Tame.then (setNotice_tame ..) | with_reducible apply Tame.then (putNotice_tame ..) | with_reducible apply Tame.ite | with_reducible refine Tame.pairEq (by assumption) ?_ | with_reducible refine Tame.pairEqSnd (by assumption) ?_ | with_reducible refine Tame.iteEq (by assumption) (fun _ => ?_) (fun _ => ?_) | with_reducible refine Tame.iteEqSnd (by assumption) (fun _ => ?_) (fun _ => ?_) | with_reducible apply Tame.set_line)

theorem noticeRepeat_tame (p : Nat) (s : State) : Tame [.regs, .counters, .events, .fcp, .obs, .fabric] s (noticeRepeat p s) := by
  unfold noticeRepeat
  repeat' (first | (show (_ : Bool) = true; decide) | with_reducible exact Tame.refl .. | with_reducible apply Tame.then (setNotice_tame ..) | with_reducible apply Tame.then (raise_tame ..) | with_reducible apply Tame.then (putNotice_tame ..) | with_reducible apply Tame.ite | split)

theorem noticeAckRx_tame (dev : Nat) (port : Nat) (seq : Nat) (s : State) : Tame [.regs, .fabric] s (noticeAckRx dev port seq s) := by
  unfold noticeAckRx
  repeat' (first | (show (_ : Bool) = true; decide) | with_reducible exact Tame.refl .. | with_reducible apply Tame.then (setNotice_tame ..) | with_reducible apply Tame.ite | split)

theorem portNotice_tame (s : State) (n : Notice) : Tame [.lookup, .fabric] s (State.portNotice s n) := by
  unfold State.portNotice
  repeat' (first | (show (_ : Bool) = true; decide) | with_reducible exact Tame.refl .. | with_reducible apply Tame.ite | with_reducible apply Tame.set_lookup | with_reducible apply Tame.set_fabric | with_reducible apply Tame.set_fabric_lookup | split)

theorem noticeRx_tame (n : Notice) (s : State) : Tame [.regs, .counters, .events, .fcp, .obs, .lookup, .fabric] s (noticeRx n s) := by
  unfold noticeRx
  repeat' (first | (show (_ : Bool) = true; decide) | with_reducible exact Tame.refl .. | with_reducible apply Tame.then (setFld_tame ..) | with_reducible apply Tame.then (raise_tame ..) | with_reducible apply Tame.then (portNotice_tame ..) | with_reducible apply Tame.ite | with_reducible apply Tame.set_lookup | with_reducible apply Tame.set_fabric | with_reducible apply Tame.set_fabric_lookup | split)

theorem heartbeatSend_tame (s : State) : Tame [.fabric] s (heartbeatSend s) := by
  unfold heartbeatSend
  repeat' (first | (show (_ : Bool) = true; decide) | with_reducible exact Tame.refl .. | with_reducible apply Tame.then (putNotice_tame ..) | with_reducible apply Tame.ite | with_reducible apply Tame.set_fabric | split)

theorem devTimeoutExpiry_tame (d : Nat) (s : State) : Tame [.regs, .counters, .events, .fcp, .obs, .traffic, .fabric] s (devTimeoutExpiry d s) := by
  unfold devTimeoutExpiry
  repeat' (first | (show (_ : Bool) = true; decide) | with_reducible exact Tame.refl .. | with_reducible apply Tame.then (setFld_tame ..) | with_reducible apply Tame.then (raise_tame ..) | with_reducible apply Tame.then (detachOrWait_tame ..) | with_reducible refine Tame.fold ?_ (fun s x => ?_) | with_reducible refine Tame.foldEq (by assumption) ?_ (fun r x => ?_) | with_reducible refine Tame.foldEqSnd (by assumption) ?_ (fun r x => ?_) | with_reducible refine Tame.foldPair ?_ (fun r x => ?_) | with_reducible refine Tame.foldPairSnd ?_ (fun r x => ?_) | with_reducible apply Tame.ite | with_reducible apply Tame.set_fabric | split)

theorem quietPeriodEnd_tame (s : State) : Tame [.regs, .mem, .banks, .counters, .pins, .boot, .events, .fcp, .obs, .bist, .line, .headers, .lookup, .engine, .traffic, .hbm, .fabric, .gov, .bridge, .time, .free] s (quietPeriodEnd s) := by
  unfold quietPeriodEnd
  repeat' (first | (show (_ : Bool) = true; decide) | with_reducible exact Tame.refl .. | with_reducible apply Tame.then (coldReset_tame ..) | with_reducible apply Tame.ite | with_reducible apply Tame.set_line | with_reducible apply Tame.set_fabric | with_reducible apply Tame.set_fabric_line | split)

end Sys2Proof.Machine
end

