-- ==== Sys2Proof/Laws/SessionFrames.lean ====
section
/-! SUPPORT. The parts that the operations of Machine/Session may change. -/

namespace Sys2Proof.Machine

set_option linter.all false

theorem setSession_tame (s : State) (x : Session) : Tame [.fcp] s (State.setSession s x) := by
  unfold State.setSession
  repeat' (first | (show (_ : Bool) = true; decide) | with_reducible exact Tame.refl .. | with_reducible apply Tame.ite | with_reducible apply Tame.set_fcp | split)

theorem sessionCount_tame (s : State) : Tame [.regs] s (State.sessionCount s) := by
  unfold State.sessionCount
  repeat' (first | (show (_ : Bool) = true; decide) | with_reducible exact Tame.refl .. | with_reducible apply Tame.then (setFld_tame ..) | with_reducible apply Tame.ite | split)

theorem dropSession_tame (s : State) (id : Nat) : Tame [.regs, .fcp] s (State.dropSession s id) := by
  unfold State.dropSession
  repeat' (first | (show (_ : Bool) = true; decide) | with_reducible exact Tame.refl .. | with_reducible apply Tame.then (sessionCount_tame ..) | with_reducible apply Tame.ite | with_reducible apply Tame.set_fcp | split)

theorem closeSession_tame (s : State) (id : Nat) (cause : Nat) : Tame [.regs, .counters, .events, .fcp, .obs] s (State.closeSession s id cause) := by
  unfold State.closeSession
  repeat' (first | (show (_ : Bool) = true; decide) | with_reducible exact Tame.refl .. | with_reducible apply Tame.then (dropSession_tame ..) | with_reducible apply Tame.then (raise_tame ..) | with_reducible apply Tame.ite | split)

theorem fcpGate_tame (s : State) (h : FcpHdr) : Tame [.counters, .fcp] s (State.fcpGate s h).1 := by
  unfold State.fcpGate; try dsimp -proj -iota -eta only
  repeat' (first | (show (_ : Bool) = true; decide) | with_reducible exact Tame.refl .. | split | with_reducible apply Tame.then (count_tame ..) | with_reducible apply Tame.then (setSession_tame ..) | with_reducible apply Tame.ite | with_reducible apply Tame.iteFst | with_reducible refine Tame.pairEq (by assumption) ?_ | with_reducible refine Tame.pairEqSnd (by assumption) ?_ | with_reducible refine Tame.iteEq (by assumption) (fun _ => ?_) (fun _ => ?_) | with_reducible refine Tame.iteEqSnd (by assumption) (fun _ => ?_) (fun _ => ?_))

theorem answer_tame (s : State) (h : FcpHdr) (type : Nat) (status : Nat) (payload : Bytes) : Tame [.fcp] s (State.answer s h type status payload) := by
  unfold State.answer; try dsimp -proj -iota -eta only
  repeat' (first | (show (_ : Bool) = true; decide) | with_reducible exact Tame.refl .. | split | with_reducible apply Tame.then (setSession_tame ..) | with_reducible apply Tame.then (send_tame ..) | with_reducible apply Tame.ite | with_reducible refine Tame.pairEq (by assumption) ?_ | with_reducible refine Tame.pairEqSnd (by assumption) ?_ | with_reducible refine Tame.iteEq (by assumption) (fun _ => ?_) (fun _ => ?_) | with_reducible refine Tame.iteEqSnd (by assumption) (fun _ => ?_) (fun _ => ?_))

theorem fcpServe_tame {l : List Part} {s : State} {h : FcpHdr} {t priv : Nat} {act : State → State × Nat × Bytes}
    (hl : [Part.counters, Part.fcp].all (fun p => l.contains p) = true) (ha : ∀ u, Tame l u (act u).1) : Tame l s (s.fcpServe h t priv act) := by
  have hg : Tame l s (s.fcpGate h).1 := Tame.then (fcpGate_tame ..) (Tame.refl ..) hl
  have hf : [Part.fcp].all (fun p => l.contains p) = true := by
    simp only [List.all_cons, List.all_nil, Bool.and_true, Bool.and_eq_true] at hl ⊢
    exact hl.2
  unfold State.fcpServe
  split
  next u e => rw [e] at hg; exact hg
  next u r e => rw [e] at hg; exact Tame.then (send_tame ..) hg hf
  next u x e =>
    rw [e] at hg
    split
    · exact Tame.then (answer_tame ..) hg hf
    · have h2 := ha u
      split
      next v st p e2 =>
        rw [e2] at h2
        exact Tame.then (answer_tame ..) (hg.trans_same h2) hf

theorem sendBare_tame (s : State) (type : Nat) (request : Nat) (status : Nat) : Tame [.fcp] s (State.sendBare s type request status) := by
  unfold State.sendBare
  repeat' (first | (show (_ : Bool) = true; decide) | with_reducible exact Tame.refl .. | with_reducible apply Tame.ite | with_reducible apply Tame.set_fcp | split)

theorem hello_tame (port : Nat) (req : Nat) (verLo : Nat) (verHi : Nat) (keyHash : BitVec 384) (s : State) : Tame [.fcp, .free] s (hello port req verLo verHi keyHash s) := by
  unfold hello; try dsimp -proj -iota -eta only
  repeat' (first | (show (_ : Bool) = true; decide) | with_reducible exact Tame.refl .. | split | with_reducible apply Tame.then (sendBare_tame ..) | with_reducible apply Tame.then (draw_tame ..) | with_reducible refine Tame.thenSnd (draw_tame ..) (by assumption) ?_ ?_ | with_reducible apply Tame.then (send_tame ..) | with_reducible apply Tame.ite | with_reducible refine Tame.pairEq (by assumption) ?_ | with_reducible refine Tame.pairEqSnd (by assumption) ?_ | with_reducible refine Tame.iteEq (by assumption) (fun _ => ?_) (fun _ => ?_) | with_reducible refine Tame.iteEqSnd (by assumption) (fun _ => ?_) (fun _ => ?_) | with_reducible apply Tame.set_fcp)

theorem sendRecords_tame (s : State) (sid : Nat) (rs : List EventRec) (gap : Bool) : Tame [.fcp] s (State.sendRecords s sid rs gap) := by
  unfold State.sendRecords
  repeat' (first | (show (_ : Bool) = true; decide) | with_reducible exact Tame.refl .. | with_reducible apply Tame.then (send_tame ..) | with_reducible refine Tame.fold ?_ (fun s x => ?_) | with_reducible refine Tame.foldEq (by assumption) ?_ (fun r x => ?_) | with_reducible refine Tame.foldEqSnd (by assumption) ?_ (fun r x => ?_) | with_reducible refine Tame.foldPair ?_ (fun r x => ?_) | with_reducible refine Tame.foldPairSnd ?_ (fun r x => ?_) | with_reducible apply Tame.ite | split)

theorem sendAfter_tame (s : State) (x : Session) (seq : Nat) : Tame [.fcp] s (State.sendAfter s x seq) := by
  unfold State.sendAfter; try dsimp -proj -iota -eta only
  repeat' (first | (show (_ : Bool) = true; decide) | with_reducible exact Tame.refl .. | split | with_reducible apply Tame.then (setSession_tame ..) | with_reducible apply Tame.then (sendRecords_tame ..) | with_reducible apply Tame.ite | with_reducible refine Tame.pairEq (by assumption) ?_ | with_reducible refine Tame.pairEqSnd (by assumption) ?_ | with_reducible refine Tame.iteEq (by assumption) (fun _ => ?_) (fun _ => ?_) | with_reducible refine Tame.iteEqSnd (by assumption) (fun _ => ?_) (fun _ => ?_))

theorem auth_tame (h : FcpHdr) (sigOk : Bool) (s : State) : Tame [.regs, .counters, .events, .fcp, .obs] s (auth h sigOk s) := by
  unfold auth; try dsimp -proj -iota -eta only
  repeat' (first | (show (_ : Bool) = true; decide) | with_reducible exact Tame.refl .. | split | with_reducible apply Tame.then (fcpGate_tame ..) | with_reducible refine Tame.thenFst (fcpGate_tame ..) (by assumption) ?_ ?_ | with_reducible apply Tame.then (send_tame ..) | with_reducible apply Tame.then (answer_tame ..) | with_reducible apply Tame.then (setSession_tame ..) | with_reducible apply Tame.then (sessionCount_tame ..) | with_reducible apply Tame.then (sendAfter_tame ..) | with_reducible apply Tame.then (raise_tame ..) | with_reducible apply Tame.then (dropSession_tame ..) | with_reducible apply Tame.then (count_tame ..) | with_reducible apply Tame.ite | with_reducible refine Tame.pairEq (by assumption) ?_ | with_reducible refine Tame.pairEqSnd (by assumption) ?_ | with_reducible refine Tame.iteEq (by assumption) (fun _ => ?_) (fun _ => ?_) | with_reducible refine Tame.iteEqSnd (by assumption) (fun _ => ?_) (fun _ => ?_))

theorem keepalive_tame (h : FcpHdr) (s : State) : Tame [.counters, .fcp] s (keepalive h s) := by
  unfold keepalive
  repeat' (first | (show (_ : Bool) = true; decide) | with_reducible exact Tame.refl .. | with_reducible apply Tame.then (fcpGate_tame ..) | with_reducible refine Tame.thenFst (fcpGate_tame ..) (by assumption) ?_ ?_ | with_reducible apply Tame.ite | split)

theorem close_tame (h : FcpHdr) (s : State) : Tame [.regs, .counters, .events, .fcp, .obs] s (close h s) := by
  unfold close; try dsimp -proj -iota -eta only
  repeat' (first | (show (_ : Bool) = true; decide) | with_reducible exact Tame.refl .. | split | with_reducible apply Tame.then (fcpGate_tame ..) | with_reducible refine Tame.thenFst (fcpGate_tame ..) (by assumption) ?_ ?_ | with_reducible apply Tame.then (closeSession_tame ..) | with_reducible apply Tame.ite | with_reducible refine Tame.pairEq (by assumption) ?_ | with_reducible refine Tame.pairEqSnd (by assumption) ?_ | with_reducible refine Tame.iteEq (by assumption) (fun _ => ?_) (fun _ => ?_) | with_reducible refine Tame.iteEqSnd (by assumption) (fun _ => ?_) (fun _ => ?_))

theorem keepaliveSend_tame (sid : Nat) (s : State) : Tame [.fcp] s (keepaliveSend sid s) := by
  unfold keepaliveSend
  repeat' (first | (show (_ : Bool) = true; decide) | with_reducible exact Tame.refl .. | with_reducible apply Tame.then (send_tame ..) | with_reducible apply Tame.ite | split)

theorem sessionKeepaliveTimeout_tame (sid : Nat) (s : State) : Tame [.regs, .counters, .events, .fcp, .obs] s (sessionKeepaliveTimeout sid s) := by
  unfold sessionKeepaliveTimeout; try dsimp -proj -iota -eta only
  repeat' (first | (show (_ : Bool) = true; decide) | with_reducible exact Tame.refl .. | split | with_reducible apply Tame.then (closeSession_tame ..) | with_reducible apply Tame.ite | with_reducible refine Tame.pairEq (by assumption) ?_ | with_reducible refine Tame.pairEqSnd (by assumption) ?_ | with_reducible refine Tame.iteEq (by assumption) (fun _ => ?_) (fun _ => ?_) | with_reducible refine Tame.iteEqSnd (by assumption) (fun _ => ?_) (fun _ => ?_))

theorem eventAck_tame (h : FcpHdr) (seq : Nat) (s : State) : Tame [.counters, .fcp] s (eventAck h seq s) := by
  unfold eventAck; try dsimp -proj -iota -eta only
  repeat' (first | (show (_ : Bool) = true; decide) | with_reducible exact Tame.refl .. | split | with_reducible apply Tame.then (fcpGate_tame ..) | with_reducible refine Tame.thenFst (fcpGate_tame ..) (by assumption) ?_ ?_ | with_reducible apply Tame.then (setSession_tame ..) | with_reducible apply Tame.ite | with_reducible refine Tame.pairEq (by assumption) ?_ | with_reducible refine Tame.pairEqSnd (by assumption) ?_ | with_reducible refine Tame.iteEq (by assumption) (fun _ => ?_) (fun _ => ?_) | with_reducible refine Tame.iteEqSnd (by assumption) (fun _ => ?_) (fun _ => ?_))

theorem eventResume_tame (h : FcpHdr) (seq : Nat) (s : State) : Tame [.counters, .fcp] s (eventResume h seq s) := by
  unfold eventResume; try dsimp -proj -iota -eta only
  repeat' (first | (show (_ : Bool) = true; decide) | with_reducible exact Tame.refl .. | split | with_reducible apply Tame.then (fcpGate_tame ..) | with_reducible refine Tame.thenFst (fcpGate_tame ..) (by assumption) ?_ ?_ | with_reducible apply Tame.then (sendAfter_tame ..) | with_reducible apply Tame.ite | with_reducible refine Tame.pairEq (by assumption) ?_ | with_reducible refine Tame.pairEqSnd (by assumption) ?_ | with_reducible refine Tame.iteEq (by assumption) (fun _ => ?_) (fun _ => ?_) | with_reducible refine Tame.iteEqSnd (by assumption) (fun _ => ?_) (fun _ => ?_))

theorem eventResend_tame (sid : Nat) (s : State) : Tame [.fcp] s (eventResend sid s) := by
  unfold eventResend; try dsimp -proj -iota -eta only
  repeat' (first | (show (_ : Bool) = true; decide) | with_reducible exact Tame.refl .. | split | with_reducible apply Tame.then (sendRecords_tame ..) | with_reducible apply Tame.ite | with_reducible refine Tame.pairEq (by assumption) ?_ | with_reducible refine Tame.pairEqSnd (by assumption) ?_ | with_reducible refine Tame.iteEq (by assumption) (fun _ => ?_) (fun _ => ?_) | with_reducible refine Tame.iteEqSnd (by assumption) (fun _ => ?_) (fun _ => ?_))

theorem eventWindowClose_tame (code : Nat) (key : Nat) (s : State) : Tame [.counters, .events, .fcp, .obs] s (eventWindowClose code key s) := by
  unfold eventWindowClose; try dsimp -proj -iota -eta only
  repeat' (first | (show (_ : Bool) = true; decide) | with_reducible exact Tame.refl .. | split | with_reducible apply Tame.then (record_tame ..) | with_reducible apply Tame.ite | with_reducible refine Tame.pairEq (by assumption) ?_ | with_reducible refine Tame.pairEqSnd (by assumption) ?_ | with_reducible refine Tame.iteEq (by assumption) (fun _ => ?_) (fun _ => ?_) | with_reducible refine Tame.iteEqSnd (by assumption) (fun _ => ?_) (fun _ => ?_) | with_reducible apply Tame.set_ev)

end Sys2Proof.Machine
end

