-- ==== Sys2Proof/Laws/WarmFrames.lean ====
section
/-! SUPPORT. The parts that the operations of Machine/Warm may change. -/

namespace Sys2Proof.Machine

set_option linter.all false

theorem warmReset_tame (s : State) : Tame [.regs, .boot, .fcp, .obs] s (State.warmReset s) := by
  unfold State.warmReset
  repeat' (first | (show (_ : Bool) = true; decide) | with_reducible exact Tame.refl .. | with_reducible apply Tame.then (setFld_tame ..) | with_reducible apply Tame.ite | with_reducible apply Tame.set_boot | with_reducible apply Tame.set_fcp | with_reducible apply Tame.set_obs | with_reducible apply Tame.set_boot_fcp_obs | split)

theorem warmBegin_tame (s : State) : Tame [.regs, .counters, .boot, .fcp, .obs] s (State.warmBegin s) := by
  unfold State.warmBegin
  repeat' (first | (show (_ : Bool) = true; decide) | with_reducible exact Tame.refl .. | with_reducible apply Tame.then (warmReset_tame ..) | with_reducible apply Tame.then (setFld_tame ..) | with_reducible apply Tame.then (count_tame ..) | with_reducible apply Tame.ite | with_reducible apply Tame.set_boot | split)

theorem warmFail_tame (s : State) : Tame [.regs, .counters, .pins, .boot, .events, .fcp, .obs] s (State.warmFail s) := by
  unfold State.warmFail
  repeat' (first | (show (_ : Bool) = true; decide) | with_reducible exact Tame.refl .. | with_reducible apply Tame.then (raise_tame ..) | with_reducible apply Tame.then (warmBegin_tame ..) | with_reducible apply Tame.ite | with_reducible apply Tame.set_pins | with_reducible apply Tame.set_boot | with_reducible apply Tame.set_boot_pins | split)

theorem warmStart_tame (s : State) : Tame [.regs, .counters, .boot, .fcp, .obs] s (State.warmStart s) := by
  unfold State.warmStart
  repeat' (first | (show (_ : Bool) = true; decide) | with_reducible exact Tame.refl .. | with_reducible apply Tame.then (warmBegin_tame ..) | with_reducible apply Tame.ite | with_reducible apply Tame.set_boot | split)

theorem firmwareWarmRestart_tame (s : State) : Tame [.regs, .counters, .boot, .fcp, .obs] s (firmwareWarmRestart s) := by
  unfold firmwareWarmRestart
  repeat' (first | (show (_ : Bool) = true; decide) | with_reducible exact Tame.refl .. | with_reducible apply Tame.then (warmStart_tame ..) | with_reducible apply Tame.ite | split)

theorem warmRestartTimeout_tame (s : State) : Tame [.regs, .counters, .pins, .boot, .events, .fcp, .obs] s (warmRestartTimeout s) := by
  unfold warmRestartTimeout
  repeat' (first | (show (_ : Bool) = true; decide) | with_reducible exact Tame.refl .. | with_reducible apply Tame.then (warmFail_tame ..) | with_reducible apply Tame.ite | split)

theorem restart_tame (h : FcpHdr) (s : State) : Tame [.regs, .counters, .boot, .fcp, .obs] s (restart h s) := by
  unfold restart; try dsimp -proj -iota -eta only
  repeat' (first | (show (_ : Bool) = true; decide) | with_reducible exact Tame.refl .. | split | with_reducible apply Tame.then (fcpGate_tame ..) | with_reducible refine Tame.thenFst (fcpGate_tame ..) (by assumption) ?_ ?_ | with_reducible apply Tame.then (send_tame ..) | with_reducible apply Tame.then (answer_tame ..) | with_reducible apply Tame.then (warmStart_tame ..) | with_reducible apply Tame.ite | with_reducible refine Tame.pairEq (by assumption) ?_ | with_reducible refine Tame.pairEqSnd (by assumption) ?_ | with_reducible refine Tame.iteEq (by assumption) (fun _ => ?_) (fun _ => ?_) | with_reducible refine Tame.iteEqSnd (by assumption) (fun _ => ?_) (fun _ => ?_))

theorem watchdogExpiry_tame (s : State) : Tame [.regs, .counters, .pins, .boot, .events, .fcp, .obs, .line] s (watchdogExpiry s) := by
  unfold watchdogExpiry
  repeat' (first | (show (_ : Bool) = true; decide) | with_reducible exact Tame.refl .. | with_reducible apply Tame.then (fireAlarm_tame ..) | with_reducible apply Tame.then (count_tame ..) | with_reducible apply Tame.then (warmFail_tame ..) | with_reducible apply Tame.then (warmStart_tame ..) | with_reducible apply Tame.ite | split)

end Sys2Proof.Machine
end

