-- ==== Sys2Proof/Laws/EpochFrames.lean ====
section
/-! SUPPORT. The parts that the operations of Machine/Epoch may change. -/

namespace Sys2Proof.Machine

set_option linter.all false

theorem sweepEntry_tame (s : State) (only : Bool) (a : Nat) : Tame [.regs, .mem, .counters, .lookup] s (State.sweepEntry s only a) := by
  unfold State.sweepEntry; try dsimp -proj -iota -eta only
  repeat' (first | (show (_ : Bool) = true; decide) | with_reducible exact Tame.refl .. | split | with_reducible apply Tame.then (put_tame ..) | with_reducible apply Tame.then (hashRemove_tame ..) | with_reducible apply Tame.then (flowRemove_tame ..) | with_reducible apply Tame.ite | with_reducible refine Tame.pairEq (by assumption) ?_ | with_reducible refine Tame.pairEqSnd (by assumption) ?_ | with_reducible refine Tame.iteEq (by assumption) (fun _ => ?_) (fun _ => ?_) | with_reducible refine Tame.iteEqSnd (by assumption) (fun _ => ?_) (fun _ => ?_))

theorem alignBanks_tame (s : State) : Tame [.regs, .banks] s (State.alignBanks s) := by
  unfold State.alignBanks
  repeat' (first | (show (_ : Bool) = true; decide) | with_reducible exact Tame.refl .. | with_reducible apply Tame.then (setRegPar_tame ..) | with_reducible refine Tame.fold ?_ (fun s x => ?_) | with_reducible refine Tame.foldEq (by assumption) ?_ (fun r x => ?_) | with_reducible refine Tame.foldEqSnd (by assumption) ?_ (fun r x => ?_) | with_reducible refine Tame.foldPair ?_ (fun r x => ?_) | with_reducible refine Tame.foldPairSnd ?_ (fun r x => ?_) | with_reducible apply Tame.ite | split)

theorem sweepAll_tame (s : State) (only : Bool) : Tame [.regs, .mem, .banks, .counters, .lookup] s (State.sweepAll s only) := by
  unfold State.sweepAll
  repeat' (first | (show (_ : Bool) = true; decide) | with_reducible exact Tame.refl .. | with_reducible apply Tame.then (sweepEntry_tame ..) | with_reducible apply Tame.then (alignBanks_tame ..) | with_reducible refine Tame.fold ?_ (fun s x => ?_) | with_reducible refine Tame.foldEq (by assumption) ?_ (fun r x => ?_) | with_reducible refine Tame.foldEqSnd (by assumption) ?_ (fun r x => ?_) | with_reducible refine Tame.foldPair ?_ (fun r x => ?_) | with_reducible refine Tame.foldPairSnd ?_ (fun r x => ?_) | with_reducible apply Tame.ite | split)

theorem epochRefuse_tame (s : State) (code : Nat) : Tame [.regs] s (State.epochRefuse s code) := by
  unfold State.epochRefuse
  repeat' (first | (show (_ : Bool) = true; decide) | with_reducible exact Tame.refl .. | with_reducible apply Tame.then (setFld_tame ..) | with_reducible apply Tame.ite | split)

theorem setPhase_tame (s : State) (p : Nat) : Tame [.regs] s (State.setPhase s p) := by
  unfold State.setPhase
  repeat' (first | (show (_ : Bool) = true; decide) | with_reducible exact Tame.refl .. | with_reducible apply Tame.then (setFld_tame ..) | with_reducible apply Tame.ite | split)

theorem epochOpenCmd_tame (s : State) : Tame [.regs, .mem, .banks, .counters, .events, .fcp, .obs, .lookup] s (State.epochOpenCmd s).1 := by
  unfold State.epochOpenCmd
  repeat' (first | (show (_ : Bool) = true; decide) | with_reducible exact Tame.refl .. | with_reducible apply Tame.then (epochRefuse_tame ..) | with_reducible apply Tame.then (setFld_tame ..) | with_reducible apply Tame.then (setPhase_tame ..) | with_reducible apply Tame.then (sweepAll_tame ..) | with_reducible apply Tame.then (raise_tame ..) | with_reducible apply Tame.ite | with_reducible apply Tame.iteFst | split)

theorem epochArmCmd_tame (s : State) : Tame [.regs] s (State.epochArmCmd s).1 := by
  unfold State.epochArmCmd
  repeat' (first | (show (_ : Bool) = true; decide) | with_reducible exact Tame.refl .. | with_reducible apply Tame.then (epochRefuse_tame ..) | with_reducible apply Tame.then (setPhase_tame ..) | with_reducible apply Tame.ite | with_reducible apply Tame.iteFst | split)

theorem stagedSwitch_tame (s : State) : Tame [.regs, .boot] s (State.stagedSwitch s) := by
  unfold State.stagedSwitch; try dsimp -proj -iota -eta only
  repeat' (first | (show (_ : Bool) = true; decide) | with_reducible exact Tame.refl .. | split | with_reducible apply Tame.then (setFld_tame ..) | with_reducible apply Tame.ite | with_reducible refine Tame.pairEq (by assumption) ?_ | with_reducible refine Tame.pairEqSnd (by assumption) ?_ | with_reducible refine Tame.iteEq (by assumption) (fun _ => ?_) (fun _ => ?_) | with_reducible refine Tame.iteEqSnd (by assumption) (fun _ => ?_) (fun _ => ?_) | with_reducible apply Tame.set_boot)

theorem stagedSwept_tame (s : State) : Tame [.regs, .counters, .boot, .events, .fcp, .obs] s (State.stagedSwept s) := by
  unfold State.stagedSwept; try dsimp -proj -iota -eta only
  repeat' (first | (show (_ : Bool) = true; decide) | with_reducible exact Tame.refl .. | split | with_reducible apply Tame.then (warmStart_tame ..) | with_reducible apply Tame.then (raise_tame ..) | with_reducible apply Tame.ite | with_reducible refine Tame.pairEq (by assumption) ?_ | with_reducible refine Tame.pairEqSnd (by assumption) ?_ | with_reducible refine Tame.iteEq (by assumption) (fun _ => ?_) (fun _ => ?_) | with_reducible refine Tame.iteEqSnd (by assumption) (fun _ => ?_) (fun _ => ?_) | with_reducible apply Tame.set_boot)

theorem epochDoSwitch_tame (s : State) : Tame [.regs, .counters, .boot, .events, .fcp, .obs] s (State.epochDoSwitch s) := by
  unfold State.epochDoSwitch
  repeat' (first | (show (_ : Bool) = true; decide) | with_reducible exact Tame.refl .. | with_reducible apply Tame.then (setFld_tame ..) | with_reducible apply Tame.then (setPhase_tame ..) | with_reducible apply Tame.then (raise_tame ..) | with_reducible apply Tame.then (stagedSwitch_tame ..) | with_reducible apply Tame.then (epochRetire_tame ..) | with_reducible apply Tame.ite | split)

theorem epochSwitchNowCmd_tame (s : State) : Tame [.regs, .counters, .boot, .events, .fcp, .obs] s (State.epochSwitchNowCmd s).1 := by
  unfold State.epochSwitchNowCmd
  repeat' (first | (show (_ : Bool) = true; decide) | with_reducible exact Tame.refl .. | with_reducible apply Tame.then (epochDoSwitch_tame ..) | with_reducible apply Tame.then (epochRefuse_tame ..) | with_reducible apply Tame.ite | with_reducible apply Tame.iteFst | split)

theorem epochAbortCmd_tame (s : State) : Tame [.regs, .boot] s (State.epochAbortCmd s).1 := by
  unfold State.epochAbortCmd
  repeat' (first | (show (_ : Bool) = true; decide) | with_reducible exact Tame.refl .. | with_reducible apply Tame.then (setPhase_tame ..) | with_reducible apply Tame.then (epochRefuse_tame ..) | with_reducible apply Tame.ite | with_reducible apply Tame.iteFst | with_reducible apply Tame.set_boot | split)

theorem epochReply_fst (r : State × Nat) : (epochReply r).1 = r.1 := by
  unfold epochReply
  by_cases h : r.2 = 0
  · rw [if_pos h]
  · by_cases h2 : r.2 = 2
    · rw [if_neg h, if_pos h2]
    · rw [if_neg h, if_neg h2]

theorem epochReply_tame {s : State} {l : List Part} {r : State × Nat} (h : Tame l s r.1) : Tame l s (epochReply r).1 := by rw [epochReply_fst]; exact h

theorem epochOpen_tame (h : FcpHdr) (s : State) : Tame [.regs, .mem, .banks, .counters, .events, .fcp, .obs, .lookup] s (epochOpen h s) := by
  unfold epochOpen
  repeat' (first | (show (_ : Bool) = true; decide) | with_reducible exact Tame.refl .. | with_reducible refine fcpServe_tame ?_ (fun u => ?_) | with_reducible refine epochReply_tame ?_ | with_reducible apply Tame.then (epochOpenCmd_tame ..) | with_reducible refine Tame.thenFst (epochOpenCmd_tame ..) (by assumption) ?_ ?_ | with_reducible apply Tame.ite | with_reducible apply Tame.iteFst | split | dsimp only)

theorem epochArm_tame (h : FcpHdr) (seconds : Nat) (ns : Nat) (s : State) : Tame [.regs, .counters, .fcp] s (epochArm h seconds ns s) := by
  unfold epochArm
  repeat' (first | (show (_ : Bool) = true; decide) | with_reducible exact Tame.refl .. | with_reducible refine fcpServe_tame ?_ (fun u => ?_) | with_reducible refine epochReply_tame ?_ | with_reducible apply Tame.then (epochArmCmd_tame ..) | with_reducible refine Tame.thenFst (epochArmCmd_tame ..) (by assumption) ?_ ?_ | with_reducible apply Tame.then (setFld_tame ..) | with_reducible apply Tame.ite | with_reducible apply Tame.iteFst | split | dsimp only)

theorem epochSwitchNow_tame (h : FcpHdr) (s : State) : Tame [.regs, .counters, .boot, .events, .fcp, .obs] s (epochSwitchNow h s) := by
  unfold epochSwitchNow
  repeat' (first | (show (_ : Bool) = true; decide) | with_reducible exact Tame.refl .. | with_reducible refine fcpServe_tame ?_ (fun u => ?_) | with_reducible refine epochReply_tame ?_ | with_reducible apply Tame.then (epochSwitchNowCmd_tame ..) | with_reducible refine Tame.thenFst (epochSwitchNowCmd_tame ..) (by assumption) ?_ ?_ | with_reducible apply Tame.ite | with_reducible apply Tame.iteFst | split | dsimp only)

theorem epochAbort_tame (h : FcpHdr) (s : State) : Tame [.regs, .counters, .boot, .fcp] s (epochAbort h s) := by
  unfold epochAbort
  repeat' (first | (show (_ : Bool) = true; decide) | with_reducible exact Tame.refl .. | with_reducible refine fcpServe_tame ?_ (fun u => ?_) | with_reducible refine epochReply_tame ?_ | with_reducible apply Tame.then (epochAbortCmd_tame ..) | with_reducible refine Tame.thenFst (epochAbortCmd_tame ..) (by assumption) ?_ ?_ | with_reducible apply Tame.ite | with_reducible apply Tame.iteFst | split | dsimp only)

theorem epochSwitch_tame (s : State) : Tame [.regs, .counters, .boot, .events, .fcp, .obs] s (epochSwitch s) := by
  unfold epochSwitch
  repeat' (first | (show (_ : Bool) = true; decide) | with_reducible exact Tame.refl .. | with_reducible apply Tame.then (epochDoSwitch_tame ..) | with_reducible apply Tame.ite | split)

theorem epochDrainTimeout_tame (s : State) : Tame [.regs, .counters, .events, .fcp, .obs] s (epochDrainTimeout s) := by
  unfold epochDrainTimeout
  repeat' (first | (show (_ : Bool) = true; decide) | with_reducible exact Tame.refl .. | with_reducible apply Tame.then (setPhase_tame ..) | with_reducible apply Tame.then (raise_tame ..) | with_reducible apply Tame.ite | split)

theorem epochSweepDone_tame (s : State) : Tame [.regs, .mem, .banks, .counters, .boot, .events, .fcp, .obs, .lookup] s (epochSweepDone s) := by
  unfold epochSweepDone
  repeat' (first | (show (_ : Bool) = true; decide) | with_reducible exact Tame.refl .. | with_reducible apply Tame.then (sweepAll_tame ..) | with_reducible apply Tame.then (setPhase_tame ..) | with_reducible apply Tame.then (setFld_tame ..) | with_reducible apply Tame.then (raise_tame ..) | with_reducible apply Tame.then (stagedSwept_tame ..) | with_reducible apply Tame.ite | split)

end Sys2Proof.Machine
end

