-- ==== Sys2Proof/Laws/TimeFrames.lean ====
section
/-! SUPPORT. The parts that the operations of Machine/Time may change. -/

namespace Sys2Proof.Machine

set_option linter.all false

theorem setTime_tame (s : State) (state : Nat) (source : Nat) : Tame [.regs] s (State.setTime s state source) := by
  unfold State.setTime
  repeat' (first | (show (_ : Bool) = true; decide) | with_reducible exact Tame.refl .. | with_reducible apply Tame.then (setFld_tame ..) | with_reducible apply Tame.ite | split)

theorem timeSelect_tame (s : State) (src : Nat) : Tame [.regs, .counters, .events, .fcp, .obs, .time] s (State.timeSelect s src) := by
  unfold State.timeSelect
  repeat' (first | (show (_ : Bool) = true; decide) | with_reducible exact Tame.refl .. | with_reducible apply Tame.then (setTime_tame ..) | with_reducible apply Tame.then (setFld_tame ..) | with_reducible apply Tame.then (raise_tame ..) | with_reducible apply Tame.ite | with_reducible apply Tame.set_time | split)

theorem timeReselect_tame (s : State) : Tame [.regs, .counters, .events, .fcp, .obs, .time] s (State.timeReselect s) := by
  unfold State.timeReselect; try dsimp -proj -iota -eta only
  repeat' (first | (show (_ : Bool) = true; decide) | with_reducible exact Tame.refl .. | split | with_reducible apply Tame.then (timeSelect_tame ..) | with_reducible apply Tame.ite | with_reducible refine Tame.pairEq (by assumption) ?_ | with_reducible refine Tame.pairEqSnd (by assumption) ?_ | with_reducible refine Tame.iteEq (by assumption) (fun _ => ?_) (fun _ => ?_) | with_reducible refine Tame.iteEqSnd (by assumption) (fun _ => ?_) (fun _ => ?_))

theorem stepEvents_tame (s : State) : Tame [.regs, .counters, .boot, .events, .fcp, .obs] s (State.stepEvents s) := by
  unfold State.stepEvents
  repeat' (first | (show (_ : Bool) = true; decide) | with_reducible exact Tame.refl .. | with_reducible apply Tame.then (epochDoSwitch_tame ..) | with_reducible apply Tame.then (hatbandTakeover_tame ..) | with_reducible refine Tame.fold ?_ (fun s x => ?_) | with_reducible refine Tame.foldEq (by assumption) ?_ (fun r x => ?_) | with_reducible refine Tame.foldEqSnd (by assumption) ?_ (fun r x => ?_) | with_reducible refine Tame.foldPair ?_ (fun r x => ?_) | with_reducible refine Tame.foldPairSnd ?_ (fun r x => ?_) | with_reducible apply Tame.ite | split)

theorem timeStep_tame (s : State) (d : Int) : Tame [.regs, .counters, .boot, .events, .fcp, .obs, .time] s (State.timeStep s d) := by
  unfold State.timeStep
  repeat' (first | (show (_ : Bool) = true; decide) | with_reducible exact Tame.refl .. | with_reducible apply Tame.then (count_tame ..) | with_reducible apply Tame.then (raise_tame ..) | with_reducible apply Tame.then (stepEvents_tame ..) | with_reducible apply Tame.ite | with_reducible apply Tame.set_time | split)

theorem timeSlew_tame (s : State) (d : Int) : Tame [.regs, .time] s (State.timeSlew s d) := by
  unfold State.timeSlew
  repeat' (first | (show (_ : Bool) = true; decide) | with_reducible exact Tame.refl .. | with_reducible apply Tame.then (setFld_tame ..) | with_reducible apply Tame.ite | with_reducible apply Tame.set_time | split)

theorem lockCount_tame (s : State) (offset : Int) : Tame [.regs, .counters, .events, .fcp, .obs, .time] s (State.lockCount s offset) := by
  unfold State.lockCount
  repeat' (first | (show (_ : Bool) = true; decide) | with_reducible exact Tame.refl .. | with_reducible apply Tame.then (setTime_tame ..) | with_reducible apply Tame.then (raise_tame ..) | with_reducible apply Tame.ite | with_reducible apply Tame.set_time | split)

theorem acquire_tame (s : State) (offset : Int) : Tame [.regs, .counters, .boot, .events, .fcp, .obs, .time] s (State.acquire s offset) := by
  unfold State.acquire
  repeat' (first | (show (_ : Bool) = true; decide) | with_reducible exact Tame.refl .. | with_reducible apply Tame.then (setFld_tame ..) | with_reducible apply Tame.then (timeStep_tame ..) | with_reducible apply Tame.then (timeSlew_tame ..) | with_reducible apply Tame.ite | with_reducible apply Tame.set_time | split)

theorem steerLimit_tame (s : State) (steer : Int) : Tame [.regs, .counters, .events, .fcp, .obs, .time] s (State.steerLimit s steer) := by
  unfold State.steerLimit
  repeat' (first | (show (_ : Bool) = true; decide) | with_reducible exact Tame.refl .. | with_reducible apply Tame.then (count_tame ..) | with_reducible apply Tame.then (raise_tame ..) | with_reducible apply Tame.then (setTime_tame ..) | with_reducible apply Tame.ite | with_reducible apply Tame.set_time | split)

theorem measure_tame (s : State) (src : Nat) (offset : Int) (steer : Int) : Tame [.regs, .counters, .boot, .events, .fcp, .obs, .time] s (State.measure s src offset steer) := by
  unfold State.measure
  repeat' (first | (show (_ : Bool) = true; decide) | with_reducible exact Tame.refl .. | with_reducible apply Tame.then (count_tame ..) | with_reducible apply Tame.then (setFld_tame ..) | with_reducible apply Tame.then (acquire_tame ..) | with_reducible apply Tame.then (lockCount_tame ..) | with_reducible apply Tame.then (steerLimit_tame ..) | with_reducible apply Tame.ite | with_reducible apply Tame.set_time | split)

theorem ppsInEdge_tame (offset : Int) (inWindow : Bool) (steer : Int) (s : State) : Tame [.regs, .counters, .boot, .events, .fcp, .obs, .time] s (ppsInEdge offset inWindow steer s) := by
  unfold ppsInEdge
  repeat' (first | (show (_ : Bool) = true; decide) | with_reducible exact Tame.refl .. | with_reducible apply Tame.then (measure_tame ..) | with_reducible apply Tame.ite | split)

theorem todInMessage_tame (m : TodMsg) (s : State) : Tame [.regs, .counters, .boot, .events, .fcp, .obs, .time] s (todInMessage m s) := by
  unfold todInMessage
  repeat' (first | (show (_ : Bool) = true; decide) | with_reducible exact Tame.refl .. | with_reducible apply Tame.then (count_tame ..) | with_reducible apply Tame.then (timeStep_tame ..) | with_reducible apply Tame.then (raise_tame ..) | with_reducible apply Tame.ite | with_reducible apply Tame.set_time | split | with_reducible refine Tame.pairEq (by assumption) ?_ | with_reducible refine Tame.pairEqSnd (by assumption) ?_ | with_reducible refine Tame.iteEq (by assumption) (fun _ => ?_) (fun _ => ?_) | with_reducible refine Tame.iteEqSnd (by assumption) (fun _ => ?_) (fun _ => ?_))

theorem sourceQualified_tame (src : TimeSource) (offset : Int) (s : State) : Tame [.regs, .counters, .boot, .events, .fcp, .obs, .time] s (sourceQualified src offset s) := by
  unfold sourceQualified
  repeat' (first | (show (_ : Bool) = true; decide) | with_reducible exact Tame.refl .. | with_reducible apply Tame.then (timeReselect_tame ..) | with_reducible apply Tame.then (measure_tame ..) | with_reducible apply Tame.ite | with_reducible apply Tame.set_time | split)

theorem sourceLoss_tame (src : TimeSource) (cause : Nat) (s : State) : Tame [.regs, .counters, .events, .fcp, .obs, .time] s (sourceLoss src cause s) := by
  unfold sourceLoss; try dsimp -proj -iota -eta only
  repeat' (first | (show (_ : Bool) = true; decide) | with_reducible exact Tame.refl .. | split | with_reducible apply Tame.then (raise_tame ..) | with_reducible apply Tame.then (timeSelect_tame ..) | with_reducible apply Tame.then (setTime_tame ..) | with_reducible apply Tame.ite | with_reducible refine Tame.pairEq (by assumption) ?_ | with_reducible refine Tame.pairEqSnd (by assumption) ?_ | with_reducible refine Tame.iteEq (by assumption) (fun _ => ?_) (fun _ => ?_) | with_reducible refine Tame.iteEqSnd (by assumption) (fun _ => ?_) (fun _ => ?_) | with_reducible apply Tame.set_time)

theorem holdoverLimitExpiry_tame (s : State) : Tame [.regs, .counters, .events, .fcp, .obs] s (holdoverLimitExpiry s) := by
  unfold holdoverLimitExpiry
  repeat' (first | (show (_ : Bool) = true; decide) | with_reducible exact Tame.refl .. | with_reducible apply Tame.then (setTime_tame ..) | with_reducible apply Tame.then (raise_tame ..) | with_reducible apply Tame.ite | split)

theorem slewDone_tame (s : State) : Tame [.regs, .time] s (slewDone s) := by
  unfold slewDone
  repeat' (first | (show (_ : Bool) = true; decide) | with_reducible exact Tame.refl .. | with_reducible apply Tame.then (setFld_tame ..) | with_reducible apply Tame.ite | with_reducible apply Tame.set_time | split)

theorem adjRefuse_tame (s : State) : Tame [.counters, .events, .fcp, .obs] s (State.adjRefuse s) := by
  unfold State.adjRefuse
  repeat' (first | (show (_ : Bool) = true; decide) | with_reducible exact Tame.refl .. | with_reducible apply Tame.then (count_tame ..) | with_reducible apply Tame.then (raise_tame ..) | with_reducible apply Tame.ite | split)

theorem timeAdjStart_tame (slew : Bool) (phase : Int) (s : State) : Tame [.regs, .counters, .boot, .events, .fcp, .obs, .time] s (timeAdjStart slew phase s) := by
  unfold timeAdjStart
  repeat' (first | (show (_ : Bool) = true; decide) | with_reducible exact Tame.refl .. | with_reducible apply Tame.then (adjRefuse_tame ..) | with_reducible apply Tame.then (setFlag_tame ..) | with_reducible apply Tame.then (setFld_tame ..) | with_reducible apply Tame.then (count_tame ..) | with_reducible apply Tame.then (lockCount_tame ..) | with_reducible apply Tame.then (timeSlew_tame ..) | with_reducible apply Tame.then (timeStep_tame ..) | with_reducible apply Tame.ite | with_reducible apply Tame.set_time | split)

theorem timeFreqWrite_tame (steer : Int) (s : State) : Tame [.regs, .counters, .events, .fcp, .obs, .time] s (timeFreqWrite steer s) := by
  unfold timeFreqWrite
  repeat' (first | (show (_ : Bool) = true; decide) | with_reducible exact Tame.refl .. | with_reducible apply Tame.then (adjRefuse_tame ..) | with_reducible apply Tame.then (setFld_tame ..) | with_reducible apply Tame.then (timeReselect_tame ..) | with_reducible apply Tame.ite | with_reducible apply Tame.set_time | split)

theorem timeCellRx_tame (c : TimeCell) (steer : Int) (s : State) : Tame [.regs, .counters, .boot, .events, .fcp, .obs, .time] s (timeCellRx c steer s) := by
  unfold timeCellRx; try dsimp -proj -iota -eta only
  repeat' (first | (show (_ : Bool) = true; decide) | with_reducible exact Tame.refl .. | split | with_reducible apply Tame.then (count_tame ..) | with_reducible apply Tame.then (setFld_tame ..) | with_reducible apply Tame.then (measure_tame ..) | with_reducible apply Tame.ite | with_reducible refine Tame.pairEq (by assumption) ?_ | with_reducible refine Tame.pairEqSnd (by assumption) ?_ | with_reducible refine Tame.iteEq (by assumption) (fun _ => ?_) (fun _ => ?_) | with_reducible refine Tame.iteEqSnd (by assumption) (fun _ => ?_) (fun _ => ?_) | with_reducible apply Tame.set_time)

theorem timeNowRead_tame (h : FcpHdr) (s : State) : Tame [.regs, .counters, .fcp] s (timeNowRead h s) := by
  unfold timeNowRead; try dsimp -proj -iota -eta only
  repeat' (first | (show (_ : Bool) = true; decide) | with_reducible exact Tame.refl .. | split | with_reducible refine fcpServe_tame ?_ (fun u => ?_) | with_reducible apply Tame.then (filterCount_tame ..) | with_reducible apply Tame.then (setFld_tame ..) | with_reducible apply Tame.ite | with_reducible apply Tame.iteFst | with_reducible refine Tame.pairEq (by assumption) ?_ | with_reducible refine Tame.pairEqSnd (by assumption) ?_ | with_reducible refine Tame.iteEq (by assumption) (fun _ => ?_) (fun _ => ?_) | with_reducible refine Tame.iteEqSnd (by assumption) (fun _ => ?_) (fun _ => ?_) | dsimp only)

theorem ppsOutEdge_tame (s : State) : Tame [.pins] s (ppsOutEdge s) := by
  unfold ppsOutEdge
  repeat' (first | (show (_ : Bool) = true; decide) | with_reducible exact Tame.refl .. | with_reducible apply Tame.ite | with_reducible apply Tame.set_pins | split)

theorem ppsOutFall_tame (s : State) : Tame [.pins] s (ppsOutFall s) := by
  unfold ppsOutFall
  repeat' (first | (show (_ : Bool) = true; decide) | with_reducible exact Tame.refl .. | with_reducible apply Tame.ite | with_reducible apply Tame.set_pins | split)

theorem todOutSend_tame (s : State) : Tame [.time] s (todOutSend s) := by
  unfold todOutSend
  repeat' (first | (show (_ : Bool) = true; decide) | with_reducible exact Tame.refl .. | with_reducible apply Tame.ite | with_reducible apply Tame.set_time | split)

theorem ref25mFault_tame (s : State) : Tame [.regs, .counters, .events, .fcp, .obs, .line, .time] s (ref25mFault s) := by
  unfold ref25mFault
  repeat' (first | (show (_ : Bool) = true; decide) | with_reducible exact Tame.refl .. | with_reducible apply Tame.then (fireAlarm_tame ..) | with_reducible apply Tame.then (setTime_tame ..) | with_reducible apply Tame.then (setFld_tame ..) | with_reducible apply Tame.ite | with_reducible apply Tame.set_time | split)

end Sys2Proof.Machine
end

