-- ==== Sys2Proof/Laws/BistFrames.lean ====
section
/-! SUPPORT. The parts that the operations of Machine/Bist may change. -/

namespace Sys2Proof.Machine

set_option linter.all false

theorem setSegState_tame (s : State) (g : Nat) (st : Nat) : Tame [.regs] s (State.setSegState s g st) := by
  unfold State.setSegState
  repeat' (first | (show (_ : Bool) = true; decide) | with_reducible exact Tame.refl .. | with_reducible apply Tame.then (setFld_tame ..) | with_reducible apply Tame.ite | split)

theorem bistRegs_tame (s : State) : Tame [.regs] s (State.bistRegs s) := by
  unfold State.bistRegs
  repeat' (first | (show (_ : Bool) = true; decide) | with_reducible exact Tame.refl .. | with_reducible apply Tame.then (setFld_tame ..) | with_reducible apply Tame.ite | split)

theorem bistHead_tame (s : State) : Tame [.regs] s (State.bistHead s) := by
  unfold State.bistHead; try dsimp -proj -iota -eta only
  repeat' (first | (show (_ : Bool) = true; decide) | with_reducible exact Tame.refl .. | split | with_reducible apply Tame.then (setSegState_tame ..) | with_reducible apply Tame.ite | with_reducible refine Tame.pairEq (by assumption) ?_ | with_reducible refine Tame.pairEqSnd (by assumption) ?_ | with_reducible refine Tame.iteEq (by assumption) (fun _ => ?_) (fun _ => ?_) | with_reducible refine Tame.iteEqSnd (by assumption) (fun _ => ?_) (fun _ => ?_))

theorem setBistQ_tame (s : State) (l : List BistRun) : Tame [.regs, .bist] s (State.setBistQ s l) := by
  unfold State.setBistQ
  repeat' (first | (show (_ : Bool) = true; decide) | with_reducible exact Tame.refl .. | with_reducible apply Tame.then (bistRegs_tame ..) | with_reducible apply Tame.then (bistHead_tame ..) | with_reducible apply Tame.ite | with_reducible apply Tame.set_bist | split)

theorem setUnderTest_tame (s : State) (g : Nat) (b : Bool) : Tame [.regs] s (State.setUnderTest s g b) := by
  unfold State.setUnderTest
  repeat' (first | (show (_ : Bool) = true; decide) | with_reducible exact Tame.refl .. | with_reducible apply Tame.then (setFlag_tame ..) | with_reducible refine Tame.fold ?_ (fun s x => ?_) | with_reducible refine Tame.foldEq (by assumption) ?_ (fun r x => ?_) | with_reducible refine Tame.foldEqSnd (by assumption) ?_ (fun r x => ?_) | with_reducible refine Tame.foldPair ?_ (fun r x => ?_) | with_reducible refine Tame.foldPairSnd ?_ (fun r x => ?_) | with_reducible apply Tame.ite | split)

theorem bistStart_tame (h : FcpHdr) (g : Nat) (l : Nat) (s : State) : Tame [.regs, .counters, .fcp, .bist] s (bistStart h g l s) := by
  unfold bistStart
  repeat' (first | (show (_ : Bool) = true; decide) | with_reducible exact Tame.refl .. | with_reducible refine fcpServe_tame ?_ (fun u => ?_) | with_reducible apply Tame.then (setFld_tame ..) | with_reducible apply Tame.then (setSegState_tame ..) | with_reducible apply Tame.then (setBistQ_tame ..) | with_reducible apply Tame.ite | with_reducible apply Tame.iteFst | split | dsimp only)

theorem bistSegmentStart_tame (s : State) : Tame [.regs, .bist, .gov] s (bistSegmentStart s) := by
  unfold bistSegmentStart; try dsimp -proj -iota -eta only
  repeat' (first | (show (_ : Bool) = true; decide) | with_reducible exact Tame.refl .. | split | with_reducible apply Tame.then (spend_tame ..) | with_reducible apply Tame.then (setSegState_tame ..) | with_reducible apply Tame.then (setFld_tame ..) | with_reducible apply Tame.then (setUnderTest_tame ..) | with_reducible apply Tame.then (setBistQ_tame ..) | with_reducible apply Tame.ite | with_reducible refine Tame.pairEq (by assumption) ?_ | with_reducible refine Tame.pairEqSnd (by assumption) ?_ | with_reducible refine Tame.iteEq (by assumption) (fun _ => ?_) (fun _ => ?_) | with_reducible refine Tame.iteEqSnd (by assumption) (fun _ => ?_) (fun _ => ?_) | with_reducible apply Tame.set_bist)

theorem bistEnd_tame (s : State) (e : BistEnd) : Tame [.regs, .bist] s (State.bistEnd s e) := by
  unfold State.bistEnd
  repeat' (first | (show (_ : Bool) = true; decide) | with_reducible exact Tame.refl .. | with_reducible apply Tame.then (bistRegs_tame ..) | with_reducible apply Tame.then (setSegState_tame ..) | with_reducible apply Tame.ite | with_reducible apply Tame.set_bist | split)

theorem bistSegmentDone_tame (g : Nat) (misr : List Word) (ms : Nat) (s : State) : Tame [.regs, .bist] s (bistSegmentDone g misr ms s) := by
  unfold bistSegmentDone; try dsimp -proj -iota -eta only
  repeat' (first | (show (_ : Bool) = true; decide) | with_reducible exact Tame.refl .. | split | with_reducible apply Tame.then (bistEnd_tame ..) | with_reducible apply Tame.ite | with_reducible refine Tame.pairEq (by assumption) ?_ | with_reducible refine Tame.pairEqSnd (by assumption) ?_ | with_reducible refine Tame.iteEq (by assumption) (fun _ => ?_) (fun _ => ?_) | with_reducible refine Tame.iteEqSnd (by assumption) (fun _ => ?_) (fun _ => ?_))

theorem bistAbort_tame (s : State) (cause : Nat) : Tame [.regs, .counters, .events, .fcp, .obs, .bist] s (State.bistAbort s cause) := by
  unfold State.bistAbort
  repeat' (first | (show (_ : Bool) = true; decide) | with_reducible exact Tame.refl .. | with_reducible apply Tame.then (bistEnd_tame ..) | with_reducible apply Tame.then (raise_tame ..) | with_reducible refine Tame.fold ?_ (fun s x => ?_) | with_reducible refine Tame.foldEq (by assumption) ?_ (fun r x => ?_) | with_reducible refine Tame.foldEqSnd (by assumption) ?_ (fun r x => ?_) | with_reducible refine Tame.foldPair ?_ (fun r x => ?_) | with_reducible refine Tame.foldPairSnd ?_ (fun r x => ?_) | with_reducible apply Tame.ite | split)

theorem segRestore_tame (s : State) (g : Nat) (failed : List Nat) : Tame [.regs, .mem, .counters, .events, .fcp, .obs, .lookup] s (State.segRestore s g failed) := by
  unfold State.segRestore
  repeat' (first | (show (_ : Bool) = true; decide) | with_reducible exact Tame.refl .. | with_reducible apply Tame.then (setFld_tame ..) | with_reducible apply Tame.then (hbmRetire_tame ..) | with_reducible apply Tame.then (poolFence_tame ..) | with_reducible refine Tame.fold ?_ (fun s x => ?_) | with_reducible refine Tame.foldEq (by assumption) ?_ (fun r x => ?_) | with_reducible refine Tame.foldEqSnd (by assumption) ?_ (fun r x => ?_) | with_reducible refine Tame.foldPair ?_ (fun r x => ?_) | with_reducible refine Tame.foldPairSnd ?_ (fun r x => ?_) | with_reducible apply Tame.ite | with_reducible apply Tame.set_mem | with_reducible apply Tame.set_lookup | with_reducible apply Tame.set_mem_lookup | split | (intro hx; first | exact mput_mwf _ _ _ hx | exact memPut_wf _ _ _ hx | exact mwf_filter _ _ hx))

theorem segBar_tame (s : State) (g : Nat) (mask : Nat) : Tame [.regs, .counters, .events, .fcp, .obs, .bist] s (State.segBar s g mask) := by
  unfold State.segBar
  repeat' (first | (show (_ : Bool) = true; decide) | with_reducible exact Tame.refl .. | with_reducible apply Tame.then (poolFence_tame ..) | with_reducible apply Tame.then (poolRejoin_tame ..) | with_reducible refine Tame.fold ?_ (fun s x => ?_) | with_reducible refine Tame.foldEq (by assumption) ?_ (fun r x => ?_) | with_reducible refine Tame.foldEqSnd (by assumption) ?_ (fun r x => ?_) | with_reducible refine Tame.foldPair ?_ (fun r x => ?_) | with_reducible refine Tame.foldPairSnd ?_ (fun r x => ?_) | with_reducible apply Tame.ite | with_reducible apply Tame.set_bist | split)

theorem bistRestoreDone_tame (g : Nat) (failed : List Nat) (s : State) : Tame [.regs, .mem, .counters, .events, .fcp, .obs, .bist, .lookup] s (bistRestoreDone g failed s) := by
  unfold bistRestoreDone; try dsimp -proj -iota -eta only
  repeat' (first | (show (_ : Bool) = true; decide) | with_reducible exact Tame.refl .. | split | with_reducible apply Tame.then (segRestore_tame ..) | with_reducible apply Tame.then (setUnderTest_tame ..) | with_reducible apply Tame.then (setSegState_tame ..) | with_reducible apply Tame.then (setFld_tame ..) | with_reducible apply Tame.then (setReg_tame ..) | with_reducible apply Tame.then (segBar_tame ..) | with_reducible apply Tame.then (raise_tame ..) | with_reducible apply Tame.ite | with_reducible refine Tame.pairEq (by assumption) ?_ | with_reducible refine Tame.pairEqSnd (by assumption) ?_ | with_reducible refine Tame.iteEq (by assumption) (fun _ => ?_) (fun _ => ?_) | with_reducible refine Tame.iteEqSnd (by assumption) (fun _ => ?_) (fun _ => ?_) | with_reducible apply Tame.set_bist)

theorem bistDrainWaitExpiry_tame (s : State) : Tame [.regs, .counters, .events, .fcp, .obs, .bist] s (bistDrainWaitExpiry s) := by
  unfold bistDrainWaitExpiry; try dsimp -proj -iota -eta only
  repeat' (first | (show (_ : Bool) = true; decide) | with_reducible exact Tame.refl .. | split | with_reducible apply Tame.then (setSegState_tame ..) | with_reducible apply Tame.then (setFld_tame ..) | with_reducible apply Tame.then (setBistQ_tame ..) | with_reducible apply Tame.then (raise_tame ..) | with_reducible apply Tame.ite | with_reducible refine Tame.pairEq (by assumption) ?_ | with_reducible refine Tame.pairEqSnd (by assumption) ?_ | with_reducible refine Tame.iteEq (by assumption) (fun _ => ?_) (fun _ => ?_) | with_reducible refine Tame.iteEqSnd (by assumption) (fun _ => ?_) (fun _ => ?_))

end Sys2Proof.Machine
end

