-- ==== Sys2Proof/Laws/GovFrames.lean ====
section
/-! SUPPORT. The parts that the operations of Machine/Gov may change. -/

namespace Sys2Proof.Machine

set_option linter.all false

theorem effUpdate_tame (s : State) (cause : Nat) : Tame [.regs, .counters, .events, .fcp, .obs] s (State.effUpdate s cause) := by
  unfold State.effUpdate
  repeat' (first | (show (_ : Bool) = true; decide) | with_reducible exact Tame.refl .. | with_reducible apply Tame.then (setFld_tame ..) | with_reducible apply Tame.then (raise_tame ..) | with_reducible apply Tame.ite | split)

theorem paceUpdate_tame (s : State) : Tame [.regs, .counters, .events, .fcp, .obs] s (State.paceUpdate s) := by
  unfold State.paceUpdate
  repeat' (first | (show (_ : Bool) = true; decide) | with_reducible exact Tame.refl .. | with_reducible apply Tame.then (setFld_tame ..) | with_reducible apply Tame.then (raise_tame ..) | with_reducible apply Tame.ite | split)

theorem railEpoch_tame (s : State) (onF : Bool) (current : Nat) (demand : Nat) : Tame [.regs, .counters, .events, .fcp, .obs, .gov] s (State.railEpoch s onF current demand) := by
  unfold State.railEpoch
  repeat' (first | (show (_ : Bool) = true; decide) | with_reducible exact Tame.refl .. | with_reducible apply Tame.then (setFld_tame ..) | with_reducible apply Tame.then (count_tame ..) | with_reducible apply Tame.then (raiseLimited_tame ..) | with_reducible apply Tame.ite | with_reducible apply Tame.set_gov | split)

theorem chargeBist_tame (s : State) : Tame [.regs, .counters, .gov] s (State.chargeBist s) := by
  unfold State.chargeBist
  repeat' (first | (show (_ : Bool) = true; decide) | with_reducible exact Tame.refl .. | with_reducible apply Tame.then (spend_tame ..) | with_reducible apply Tame.then (setSegState_tame ..) | with_reducible apply Tame.then (count_tame ..) | with_reducible refine Tame.fold ?_ (fun s x => ?_) | with_reducible refine Tame.foldEq (by assumption) ?_ (fun r x => ?_) | with_reducible refine Tame.foldEqSnd (by assumption) ?_ (fun r x => ?_) | with_reducible refine Tame.foldPair ?_ (fun r x => ?_) | with_reducible refine Tame.foldPairSnd ?_ (fun r x => ?_) | with_reducible apply Tame.ite | split)

theorem budgetPace_tame (s : State) (above : Bool) (empty : Bool) : Tame [.counters, .gov] s (State.budgetPace s above empty) := by
  unfold State.budgetPace
  repeat' (first | (show (_ : Bool) = true; decide) | with_reducible exact Tame.refl .. | with_reducible apply Tame.then (count_tame ..) | with_reducible apply Tame.ite | with_reducible apply Tame.set_gov | split)

theorem countShort_tame (s : State) (c : Ctr) (g : Nat) (w : Nat) : Tame [.counters] s (State.countShort s c g w) := by
  unfold State.countShort
  repeat' (first | (show (_ : Bool) = true; decide) | with_reducible exact Tame.refl .. | with_reducible apply Tame.then (count_tame ..) | with_reducible apply Tame.ite | split)

theorem forced_tame (s : State) (c : Nat) (x : Nat) : Tame [.counters, .events, .fcp, .obs] s (State.forced s c x) := by
  unfold State.forced
  repeat' (first | (show (_ : Bool) = true; decide) | with_reducible exact Tame.refl .. | with_reducible apply Tame.then (count_tame ..) | with_reducible apply Tame.then (raiseLimited_tame ..) | with_reducible apply Tame.ite | split)

theorem grantIssue_tame (s : State) (m : EpochMeas) (e : EpochGrant) : Tame [.gov] s (State.grantIssue s m e) := by
  unfold State.grantIssue
  repeat' (first | (show (_ : Bool) = true; decide) | with_reducible exact Tame.refl .. | with_reducible apply Tame.ite | with_reducible apply Tame.set_gov | split)

theorem epochRegs_tame (s : State) (m : EpochMeas) (e : EpochGrant) : Tame [.regs] s (State.epochRegs s m e) := by
  unfold State.epochRegs
  repeat' (first | (show (_ : Bool) = true; decide) | with_reducible exact Tame.refl .. | with_reducible apply Tame.then (setFld_tame ..) | with_reducible apply Tame.ite | split)

theorem epochRails_tame (s : State) (m : EpochMeas) : Tame [.regs, .counters, .events, .fcp, .obs, .gov] s (State.epochRails s m) := by
  unfold State.epochRails
  repeat' (first | (show (_ : Bool) = true; decide) | with_reducible exact Tame.refl .. | with_reducible apply Tame.then (railEpoch_tame ..) | with_reducible apply Tame.ite | with_reducible apply Tame.set_gov | split)

theorem twiApply_tame (s : State) : Tame [.regs, .gov] s (State.twiApply s) := by
  unfold State.twiApply; try dsimp -proj -iota -eta only
  repeat' (first | (show (_ : Bool) = true; decide) | with_reducible exact Tame.refl .. | split | with_reducible apply Tame.then (setFld_tame ..) | with_reducible apply Tame.ite | with_reducible refine Tame.pairEq (by assumption) ?_ | with_reducible refine Tame.pairEqSnd (by assumption) ?_ | with_reducible refine Tame.iteEq (by assumption) (fun _ => ?_) (fun _ => ?_) | with_reducible refine Tame.iteEqSnd (by assumption) (fun _ => ?_) (fun _ => ?_) | with_reducible apply Tame.set_gov)

theorem creditEpoch_tame (m : EpochMeas) (s : State) : Tame [.regs, .counters, .events, .fcp, .obs, .line, .gov] s (creditEpoch m s) := by
  unfold creditEpoch
  repeat' (first | (show (_ : Bool) = true; decide) | with_reducible exact Tame.refl .. | with_reducible apply Tame.then (twiApply_tame ..) | with_reducible apply Tame.then (effUpdate_tame ..) | with_reducible apply Tame.then (epochRails_tame ..) | with_reducible apply Tame.then (grantIssue_tame ..) | with_reducible apply Tame.then (epochRegs_tame ..) | with_reducible apply Tame.then (countShort_tame ..) | with_reducible apply Tame.then (forced_tame ..) | with_reducible apply Tame.then (chargeBist_tame ..) | with_reducible apply Tame.then (retrainWaiting_tame ..) | with_reducible apply Tame.then (budgetPace_tame ..) | with_reducible apply Tame.then (paceUpdate_tame ..) | with_reducible apply Tame.ite | split)

theorem regionSwitchOn_tame (onF : Bool) (region : Nat) (idleHalfA : Nat) (s : State) : Tame [.gov] s (regionSwitchOn onF region idleHalfA s) := by
  unfold regionSwitchOn
  repeat' (first | (show (_ : Bool) = true; decide) | with_reducible exact Tame.refl .. | with_reducible apply Tame.ite | with_reducible apply Tame.set_gov | split)

theorem pfwNFall_tame (s : State) : Tame [.regs, .mem, .banks, .counters, .pins, .boot, .events, .fcp, .obs, .bist, .line, .headers, .lookup, .engine, .traffic, .hbm, .fabric, .gov, .bridge, .time, .free] s (pfwNFall s) := by
  unfold pfwNFall
  repeat' (first | (show (_ : Bool) = true; decide) | with_reducible exact Tame.refl .. | with_reducible apply Tame.then (setFld_tame ..) | with_reducible apply Tame.then (raise_tame ..) | with_reducible apply Tame.then (bistAbort_tame ..) | with_reducible apply Tame.then (effUpdate_tame ..) | with_reducible apply Tame.then (paceUpdate_tame ..) | with_reducible apply Tame.then (coldReset_tame ..) | with_reducible apply Tame.ite | with_reducible apply Tame.set_pins | with_reducible apply Tame.set_boot | with_reducible apply Tame.set_gov | with_reducible apply Tame.set_boot_pins | with_reducible apply Tame.set_pins_gov | split)

theorem pfwNRise_tame (s : State) : Tame [.pins, .gov] s (pfwNRise s) := by
  unfold pfwNRise
  repeat' (first | (show (_ : Bool) = true; decide) | with_reducible exact Tame.refl .. | with_reducible apply Tame.ite | with_reducible apply Tame.set_pins | with_reducible apply Tame.set_gov | with_reducible apply Tame.set_pins_gov | split)

theorem pfwReleaseHoldExpiry_tame (s : State) : Tame [.regs, .counters, .events, .fcp, .obs, .gov] s (pfwReleaseHoldExpiry s) := by
  unfold pfwReleaseHoldExpiry
  repeat' (first | (show (_ : Bool) = true; decide) | with_reducible exact Tame.refl .. | with_reducible apply Tame.then (setFld_tame ..) | with_reducible apply Tame.then (raise_tame ..) | with_reducible apply Tame.then (effUpdate_tame ..) | with_reducible apply Tame.then (paceUpdate_tame ..) | with_reducible apply Tame.ite | with_reducible apply Tame.set_gov | split)

theorem setTier_tame (s : State) (t : Nat) (i : Nat) (temp : Int) : Tame [.regs, .counters, .events, .fcp, .obs] s (State.setTier s t i temp) := by
  unfold State.setTier
  repeat' (first | (show (_ : Bool) = true; decide) | with_reducible exact Tame.refl .. | with_reducible apply Tame.then (setFld_tame ..) | with_reducible apply Tame.then (raise_tame ..) | with_reducible apply Tame.then (effUpdate_tame ..) | with_reducible apply Tame.ite | split)

theorem sensorReading_tame (i : Nat) (t : Int) (s : State) : Tame [.regs, .counters, .events, .fcp, .obs, .line, .gov] s (sensorReading i t s) := by
  unfold sensorReading
  apply Tame.ite
  · exact Tame.refl ..
  extract_lets r peak s1 g1 s2 ns off n g2 s3 s4 s5
  have h1 : Tame [.regs, .counters, .events, .fcp, .obs, .line, .gov] s s1 :=
    Tame.then (setFld_tame ..) (Tame.then (setFld_tame ..) (Tame.refl ..) (by decide)) (by decide)
  have h2 : Tame [.regs, .counters, .events, .fcp, .obs, .line, .gov] s s2 := Tame.set_gov h1 _ (by decide)
  apply Tame.ite
  · exact h2
  have h5 : Tame [.regs, .counters, .events, .fcp, .obs, .line, .gov] s s5 := by
    have h3 : Tame [.regs, .counters, .events, .fcp, .obs, .line, .gov] s s3 := Tame.set_gov h2 _ (by decide)
    have h4 : Tame [.regs, .counters, .events, .fcp, .obs, .line, .gov] s s4 :=
      Tame.ite (Tame.then (raise_tame ..) (Tame.then (setFld_tame ..) h3 (by decide)) (by decide)) h3
    exact Tame.ite (Tame.then (fireAlarm_tame ..) h4 (by decide)) h4
  clear_value s5
  split
  · exact Tame.ite (Tame.then (setTier_tame ..) h5 (by decide)) h5
  · exact Tame.ite (Tame.then (setTier_tame ..) h5 (by decide)) h5

theorem tierExit_tame (s : State) : Tame [.regs, .counters, .events, .fcp, .obs] s (tierExit s) := by
  unfold tierExit; try dsimp -proj -iota -eta only
  repeat' (first | (show (_ : Bool) = true; decide) | with_reducible exact Tame.refl .. | split | with_reducible apply Tame.then (setTier_tame ..) | with_reducible apply Tame.ite | with_reducible refine Tame.pairEq (by assumption) ?_ | with_reducible refine Tame.pairEqSnd (by assumption) ?_ | with_reducible refine Tame.iteEq (by assumption) (fun _ => ?_) (fun _ => ?_) | with_reducible refine Tame.iteEqSnd (by assumption) (fun _ => ?_) (fun _ => ?_))

theorem thermtrip_tame (s : State) : Tame [.regs, .pins, .line] s (thermtrip s) := by
  unfold thermtrip
  repeat' (first | (show (_ : Bool) = true; decide) | with_reducible exact Tame.refl .. | with_reducible apply Tame.then (eraseKeys_tame ..) | with_reducible apply Tame.ite | with_reducible apply Tame.set_pins | split)

theorem peakClr_tame (i : Nat) (s : State) : Tame [.regs] s (peakClr i s) := by
  unfold peakClr
  repeat' (first | (show (_ : Bool) = true; decide) | with_reducible exact Tame.refl .. | with_reducible apply Tame.then (setFld_tame ..) | with_reducible apply Tame.ite | split)

end Sys2Proof.Machine
end

