-- ==== Sys2Proof/Laws/ObsFrames.lean ====
section
/-! SUPPORT. The parts that the operations of Machine/Obs may change. -/

namespace Sys2Proof.Machine

set_option linter.all false

theorem clearFlags_tame (s : State) (bank : Nat) (index : Nat) : Tame [.counters, .obs] s (State.clearFlags s bank index) := by
  unfold State.clearFlags; try dsimp -proj -iota -eta only
  repeat' (first | (show (_ : Bool) = true; decide) | with_reducible exact Tame.refl .. | split | with_reducible apply Tame.ite | with_reducible refine Tame.pairEq (by assumption) ?_ | with_reducible refine Tame.pairEqSnd (by assumption) ?_ | with_reducible refine Tame.iteEq (by assumption) (fun _ => ?_) (fun _ => ?_) | with_reducible refine Tame.iteEqSnd (by assumption) (fun _ => ?_) (fun _ => ?_) | (intro hx; first | exact mput_mwf _ _ _ hx | exact memPut_wf _ _ _ hx | exact mwf_filter _ _ hx) | with_reducible apply Tame.set_ctrs | with_reducible apply Tame.set_obs | with_reducible apply Tame.set_ctrs_obs)

theorem accumulatorFlushApply_tame (s : State) : Tame [.obs] s (accumulatorFlushApply s) := by
  unfold accumulatorFlushApply; try dsimp -proj -iota -eta only
  repeat' (first | (show (_ : Bool) = true; decide) | with_reducible exact Tame.refl .. | split | with_reducible apply Tame.ite | with_reducible refine Tame.pairEq (by assumption) ?_ | with_reducible refine Tame.pairEqSnd (by assumption) ?_ | with_reducible refine Tame.iteEq (by assumption) (fun _ => ?_) (fun _ => ?_) | with_reducible refine Tame.iteEqSnd (by assumption) (fun _ => ?_) (fun _ => ?_) | with_reducible apply Tame.set_obs)

theorem counters_tame (s : State) (h : FcpHdr) (cs : List CounterAddr) (clear : Bool) : Tame [.counters, .obs] s (State.counters s h cs clear).1 := by
  unfold State.counters; try dsimp -proj -iota -eta only
  repeat' (first | (show (_ : Bool) = true; decide) | with_reducible exact Tame.refl .. | split | with_reducible apply Tame.then (clearFlags_tame ..) | with_reducible refine Tame.fold ?_ (fun s x => ?_) | with_reducible refine Tame.foldEq (by assumption) ?_ (fun r x => ?_) | with_reducible refine Tame.foldEqSnd (by assumption) ?_ (fun r x => ?_) | with_reducible refine Tame.foldPair ?_ (fun r x => ?_) | with_reducible refine Tame.foldPairSnd ?_ (fun r x => ?_) | with_reducible apply Tame.ite | with_reducible apply Tame.iteFst | with_reducible refine Tame.pairEq (by assumption) ?_ | with_reducible refine Tame.pairEqSnd (by assumption) ?_ | with_reducible refine Tame.iteEq (by assumption) (fun _ => ?_) (fun _ => ?_) | with_reducible refine Tame.iteEqSnd (by assumption) (fun _ => ?_) (fun _ => ?_))

theorem counterRead_tame (h : FcpHdr) (cs : List CounterAddr) (s : State) : Tame [.counters, .fcp, .obs] s (counterRead h cs s) := by
  unfold counterRead
  repeat' (first | (show (_ : Bool) = true; decide) | with_reducible exact Tame.refl .. | with_reducible refine fcpServe_tame ?_ (fun u => ?_) | with_reducible apply Tame.then (counters_tame ..) | with_reducible refine Tame.thenFst (counters_tame ..) (by assumption) ?_ ?_ | with_reducible apply Tame.ite | with_reducible apply Tame.iteFst | split | dsimp only)

theorem counterReadClear_tame (h : FcpHdr) (cs : List CounterAddr) (s : State) : Tame [.counters, .fcp, .obs] s (counterReadClear h cs s) := by
  unfold counterReadClear
  repeat' (first | (show (_ : Bool) = true; decide) | with_reducible exact Tame.refl .. | with_reducible refine fcpServe_tame ?_ (fun u => ?_) | with_reducible apply Tame.then (counters_tame ..) | with_reducible refine Tame.thenFst (counters_tame ..) (by assumption) ?_ ?_ | with_reducible apply Tame.ite | with_reducible apply Tame.iteFst | split | dsimp only)

theorem counterListNames_tame (h : FcpHdr) (c : CounterAddr) (s : State) : Tame [.counters, .fcp] s (counterListNames h c s) := by
  unfold counterListNames
  repeat' (first | (show (_ : Bool) = true; decide) | with_reducible exact Tame.refl .. | with_reducible refine fcpServe_tame ?_ (fun u => ?_) | with_reducible apply Tame.ite | with_reducible apply Tame.iteFst | split | dsimp only)

theorem cntFilterWrite_tame (f : Nat) (word : Nat) (v : Word) (s : State) : Tame [.regs] s (cntFilterWrite f word v s) := by
  unfold cntFilterWrite; try dsimp -proj -iota -eta only
  repeat' (first | (show (_ : Bool) = true; decide) | with_reducible exact Tame.refl .. | split | with_reducible refine Tame.then (hostWrite_tame (by assumption)) ?_ ?_ | with_reducible apply Tame.then (setFld_tame ..) | with_reducible apply Tame.ite | with_reducible refine Tame.pairEq (by assumption) ?_ | with_reducible refine Tame.pairEqSnd (by assumption) ?_ | with_reducible refine Tame.iteEq (by assumption) (fun _ => ?_) (fun _ => ?_) | with_reducible refine Tame.iteEqSnd (by assumption) (fun _ => ?_) (fun _ => ?_))

theorem applyFilter_tame (s : State) (f : Nat) : Tame [.regs, .counters, .events, .fcp, .obs] s (State.applyFilter s f) := by
  unfold State.applyFilter
  repeat' (first | (show (_ : Bool) = true; decide) | with_reducible exact Tame.refl .. | with_reducible apply Tame.then (setFld_tame ..) | with_reducible apply Tame.then (raise_tame ..) | with_reducible apply Tame.ite | with_reducible apply Tame.set_ctrs | with_reducible apply Tame.set_obs | with_reducible apply Tame.set_ctrs_obs | split | (intro hx; first | exact mput_mwf _ _ _ hx | exact memPut_wf _ _ _ hx | exact mwf_filter _ _ hx))

theorem snapshotInstant_tame (s : State) : Tame [.regs, .mem, .counters, .events, .fcp, .obs] s (snapshotInstant s) := by
  unfold snapshotInstant; try dsimp -proj -iota -eta only
  repeat' (first | (show (_ : Bool) = true; decide) | with_reducible exact Tame.refl .. | split | with_reducible apply Tame.then (raiseLimited_tame ..) | with_reducible apply Tame.then (count_tame ..) | with_reducible apply Tame.then (teleLose_tame ..) | with_reducible apply Tame.then (lostEvent_tame ..) | with_reducible apply Tame.then (setFld_tame ..) | with_reducible apply Tame.then (applyFilter_tame ..) | with_reducible refine Tame.fold ?_ (fun s x => ?_) | with_reducible refine Tame.foldEq (by assumption) ?_ (fun r x => ?_) | with_reducible refine Tame.foldEqSnd (by assumption) ?_ (fun r x => ?_) | with_reducible refine Tame.foldPair ?_ (fun r x => ?_) | with_reducible refine Tame.foldPairSnd ?_ (fun r x => ?_) | with_reducible apply Tame.ite | with_reducible refine Tame.pairEq (by assumption) ?_ | with_reducible refine Tame.pairEqSnd (by assumption) ?_ | with_reducible refine Tame.iteEq (by assumption) (fun _ => ?_) (fun _ => ?_) | with_reducible refine Tame.iteEqSnd (by assumption) (fun _ => ?_) (fun _ => ?_) | (intro hx; first | exact mput_mwf _ _ _ hx | exact memPut_wf _ _ _ hx | exact mwf_filter _ _ hx) | with_reducible apply Tame.set_mem | with_reducible apply Tame.set_obs | with_reducible apply Tame.set_mem_obs)

theorem putBank_wf (vals : AMap CtrVal) (a off bank : Nat) {m : List Host.Cell} (h : Memory.wf m = true) : Memory.wf (putBank vals a off bank m) = true := by
  unfold putBank
  generalize bankValues vals bank = l
  induction l generalizing m with
  | nil => exact h
  | cons p l ih =>
    rw [List.foldl_cons]
    refine ih ?_
    dsimp only
    split
    · exact memPut_wf _ _ _ (memPut_wf _ _ _ h)
    · exact memPut_wf _ _ _ h

theorem putBanks_wf (vals : AMap CtrVal) (a : Nat) (bs : List Nat) : ∀ (j off : Nat) {m : List Host.Cell}, Memory.wf m = true → Memory.wf (putBanks vals a j off bs m) = true := by
  induction bs with
  | nil => intro j off m h; exact h
  | cons b bs ih => intro j off m h; exact ih _ _ (putBank_wf _ _ _ _ (memPut_wf _ _ _ h))

theorem dumpWalkDone_tame (us : Nat) (s : State) : Tame [.regs, .mem, .counters, .events, .fcp, .obs] s (dumpWalkDone us s) := by
  unfold dumpWalkDone
  refine Tame.ite (Tame.refl ..) ?_
  extract_lets o a m hdr s1 s2 s3
  have h1 : Tame [.regs, .mem, .counters, .events, .fcp, .obs] s s1 :=
    Tame.set_mem_obs (Tame.refl ..) _ _ (by decide) (fun hx => memPut_wf _ _ _ (putBanks_wf _ _ _ _ _ (mwf_filter _ _ hx)))
  repeat' (first | (show (_ : Bool) = true; decide) | with_reducible exact h1 | with_reducible apply Tame.then (setFld_tame ..) | with_reducible apply Tame.then (tele_tame ..) | with_reducible refine Tame.fold ?_ (fun s x => ?_) | with_reducible exact Tame.refl .. | with_reducible apply Tame.ite)

theorem drainRings_tame (s : State) : Tame [.regs, .counters, .events, .fcp, .obs, .lookup] s (State.drainRings s) := by
  unfold State.drainRings
  repeat' (first | (show (_ : Bool) = true; decide) | with_reducible exact Tame.refl .. | with_reducible apply Tame.then (tele_tame ..) | with_reducible apply Tame.then (setFld_tame ..) | with_reducible refine Tame.fold ?_ (fun s x => ?_) | with_reducible refine Tame.foldEq (by assumption) ?_ (fun r x => ?_) | with_reducible refine Tame.foldEqSnd (by assumption) ?_ (fun r x => ?_) | with_reducible refine Tame.foldPair ?_ (fun r x => ?_) | with_reducible refine Tame.foldPairSnd ?_ (fun r x => ?_) | with_reducible apply Tame.ite | with_reducible apply Tame.set_lookup | split)

theorem telemetrySend_tame (i : Nat) (s : State) : Tame [.regs, .counters, .events, .fcp, .obs, .lookup] s (telemetrySend i s) := by
  unfold telemetrySend; try dsimp -proj -iota -eta only
  repeat' (first | (show (_ : Bool) = true; decide) | with_reducible exact Tame.refl .. | split | with_reducible apply Tame.then (drainRings_tame ..) | with_reducible apply Tame.then (teleLose_tame ..) | with_reducible apply Tame.then (lostEvent_tame ..) | with_reducible apply Tame.ite | with_reducible refine Tame.pairEq (by assumption) ?_ | with_reducible refine Tame.pairEqSnd (by assumption) ?_ | with_reducible refine Tame.iteEq (by assumption) (fun _ => ?_) (fun _ => ?_) | with_reducible refine Tame.iteEqSnd (by assumption) (fun _ => ?_) (fun _ => ?_) | with_reducible apply Tame.set_obs)

end Sys2Proof.Machine
end

