-- ==== Sys2Proof/Laws/WindowsFrames.lean ====
section
/-! SUPPORT. The parts that the operations of Machine/Windows may change. -/

namespace Sys2Proof.Machine

set_option linter.all false

theorem meterLoad_tame (s : State) (fw : Bool) (m : Nat) (prof : Nat) : Tame [.regs, .mem, .lookup] s (State.meterLoad s fw m prof) := by
  unfold State.meterLoad
  repeat' (first | (show (_ : Bool) = true; decide) | with_reducible exact Tame.refl .. | with_reducible apply Tame.then (put128_tame ..) | with_reducible apply Tame.ite | split)

theorem shaperProfile_tame (s : State) (kind : Nat) (i : Nat) (w : Nat) : Tame [.traffic] s (State.shaperProfile s kind i w) := by
  unfold State.shaperProfile
  repeat' (first | (show (_ : Bool) = true; decide) | with_reducible exact Tame.refl .. | with_reducible apply Tame.then (setShaper_tame ..) | with_reducible apply Tame.ite | split)

theorem winLoad_tame (s : State) (a : Nat) (w : Nat) : Tame [.regs, .mem, .counters, .events, .fcp, .obs, .lookup, .traffic, .free] s (State.winLoad s a w) := by
  unfold State.winLoad; try dsimp -proj -iota -eta only
  repeat' (first | (show (_ : Bool) = true; decide) | with_reducible exact Tame.refl .. | split | with_reducible apply Tame.then (meterLoad_tame ..) | with_reducible apply Tame.then (shaperProfile_tame ..) | with_reducible apply Tame.then (sample_tame ..) | with_reducible apply Tame.then (put_tame ..) | with_reducible apply Tame.ite | with_reducible refine Tame.pairEq (by assumption) ?_ | with_reducible refine Tame.pairEqSnd (by assumption) ?_ | with_reducible refine Tame.iteEq (by assumption) (fun _ => ?_) (fun _ => ?_) | with_reducible refine Tame.iteEqSnd (by assumption) (fun _ => ?_) (fun _ => ?_))

theorem regLoad_tame (s : State) (d : RegDesc) (a : Nat) (w : Word) : Tame [.regs, .banks] s (State.regLoad s d a w) := by
  unfold State.regLoad
  repeat' (first | (show (_ : Bool) = true; decide) | with_reducible exact Tame.refl .. | with_reducible apply Tame.then (setReg_tame ..) | with_reducible refine Tame.fold ?_ (fun s x => ?_) | with_reducible refine Tame.foldEq (by assumption) ?_ (fun r x => ?_) | with_reducible refine Tame.foldEqSnd (by assumption) ?_ (fun r x => ?_) | with_reducible refine Tame.foldPair ?_ (fun r x => ?_) | with_reducible refine Tame.foldPairSnd ?_ (fun r x => ?_) | with_reducible apply Tame.ite | with_reducible apply Tame.set_bankOdd | split | (intro hx; first | exact mput_mwf _ _ _ hx | exact memPut_wf _ _ _ hx | exact mwf_filter _ _ hx))

theorem imageWord_tame {s t : State} {type a : Nat} {w : Word} (h : s.imageWord type a w = .ok t) : Tame [.regs, .mem, .banks, .counters, .events, .fcp, .obs, .lookup, .traffic, .free] s t := by
  unfold State.imageWord at h
  split at h
  · cases h
  · split at h
    · split at h
      · cases h; exact (regLoad_tame ..).mono (by decide)
      · cases h
    · split at h
      · cases h
        split
        · exact Tame.refl ..
        · exact (shaperProfile_tame ..).mono (by decide)
      · split at h
        · split at h
          · cases h
          · cases h; exact (winLoad_tame ..).mono (by decide)
        · cases h; exact (put_tame ..).mono (by decide)

end Sys2Proof.Machine
end

