-- ==== Sys2Proof/Laws/ImageFrames.lean ====
section
/-! SUPPORT. The parts that the operations of Machine/Image may change. -/

namespace Sys2Proof.Machine

set_option linter.all false

end Sys2Proof.Machine
end

