-- ==== Sys2Proof/Laws/SlotFrames.lean ====
section
/-! SUPPORT. The parts that the operations of Machine/Slot may change. -/

namespace Sys2Proof.Machine

set_option linter.all false

theorem applyWords_tame {type : Nat} (ws : List Word) : ∀ {a : Nat} {s t : State}, State.applyWords type a ws s = .ok t → Tame [.regs, .mem, .banks, .counters, .events, .fcp, .obs, .lookup, .traffic, .free] s t := by
  induction ws with
  | nil => intro a s t h; cases h; exact Tame.refl ..
  | cons w ws ih =>
    intro a s t h
    unfold State.applyWords at h
    split at h
    · rename_i e; exact (imageWord_tame e).trans_same (ih h)
    · cases h

theorem applyRuns_tame {type : Nat} (l : List WordRun) : ∀ {s t : State}, State.applyRuns type l s = .ok t → Tame [.regs, .mem, .banks, .counters, .events, .fcp, .obs, .lookup, .traffic, .free] s t := by
  induction l with
  | nil => intro s t h; cases h; exact Tame.refl ..
  | cons r l ih =>
    intro s t h
    unfold State.applyRuns at h
    split at h
    · rename_i e; exact (applyWords_tame _ e).trans_same (ih h)
    · cases h

theorem applySections_tame (l : List (Nat × List WordRun × Bool)) : ∀ {s t : State}, State.applySections l s = .ok t → Tame [.regs, .mem, .banks, .counters, .events, .fcp, .obs, .lookup, .traffic, .free] s t := by
  induction l with
  | nil => intro s t h; cases h; exact Tame.refl ..
  | cons x l ih =>
    intro s t h
    unfold State.applySections at h
    split at h
    · rename_i e
      split at h
      · exact (applyRuns_tame _ e).trans_same (ih h)
      · cases h
    · cases h

theorem imageApply_tame {s t : State} {h tbl body : Bytes} (e : s.imageApply h tbl body = .ok t) : Tame [.regs, .mem, .banks, .counters, .events, .fcp, .obs, .lookup, .traffic, .free] s t := by
  unfold State.imageApply at e
  split at e
  · cases e
  · dsimp only at e
    split at e
    · cases e
    · split at e
      · cases e
      · exact applySections_tame _ e

end Sys2Proof.Machine
end

