-- ==== Sys2Proof/Laws/BootFrames.lean ====
section
/-! SUPPORT. The parts that the operations of Machine/Boot may change. -/

namespace Sys2Proof.Machine

set_option linter.all false

theorem coldReset_tame (s : State) : Tame [.regs, .mem, .banks, .counters, .pins, .boot, .events, .fcp, .obs, .bist, .line, .headers, .lookup, .engine, .traffic, .hbm, .fabric, .gov, .bridge, .time] s s.coldReset := by
  refine ⟨⟨fun p hp => ?_⟩, ⟨fun _ => rfl⟩⟩; cases p <;> first | rfl | (exact absurd (by decide) hp)

theorem pwrGoodLow_tame (ns : Nat) (railLow : Bool) (s : State) : Tame [.regs, .mem, .banks, .counters, .pins, .boot, .events, .fcp, .obs, .bist, .line, .headers, .lookup, .engine, .traffic, .hbm, .fabric, .gov, .bridge, .time] s (pwrGoodLow ns railLow s) := by
  unfold pwrGoodLow
  split
  · exact Tame.set_pins (coldReset_tame s) _ (by decide)
  · exact Tame.refl ..

theorem rstNLow_tame (ns : Nat) (s : State) : Tame [.regs, .mem, .banks, .counters, .pins, .boot, .events, .fcp, .obs, .bist, .line, .headers, .lookup, .engine, .traffic, .hbm, .fabric, .gov, .bridge, .time] s (rstNLow ns s) := by
  unfold rstNLow
  repeat' (first | (show (_ : Bool) = true; decide) | with_reducible exact Tame.refl .. | with_reducible apply Tame.then (coldReset_tame ..) | with_reducible apply Tame.ite | split)

theorem setStep_tame (s : State) (n : Nat) : Tame [.regs] s (State.setStep s n) := by
  unfold State.setStep
  repeat' (first | (show (_ : Bool) = true; decide) | with_reducible exact Tame.refl .. | with_reducible apply Tame.then (setFld_tame ..) | with_reducible apply Tame.ite | split)

theorem setStage_tame (s : State) (g : Stage) : Tame [.boot] s (State.setStage s g) := by
  unfold State.setStage
  repeat' (first | (show (_ : Bool) = true; decide) | with_reducible exact Tame.refl .. | with_reducible apply Tame.ite | with_reducible apply Tame.set_boot | split)

theorem leaveColdReset_tame (s : State) : Tame [.regs, .boot] s (leaveColdReset s) := by
  unfold leaveColdReset
  repeat' (first | (show (_ : Bool) = true; decide) | with_reducible exact Tame.refl .. | with_reducible apply Tame.then (setStage_tame ..) | with_reducible apply Tame.then (setStep_tame ..) | with_reducible apply Tame.ite | split)

theorem fuseRegs_tame (s : State) : Tame [.regs] s (State.fuseRegs s) := by
  unfold State.fuseRegs
  repeat' (first | (show (_ : Bool) = true; decide) | with_reducible exact Tame.refl .. | with_reducible apply Tame.then (setFld_tame ..) | with_reducible apply Tame.ite | split)

theorem bootRomStart_tame (s : State) : Tame [.regs, .pins, .boot] s (bootRomStart s) := by
  unfold bootRomStart
  repeat' (first | (show (_ : Bool) = true; decide) | with_reducible exact Tame.refl .. | with_reducible apply Tame.then (fuseRegs_tame ..) | with_reducible apply Tame.then (setStep_tame ..) | with_reducible apply Tame.then (setStage_tame ..) | with_reducible apply Tame.ite | with_reducible apply Tame.set_pins | split)

theorem complexReset_tame (s : State) : Tame [.regs, .mem, .banks, .boot, .fcp, .obs, .bist, .line, .headers, .lookup, .engine, .traffic, .hbm, .fabric, .gov, .bridge] s s.complexReset := by
  unfold State.complexReset
  refine Tame.then (fuseRegs_tame ..) (Tame.then (setReg_tame ..) ?_ (by decide)) (by decide)
  refine ⟨⟨fun p hp => ?_⟩, ⟨fun h => ?_⟩⟩
  · cases p <;> first | rfl | (exact absurd (by decide) hp)
  · exact (canonical_iff _).2 ⟨rfl, rfl, ((canonical_iff s).1 h).2.2.1, rfl⟩

theorem bootLogOut_tame (s : State) : Tame [.counters, .events, .fcp, .obs] s s.bootLogOut := by
  unfold State.bootLogOut
  refine (Tame.set_ev (Tame.refl _ s) _ (by decide)).trans_same (Tame.foldl (fun s r => ?_) _ _)
  exact Tame.then (telePut_tame ..) (Tame.then (sendEvent_tame ..) (Tame.then (ringPut_tame ..) (Tame.refl ..) (by decide)) (by decide)) (by decide)

theorem slotFail_tame (s : State) (reason : Nat) : Tame [.regs, .mem, .banks, .counters, .pins, .boot, .events, .fcp, .obs, .bist, .line, .headers, .lookup, .engine, .traffic, .hbm, .fabric, .gov, .bridge] s (State.slotFail s reason) := by
  unfold State.slotFail
  repeat' (first | (show (_ : Bool) = true; decide) | with_reducible exact Tame.refl .. | with_reducible apply Tame.then (complexReset_tame ..) | with_reducible apply Tame.then (raise_tame ..) | with_reducible apply Tame.then (setFld_tame ..) | with_reducible apply Tame.then (bootLogOut_tame ..) | with_reducible apply Tame.then (setStep_tame ..) | with_reducible apply Tame.ite | with_reducible apply Tame.set_pins | with_reducible apply Tame.set_boot | with_reducible apply Tame.set_boot_pins | split)

theorem slotHeaderRead_tame (flashOk : Bool) (mib : Nat) (hdr : Bytes) (s : State) : Tame [.regs, .mem, .banks, .counters, .pins, .boot, .events, .fcp, .obs, .bist, .line, .headers, .lookup, .engine, .traffic, .hbm, .fabric, .gov, .bridge] s (slotHeaderRead flashOk mib hdr s) := by
  unfold slotHeaderRead
  repeat' (first | (show (_ : Bool) = true; decide) | with_reducible exact Tame.refl .. | with_reducible apply Tame.then (setStep_tame ..) | with_reducible apply Tame.then (setStage_tame ..) | with_reducible apply Tame.then (slotFail_tame ..) | with_reducible apply Tame.ite | with_reducible apply Tame.set_boot | split)

theorem sectionTableRead_tame (tbl : Bytes) (k : BitVec 384) (s : State) : Tame [.regs, .mem, .banks, .counters, .pins, .boot, .events, .fcp, .obs, .bist, .line, .headers, .lookup, .engine, .traffic, .hbm, .fabric, .gov, .bridge] s (sectionTableRead tbl k s) := by
  unfold sectionTableRead
  repeat' (first | (show (_ : Bool) = true; decide) | with_reducible exact Tame.refl .. | with_reducible apply Tame.then (setStage_tame ..) | with_reducible apply Tame.then (slotFail_tame ..) | with_reducible apply Tame.ite | with_reducible apply Tame.set_boot | split)

theorem signatureVerified_tame (ok : Bool) (s : State) : Tame [.regs, .mem, .banks, .counters, .pins, .boot, .events, .fcp, .obs, .bist, .line, .headers, .lookup, .engine, .traffic, .hbm, .fabric, .gov, .bridge] s (signatureVerified ok s) := by
  unfold signatureVerified
  repeat' (first | (show (_ : Bool) = true; decide) | with_reducible exact Tame.refl .. | with_reducible apply Tame.then (setStep_tame ..) | with_reducible apply Tame.then (slotFail_tame ..) | with_reducible apply Tame.ite | with_reducible apply Tame.set_boot | split)

theorem afterLoad_tame (s : State) : Tame [.regs] s (State.afterLoad s) := by
  unfold State.afterLoad
  repeat' (first | (show (_ : Bool) = true; decide) | with_reducible exact Tame.refl .. | with_reducible apply Tame.then (setFlag_tame ..) | with_reducible apply Tame.then (clusterEval_tame ..) | with_reducible apply Tame.then (setFld_tame ..) | with_reducible refine Tame.fold ?_ (fun s x => ?_) | with_reducible refine Tame.foldEq (by assumption) ?_ (fun r x => ?_) | with_reducible refine Tame.foldEqSnd (by assumption) ?_ (fun r x => ?_) | with_reducible refine Tame.foldPair ?_ (fun r x => ?_) | with_reducible refine Tame.foldPairSnd ?_ (fun r x => ?_) | with_reducible apply Tame.ite | split)

theorem bodyReadDone_tame (digestOk : Bool) (body : Bytes) (s : State) : Tame [.regs, .mem, .banks, .counters, .pins, .boot, .events, .fcp, .obs, .bist, .line, .headers, .lookup, .engine, .traffic, .hbm, .fabric, .gov, .bridge, .free] s (bodyReadDone digestOk body s) := by
  unfold bodyReadDone; try dsimp -proj -iota -eta only
  repeat' (first | (show (_ : Bool) = true; decide) | with_reducible exact Tame.refl .. | split | with_reducible apply Tame.then (slotFail_tame ..) | with_reducible refine Tame.then (imageApply_tame (by assumption)) ?_ ?_ | with_reducible apply Tame.then (afterLoad_tame ..) | with_reducible apply Tame.ite | with_reducible refine Tame.pairEq (by assumption) ?_ | with_reducible refine Tame.pairEqSnd (by assumption) ?_ | with_reducible refine Tame.iteEq (by assumption) (fun _ => ?_) (fun _ => ?_) | with_reducible refine Tame.iteEqSnd (by assumption) (fun _ => ?_) (fun _ => ?_) | with_reducible apply Tame.set_boot)

theorem flashReadStall_tame (s : State) : Tame [.regs, .mem, .banks, .counters, .pins, .boot, .events, .fcp, .obs, .bist, .line, .headers, .lookup, .engine, .traffic, .hbm, .fabric, .gov, .bridge] s (flashReadStall s) := by
  unfold flashReadStall
  repeat' (first | (show (_ : Bool) = true; decide) | with_reducible exact Tame.refl .. | with_reducible apply Tame.then (slotFail_tame ..) | with_reducible apply Tame.ite | split)

theorem firmwareStartTimeout_tame (s : State) : Tame [.regs, .mem, .banks, .counters, .pins, .boot, .events, .fcp, .obs, .bist, .line, .headers, .lookup, .engine, .traffic, .hbm, .fabric, .gov, .bridge] s (firmwareStartTimeout s) := by
  unfold firmwareStartTimeout
  repeat' (first | (show (_ : Bool) = true; decide) | with_reducible exact Tame.refl .. | with_reducible apply Tame.then (slotFail_tame ..) | with_reducible apply Tame.ite | split)

theorem warmDone_tame (s : State) : Tame [.counters, .boot, .events, .fcp, .obs] s (State.warmDone s) := by
  unfold State.warmDone; try dsimp -proj -iota -eta only
  repeat' (first | (show (_ : Bool) = true; decide) | with_reducible exact Tame.refl .. | split | with_reducible apply Tame.then (bootLogOut_tame ..) | with_reducible apply Tame.then (raise_tame ..) | with_reducible refine Tame.fold ?_ (fun s x => ?_) | with_reducible refine Tame.foldEq (by assumption) ?_ (fun r x => ?_) | with_reducible refine Tame.foldEqSnd (by assumption) ?_ (fun r x => ?_) | with_reducible refine Tame.foldPair ?_ (fun r x => ?_) | with_reducible refine Tame.foldPairSnd ?_ (fun r x => ?_) | with_reducible apply Tame.ite | with_reducible refine Tame.pairEq (by assumption) ?_ | with_reducible refine Tame.pairEqSnd (by assumption) ?_ | with_reducible refine Tame.iteEq (by assumption) (fun _ => ?_) (fun _ => ?_) | with_reducible refine Tame.iteEqSnd (by assumption) (fun _ => ?_) (fun _ => ?_) | with_reducible apply Tame.set_boot | with_reducible apply Tame.set_fcp)

theorem firmwareReportsRunning_tame (digestOk : Bool) (s : State) : Tame [.regs, .counters, .pins, .boot, .events, .fcp, .obs] s (firmwareReportsRunning digestOk s) := by
  unfold firmwareReportsRunning
  repeat' (first | (show (_ : Bool) = true; decide) | with_reducible exact Tame.refl .. | with_reducible apply Tame.then (warmDone_tame ..) | with_reducible apply Tame.then (warmFail_tame ..) | with_reducible apply Tame.then (bootLogOut_tame ..) | with_reducible apply Tame.then (setFld_tame ..) | with_reducible apply Tame.then (setStep_tame ..) | with_reducible apply Tame.then (raise_tame ..) | with_reducible apply Tame.ite | with_reducible apply Tame.set_boot | split)

theorem halt_tame (s : State) (code : Nat) : Tame [.regs, .counters, .pins, .boot, .events, .fcp, .obs] s (State.halt s code) := by
  unfold State.halt
  repeat' (first | (show (_ : Bool) = true; decide) | with_reducible exact Tame.refl .. | with_reducible apply Tame.then (setStep_tame ..) | with_reducible apply Tame.then (raise_tame ..) | with_reducible apply Tame.ite | with_reducible apply Tame.set_pins | with_reducible apply Tame.set_boot | with_reducible apply Tame.set_boot_pins | split)

theorem poolStart_tame (s : State) : Tame [.regs] s (State.poolStart s) := by
  unfold State.poolStart
  repeat' (first | (show (_ : Bool) = true; decide) | with_reducible exact Tame.refl .. | with_reducible apply Tame.then (setFld_tame ..) | with_reducible apply Tame.ite | split)

theorem stackTrainingDone_tame (failed : List Nat) (s : State) : Tame [.regs, .counters, .pins, .boot, .events, .fcp, .obs] s (stackTrainingDone failed s) := by
  unfold stackTrainingDone
  repeat' (first | (show (_ : Bool) = true; decide) | with_reducible exact Tame.refl .. | with_reducible apply Tame.then (setHbmState_tame ..) | with_reducible apply Tame.then (raise_tame ..) | with_reducible apply Tame.then (hbmRetire_tame ..) | with_reducible apply Tame.then (poolStart_tame ..) | with_reducible apply Tame.then (halt_tame ..) | with_reducible apply Tame.then (setStage_tame ..) | with_reducible apply Tame.then (setStep_tame ..) | with_reducible refine Tame.fold ?_ (fun s x => ?_) | with_reducible refine Tame.foldEq (by assumption) ?_ (fun r x => ?_) | with_reducible refine Tame.foldEqSnd (by assumption) ?_ (fun r x => ?_) | with_reducible refine Tame.foldPair ?_ (fun r x => ?_) | with_reducible refine Tame.foldPairSnd ?_ (fun r x => ?_) | with_reducible apply Tame.ite | split)

theorem bistStartSeg_tame (s : State) (l : Nat) (misr : List (Nat × List Word)) (g : Nat) : Tame [.regs, .counters, .events, .fcp, .obs] s (State.bistStartSeg s l misr g) := by
  unfold State.bistStartSeg
  repeat' (first | (show (_ : Bool) = true; decide) | with_reducible exact Tame.refl .. | with_reducible apply Tame.then (setFld_tame ..) | with_reducible apply Tame.then (count_tame ..) | with_reducible apply Tame.then (setReg_tame ..) | with_reducible apply Tame.then (raise_tame ..) | with_reducible apply Tame.ite | split)

theorem disableUnit_tame (s : State) (u : Nat) : Tame [.regs, .bist] s (State.disableUnit s u) := by
  unfold State.disableUnit
  repeat' (first | (show (_ : Bool) = true; decide) | with_reducible exact Tame.refl .. | with_reducible apply Tame.then (setReg_tame ..) | with_reducible apply Tame.then (setFlag_tame ..) | with_reducible apply Tame.then (clusterEval_tame ..) | with_reducible apply Tame.then (setHbmState_tame ..) | with_reducible apply Tame.then (poolStart_tame ..) | with_reducible apply Tame.ite | with_reducible apply Tame.set_bist | split)

theorem startupBistDone_tame (misr : List (Nat × List Word)) (s : State) : Tame [.regs, .counters, .pins, .boot, .events, .fcp, .obs, .bist, .line, .traffic] s (startupBistDone misr s) := by
  unfold startupBistDone
  repeat' (first | (show (_ : Bool) = true; decide) | with_reducible exact Tame.refl .. | with_reducible apply Tame.then (bistStartSeg_tame ..) | with_reducible apply Tame.then (halt_tame ..) | with_reducible apply Tame.then (disableUnit_tame ..) | with_reducible apply Tame.then (setStep_tame ..) | with_reducible apply Tame.then (setFld_tame ..) | with_reducible apply Tame.then (portsEval_tame ..) | with_reducible apply Tame.then (fabricStep_tame ..) | with_reducible refine Tame.fold ?_ (fun s x => ?_) | with_reducible refine Tame.foldEq (by assumption) ?_ (fun r x => ?_) | with_reducible refine Tame.foldEqSnd (by assumption) ?_ (fun r x => ?_) | with_reducible refine Tame.foldPair ?_ (fun r x => ?_) | with_reducible refine Tame.foldPairSnd ?_ (fun r x => ?_) | with_reducible apply Tame.ite | with_reducible apply Tame.set_pins | with_reducible apply Tame.set_boot | with_reducible apply Tame.set_boot_pins | split)

theorem fabricWaitExpiry_tame (s : State) : Tame [.regs, .counters, .boot, .events, .fcp, .obs] s (fabricWaitExpiry s) := by
  unfold fabricWaitExpiry
  repeat' (first | (show (_ : Bool) = true; decide) | with_reducible exact Tame.refl .. | with_reducible apply Tame.then (raise_tame ..) | with_reducible apply Tame.then (setStage_tame ..) | with_reducible apply Tame.then (setStep_tame ..) | with_reducible apply Tame.ite | split)

theorem loadWord_tame (s : State) (a : Nat) (w : Word) : Tame [.regs, .mem, .banks, .counters, .events, .fcp, .obs, .lookup, .traffic, .free] s (State.loadWord s a w) := by
  unfold State.loadWord; try dsimp -proj -iota -eta only
  repeat' (first | (show (_ : Bool) = true; decide) | with_reducible exact Tame.refl .. | split | with_reducible apply Tame.then (regLoad_tame ..) | with_reducible apply Tame.then (shaperProfile_tame ..) | with_reducible apply Tame.then (winLoad_tame ..) | with_reducible apply Tame.then (put_tame ..) | with_reducible apply Tame.ite | with_reducible refine Tame.pairEq (by assumption) ?_ | with_reducible refine Tame.pairEqSnd (by assumption) ?_ | with_reducible refine Tame.iteEq (by assumption) (fun _ => ?_) (fun _ => ?_) | with_reducible refine Tame.iteEqSnd (by assumption) (fun _ => ?_) (fun _ => ?_))

theorem loadRun_tame (s : State) (r : WordRun) : Tame [.regs, .mem, .banks, .counters, .events, .fcp, .obs, .lookup, .traffic, .free] s (State.loadRun s r) := by
  unfold State.loadRun
  repeat' (first | (show (_ : Bool) = true; decide) | with_reducible exact Tame.refl .. | with_reducible apply Tame.then (loadWord_tame ..) | with_reducible refine Tame.fold ?_ (fun s x => ?_) | with_reducible refine Tame.foldEq (by assumption) ?_ (fun r x => ?_) | with_reducible refine Tame.foldEqSnd (by assumption) ?_ (fun r x => ?_) | with_reducible refine Tame.foldPair ?_ (fun r x => ?_) | with_reducible refine Tame.foldPairSnd ?_ (fun r x => ?_) | with_reducible apply Tame.ite | split)

theorem staticTablesDone_tame (s : State) : Tame [.regs, .mem, .banks, .counters, .pins, .boot, .events, .fcp, .obs, .line, .lookup, .traffic, .free] s (staticTablesDone s) := by
  unfold staticTablesDone
  repeat' (first | (show (_ : Bool) = true; decide) | with_reducible exact Tame.refl .. | with_reducible apply Tame.then (loadRun_tame ..) | with_reducible apply Tame.then (setFld_tame ..) | with_reducible apply Tame.then (setStep_tame ..) | with_reducible apply Tame.then (raise_tame ..) | with_reducible apply Tame.then (portsEval_tame ..) | with_reducible refine Tame.fold ?_ (fun s x => ?_) | with_reducible refine Tame.foldEq (by assumption) ?_ (fun r x => ?_) | with_reducible refine Tame.foldEqSnd (by assumption) ?_ (fun r x => ?_) | with_reducible refine Tame.foldPair ?_ (fun r x => ?_) | with_reducible refine Tame.foldPairSnd ?_ (fun r x => ?_) | with_reducible apply Tame.ite | with_reducible apply Tame.set_pins | with_reducible apply Tame.set_boot | with_reducible apply Tame.set_boot_pins | split)

end Sys2Proof.Machine
end

