-- ==== Sys2Proof/Laws/ChangeFrames.lean ====
section
/-! SUPPORT. The parts that the operations of Machine/Change may change. -/

namespace Sys2Proof.Machine

set_option linter.all false

theorem nextWord_tame (s : State) (a : Nat) (w : Word) : Tame [.regs, .mem, .banks, .counters, .events, .fcp, .obs, .lookup, .traffic, .free] s (State.nextWord s a w) := by
  unfold State.nextWord; try dsimp -proj -iota -eta only
  repeat' (first | (show (_ : Bool) = true; decide) | with_reducible exact Tame.refl .. | split | with_reducible apply Tame.then (loadWord_tame ..) | with_reducible apply Tame.then (put_tame ..) | with_reducible apply Tame.ite | with_reducible refine Tame.pairEq (by assumption) ?_ | with_reducible refine Tame.pairEqSnd (by assumption) ?_ | with_reducible refine Tame.iteEq (by assumption) (fun _ => ?_) (fun _ => ?_) | with_reducible refine Tame.iteEqSnd (by assumption) (fun _ => ?_) (fun _ => ?_))

theorem nextCopy_tame (s : State) (a : Nat) (w : Word) : Tame [.regs, .banks] s (State.nextCopy s a w) := by
  unfold State.nextCopy; try dsimp -proj -iota -eta only
  repeat' (first | (show (_ : Bool) = true; decide) | with_reducible exact Tame.refl .. | split | with_reducible apply Tame.then (setRegPar_tame ..) | with_reducible refine Tame.fold ?_ (fun s x => ?_) | with_reducible refine Tame.foldEq (by assumption) ?_ (fun r x => ?_) | with_reducible refine Tame.foldEqSnd (by assumption) ?_ (fun r x => ?_) | with_reducible refine Tame.foldPair ?_ (fun r x => ?_) | with_reducible refine Tame.foldPairSnd ?_ (fun r x => ?_) | with_reducible apply Tame.ite | with_reducible refine Tame.pairEq (by assumption) ?_ | with_reducible refine Tame.pairEqSnd (by assumption) ?_ | with_reducible refine Tame.iteEq (by assumption) (fun _ => ?_) (fun _ => ?_) | with_reducible refine Tame.iteEqSnd (by assumption) (fun _ => ?_) (fun _ => ?_))

theorem writeDiff_tame (s : State) (d : Diff) : Tame [.regs, .mem, .banks, .counters, .events, .fcp, .obs, .lookup, .traffic, .free] s (State.writeDiff s d) := by
  unfold State.writeDiff; try dsimp -proj -iota -eta only
  repeat' (first | (show (_ : Bool) = true; decide) | with_reducible exact Tame.refl .. | split | with_reducible apply Tame.then (nextWord_tame ..) | with_reducible apply Tame.then (nextCopy_tame ..) | with_reducible apply Tame.then (loadWord_tame ..) | with_reducible apply Tame.ite | with_reducible refine Tame.pairEq (by assumption) ?_ | with_reducible refine Tame.pairEqSnd (by assumption) ?_ | with_reducible refine Tame.iteEq (by assumption) (fun _ => ?_) (fun _ => ?_) | with_reducible refine Tame.iteEqSnd (by assumption) (fun _ => ?_) (fun _ => ?_))

theorem stagedGo_tame (s : State) (g : Staged) : Tame [.regs, .counters, .boot, .events, .fcp, .obs] s (State.stagedGo s g) := by
  unfold State.stagedGo; try dsimp -proj -iota -eta only
  repeat' (first | (show (_ : Bool) = true; decide) | with_reducible exact Tame.refl .. | split | with_reducible apply Tame.then (epochSwitchNowCmd_tame ..) | with_reducible refine Tame.thenFst (epochSwitchNowCmd_tame ..) (by assumption) ?_ ?_ | with_reducible apply Tame.then (setFld_tame ..) | with_reducible apply Tame.then (epochArmCmd_tame ..) | with_reducible refine Tame.thenFst (epochArmCmd_tame ..) (by assumption) ?_ ?_ | with_reducible apply Tame.ite | with_reducible refine Tame.pairEq (by assumption) ?_ | with_reducible refine Tame.pairEqSnd (by assumption) ?_ | with_reducible refine Tame.iteEq (by assumption) (fun _ => ?_) (fun _ => ?_) | with_reducible refine Tame.iteEqSnd (by assumption) (fun _ => ?_) (fun _ => ?_))

theorem imageStage_tame (h : FcpHdr) (switchNow : Bool) (seconds : Nat) (ns : Nat) (s : State) : Tame [.counters, .boot, .fcp] s (imageStage h switchNow seconds ns s) := by
  unfold imageStage
  repeat' (first | (show (_ : Bool) = true; decide) | with_reducible exact Tame.refl .. | with_reducible refine fcpServe_tame ?_ (fun u => ?_) | with_reducible apply Tame.ite | with_reducible apply Tame.iteFst | with_reducible apply Tame.set_boot | split | dsimp only)

theorem stagedImageChecksDone_tame (flashOk : Bool) (hdr : Bytes) (tbl : Bytes) (k : BitVec 384) (sigOk : Bool) (digestOk : Bool) (body : Bytes) (s : State) : Tame [.regs, .mem, .banks, .counters, .boot, .events, .fcp, .obs, .lookup, .traffic, .free] s (stagedImageChecksDone flashOk hdr tbl k sigOk digestOk body s) := by
  unfold stagedImageChecksDone; try dsimp -proj -iota -eta only
  repeat' (first | (show (_ : Bool) = true; decide) | with_reducible exact Tame.refl .. | split | with_reducible apply Tame.then (raise_tame ..) | with_reducible apply Tame.then (epochOpenCmd_tame ..) | with_reducible refine Tame.thenFst (epochOpenCmd_tame ..) (by assumption) ?_ ?_ | with_reducible apply Tame.then (writeDiff_tame ..) | with_reducible apply Tame.then (stagedGo_tame ..) | with_reducible refine Tame.fold ?_ (fun s x => ?_) | with_reducible refine Tame.foldEq (by assumption) ?_ (fun r x => ?_) | with_reducible refine Tame.foldEqSnd (by assumption) ?_ (fun r x => ?_) | with_reducible refine Tame.foldPair ?_ (fun r x => ?_) | with_reducible refine Tame.foldPairSnd ?_ (fun r x => ?_) | with_reducible apply Tame.ite | with_reducible refine Tame.pairEq (by assumption) ?_ | with_reducible refine Tame.pairEqSnd (by assumption) ?_ | with_reducible refine Tame.iteEq (by assumption) (fun _ => ?_) (fun _ => ?_) | with_reducible refine Tame.iteEqSnd (by assumption) (fun _ => ?_) (fun _ => ?_) | with_reducible apply Tame.set_boot)

theorem sliceDiscard_tame (s : State) (k : Nat) : Tame [.regs, .counters, .events, .fcp, .obs, .lookup, .engine, .traffic] s (State.sliceDiscard s k) := by
  unfold State.sliceDiscard
  repeat' (first | (show (_ : Bool) = true; decide) | with_reducible exact Tame.refl .. | with_reducible apply Tame.then (unpark_tame ..) | with_reducible apply Tame.then (count_tame ..) | with_reducible apply Tame.then (epochLeave_tame ..) | with_reducible apply Tame.then (setRec_tame ..) | with_reducible apply Tame.then (setHold_tame ..) | with_reducible apply Tame.then (setEngHold_tame ..) | with_reducible apply Tame.then (setOut_tame ..) | with_reducible apply Tame.then (setEng_tame ..) | with_reducible apply Tame.then (busyEval_tame ..) | with_reducible apply Tame.then (setCq_tame ..) | with_reducible refine Tame.fold ?_ (fun s x => ?_) | with_reducible refine Tame.foldEq (by assumption) ?_ (fun r x => ?_) | with_reducible refine Tame.foldEqSnd (by assumption) ?_ (fun r x => ?_) | with_reducible refine Tame.foldPair ?_ (fun r x => ?_) | with_reducible refine Tame.foldPairSnd ?_ (fun r x => ?_) | with_reducible apply Tame.ite | with_reducible apply Tame.set_lookup | split)

theorem sliceLines_tame (s : State) (k : Nat) : Tame [.regs, .counters, .events, .fcp, .obs, .line, .traffic, .gov] s (State.sliceLines s k) := by
  unfold State.sliceLines
  repeat' (first | (show (_ : Bool) = true; decide) | with_reducible exact Tame.refl .. | with_reducible apply Tame.then (setPort_tame ..) | with_reducible apply Tame.then (lineLaneSignalReturn_tame ..) | with_reducible apply Tame.then (setLane_tame ..) | with_reducible refine Tame.fold ?_ (fun s x => ?_) | with_reducible refine Tame.foldEq (by assumption) ?_ (fun r x => ?_) | with_reducible refine Tame.foldEqSnd (by assumption) ?_ (fun r x => ?_) | with_reducible refine Tame.foldPair ?_ (fun r x => ?_) | with_reducible refine Tame.foldPairSnd ?_ (fun r x => ?_) | with_reducible apply Tame.ite | with_reducible apply Tame.set_line | split)

theorem sliceReload_tame (h : FcpHdr) (k : Nat) (s : State) : Tame [.regs, .mem, .banks, .counters, .boot, .events, .fcp, .obs, .line, .lookup, .engine, .traffic, .gov, .free] s (sliceReload h k s) := by
  unfold sliceReload
  repeat' (first | (show (_ : Bool) = true; decide) | with_reducible exact Tame.refl .. | with_reducible refine fcpServe_tame ?_ (fun u => ?_) | with_reducible apply Tame.then (raise_tame ..) | with_reducible apply Tame.then (sliceDiscard_tame ..) | with_reducible apply Tame.then (sliceLines_tame ..) | with_reducible apply Tame.then (loadWord_tame ..) | with_reducible refine Tame.fold ?_ (fun s x => ?_) | with_reducible refine Tame.foldEq (by assumption) ?_ (fun r x => ?_) | with_reducible refine Tame.foldEqSnd (by assumption) ?_ (fun r x => ?_) | with_reducible refine Tame.foldPair ?_ (fun r x => ?_) | with_reducible refine Tame.foldPairSnd ?_ (fun r x => ?_) | with_reducible apply Tame.ite | with_reducible apply Tame.iteFst | with_reducible apply Tame.set_boot | split | dsimp only)

theorem sliceReloadDone_tame (k : Nat) (s : State) : Tame [.counters, .boot, .events, .fcp, .obs] s (sliceReloadDone k s) := by
  unfold sliceReloadDone
  repeat' (first | (show (_ : Bool) = true; decide) | with_reducible exact Tame.refl .. | with_reducible apply Tame.then (raise_tame ..) | with_reducible apply Tame.ite | with_reducible apply Tame.set_boot | split)

end Sys2Proof.Machine
end

