-- ==== Sys2Proof/Laws/BatchAssocFrames.lean ====
section
/-! SUPPORT. The parts that the operations of Machine/BatchAssoc may change. -/

namespace Sys2Proof.Machine

set_option linter.all false

theorem putRow_tame (s : State) (n : Nat) (a : Nat) (r : Nat) (e : AssocEntry) (ctl : Nat) : Tame [.regs, .mem, .lookup] s (State.putRow s n a r e ctl) := by
  unfold State.putRow
  repeat' (first | (show (_ : Bool) = true; decide) | with_reducible exact Tame.refl .. | with_reducible apply Tame.then (put_tame ..) | with_reducible refine Tame.fold ?_ (fun s x => ?_) | with_reducible refine Tame.foldEq (by assumption) ?_ (fun r x => ?_) | with_reducible refine Tame.foldEqSnd (by assumption) ?_ (fun r x => ?_) | with_reducible refine Tame.foldPair ?_ (fun r x => ?_) | with_reducible refine Tame.foldPairSnd ?_ (fun r x => ?_) | with_reducible apply Tame.ite | split)

theorem putCtl_tame (s : State) (t : Nat) (h : Nat) (l : Nat) (ctl : Nat) : Tame [.regs, .mem, .lookup] s (State.putCtl s t h l ctl) := by
  unfold State.putCtl
  repeat' (first | (show (_ : Bool) = true; decide) | with_reducible exact Tame.refl .. | with_reducible apply Tame.then (put_tame ..) | with_reducible refine Tame.fold ?_ (fun s x => ?_) | with_reducible refine Tame.foldEq (by assumption) ?_ (fun r x => ?_) | with_reducible refine Tame.foldEqSnd (by assumption) ?_ (fun r x => ?_) | with_reducible refine Tame.foldPair ?_ (fun r x => ?_) | with_reducible refine Tame.foldPairSnd ?_ (fun r x => ?_) | with_reducible apply Tame.ite | split)

theorem moveRow_tame (s : State) (t : Nat) (h : Nat) (l : Nat) (q : Nat) : Tame [.regs, .mem, .counters, .lookup] s (State.moveRow s t h l q) := by
  unfold State.moveRow
  repeat' (first | (show (_ : Bool) = true; decide) | with_reducible exact Tame.refl .. | with_reducible apply Tame.then (copyRow_tame ..) | with_reducible apply Tame.then (clearRow_tame ..) | with_reducible apply Tame.then (count_tame ..) | with_reducible refine Tame.fold ?_ (fun s x => ?_) | with_reducible refine Tame.foldEq (by assumption) ?_ (fun r x => ?_) | with_reducible refine Tame.foldEqSnd (by assumption) ?_ (fun r x => ?_) | with_reducible refine Tame.foldPair ?_ (fun r x => ?_) | with_reducible refine Tame.foldPairSnd ?_ (fun r x => ?_) | with_reducible apply Tame.ite | split)

theorem putEntryRow_tame (s : State) (nx : Bool) (t : Nat) (h : Nat) (l : Nat) (e : AssocEntry) : Tame [.regs, .mem, .lookup] s (State.putEntryRow s nx t h l e) := by
  unfold State.putEntryRow
  repeat' (first | (show (_ : Bool) = true; decide) | with_reducible exact Tame.refl .. | with_reducible apply Tame.then (putRow_tame ..) | with_reducible refine Tame.fold ?_ (fun s x => ?_) | with_reducible refine Tame.foldEq (by assumption) ?_ (fun r x => ?_) | with_reducible refine Tame.foldEqSnd (by assumption) ?_ (fun r x => ?_) | with_reducible refine Tame.foldPair ?_ (fun r x => ?_) | with_reducible refine Tame.foldPairSnd ?_ (fun r x => ?_) | with_reducible apply Tame.ite | split)

theorem moveAcross_tame (s : State) (t : Nat) (h : Nat) (l : Nat) (g : Nat) (q : Nat) : Tame [.regs, .mem, .counters, .lookup] s (State.moveAcross s t h l g q) := by
  unfold State.moveAcross
  repeat' (first | (show (_ : Bool) = true; decide) | with_reducible exact Tame.refl .. | with_reducible apply Tame.then (copyRow_tame ..) | with_reducible apply Tame.then (clearRow_tame ..) | with_reducible apply Tame.then (count_tame ..) | with_reducible refine Tame.fold ?_ (fun s x => ?_) | split)

theorem assocInsert_ok (s : State) (nx : Bool) (t : Nat) (e : AssocEntry) : OkTame [.regs, .mem, .banks, .counters, .events, .fcp, .obs, .lookup, .traffic, .free] s (s.assocInsert nx t e) := by
  unfold State.assocInsert; try dsimp -proj -iota -eta only
  repeat' (first | with_reducible exact OkTame.error | with_reducible apply OkTame.ite | (show (_ : Bool) = true; decide) | with_reducible exact Tame.refl .. | with_reducible refine OkTame.ok ?_ | with_reducible apply Tame.then (putEntryRow_tame ..) | with_reducible apply Tame.then (moveRow_tame ..) | with_reducible refine Tame.fold ?_ (fun s x => ?_) | with_reducible apply Tame.ite | with_reducible apply Tame.set_lookup | split)

theorem assocDelete_ok (s : State) (nx : Bool) (t h l ctl : Nat) : OkTame [.regs, .mem, .banks, .counters, .events, .fcp, .obs, .lookup, .traffic, .free] s (s.assocDelete nx t h l ctl) := by
  unfold State.assocDelete; try dsimp -proj -iota -eta only
  repeat' (first | with_reducible exact OkTame.error | with_reducible apply OkTame.ite | (show (_ : Bool) = true; decide) | with_reducible exact Tame.refl .. | with_reducible refine OkTame.ok ?_ | with_reducible apply Tame.then (putCtl_tame ..) | with_reducible refine Tame.fold ?_ (fun s x => ?_) | with_reducible apply Tame.ite | with_reducible apply Tame.set_lookup | split)

theorem assocChange_ok (s : State) (nx : Bool) (t h l ctl res : Nat) : OkTame [.regs, .mem, .banks, .counters, .events, .fcp, .obs, .lookup, .traffic, .free] s (s.assocChange nx t h l ctl res) := by
  unfold State.assocChange; try dsimp -proj -iota -eta only
  repeat' (first | with_reducible exact OkTame.error | with_reducible apply OkTame.ite | (show (_ : Bool) = true; decide) | with_reducible exact Tame.refl .. | with_reducible refine OkTame.ok ?_ | with_reducible apply Tame.then (putCtl_tame ..) | with_reducible refine Tame.fold ?_ (fun s x => ?_) | with_reducible apply Tame.ite | with_reducible apply Tame.set_lookup | split)

theorem assocFirmware_ok (s : State) (nx : Bool) (t : Nat) (o : BatchOp) : OkTame [.regs, .mem, .banks, .counters, .events, .fcp, .obs, .lookup, .traffic, .free] s (s.assocFirmware nx t o) := by
  unfold State.assocFirmware; try dsimp -proj -iota -eta only
  repeat' (first | with_reducible exact OkTame.error | with_reducible apply OkTame.ite | (show (_ : Bool) = true; decide) | with_reducible exact Tame.refl .. | exact assocInsert_ok s nx t _ | exact assocDelete_ok s nx t _ _ _ | exact assocChange_ok s nx t _ _ _ _ | with_reducible refine OkTame.ok ?_ | with_reducible refine Tame.fold ?_ (fun s x => ?_) | with_reducible apply Tame.ite | with_reducible apply Tame.set_lookup | split)

theorem assocController_ok (s : State) (nx : Bool) (t a : Nat) (o : BatchOp) : OkTame [.regs, .mem, .banks, .counters, .events, .fcp, .obs, .lookup, .traffic, .free] s (s.assocController nx t a o) := by
  unfold State.assocController; try dsimp -proj -iota -eta only
  repeat' (first | with_reducible exact OkTame.error | with_reducible apply OkTame.ite | (show (_ : Bool) = true; decide) | with_reducible exact Tame.refl .. | exact assocDelete_ok s nx t _ _ _ | exact assocChange_ok s nx t _ _ _ _ | with_reducible refine OkTame.ok ?_ | with_reducible apply Tame.then (putEntryRow_tame ..) | with_reducible apply Tame.then (moveAcross_tame ..) | with_reducible refine Tame.fold ?_ (fun s x => ?_) | with_reducible apply Tame.ite | with_reducible apply Tame.set_lookup | split)

theorem assocOp_ok (s : State) (nx : Bool) (o : BatchOp) : OkTame [.regs, .mem, .banks, .counters, .events, .fcp, .obs, .lookup, .traffic, .free] s (s.assocOp nx o) := by
  unfold State.assocOp; try dsimp -proj -iota -eta only
  repeat' (first | with_reducible exact OkTame.error | with_reducible apply OkTame.ite | (show (_ : Bool) = true; decide) | with_reducible exact Tame.refl .. | exact assocFirmware_ok s nx _ o | exact assocController_ok s nx _ _ o | with_reducible refine OkTame.ok ?_ | with_reducible refine Tame.fold ?_ (fun s x => ?_) | with_reducible apply Tame.ite | with_reducible apply Tame.set_lookup | split)

end Sys2Proof.Machine
end

