-- ==== Sys2Proof/Laws/BatchFrames.lean ====
section
/-! SUPPORT. The parts that the operations of Machine/Batch may change. -/

namespace Sys2Proof.Machine

set_option linter.all false

theorem genCopy_tame (s : State) (i : Nat) (g : Nat) : Tame [.regs, .mem, .lookup] s (State.genCopy s i g) := by
  unfold State.genCopy
  repeat' (first | (show (_ : Bool) = true; decide) | with_reducible exact Tame.refl .. | with_reducible apply Tame.then (put_tame ..) | with_reducible refine Tame.fold ?_ (fun s x => ?_) | with_reducible refine Tame.foldEq (by assumption) ?_ (fun r x => ?_) | with_reducible refine Tame.foldEqSnd (by assumption) ?_ (fun r x => ?_) | with_reducible refine Tame.foldPair ?_ (fun r x => ?_) | with_reducible refine Tame.foldPairSnd ?_ (fun r x => ?_) | with_reducible apply Tame.ite | split)

theorem hashOp_ok (s : State) (nx : Bool) (o : BatchOp) : OkTame [.regs, .mem, .banks, .counters, .events, .fcp, .obs, .lookup, .traffic, .free] s (s.hashOp nx o) := by
  unfold State.hashOp
  refine OkTame.ite OkTame.error (OkTame.ite OkTame.error (OkTame.ite OkTame.error ?_))
  intro t h
  dsimp only at h
  by_cases h0 : (!nx && (s.hashFind s.mem o.table none (List.take (widthBytes (s.fld (Reg.emhashTableCfg o.table) Fld.emhashTableCfg_width)) o.data)).any fun a => split 58 (tblWord s.mem a)) = true
  · rw [if_pos (by simpa using h0)] at h; cases h
  · rw [if_neg (by simpa using h0)] at h
    revert h
    generalize (s.hashFind s.mem o.table none (List.take (widthBytes (s.fld (Reg.emhashTableCfg o.table) Fld.emhashTableCfg_width)) o.data)).find? (fun a => s.opSees nx 58 (tblWord s.mem a)) = q
    generalize o.opcode = c
    intro h
    split at h
    · split at h
      · cases h
      · rename_i e; injection h with h; subst h
        exact Tame.then (putEntry_tame ..) (Tame.thenSnd (hashPlace_tame ..) e (Tame.refl ..) (by decide)) (by decide)
    · injection h with h; subst h
      split
      · exact (put_tame ..).mono (by simp)
      · exact (hashRemove_tame ..).mono (by simp)
    · cases h
    · split at h
      · cases h
      · injection h with h; subst h; exact Tame.then (put_tame ..) (Tame.refl ..) (by decide)

theorem flowOp_ok (s : State) (nx : Bool) (o : BatchOp) : OkTame [.regs, .mem, .banks, .counters, .events, .fcp, .obs, .lookup, .traffic, .free] s (s.flowOp nx o) := by
  unfold State.flowOp
  refine OkTame.ite OkTame.error (OkTame.ite OkTame.error (OkTame.ite OkTame.error ?_))
  intro t h
  dsimp only at h
  generalize hk : List.take (s.fld (Reg.flowTableCfg o.table) Fld.flowTableCfg_keyLen) o.data = key at h
  by_cases h0 : (!nx && (s.flowAll o.table key).any fun a => split 59 (tblWord s.mem a)) = true
  · rw [if_pos (by simpa using h0)] at h; cases h
  · rw [if_neg (by simpa using h0)] at h
    revert h
    generalize (s.flowAll o.table key).find? (fun a => s.opSees nx 59 (tblWord s.mem a)) = q
    generalize o.opcode = c
    intro h
    split at h
    · split at h
      · cases h
      · rename_i e; injection h with h; subst h
        exact Tame.then (putFlow_tame ..) (Tame.thenSnd (flowPlace_tame ..) e (Tame.refl ..) (by decide)) (by decide)
    · injection h with h; subst h
      split
      · exact (put_tame ..).mono (by simp)
      · exact (flowRemove_tame ..).mono (by simp)
    · cases h
    · split at h
      · cases h
      · injection h with h; subst h; exact Tame.then (put_tame ..) (Tame.refl ..) (by decide)

theorem encapInsert_ok (s : State) (i w0 w1 : Nat) : OkTame [.regs, .mem, .banks, .counters, .events, .fcp, .obs, .lookup, .traffic, .free] s (s.encapInsert i w0 w1) := by
  unfold State.encapInsert; try dsimp -proj -iota -eta only
  repeat' (first | with_reducible exact OkTame.error | with_reducible apply OkTame.ite | (show (_ : Bool) = true; decide) | with_reducible exact Tame.refl .. | with_reducible refine OkTame.ok ?_ | with_reducible apply Tame.then (genCopy_tame ..) | with_reducible apply Tame.then (put_tame ..) | with_reducible refine Tame.fold ?_ (fun s x => ?_) | with_reducible apply Tame.ite | with_reducible apply Tame.set_lookup | split)

theorem encapOp_ok (s : State) (o : BatchOp) : OkTame [.regs, .mem, .banks, .counters, .events, .fcp, .obs, .lookup, .traffic, .free] s (s.encapOp o) := by
  unfold State.encapOp; try dsimp -proj -iota -eta only
  repeat' (first | with_reducible exact OkTame.error | with_reducible apply OkTame.ite | (show (_ : Bool) = true; decide) | with_reducible exact Tame.refl .. | exact encapInsert_ok s _ _ _ | with_reducible refine OkTame.ok ?_ | with_reducible refine Tame.fold ?_ (fun s x => ?_) | with_reducible apply Tame.ite | with_reducible apply Tame.set_lookup | split)

theorem diOp_ok (s : State) (nx : Bool) (o : BatchOp) : OkTame [.regs, .mem, .banks, .counters, .events, .fcp, .obs, .lookup, .traffic, .free] s (s.diOp nx o) := by
  unfold State.diOp; try dsimp -proj -iota -eta only
  repeat' (first | with_reducible exact OkTame.error | with_reducible apply OkTame.ite | (show (_ : Bool) = true; decide) | with_reducible exact Tame.refl .. | exact encapOp_ok s o | with_reducible refine OkTame.ok ?_ | with_reducible apply Tame.then (put_tame ..) | with_reducible refine Tame.fold ?_ (fun s x => ?_) | with_reducible apply Tame.ite | with_reducible apply Tame.set_lookup | split)

theorem patternOp_ok (s : State) (nx : Bool) (o : BatchOp) : OkTame [.regs, .mem, .banks, .counters, .events, .fcp, .obs, .lookup, .traffic, .free] s (s.patternOp nx o) := by
  unfold State.patternOp; try dsimp -proj -iota -eta only
  repeat' (first | with_reducible exact OkTame.error | with_reducible apply OkTame.ite | (show (_ : Bool) = true; decide) | with_reducible exact Tame.refl .. | with_reducible refine OkTame.ok ?_ | with_reducible apply Tame.then (put_tame ..) | with_reducible refine Tame.fold ?_ (fun s x => ?_) | with_reducible apply Tame.ite | with_reducible apply Tame.set_lookup | split)

theorem batchReg_ok (s : State) (nx : Bool) (d : RegDesc) (a : Nat) (w : Word) : OkTame [.regs, .mem, .banks, .counters, .events, .fcp, .obs, .lookup, .traffic, .free] s (s.batchReg nx d a w) := by
  unfold State.batchReg; try dsimp -proj -iota -eta only
  repeat' (first | with_reducible exact OkTame.error | with_reducible apply OkTame.ite | (show (_ : Bool) = true; decide) | with_reducible exact Tame.refl .. | with_reducible refine OkTame.ok ?_ | with_reducible apply Tame.then (setRegPar_tame ..) | with_reducible apply Tame.then (setReg_tame ..) | with_reducible refine Tame.fold ?_ (fun s x => ?_) | with_reducible apply Tame.ite | with_reducible apply Tame.set_lookup | split)

theorem batchWord_ok (s : State) (nx : Bool) (a : Nat) (w : Word) : OkTame [.regs, .mem, .banks, .counters, .events, .fcp, .obs, .lookup, .traffic, .free] s (s.batchWord nx a w) := by
  unfold State.batchWord; try dsimp -proj -iota -eta only
  repeat' (first | with_reducible exact OkTame.error | with_reducible apply OkTame.ite | (show (_ : Bool) = true; decide) | with_reducible exact Tame.refl .. | exact batchReg_ok s nx _ a w | with_reducible refine OkTame.ok ?_ | with_reducible apply Tame.then (winLoad_tame ..) | with_reducible refine Tame.fold ?_ (fun s x => ?_) | with_reducible apply Tame.ite | with_reducible apply Tame.set_lookup | split)

theorem batchWords_ok (nx : Bool) (ws : List Word) : ∀ (a : Nat) (s : State), OkTame [.regs, .mem, .banks, .counters, .events, .fcp, .obs, .lookup, .traffic, .free] s (State.batchWords nx a ws s) := by
  induction ws with
  | nil => intro a s; exact OkTame.ok (Tame.refl ..)
  | cons w ws ih =>
    intro a s
    unfold State.batchWords
    split
    · rename_i t e; exact fun u hu => (batchWord_ok _ _ _ _ _ e).trans_same (ih _ _ _ hu)
    · exact OkTame.error

theorem wordsOp_ok (s : State) (nx : Bool) (o : BatchOp) : OkTame [.regs, .mem, .banks, .counters, .events, .fcp, .obs, .lookup, .traffic, .free] s (s.wordsOp nx o) := by
  unfold State.wordsOp
  exact OkTame.ite OkTame.error (OkTame.ite OkTame.error (batchWords_ok nx _ _ s))

theorem batchOp_ok (s : State) (nx : Bool) (o : BatchOp) : OkTame [.regs, .mem, .banks, .counters, .events, .fcp, .obs, .lookup, .traffic, .free] s (s.batchOp nx o) := by
  unfold State.batchOp
  refine OkTame.ite OkTame.error (OkTame.ite OkTame.error ?_)
  split <;> first | exact hashOp_ok s nx o | exact flowOp_ok s nx o | exact assocOp_ok s nx o | exact diOp_ok s nx o | exact patternOp_ok s nx o | exact wordsOp_ok s nx o | exact OkTame.error

theorem batchOps_ok (nx : Bool) (l : List BatchOp) : ∀ (i : Nat) (s : State), OkTame [.regs, .mem, .banks, .counters, .events, .fcp, .obs, .lookup, .traffic, .free] s (State.batchOps nx i l s) := by
  induction l with
  | nil => intro i s; exact OkTame.ok (Tame.refl ..)
  | cons o l ih =>
    intro i s
    unfold State.batchOps
    split
    · rename_i t e; exact fun u hu => (batchOp_ok _ _ _ _ e).trans_same (ih _ _ _ hu)
    · exact OkTame.error

theorem batchRun_tame {s t : State} {b : Batch} (h : s.batchRun b = .ok t) : Tame [.regs, .mem, .banks, .counters, .events, .fcp, .obs, .lookup, .traffic, .free] s t := by
  unfold State.batchRun at h
  split at h
  · cases h
  · split at h
    · rename_i u e
      unfold State.batchMeters at h
      split at h
      · cases h
      · cases h; exact batchOps_ok _ _ _ _ _ e
    · cases h





theorem batchFull_tame (s : State) (b : Batch) (i : Nat) : Tame [.counters, .events, .fcp, .obs] s (State.batchFull s b i) := by
  unfold State.batchFull; try dsimp -proj -iota -eta only
  repeat' (first | (show (_ : Bool) = true; decide) | with_reducible exact Tame.refl .. | split | with_reducible apply Tame.then (insertFull_tame ..) | with_reducible apply Tame.then (raise_tame ..) | with_reducible apply Tame.ite | with_reducible refine Tame.pairEq (by assumption) ?_ | with_reducible refine Tame.pairEqSnd (by assumption) ?_ | with_reducible refine Tame.iteEq (by assumption) (fun _ => ?_) (fun _ => ?_) | with_reducible refine Tame.iteEqSnd (by assumption) (fun _ => ?_) (fun _ => ?_))

theorem batchAck_tame (s : State) (b : Batch) (status : Nat) (first : Nat) (reason : Nat) : Tame [.fcp] s (State.batchAck s b status first reason) := by
  unfold State.batchAck
  repeat' (first | (show (_ : Bool) = true; decide) | with_reducible exact Tame.refl .. | with_reducible apply Tame.then (answer_tame ..) | with_reducible apply Tame.ite | split)

theorem batchRefuse_tame (s : State) (b : Batch) (e : Nat × Nat × Nat) : Tame [.counters, .events, .fcp, .obs] s (State.batchRefuse s b e) := by
  unfold State.batchRefuse
  repeat' (first | (show (_ : Bool) = true; decide) | with_reducible exact Tame.refl .. | with_reducible apply Tame.then (batchFull_tame ..) | with_reducible apply Tame.then (count_tame ..) | with_reducible apply Tame.then (batchAck_tame ..) | with_reducible apply Tame.ite | split)

theorem logBatch_tame (s : State) (b : Batch) : Tame [.fcp] s (State.logBatch s b) := by
  unfold State.logBatch
  repeat' (first | (show (_ : Bool) = true; decide) | with_reducible exact Tame.refl .. | with_reducible apply Tame.ite | with_reducible apply Tame.set_fcp | split)

theorem batchMsg_tame {l : List Part} {s : State} {h : FcpHdr} {t : Nat} {act : State → Session → State} (hl : [Part.counters, .fcp].all (fun p => l.contains p) = true)
    (ha : ∀ u x, Tame l u (act u x)) : Tame l s (s.batchMsg h t act) := by
  unfold State.batchMsg
  split
  · rename_i e; exact Tame.thenFst (fcpGate_tame ..) e (Tame.refl ..) hl
  · rename_i e; exact Tame.then (send_tame ..) (Tame.thenFst (fcpGate_tame ..) e (Tame.refl ..) hl) (by simp at hl ⊢; exact hl.2)
  · rename_i e
    split
    · exact Tame.then (answer_tame ..) (Tame.thenFst (fcpGate_tame ..) e (Tame.refl ..) hl) (by simp at hl ⊢; exact hl.2)
    · exact (Tame.thenFst (fcpGate_tame ..) e (Tame.refl ..) hl).trans_same (ha _ _)

theorem batchBegin_tame (h : FcpHdr) (number : Nat) (kind : Nat) (count : Nat) (s : State) : Tame [.counters, .fcp] s (batchBegin h number kind count s) := by
  unfold batchBegin; try dsimp -proj -iota -eta only
  repeat' (first | (show (_ : Bool) = true; decide) | with_reducible exact Tame.refl .. | split | with_reducible refine batchMsg_tame ?_ (fun u x => ?_) | with_reducible apply Tame.then (answer_tame ..) | with_reducible apply Tame.ite | with_reducible refine Tame.pairEq (by assumption) ?_ | with_reducible refine Tame.pairEqSnd (by assumption) ?_ | with_reducible refine Tame.iteEq (by assumption) (fun _ => ?_) (fun _ => ?_) | with_reducible refine Tame.iteEqSnd (by assumption) (fun _ => ?_) (fun _ => ?_) | with_reducible apply Tame.set_fcp)

theorem batchSettle_tame (s : State) (b : Batch) : Tame [.counters, .fcp] s (State.batchSettle s b) := by
  unfold State.batchSettle; try dsimp -proj -iota -eta only
  repeat' (first | (show (_ : Bool) = true; decide) | with_reducible exact Tame.refl .. | split | with_reducible apply Tame.then (count_tame ..) | with_reducible apply Tame.then (batchAck_tame ..) | with_reducible apply Tame.ite | with_reducible refine Tame.pairEq (by assumption) ?_ | with_reducible refine Tame.pairEqSnd (by assumption) ?_ | with_reducible refine Tame.iteEq (by assumption) (fun _ => ?_) (fun _ => ?_) | with_reducible refine Tame.iteEqSnd (by assumption) (fun _ => ?_) (fun _ => ?_) | with_reducible apply Tame.set_fcp)

theorem batchData_tame (h : FcpHdr) (number : Nat) (segment : Nat) (ops : List BatchOp) (s : State) : Tame [.counters, .fcp] s (batchData h number segment ops s) := by
  unfold batchData; try dsimp -proj -iota -eta only
  repeat' (first | (show (_ : Bool) = true; decide) | with_reducible exact Tame.refl .. | split | with_reducible refine batchMsg_tame ?_ (fun u x => ?_) | with_reducible apply Tame.then (answer_tame ..) | with_reducible apply Tame.then (batchSettle_tame ..) | with_reducible apply Tame.ite | with_reducible refine Tame.pairEq (by assumption) ?_ | with_reducible refine Tame.pairEqSnd (by assumption) ?_ | with_reducible refine Tame.iteEq (by assumption) (fun _ => ?_) (fun _ => ?_) | with_reducible refine Tame.iteEqSnd (by assumption) (fun _ => ?_) (fun _ => ?_))

theorem batchEnd_tame (h : FcpHdr) (number : Nat) (segments : Nat) (s : State) : Tame [.counters, .fcp] s (batchEnd h number segments s) := by
  unfold batchEnd; try dsimp -proj -iota -eta only
  repeat' (first | (show (_ : Bool) = true; decide) | with_reducible exact Tame.refl .. | split | with_reducible refine batchMsg_tame ?_ (fun u x => ?_) | with_reducible apply Tame.then (answer_tame ..) | with_reducible apply Tame.then (batchSettle_tame ..) | with_reducible apply Tame.ite | with_reducible refine Tame.pairEq (by assumption) ?_ | with_reducible refine Tame.pairEqSnd (by assumption) ?_ | with_reducible refine Tame.iteEq (by assumption) (fun _ => ?_) (fun _ => ?_) | with_reducible refine Tame.iteEqSnd (by assumption) (fun _ => ?_) (fun _ => ?_))

theorem batchSegmentTimeout_tame (sid : Nat) (number : Nat) (s : State) : Tame [.fcp] s (batchSegmentTimeout sid number s) := by
  unfold batchSegmentTimeout; try dsimp -proj -iota -eta only
  repeat' (first | (show (_ : Bool) = true; decide) | with_reducible exact Tame.refl .. | split | with_reducible apply Tame.then (batchAck_tame ..) | with_reducible apply Tame.ite | with_reducible refine Tame.pairEq (by assumption) ?_ | with_reducible refine Tame.pairEqSnd (by assumption) ?_ | with_reducible refine Tame.iteEq (by assumption) (fun _ => ?_) (fun _ => ?_) | with_reducible refine Tame.iteEqSnd (by assumption) (fun _ => ?_) (fun _ => ?_) | with_reducible apply Tame.set_fcp)

theorem unseen_tame (s : State) (f : State) : Tame [.regs, .mem, .lookup] s (State.unseen s f) := by
  unfold State.unseen
  repeat' (first | (show (_ : Bool) = true; decide) | with_reducible exact Tame.refl .. | with_reducible apply Tame.then (put_tame ..) | with_reducible refine Tame.fold ?_ (fun s x => ?_) | with_reducible refine Tame.foldEq (by assumption) ?_ (fun r x => ?_) | with_reducible refine Tame.foldEqSnd (by assumption) ?_ (fun r x => ?_) | with_reducible refine Tame.foldPair ?_ (fun r x => ?_) | with_reducible refine Tame.foldPairSnd ?_ (fun r x => ?_) | with_reducible apply Tame.ite | split)

theorem batchApply_tame (s : State) : Tame [.regs, .mem, .counters, .events, .fcp, .obs, .lookup] s (batchApply s) := by
  unfold batchApply
  split
  · exact Tame.refl ..
  · split
    · exact Tame.refl ..
    · dsimp only
      split
      · exact Tame.then (batchRefuse_tame ..) (Tame.set_fcp (Tame.refl ..) _ (by decide)) (by decide)
      · exact Tame.set_fcp (Tame.then (unseen_tame ..) (Tame.set_fcp (Tame.refl ..) _ (by decide)) (by decide)) _ (by decide)

theorem lookupBoundary_tame (s : State) : Tame [.regs, .mem, .banks, .counters, .events, .fcp, .obs, .lookup, .traffic, .free] s (lookupBoundary s) := by
  unfold lookupBoundary
  split
  · exact Tame.refl ..
  · split
    · exact Tame.refl ..
    · dsimp only
      split
      · exact Tame.then (batchRefuse_tame ..) (Tame.set_fcp (Tame.refl ..) _ (by decide)) (by decide)
      · rename_i e
        exact Tame.then (batchAck_tame ..) (Tame.then (logBatch_tame ..) (Tame.then (batchRun_tame e) (Tame.set_fcp (Tame.refl ..) _ (by decide)) (by decide)) (by decide)) (by decide)

end Sys2Proof.Machine
end

