-- ==== Sys2Proof/Laws/RegOpsFrames.lean ====
section
/-! SUPPORT. The parts that the operations of Machine/RegOps may change. -/

namespace Sys2Proof.Machine

set_option linter.all false

theorem readWord_tame (s : State) (diag : Bool) (a : Nat) : Tame [.regs, .hbm, .free] s (State.readWord s diag a).2 := by
  unfold State.readWord; try dsimp -proj -iota -eta only
  repeat' (first | (show (_ : Bool) = true; decide) | with_reducible exact Tame.refl .. | split | with_reducible apply Tame.then (setFld_tame ..) | with_reducible apply Tame.then (draw_tame ..) | with_reducible refine Tame.thenSnd (draw_tame ..) (by assumption) ?_ ?_ | with_reducible apply Tame.then (hbmDiagnosis_tame ..) | with_reducible apply Tame.ite | with_reducible apply Tame.iteSnd | with_reducible refine Tame.pairEq (by assumption) ?_ | with_reducible refine Tame.pairEqSnd (by assumption) ?_ | with_reducible refine Tame.iteEq (by assumption) (fun _ => ?_) (fun _ => ?_) | with_reducible refine Tame.iteEqSnd (by assumption) (fun _ => ?_) (fun _ => ?_))

theorem readWords_tame (diag : Bool) (priv master n : Nat) : ∀ (a : Nat) (s : State), Tame [.regs, .counters, .hbm, .free] s (State.readWords s diag priv master a n).2 := by
  induction n with
  | zero => intro a s; exact Tame.refl ..
  | succ n ih =>
    intro a s
    unfold State.readWords
    exact (Tame.then (readWord_tame ..) (Tame.then (filterCount_tame ..) (Tame.refl ..) (by decide)) (by decide)).trans_same (ih _ _)

theorem countBusy_tame (s : State) (st : Nat) : Tame [.counters] s (State.countBusy s st) := by
  unfold State.countBusy
  repeat' (first | (show (_ : Bool) = true; decide) | with_reducible exact Tame.refl .. | with_reducible apply Tame.then (count_tame ..) | with_reducible apply Tame.ite | split)

theorem regRead_tame (h : FcpHdr) (addr : Nat) (count : Nat) (s : State) : Tame [.regs, .counters, .fcp, .hbm, .free] s (regRead h addr count s) := by
  unfold regRead
  repeat' (first | (show (_ : Bool) = true; decide) | with_reducible exact Tame.refl .. | with_reducible refine fcpServe_tame ?_ (fun u => ?_) | with_reducible apply Tame.then (countBusy_tame ..) | with_reducible apply Tame.then (readWords_tame ..) | with_reducible refine Tame.thenSnd (readWords_tame ..) (by assumption) ?_ ?_ | with_reducible apply Tame.ite | with_reducible apply Tame.iteFst | split | dsimp only)

theorem storeReg_tame (s : State) (a : Nat) (m : MaskedWord) : Tame [.regs] s (State.storeReg s a m) := by
  unfold State.storeReg; try dsimp -proj -iota -eta only
  repeat' (first | (show (_ : Bool) = true; decide) | with_reducible exact Tame.refl .. | split | with_reducible apply Tame.then (setReg_tame ..) | with_reducible apply Tame.ite | with_reducible refine Tame.pairEq (by assumption) ?_ | with_reducible refine Tame.pairEqSnd (by assumption) ?_ | with_reducible refine Tame.iteEq (by assumption) (fun _ => ?_) (fun _ => ?_) | with_reducible refine Tame.iteEqSnd (by assumption) (fun _ => ?_) (fun _ => ?_))

theorem saStageKey_tame (s : State) (p : Nat) (c : Nat) (a : Nat) (i : Nat) (m : MaskedWord) : Tame [.line] s (State.saStageKey s p c a i m) := by
  unfold State.saStageKey
  repeat' (first | (show (_ : Bool) = true; decide) | with_reducible exact Tame.refl .. | with_reducible apply Tame.then (setSa_tame ..) | with_reducible apply Tame.ite | split)

theorem saStageSalt_tame (s : State) (p : Nat) (c : Nat) (a : Nat) (i : Nat) (m : MaskedWord) : Tame [.line] s (State.saStageSalt s p c a i m) := by
  unfold State.saStageSalt
  repeat' (first | (show (_ : Bool) = true; decide) | with_reducible exact Tame.refl .. | with_reducible apply Tame.then (setSa_tame ..) | with_reducible apply Tame.ite | split)

theorem writeSa_tame (s : State) (p : Nat) (c : Nat) (a : Nat) (o : Nat) (m : MaskedWord) : Tame [.regs, .counters, .events, .fcp, .obs, .line] s (State.writeSa s p c a o m) := by
  unfold State.writeSa
  repeat' (first | (show (_ : Bool) = true; decide) | with_reducible exact Tame.refl .. | with_reducible apply Tame.then (saStageKey_tame ..) | with_reducible apply Tame.then (saStageSalt_tame ..) | with_reducible apply Tame.then (storeReg_tame ..) | with_reducible apply Tame.then (install_tame ..) | with_reducible apply Tame.then (retire_tame ..) | with_reducible apply Tame.then (setSa_tame ..) | with_reducible apply Tame.ite | split)

/-- Every state an optional operation answers differs from `s` only in the parts of `l`. -/
def SomeTame (l : List Part) (s : State) (r : Option State) : Prop := ∀ t, r = some t → Tame l s t

theorem SomeTame.none {l : List Part} {s : State} : SomeTame l s none := fun _ h => by cases h

theorem SomeTame.some {l : List Part} {s t : State} (h : Tame l s t) : SomeTame l s (some t) := fun _ e => by cases e; exact h

theorem SomeTame.ite {l : List Part} {s : State} {a b : Option State} {c : Prop} [Decidable c] (ha : SomeTame l s a) (hb : SomeTame l s b) : SomeTame l s (if c then a else b) := by
  by_cases h : c
  · rw [if_pos h]; exact ha
  · rw [if_neg h]; exact hb

theorem SomeTame.or {l : List Part} {s : State} {a b : Option State} (ha : SomeTame l s a) (hb : SomeTame l s b) : SomeTame l s (a <|> b) := by
  cases a with
  | none => exact hb
  | some x => exact ha

theorem SomeTame.map {α : Type} {l : List Part} {s : State} {o : Option α} {g : α → State} (h : ∀ x, Tame l s (g x)) : SomeTame l s (o.map g) := by
  cases o with
  | none => exact SomeTame.none
  | some x => exact SomeTame.some (h x)

theorem SomeTame.mono {l m : List Part} {s : State} {r : Option State} (h : SomeTame l s r) (hm : l.all (fun p => m.contains p) = true) : SomeTame m s r := fun t e =>
  Tame.then (h t e) (Tame.refl ..) hm

theorem SomeTame.getD {l : List Part} {s t : State} {r : Option State} (h : SomeTame l s r) (ht : Tame l s t) : Tame l s (r.getD t) := by
  cases r with
  | none => exact ht
  | some x => exact h x rfl

theorem writeLine_tame (s : State) (a : Nat) (m : MaskedWord) : SomeTame [.regs, .counters, .events, .fcp, .obs, .line, .traffic] s (s.writeLine a m) := by
  unfold State.writeLine; try dsimp -proj -iota -eta only
  repeat' (first | (show (_ : Bool) = true; decide) | with_reducible exact SomeTame.none | with_reducible apply SomeTame.or | with_reducible refine SomeTame.map (fun x => ?_) | with_reducible refine SomeTame.some ?_ | with_reducible apply SomeTame.ite | with_reducible exact Tame.refl .. | with_reducible apply Tame.then (storeReg_tame ..) | with_reducible apply Tame.then (degThreshWrite_tame ..) | with_reducible apply Tame.then (adminUpWrite_tame ..) | with_reducible apply Tame.then (flexeSwitchWrite_tame ..) | with_reducible apply Tame.then (macsecAlarmClear_tame ..) | with_reducible apply Tame.then (writeSa_tame ..) | with_reducible apply Tame.ite | with_reducible apply Tame.set_traffic | split)

theorem writeMid_tame (s : State) (a : Nat) (m : MaskedWord) : SomeTame [.regs, .counters, .events, .fcp, .obs, .lookup, .hbm, .bridge, .free] s (s.writeMid a m) := by
  unfold State.writeMid; try dsimp -proj -iota -eta only
  repeat' (first | (show (_ : Bool) = true; decide) | with_reducible exact SomeTame.none | with_reducible apply SomeTame.or | with_reducible refine SomeTame.map (fun x => ?_) | with_reducible refine SomeTame.some ?_ | with_reducible apply SomeTame.ite | with_reducible exact Tame.refl .. | with_reducible apply Tame.then (bridgeRetrainWrite_tame ..) | with_reducible apply Tame.then (storeReg_tame ..) | with_reducible apply Tame.then (samplerReload_tame ..) | with_reducible apply Tame.then (engineDrainWrite_tame ..) | with_reducible apply Tame.then (hbmRelease_tame ..) | with_reducible apply Tame.then (trainNowWrite_tame ..) | with_reducible apply Tame.ite | with_reducible apply Tame.set_traffic | split)

theorem writeTraffic_tame (s : State) (a : Nat) (m : MaskedWord) : SomeTame [.regs, .counters, .events, .fcp, .obs, .traffic] s (s.writeTraffic a m) := by
  unfold State.writeTraffic; try dsimp -proj -iota -eta only
  repeat' (first | (show (_ : Bool) = true; decide) | with_reducible exact SomeTame.none | with_reducible apply SomeTame.or | with_reducible refine SomeTame.map (fun x => ?_) | with_reducible refine SomeTame.some ?_ | with_reducible apply SomeTame.ite | with_reducible exact Tame.refl .. | with_reducible apply Tame.then (quotaWrite_tame ..) | with_reducible apply Tame.then (storeReg_tame ..) | with_reducible apply Tame.then (shaperAssignStart_tame ..) | with_reducible apply Tame.then (shaperProfileWrite_tame ..) | with_reducible apply Tame.then (hatbandCommit_tame ..) | with_reducible apply Tame.then (hatbandCancel_tame ..) | with_reducible apply Tame.then (count_tame ..) | with_reducible apply Tame.ite | with_reducible apply Tame.set_traffic | split)

theorem writeControl_tame (s : State) (a : Nat) (m : MaskedWord) : SomeTame [.regs, .mem, .banks, .counters, .boot, .events, .fcp, .obs, .lookup, .time] s (s.writeControl a m) := by
  unfold State.writeControl; try dsimp -proj -iota -eta only
  repeat' (first | (show (_ : Bool) = true; decide) | with_reducible exact SomeTame.none | with_reducible apply SomeTame.or | with_reducible refine SomeTame.map (fun x => ?_) | with_reducible refine SomeTame.some ?_ | with_reducible apply SomeTame.ite | with_reducible exact Tame.refl .. | with_reducible apply Tame.then (storeReg_tame ..) | with_reducible apply Tame.then (epochOpenCmd_tame ..) | with_reducible apply Tame.then (epochArmCmd_tame ..) | with_reducible apply Tame.then (epochSwitchNowCmd_tame ..) | with_reducible apply Tame.then (epochAbortCmd_tame ..) | with_reducible apply Tame.then (timeReselect_tame ..) | with_reducible apply Tame.then (timeAdjStart_tame ..) | with_reducible apply Tame.then (timeFreqWrite_tame ..) | with_reducible apply Tame.then (peakClr_tame ..) | with_reducible apply Tame.then (setFld_tame ..) | with_reducible apply Tame.ite | with_reducible apply Tame.set_traffic | split)

theorem writeWord_tame (s : State) (a : Nat) (m : MaskedWord) : Tame [.regs, .mem, .banks, .counters, .boot, .events, .fcp, .obs, .line, .lookup, .traffic, .hbm, .bridge, .time, .free] s (s.writeWord a m) := by
  unfold State.writeWord
  refine Tame.ite (Tame.refl ..) (SomeTame.getD (SomeTame.or ((writeLine_tame s a m).mono (by decide)) (SomeTame.or ((writeMid_tame s a m).mono (by decide))
    (SomeTame.or ((writeTraffic_tame s a m).mono (by decide)) ((writeControl_tame s a m).mono (by decide))))) ((storeReg_tame ..).mono (by decide)))

theorem writeWords_tame (priv master : Nat) (l : List MaskedWord) : ∀ (a : Nat) (s : State), Tame [.regs, .mem, .banks, .counters, .boot, .events, .fcp, .obs, .line, .lookup, .traffic, .hbm, .bridge, .time, .free] s (State.writeWords s priv master a l) := by
  induction l with
  | nil => intro a s; exact Tame.refl ..
  | cons m l ih =>
    intro a s
    unfold State.writeWords
    exact (Tame.then (writeWord_tame ..) (Tame.then (filterCount_tame ..) (Tame.refl ..) (by decide)) (by decide)).trans_same (ih _ _)

theorem refuseTime_tame (s : State) (a : Nat) (l : List MaskedWord) : Tame [.counters, .events, .fcp, .obs] s (State.refuseTime s a l) := by
  unfold State.refuseTime
  repeat' (first | (show (_ : Bool) = true; decide) | with_reducible exact Tame.refl .. | with_reducible apply Tame.then (adjRefuse_tame ..) | with_reducible apply Tame.ite | split)

theorem regWrite_tame (h : FcpHdr) (addr : Nat) (words : List MaskedWord) (s : State) : Tame [.regs, .mem, .banks, .counters, .boot, .events, .fcp, .obs, .line, .lookup, .traffic, .hbm, .bridge, .time, .free] s (regWrite h addr words s) := by
  unfold regWrite
  repeat' (first | (show (_ : Bool) = true; decide) | with_reducible exact Tame.refl .. | with_reducible refine fcpServe_tame ?_ (fun u => ?_) | with_reducible apply Tame.then (refuseTime_tame ..) | with_reducible apply Tame.then (countBusy_tame ..) | with_reducible apply Tame.then (writeWords_tame ..) | with_reducible apply Tame.ite | with_reducible apply Tame.iteFst | split | dsimp only)

theorem regTxnTimeout_tame (h : FcpHdr) (write : Bool) (addr : Nat) (s : State) : Tame [.counters, .events, .fcp, .obs] s (regTxnTimeout h write addr s) := by
  unfold regTxnTimeout
  repeat' (first | (show (_ : Bool) = true; decide) | with_reducible exact Tame.refl .. | with_reducible refine fcpServe_tame ?_ (fun u => ?_) | with_reducible apply Tame.then (count_tame ..) | with_reducible apply Tame.then (raise_tame ..) | with_reducible apply Tame.ite | with_reducible apply Tame.iteFst | split | dsimp only)

theorem bridgeReqTimeout_tame (h : FcpHdr) (write : Bool) (s : State) : Tame [.counters, .fcp] s (bridgeReqTimeout h write s) := by
  unfold bridgeReqTimeout
  repeat' (first | (show (_ : Bool) = true; decide) | with_reducible exact Tame.refl .. | with_reducible refine fcpServe_tame ?_ (fun u => ?_) | with_reducible apply Tame.then (count_tame ..) | with_reducible apply Tame.ite | with_reducible apply Tame.iteFst | split | dsimp only)

theorem hbmSyndromeRead_tame (h : FcpHdr) (x : Nat) (s : State) : Tame [.regs, .counters, .fcp, .hbm, .free] s (hbmSyndromeRead h x s) := by
  unfold hbmSyndromeRead
  repeat' (first | (show (_ : Bool) = true; decide) | with_reducible exact Tame.refl .. | with_reducible apply Tame.then (regRead_tame ..) | with_reducible apply Tame.ite | split)

end Sys2Proof.Machine
end

