-- ==== Sys2Proof/Laws/MgmtFrames.lean ====
section
/-! SUPPORT. The parts that the operations of Machine/Mgmt may change. -/

namespace Sys2Proof.Machine

set_option linter.all false

theorem mgmtOtherFrame_tame (m : Nat) (s : State) : Tame [.counters] s (mgmtOtherFrame m s) := by
  unfold mgmtOtherFrame
  repeat' (first | (show (_ : Bool) = true; decide) | with_reducible exact Tame.refl .. | with_reducible apply Tame.then (count_tame ..) | with_reducible apply Tame.ite | split)

theorem shadowCopy_tame (s : State) (a : Nat) (n : Nat) : Tame [.lookup] s (State.shadowCopy s a n) := by
  unfold State.shadowCopy
  repeat' (first | (show (_ : Bool) = true; decide) | with_reducible exact Tame.refl .. | with_reducible apply Tame.then (shPut_tame ..) | with_reducible refine Tame.fold ?_ (fun s x => ?_) | with_reducible refine Tame.foldEq (by assumption) ?_ (fun r x => ?_) | with_reducible refine Tame.foldEqSnd (by assumption) ?_ (fun r x => ?_) | with_reducible refine Tame.foldPair ?_ (fun r x => ?_) | with_reducible refine Tame.foldPairSnd ?_ (fun r x => ?_) | with_reducible apply Tame.ite | split)

theorem shadowKey_tame (s : State) (t : Nat) (key : Bytes) : Tame [.lookup] s (State.shadowKey s t key) := by
  unfold State.shadowKey
  repeat' (first | (show (_ : Bool) = true; decide) | with_reducible exact Tame.refl .. | with_reducible apply Tame.then (shPut_tame ..) | with_reducible apply Tame.then (shadowCopy_tame ..) | with_reducible refine Tame.fold ?_ (fun s x => ?_) | with_reducible refine Tame.foldEq (by assumption) ?_ (fun r x => ?_) | with_reducible refine Tame.foldEqSnd (by assumption) ?_ (fun r x => ?_) | with_reducible refine Tame.foldPair ?_ (fun r x => ?_) | with_reducible refine Tame.foldPairSnd ?_ (fun r x => ?_) | with_reducible apply Tame.ite | split)

theorem shadowTake_tame (s : State) (r : Bytes) : Tame [.lookup] s (State.shadowTake s r) := by
  unfold State.shadowTake
  repeat' (first | (show (_ : Bool) = true; decide) | with_reducible exact Tame.refl .. | with_reducible apply Tame.then (shadowCopy_tame ..) | with_reducible apply Tame.then (shadowKey_tame ..) | with_reducible apply Tame.ite | split)

theorem learnReport_tame (s : State) (rs : List Bytes) (x : Session) : Tame [.fcp] s (State.learnReport s rs x) := by
  unfold State.learnReport; try dsimp -proj -iota -eta only
  repeat' (first | (show (_ : Bool) = true; decide) | with_reducible exact Tame.refl .. | split | with_reducible apply Tame.then (send_tame ..) | with_reducible apply Tame.then (setSession_tame ..) | with_reducible refine Tame.fold ?_ (fun s x => ?_) | with_reducible refine Tame.foldEq (by assumption) ?_ (fun r x => ?_) | with_reducible refine Tame.foldEqSnd (by assumption) ?_ (fun r x => ?_) | with_reducible refine Tame.foldPair ?_ (fun r x => ?_) | with_reducible refine Tame.foldPairSnd ?_ (fun r x => ?_) | with_reducible apply Tame.ite | with_reducible refine Tame.pairEq (by assumption) ?_ | with_reducible refine Tame.pairEqSnd (by assumption) ?_ | with_reducible refine Tame.iteEq (by assumption) (fun _ => ?_) (fun _ => ?_) | with_reducible refine Tame.iteEqSnd (by assumption) (fun _ => ?_) (fun _ => ?_))

theorem learnLogDrain_tame (n : Nat) (s : State) : Tame [.regs, .fcp, .lookup] s (learnLogDrain n s) := by
  unfold learnLogDrain
  repeat' (first | (show (_ : Bool) = true; decide) | with_reducible exact Tame.refl .. | with_reducible apply Tame.then (shadowTake_tame ..) | with_reducible apply Tame.then (setFld_tame ..) | with_reducible apply Tame.then (learnReport_tame ..) | with_reducible refine Tame.fold ?_ (fun s x => ?_) | with_reducible refine Tame.foldEq (by assumption) ?_ (fun r x => ?_) | with_reducible refine Tame.foldEqSnd (by assumption) ?_ (fun r x => ?_) | with_reducible refine Tame.foldPair ?_ (fun r x => ?_) | with_reducible refine Tame.foldPairSnd ?_ (fun r x => ?_) | with_reducible apply Tame.ite | with_reducible apply Tame.set_lookup | split | with_reducible refine Tame.pairEq (by assumption) ?_ | with_reducible refine Tame.pairEqSnd (by assumption) ?_ | with_reducible refine Tame.iteEq (by assumption) (fun _ => ?_) (fun _ => ?_) | with_reducible refine Tame.iteEqSnd (by assumption) (fun _ => ?_) (fun _ => ?_))

theorem learnAck_tame (h : FcpHdr) (s : State) : Tame [.counters, .fcp] s (learnAck h s) := by
  unfold learnAck; try dsimp -proj -iota -eta only
  repeat' (first | (show (_ : Bool) = true; decide) | with_reducible exact Tame.refl .. | split | with_reducible apply Tame.then (fcpGate_tame ..) | with_reducible refine Tame.thenFst (fcpGate_tame ..) (by assumption) ?_ ?_ | with_reducible apply Tame.then (answer_tame ..) | with_reducible apply Tame.then (setSession_tame ..) | with_reducible apply Tame.ite | with_reducible refine Tame.pairEq (by assumption) ?_ | with_reducible refine Tame.pairEqSnd (by assumption) ?_ | with_reducible refine Tame.iteEq (by assumption) (fun _ => ?_) (fun _ => ?_) | with_reducible refine Tame.iteEqSnd (by assumption) (fun _ => ?_) (fun _ => ?_))

theorem shadowReloadDone_tame (t : Nat) (s : State) : Tame [.regs, .counters, .events, .fcp, .obs, .lookup] s (shadowReloadDone t s) := by
  unfold shadowReloadDone
  repeat' (first | (show (_ : Bool) = true; decide) | with_reducible exact Tame.refl .. | with_reducible apply Tame.then (shPut_tame ..) | with_reducible apply Tame.then (shadowCopy_tame ..) | with_reducible apply Tame.then (setFlag_tame ..) | with_reducible apply Tame.then (raise_tame ..) | with_reducible refine Tame.fold ?_ (fun s x => ?_) | with_reducible refine Tame.foldEq (by assumption) ?_ (fun r x => ?_) | with_reducible refine Tame.foldEqSnd (by assumption) ?_ (fun r x => ?_) | with_reducible refine Tame.foldPair ?_ (fun r x => ?_) | with_reducible refine Tame.foldPairSnd ?_ (fun r x => ?_) | with_reducible apply Tame.ite | split)

theorem flashWrite_tame (h : FcpHdr) (addr : Nat) (data : Bytes) (s : State) : Tame [.counters, .boot, .fcp] s (flashWrite h addr data s) := by
  unfold flashWrite
  repeat' (first | (show (_ : Bool) = true; decide) | with_reducible exact Tame.refl .. | with_reducible refine fcpServe_tame ?_ (fun u => ?_) | with_reducible apply Tame.ite | with_reducible apply Tame.iteFst | with_reducible apply Tame.set_boot | split | dsimp only)

theorem reset_tame (h : FcpHdr) (s : State) : Tame [.counters, .boot, .fcp] s (reset h s) := by
  unfold reset
  repeat' (first | (show (_ : Bool) = true; decide) | with_reducible exact Tame.refl .. | with_reducible refine fcpServe_tame ?_ (fun u => ?_) | with_reducible apply Tame.ite | with_reducible apply Tame.iteFst | with_reducible apply Tame.set_boot | split | dsimp only)

theorem resetDelayExpiry_tame (s : State) : Tame [.regs, .mem, .banks, .counters, .pins, .boot, .events, .fcp, .obs, .bist, .line, .headers, .lookup, .engine, .traffic, .hbm, .fabric, .gov, .bridge, .time] s (resetDelayExpiry s) := by
  unfold resetDelayExpiry
  repeat' (first | (show (_ : Bool) = true; decide) | with_reducible exact Tame.refl .. | with_reducible apply Tame.then (coldReset_tame ..) | with_reducible apply Tame.ite | split)

theorem attest_tame (h : FcpHdr) (nonce : Bytes) (s : State) : Tame [.counters, .fcp] s (attest h nonce s) := by
  unfold attest
  repeat' (first | (show (_ : Bool) = true; decide) | with_reducible exact Tame.refl .. | with_reducible refine fcpServe_tame ?_ (fun u => ?_) | with_reducible apply Tame.ite | with_reducible apply Tame.iteFst | split | dsimp only)

theorem bootStatus_tame (h : FcpHdr) (s : State) : Tame [.counters, .fcp] s (bootStatus h s) := by
  unfold bootStatus
  repeat' (first | (show (_ : Bool) = true; decide) | with_reducible exact Tame.refl .. | with_reducible refine fcpServe_tame ?_ (fun u => ?_) | with_reducible apply Tame.ite | with_reducible apply Tame.iteFst | split | dsimp only)

theorem fuseDone_tame (s : State) (f : Fuses) (kind : Nat) (slot : Nat) (ok : Bool) : Tame [.regs, .counters, .fuses, .events, .fcp, .obs] s (State.fuseDone s f kind slot ok).1 := by
  unfold State.fuseDone
  repeat' (first | (show (_ : Bool) = true; decide) | with_reducible exact Tame.refl .. | with_reducible apply Tame.then (fuseRegs_tame ..) | with_reducible apply Tame.then (raise_tame ..) | with_reducible apply Tame.ite | with_reducible apply Tame.iteFst | with_reducible apply Tame.set_fuses | split)

theorem fuseOwnerKey_tame (h : FcpHdr) (slot : Nat) (hash : BitVec 384) (readBackOk : Bool) (s : State) : Tame [.regs, .counters, .fuses, .events, .fcp, .obs, .free] s (fuseOwnerKey h slot hash readBackOk s) := by
  unfold fuseOwnerKey
  repeat' (first | (show (_ : Bool) = true; decide) | with_reducible exact Tame.refl .. | with_reducible refine fcpServe_tame ?_ (fun u => ?_) | with_reducible apply Tame.then (draw_tame ..) | with_reducible refine Tame.thenSnd (draw_tame ..) (by assumption) ?_ ?_ | with_reducible apply Tame.then (fuseDone_tame ..) | with_reducible refine Tame.thenFst (fuseDone_tame ..) (by assumption) ?_ ?_ | with_reducible apply Tame.ite | with_reducible apply Tame.iteFst | split | dsimp only)

theorem fuseRevokeOwner_tame (h : FcpHdr) (slot : Nat) (readBackOk : Bool) (s : State) : Tame [.regs, .counters, .fuses, .events, .fcp, .obs] s (fuseRevokeOwner h slot readBackOk s) := by
  unfold fuseRevokeOwner
  repeat' (first | (show (_ : Bool) = true; decide) | with_reducible exact Tame.refl .. | with_reducible refine fcpServe_tame ?_ (fun u => ?_) | with_reducible apply Tame.then (fuseDone_tame ..) | with_reducible refine Tame.thenFst (fuseDone_tame ..) (by assumption) ?_ ?_ | with_reducible apply Tame.ite | with_reducible apply Tame.iteFst | split | dsimp only)

theorem fuseRevokeProvisioning_tame (h : FcpHdr) (key : Nat) (readBackOk : Bool) (s : State) : Tame [.regs, .counters, .fuses, .events, .fcp, .obs] s (fuseRevokeProvisioning h key readBackOk s) := by
  unfold fuseRevokeProvisioning
  repeat' (first | (show (_ : Bool) = true; decide) | with_reducible exact Tame.refl .. | with_reducible refine fcpServe_tame ?_ (fun u => ?_) | with_reducible apply Tame.then (fuseDone_tame ..) | with_reducible refine Tame.thenFst (fuseDone_tame ..) (by assumption) ?_ ?_ | with_reducible apply Tame.ite | with_reducible apply Tame.iteFst | split | dsimp only)

theorem fuseJtagLevel_tame (h : FcpHdr) (level : Nat) (readBackOk : Bool) (s : State) : Tame [.regs, .counters, .fuses, .events, .fcp, .obs, .free] s (fuseJtagLevel h level readBackOk s) := by
  unfold fuseJtagLevel
  repeat' (first | (show (_ : Bool) = true; decide) | with_reducible exact Tame.refl .. | with_reducible refine fcpServe_tame ?_ (fun u => ?_) | with_reducible apply Tame.then (draw_tame ..) | with_reducible refine Tame.thenSnd (draw_tame ..) (by assumption) ?_ ?_ | with_reducible apply Tame.then (fuseDone_tame ..) | with_reducible refine Tame.thenFst (fuseDone_tame ..) (by assumption) ?_ ?_ | with_reducible apply Tame.ite | with_reducible apply Tame.iteFst | split | dsimp only)

theorem secfloorRaise_tame (h : FcpHdr) (s : State) : Tame [.regs, .counters, .fuses, .events, .fcp, .obs] s (secfloorRaise h s) := by
  unfold secfloorRaise
  repeat' (first | (show (_ : Bool) = true; decide) | with_reducible exact Tame.refl .. | with_reducible refine fcpServe_tame ?_ (fun u => ?_) | with_reducible apply Tame.then (fuseRegs_tame ..) | with_reducible apply Tame.then (raise_tame ..) | with_reducible apply Tame.ite | with_reducible apply Tame.iteFst | with_reducible apply Tame.set_fuses | split | dsimp only)

theorem fwAccess_tame (s : State) (a : Nat) : Tame [.counters] s (State.fwAccess s a) := by
  unfold State.fwAccess
  repeat' (first | (show (_ : Bool) = true; decide) | with_reducible exact Tame.refl .. | with_reducible apply Tame.then (filterCount_tame ..) | with_reducible apply Tame.ite | split)

theorem kick_tame (s : State) : Tame [.counters, .boot] s (kick s) := by
  unfold kick
  repeat' (first | (show (_ : Bool) = true; decide) | with_reducible exact Tame.refl .. | with_reducible apply Tame.then (fwAccess_tame ..) | with_reducible apply Tame.ite | with_reducible apply Tame.set_boot | split)

theorem boardHeartbeatWrite_tame (s : State) : Tame [.regs, .counters, .pins, .boot] s (boardHeartbeatWrite s) := by
  unfold boardHeartbeatWrite
  repeat' (first | (show (_ : Bool) = true; decide) | with_reducible exact Tame.refl .. | with_reducible apply Tame.then (setFld_tame ..) | with_reducible apply Tame.then (fwAccess_tame ..) | with_reducible apply Tame.ite | with_reducible apply Tame.set_pins | with_reducible apply Tame.set_boot | with_reducible apply Tame.set_boot_pins | split)

theorem heartbeatTimeout_tame (s : State) : Tame [.counters, .pins, .events, .fcp, .obs] s (heartbeatTimeout s) := by
  unfold heartbeatTimeout
  repeat' (first | (show (_ : Bool) = true; decide) | with_reducible exact Tame.refl .. | with_reducible apply Tame.then (raise_tame ..) | with_reducible apply Tame.ite | with_reducible apply Tame.set_pins | split)

end Sys2Proof.Machine
end

