-- ==== Sys2Proof/Laws/JtagFrames.lean ====
section
/-! SUPPORT. The parts that the operations of Machine/Jtag may change. -/

namespace Sys2Proof.Machine

set_option linter.all false

theorem twiByte_tame (s : State) (p : Nat) : Tame [.fcp, .free] s (State.twiByte s p).2 := by
  unfold State.twiByte; try dsimp -proj -iota -eta only
  repeat' (first | (show (_ : Bool) = true; decide) | with_reducible exact Tame.refl .. | split | with_reducible apply Tame.then (draw_tame ..) | with_reducible refine Tame.thenSnd (draw_tame ..) (by assumption) ?_ ?_ | with_reducible refine Tame.fold ?_ (fun s x => ?_) | with_reducible refine Tame.foldEq (by assumption) ?_ (fun r x => ?_) | with_reducible refine Tame.foldEqSnd (by assumption) ?_ (fun r x => ?_) | with_reducible refine Tame.foldPair ?_ (fun r x => ?_) | with_reducible refine Tame.foldPairSnd ?_ (fun r x => ?_) | with_reducible apply Tame.ite | with_reducible apply Tame.iteSnd | with_reducible refine Tame.pairEq (by assumption) ?_ | with_reducible refine Tame.pairEqSnd (by assumption) ?_ | with_reducible refine Tame.iteEq (by assumption) (fun _ => ?_) (fun _ => ?_) | with_reducible refine Tame.iteEqSnd (by assumption) (fun _ => ?_) (fun _ => ?_) | with_reducible apply Tame.set_fcp)

theorem twiRead_tame (n : Nat) : ∀ (p : Nat) (s : State), Tame [.fcp, .free] s (s.twiRead p n).2 := by
  induction n with
  | zero => intro p s; exact Tame.refl ..
  | succ n ih => intro p s; exact (twiByte_tame s p).trans_same (ih _ _)

theorem twiBudgetWrite_tame (s : State) (v : Nat) : Tame [.regs, .counters, .gov] s (State.twiBudgetWrite s v) := by
  unfold State.twiBudgetWrite
  repeat' (first | (show (_ : Bool) = true; decide) | with_reducible exact Tame.refl .. | with_reducible apply Tame.then (filterCount_tame ..) | with_reducible apply Tame.then (setFld_tame ..) | with_reducible apply Tame.ite | with_reducible apply Tame.set_gov | split)

theorem twiWrite_tame (bs : Bytes) : ∀ (p : Nat) (s : State), Tame [.regs, .counters, .fcp, .gov] s (s.twiWrite p bs).2 := by
  induction bs with
  | nil => intro p s; exact Tame.refl ..
  | cons b bs ih =>
    intro p s
    unfold State.twiWrite
    split
    · exact Tame.trans_same (Tame.set_fcp (Tame.refl ..) _ (by decide)) (ih (p + 1) _)
    · split
      · exact Tame.trans_same ((twiBudgetWrite_tame ..).mono (by decide)) (ih (p + 1) _)
      · exact Tame.refl ..

theorem twiTransfer_tame (write : Bool) (pointer : Nat) (data : Bytes) (count : Nat) (s : State) : Tame [.regs, .counters, .fcp, .gov, .free] s (twiTransfer write pointer data count s) := by
  unfold twiTransfer
  refine Tame.ite (Tame.refl ..) ?_
  generalize pointer % 65536 = p
  refine Tame.ite ?_ ?_
  · exact Tame.set_fcp (Tame.then (twiWrite_tame data p s) (Tame.refl ..) (by decide)) _ (by decide)
  · exact Tame.set_fcp (Tame.then (twiRead_tame count p s) (Tame.refl ..) (by decide)) _ (by decide)

theorem tap_tame (s : State) (i : Nat) : Tame [.pins] s (State.tap s i) := by
  unfold State.tap
  repeat' (first | (show (_ : Bool) = true; decide) | with_reducible exact Tame.refl .. | with_reducible apply Tame.ite | with_reducible apply Tame.set_pins | split)

theorem bypass_tame (s : State) : Tame [.pins] s (bypass s) := by
  unfold bypass
  repeat' (first | (show (_ : Bool) = true; decide) | with_reducible exact Tame.refl .. | with_reducible apply Tame.then (tap_tame ..) | with_reducible apply Tame.ite | split)

theorem idcode_tame (s : State) : Tame [.pins] s (idcode s) := by
  unfold idcode
  repeat' (first | (show (_ : Bool) = true; decide) | with_reducible exact Tame.refl .. | with_reducible apply Tame.then (tap_tame ..) | with_reducible apply Tame.ite | with_reducible apply Tame.set_pins | split)

theorem samplePreload_tame (s : State) : Tame [.pins] s (samplePreload s) := by
  unfold samplePreload
  repeat' (first | (show (_ : Bool) = true; decide) | with_reducible exact Tame.refl .. | with_reducible apply Tame.then (tap_tame ..) | with_reducible apply Tame.ite | split)

theorem scanEnter_tame (s : State) : Tame [.regs, .counters, .pins, .events, .fcp, .obs, .bist, .line] s (State.scanEnter s) := by
  unfold State.scanEnter
  repeat' (first | (show (_ : Bool) = true; decide) | with_reducible exact Tame.refl .. | with_reducible apply Tame.then (eraseKeys_tame ..) | with_reducible apply Tame.then (bistAbort_tame ..) | with_reducible apply Tame.then (raise_tame ..) | with_reducible apply Tame.ite | with_reducible apply Tame.set_pins | split)

theorem scan_tame (s : State) (i : Nat) : Tame [.regs, .counters, .pins, .events, .fcp, .obs, .bist, .line] s (State.scan s i) := by
  unfold State.scan
  repeat' (first | (show (_ : Bool) = true; decide) | with_reducible exact Tame.refl .. | with_reducible apply Tame.then (tap_tame ..) | with_reducible apply Tame.then (scanEnter_tame ..) | with_reducible apply Tame.ite | split)

theorem extest_tame (s : State) : Tame [.regs, .counters, .pins, .events, .fcp, .obs, .bist, .line] s (extest s) := by
  unfold extest
  repeat' (first | (show (_ : Bool) = true; decide) | with_reducible exact Tame.refl .. | with_reducible apply Tame.then (scan_tame ..) | with_reducible apply Tame.ite | split)

theorem clamp_tame (s : State) : Tame [.regs, .counters, .pins, .events, .fcp, .obs, .bist, .line] s (clamp s) := by
  unfold clamp
  repeat' (first | (show (_ : Bool) = true; decide) | with_reducible exact Tame.refl .. | with_reducible apply Tame.then (scan_tame ..) | with_reducible apply Tame.ite | split)

theorem highz_tame (s : State) : Tame [.regs, .counters, .pins, .events, .fcp, .obs, .bist, .line] s (highz s) := by
  unfold highz
  repeat' (first | (show (_ : Bool) = true; decide) | with_reducible exact Tame.refl .. | with_reducible apply Tame.then (scan_tame ..) | with_reducible apply Tame.ite | split)

theorem mgmt_tame (write : Bool) (addr : Nat) (value : Word) (s : State) : Tame [.regs, .mem, .banks, .counters, .pins, .boot, .events, .fcp, .obs, .line, .lookup, .traffic, .hbm, .bridge, .time, .free] s (mgmt write addr value s) := by
  unfold mgmt
  repeat' (first | (show (_ : Bool) = true; decide) | with_reducible exact Tame.refl .. | with_reducible apply Tame.then (tap_tame ..) | with_reducible apply Tame.then (refuseTime_tame ..) | with_reducible apply Tame.then (countBusy_tame ..) | with_reducible apply Tame.then (writeWords_tame ..) | with_reducible apply Tame.then (readWords_tame ..) | with_reducible refine Tame.thenSnd (readWords_tame ..) (by assumption) ?_ ?_ | with_reducible apply Tame.ite | with_reducible apply Tame.set_pins | split)

end Sys2Proof.Machine
end

