-- ==== Sys2Proof/Laws/Line.lean ====
section
/-! SUPPORT. What the shared operations of the line interface can do: epochs' counts, ports and groups taken anew. -/

namespace Sys2Proof.Machine

theorem act_clocked {s : State} (h : s.clocked = true) (t : State) : s.act t = .next t := by simp [State.act, h]

/-- The parts a change of a port's conditions may touch. -/
def portParts : List Part := [.regs, .line, .traffic] ++ eventParts

/-- The registers a change of a port's conditions may touch: those of ports and FlexE groups, CLOSED of a port, and the epochs' state and counts. -/
def portReg (a : Nat) : Prop := (0x10000000 ≤ a ∧ a < 0x20000000) ∨ (0x50000000 ≤ a ∧ a < 0x60000000) ∨ a = Reg.epochInflight ∨ a = Reg.epochState

/-- A change that touches only what a change of a port's conditions may, with at most `n` records. -/
structure PortStep (n : Nat) (s t : State) : Prop where
  only : Only portParts s t
  regs : ∀ a, ¬ portReg a → t.reg a = s.reg a
  later : Later n s t

theorem PortStep.refl (s : State) : PortStep 0 s s := ⟨Only.refl .., fun _ _ => rfl, Later.of_ev rfl⟩

theorem PortStep.trans {m n : Nat} {s t u : State} (h1 : PortStep m s t) (h2 : PortStep n t u) : PortStep (m + n) s u :=
  ⟨h1.only.trans_same h2.only, fun a ha => (h2.regs a ha).trans (h1.regs a ha), h1.later.trans h2.later⟩

theorem PortStep.mono {m n : Nat} {s t : State} (h : PortStep m s t) (hn : m ≤ n) : PortStep n s t := ⟨h.only, h.regs, h.later.mono hn⟩

theorem PortStep.foldl {α : Type} {n : Nat} {g : State → α → State} (h : ∀ s x, PortStep n s (g s x)) (xs : List α) : ∀ s, PortStep (n * xs.length) s (xs.foldl g s) := by
  induction xs with
  | nil => intro s; exact PortStep.refl s
  | cons x xs ih => intro s; exact ((h s x).trans (ih _)).mono (by simp [Nat.mul_add]; omega)

theorem PortStep.setFld (s : State) (a : Nat) (f : Field) (v : Nat) (h : portReg a) : PortStep 0 s (s.setFld a f v) :=
  ⟨⟨fun p hp => by cases p <;> first | rfl | simp [portParts] at hp⟩, fun b hb => reg_setFld_ne s f v (fun e => hb (e ▸ h)), Later.of_ev (s := s) (t := s.setFld a f v) rfl⟩

theorem PortStep.raise (s : State) (code : Nat) (data : Bytes) : PortStep 5 s (s.raise code data) :=
  ⟨(raise_only s code data).mono (by simp [portParts]; intro p hp; simp [hp]), fun a _ => reg_raise .., raise_later ..⟩

theorem PortStep.count (s : State) (c : Ctr) (i : Nat) : PortStep 0 s (s.count c i) :=
  ⟨(count_only s c i).mono (by simp [portParts, eventParts]), fun a _ => reg_count .., Later.of_ev (s := s) (t := s.count c i) rfl⟩

theorem PortStep.of_line {s t : State} (h : Only [.line] s t) : PortStep 0 s t :=
  ⟨h.mono (by simp [portParts]), fun a _ => reg_congr (h.same .regs (by decide)) a, Later.of_ev (h.same .events (by decide))⟩

theorem PortStep.of_traffic {s t : State} (h : Only [.traffic] s t) : PortStep 0 s t :=
  ⟨h.mono (by simp [portParts]), fun a _ => reg_congr (h.same .regs (by decide)) a, Later.of_ev (h.same .events (by decide))⟩

theorem PortStep.setPort (s : State) (p : Nat) (x : LinePort) : PortStep 0 s (s.setPort p x) :=
  PortStep.of_line ⟨fun q hq => by cases q <;> first | rfl | simp at hq⟩

theorem portReg_status {p : Nat} (h : p < 96) : portReg (Reg.linePortStatus p) := by simp only [portReg, Reg.linePortStatus]; omega

theorem portReg_ctrl {p : Nat} (h : p < 96) : portReg (Reg.linePortCtrl p) := by simp only [portReg, Reg.linePortCtrl]; omega

theorem portReg_flexe {k : Nat} (h : k < 12) : portReg (Reg.lineFlexeStatus k) := by simp only [portReg, Reg.lineFlexeStatus]; omega

theorem portReg_traffic {p : Nat} (h : p < 96) : portReg (Reg.trafficPortCfg p) := by simp only [portReg, Reg.trafficPortCfg]; omega

theorem portReg_epochState : portReg Reg.epochState := by simp [portReg]

theorem portReg_inflight : portReg Reg.epochInflight := by simp [portReg]

theorem epochRetire_step (s : State) : PortStep 5 s s.epochRetire := (PortStep.setFld _ _ _ _ portReg_epochState).trans (PortStep.raise ..)

theorem epochLeave_step (s : State) (e : Nat) : PortStep 5 s (s.epochLeave e) := by
  unfold State.epochLeave
  dsimp only
  split
  · exact (PortStep.setFld _ _ _ _ portReg_inflight).mono (by omega)
  · split
    · split
      · exact ((PortStep.setFld _ _ _ _ portReg_inflight).trans (epochRetire_step _)).mono (by omega)
      · exact (PortStep.setFld _ _ _ _ portReg_inflight).mono (by omega)
    · exact (PortStep.refl s).mono (by omega)

theorem txLeave_step (s : State) (f : TxPkt) : PortStep 5 s (s.txLeave f) := by
  have h0 : PortStep 0 s { s with traffic := { s.traffic with inflight := mput (fun _ => 0) s.traffic.inflight f.node (mget (fun _ => 0) s.traffic.inflight f.node - f.win) } } :=
    PortStep.of_traffic ⟨fun q hq => by cases q <;> first | rfl | simp at hq⟩
  unfold State.txLeave
  dsimp only
  split
  · exact (h0.trans (epochLeave_step _ _)).mono (by omega)
  · exact h0.mono (by omega)

theorem portDown_step (s : State) {p : Nat} (cause : Nat) (h : p < 96) : PortStep 10 s (s.portDown p cause) := by
  have hs := portReg_status h
  have h1 := (((PortStep.setFld s _ Fld.linePortStatus_up 0 hs).trans (PortStep.setFld _ _ Fld.linePortStatus_downCause cause hs)).trans
    (PortStep.setFld _ _ Fld.linePortStatus_hold 0 hs))
  unfold State.portDown
  dsimp only
  have key : ∀ (t : State) (x : LinePort) (l : Line → Line), PortStep 5 t (((State.count { (t.setPort p x) with line := l (t.setPort p x).line } .lineMacLinkDown p)).raise 0x0202 (natBe 1 p ++ natBe 1 cause)) := by
    intro t x l
    have h2 : PortStep 0 (t.setPort p x) { (t.setPort p x) with line := l (t.setPort p x).line } := PortStep.of_line ⟨fun q hq => by cases q <;> first | rfl | simp at hq⟩
    exact (((PortStep.setPort t p x).trans h2).trans (PortStep.count ..)).trans (PortStep.raise ..)
  cases hq : (s.port p).txQ with
  | nil => simp only [List.isEmpty_nil, if_true]; exact (h1.trans (key _ _ (fun x => { x with closeDue := x.closeDue ++ [p], noticeDue := x.noticeDue ++ [(p, false)], pouncerDue := x.pouncerDue ++ [p] }))).mono (by omega)
  | cons f q =>
    simp only [List.isEmpty_cons]
    exact (((h1.trans (PortStep.count _ .lineMacTxAbandoned p)).trans (txLeave_step _ f)).trans
      (key _ _ (fun x => { x with closeDue := x.closeDue ++ [p], noticeDue := x.noticeDue ++ [(p, false)], pouncerDue := x.pouncerDue ++ [p] }))).mono (by omega)

theorem portComesUp_step (s : State) {p : Nat} (h : p < 96) : PortStep 10 s (s.portComesUp p) := by
  have hs := portReg_status h
  have h1 := (((PortStep.setFld s _ Fld.linePortStatus_up 1 hs).trans (PortStep.setFld _ _ Fld.linePortStatus_downCause 0 hs)).trans
    (PortStep.setFld _ _ Fld.linePortStatus_hold 0 hs))
  have key : ∀ (t : State) (x : Line), PortStep 5 t (State.raise { t with line := x } 0x0201 (natBe 1 p)) := fun t x =>
    (PortStep.of_line (t := { t with line := x }) ⟨fun q hq => by cases q <;> first | rfl | simp at hq⟩).trans (PortStep.raise ..)
  exact (((h1.trans (PortStep.setPort _ p _)).trans (PortStep.setFld _ _ Fld.trafficPortCfg_closed 0 (portReg_traffic h))).trans (key _ _)).mono (n := 10) (by decide)

theorem portEval_step (s : State) {p : Nat} (h : p < 96) : PortStep 10 s (s.portEval p) := by
  have hs := portReg_status h
  unfold State.portEval
  dsimp only
  split
  · split
    · split
      · exact (((PortStep.setPort s p _).trans (PortStep.setFld _ _ _ _ hs)).trans (PortStep.count ..)).mono (by omega)
      · exact (PortStep.refl s).mono (by omega)
    · split
      · exact portDown_step s _ h
      · exact ((PortStep.setPort s p _).trans (PortStep.setFld _ _ _ _ hs)).mono (by omega)
  · split
    · split
      · exact portComesUp_step s h
      · exact ((PortStep.setPort s p _).trans (PortStep.setFld _ _ _ _ hs)).mono (by omega)
    · exact (((PortStep.setPort s p _).trans (PortStep.setFld _ _ _ _ hs)).trans (PortStep.setFld _ _ _ _ hs)).mono (by omega)

theorem groupEval_step (s : State) {k : Nat} (h : k < 12) : PortStep 5 s (s.groupEval k) := by
  unfold State.groupEval
  dsimp only
  split
  · exact (PortStep.refl s).mono (by omega)
  · split
    · exact (PortStep.setFld _ _ _ _ (portReg_flexe h)).trans (PortStep.raise ..)
    · exact (PortStep.setFld _ _ _ _ (portReg_flexe h)).trans (PortStep.raise ..)

theorem phyLanes_length (s : State) (k : Nat) : (s.phyLanes k).length ≤ 8 := List.length_filter_le _ (List.range 8)

theorem phyLanes_lt {s : State} {k j : Nat} (h : j ∈ s.phyLanes k) : j < 8 := by
  simp only [State.phyLanes, List.mem_filter, List.mem_range] at h; exact h.1

theorem portEvals_step {p : Nat} (hp : p < 96) (l : List Nat) : (∀ j ∈ l, j < 8) → ∀ s : State, PortStep (10 * l.length) s (l.foldl (fun s j => s.portEval (8 * (p / 8) + j)) s) := by
  induction l with
  | nil => intro _ s; exact PortStep.refl s
  | cons j l ih =>
    intro hj s
    have h1 : j < 8 := hj j (by simp)
    exact ((portEval_step s (p := 8 * (p / 8) + j) (by omega)).trans (ih (fun i hi => hj i (by simp [hi])) _)).mono (by simp [Nat.mul_add]; omega)

theorem portChange_step (s : State) {p : Nat} (h : p < 96) : PortStep 85 s (s.portChange p) := by
  unfold State.portChange
  split
  · dsimp only
    have hl := phyLanes_length (s.groupEval (p / 8)) (p / 8)
    exact ((groupEval_step s (k := p / 8) (by omega)).trans (portEvals_step h _ (fun j hj => phyLanes_lt hj) _)).mono (by omega)
  · exact (portEval_step s h).mono (by omega)

theorem portList_lt {s : State} {p : Nat} (h : p ∈ s.portList) : p < 96 := by
  simp only [State.portList, List.mem_filter, List.mem_range] at h; exact h.1

theorem portChanges_step (l : List Nat) : (∀ p ∈ l, p < 96) → ∀ s : State, PortStep (85 * l.length) s (l.foldl (fun s p => s.portChange p) s) := by
  induction l with
  | nil => intro _ s; exact PortStep.refl s
  | cons j l ih =>
    intro hj s
    exact ((portChange_step s (hj j (by simp))).trans (ih (fun i hi => hj i (by simp [hi])) _)).mono (by simp [Nat.mul_add]; omega)

theorem portsEval_step (s : State) : PortStep 8160 s s.portsEval := by
  have hl : s.portList.length ≤ 96 := List.length_filter_le _ (List.range 96)
  exact (portChanges_step s.portList (fun p hp => portList_lt hp) s).mono (by omega)

end Sys2Proof.Machine
end

