-- ==== Sys2Proof/Laws/More.lean ====
section
/-! SUPPORT. The small lemmas of the families' shared operations. -/

namespace Sys2Proof.Machine

/-! ### Start-up -/

@[simp] theorem setStep_boot (s : State) (n : Nat) : (s.setStep n).boot = s.boot := setFld_boot ..

@[simp] theorem setStage_boot (s : State) (g : Stage) : (s.setStage g).boot = { s.boot with stage := g } := rfl

theorem fld_setStep (s : State) (n : Nat) : (s.setStep n).fld Reg.bootStatus Fld.bootStatus_step = n % 256 := by
  have h : 2 ^ Fld.bootStatus_step.width = 256 := by decide
  rw [State.setStep, fld_setFld_self _ _ _ _ (by decide), h]

theorem setStep_regs (s : State) (n : Nat) : RegsOnly [Reg.bootStatus] s (s.setStep n) := by
  rw [State.setStep]; exact RegsOnly.setFld ..

theorem fuseRegs_regs (s : State) : RegsOnly [Reg.fuseStatus] s s.fuseRegs := by
  refine ⟨fun a ha => ?_⟩
  simp only [List.mem_singleton] at ha
  simp only [State.fuseRegs, reg_setFld_ne _ _ _ ha]

end Sys2Proof.Machine
end

