-- ==== Sys2Proof/WellFormed.lean ====
section
/-! DEFINITION. Which commands the hardware's own fields can spell: every operand that names a unit, a port, an entry or a register lies in its range.
What a value's content may be (a quota, a threshold) is its meaning's business (R7). -/

namespace Sys2Proof.WellFormed

/-- A line port (96). -/
def portOk (n : Nat) : Bool := decide (n < 96)

/-- A slice (12). -/
def sliceOk (n : Nat) : Bool := decide (n < 12)

/-- A line lane (96). -/
def laneOk (n : Nat) : Bool := decide (n < 96)

/-- A FlexE group (12 octets of lanes). -/
def flexeOk (n : Nat) : Bool := decide (n < 12)

/-- A secure channel (64). -/
def channelOk (n : Nat) : Bool := decide (n < 64)

/-- An association number (4). -/
def anOk (n : Nat) : Bool := decide (n < 4)

/-- An associative array (128). -/
def arrayOk (n : Nat) : Bool := decide (n < 128)

/-- A row of an array (32,768). -/
def rowOk (n : Nat) : Bool := decide (n < 32768)

/-- An engine register (16). -/
def regOk (n : Nat) : Bool := decide (n < 16)

/-- An access size code (4). -/
def sizeOk (n : Nat) : Bool := decide (n < 4)

/-- A verdict action (4). -/
def actionOk (n : Nat) : Bool := decide (n < 4)

/-- An instruction address (4,096). -/
def targetOk (n : Nat) : Bool := decide (n < 4096)

/-- A pattern set (1,024). -/
def setOk (n : Nat) : Bool := decide (n < 1024)

/-- An engine (256). -/
def engineOk (n : Nat) : Bool := decide (n < 256)

/-- An engine cluster (8). -/
def clusterOk (n : Nat) : Bool := decide (n < 8)

/-- An HBM controller (512). -/
def ctlOk (n : Nat) : Bool := decide (n < 512)

/-- An HBM bank (16). -/
def bankOk (n : Nat) : Bool := decide (n < 16)

/-- An HBM stack (8). -/
def stackOk (n : Nat) : Bool := decide (n < 8)

/-- A queue (524,288). -/
def queueOk (n : Nat) : Bool := decide (n < 524288)

/-- A port node (512). -/
def nodeOk (n : Nat) : Bool := decide (n < 512)

/-- A replication context (262,144). -/
def ctxOk (n : Nat) : Bool := decide (n < 262144)

/-- A buffer requester (24). -/
def requesterOk (n : Nat) : Bool := decide (n < 24)

/-- A hash bank (64). -/
def hashBankOk (n : Nat) : Bool := decide (n < 64)

/-- A meter (1,048,576). -/
def meterOk (n : Nat) : Bool := decide (n < 1048576)

/-- A hash table (256). -/
def tableOk (n : Nat) : Bool := decide (n < 256)

/-- A flow table (16). -/
def flowOk (n : Nat) : Bool := decide (n < 16)

/-- An encapsulation entry (524,288). -/
def encapOk (n : Nat) : Bool := decide (n < 524288)

/-- A learn arbiter (16). -/
def arbiterOk (n : Nat) : Bool := decide (n < 16)

/-- A fabric lane (120). -/
def fabLaneOk (n : Nat) : Bool := decide (n < 120)

/-- A device (4,096). -/
def deviceOk (n : Nat) : Bool := decide (n < 4096)

/-- A class (8). -/
def classOk (n : Nat) : Bool := decide (n < 8)

/-- A sensor (24). -/
def sensorOk (n : Nat) : Bool := decide (n < 24)

/-- A management port (2). -/
def mgmtOk (n : Nat) : Bool := decide (n < 2)

/-- A session (0 to 8). -/
def sessionOk (n : Nat) : Bool := decide (n < 9)

/-- A counter filter (64). -/
def filterOk (n : Nat) : Bool := decide (n < 64)

/-- A collector (4). -/
def collectorOk (n : Nat) : Bool := decide (n < 4)

/-- A self-test segment (180). -/
def segmentOk (n : Nat) : Bool := decide (n < 180)

/-- A management address (48 bits). -/
def addressOk (n : Nat) : Bool := decide (n < 2 ^ 48)

/-- A shaper profile (4,096). -/
def profileOk (n : Nat) : Bool := decide (n < 4096)

/-- A shaper kind (3). -/
def kindOk (n : Nat) : Bool := decide (n < 3)

/-- A way of a flow bucket (8). -/
def wayOk (n : Nat) : Bool := decide (n < 8)

/-- A byte operand (256). -/
def byteOk (n : Nat) : Bool := decide (n < 256)

/-- A 16-bit operand (65,536). -/
def halfOk (n : Nat) : Bool := decide (n < 65536)

/-- A 32-bit operand. -/
def wordOk (n : Nat) : Bool := decide (n < 4294967296)

/-- An FCP header's numbers fit their fields (Table 17.1). -/
def hdrOk (h : FcpHdr) : Bool := decide (1 ≤ h.session) && decide (h.session ≤ 8) && decide (h.request < 4294967296) && decide (h.seq < 18446744073709551616)

end Sys2Proof.WellFormed

namespace Sys2Proof

open WellFormed

/-- A command's operands lie in the ranges of the fields they come from. -/
def Instr.wf : Instr → Bool
  | .pwrGoodLow _ _ => true
  | .rstNLow _ => true
  | .leaveColdReset => true
  | .bootRomStart => true
  | .slotHeaderRead _ _ _ => true
  | .sectionTableRead _ _ => true
  | .signatureVerified _ => true
  | .bodyReadDone _ _ => true
  | .flashReadStall => true
  | .firmwareReportsRunning _ => true
  | .firmwareStartTimeout => true
  | .stackTrainingDone _ => true
  | .startupBistDone _ => true
  | .fabricWaitExpiry => true
  | .staticTablesDone => true
  | .firmwareWarmRestart => true
  | .warmRestartTimeout => true
  | .rxFrame p f _ => portOk p && decide (16 ≤ f.length)
  | .lineLaneSignalLoss lane => laneOk lane
  | .lineLaneSignalReturn lane => laneOk lane
  | .laneRetrainDone lane => laneOk lane
  | .linkFaultChange p _ => portOk p
  | .linkDownHoldExpiry p => portOk p
  | .linkUpHoldExpiry p => portOk p
  | .adminUpWrite p _ => portOk p
  | .degThreshWrite p _ => portOk p
  | .fecWindowEnd p _ _ _ => portOk p
  | .txFrameEnd p => portOk p
  | .flexeOverheadBlock k j _ _ _ _ _ _ => flexeOk k && classOk j
  | .flexeCalendarRequest k _ => flexeOk k
  | .flexeSwitchWrite k => flexeOk k
  | .flexeCalendarSwitch k => flexeOk k
  | .flexeSwitchAbandon k => flexeOk k
  | .macsecRxFrame p _ _ => portOk p
  | .macsecTxFrame p => portOk p
  | .install p c a => portOk p && channelOk c && anOk a
  | .retire p c a => portOk p && channelOk c && anOk a
  | .saRetireDone p c a => portOk p && channelOk c && anOk a
  | .txAnWrite p an => portOk p && anOk an
  | .macsecAlarmFire _ => true
  | .macsecAlarmClear _ => true
  | .voltageExcursion _ => true
  | .ref25mFault => true
  | .faultInjectionDetect => true
  | .bridgeBeatError k _ _ => sliceOk k
  | .bridgeRetrainDone k _ _ => sliceOk k
  | .bridgeRetrainWrite _ => true
  | .bridgeReqTimeout h _ => hdrOk h
  | .headerParse k => sliceOk k
  | .fragHoldTimeout k => sliceOk k
  | .fragEntryExpiry k _ _ => sliceOk k
  | .ingressLookup k _ => sliceOk k
  | .emhashBankRead bank _ => hashBankOk bank
  | .flowLookupResponse _ _ => true
  | .flowLookupTimeout _ => true
  | .assocKeyQueued k => sliceOk k
  | .assocSearchResult _ _ _ => true
  | .assocDispatchTimeout _ _ => true
  | .meterRefresh m => meterOk m
  | .samplerCfgWrite n _ => decide (1 ≤ n) && decide (n < 1024)
  | .assocMoveStart a src dst _ dstArray => arrayOk a && rowOk src && rowOk dst && arrayOk dstArray
  | .assocRowMove a => arrayOk a
  | .assocMoveSourceClear a => arrayOk a
  | .assocScrubRead a _ => arrayOk a
  | .assocRowRepair a r => arrayOk a && rowOk r
  | .learnArbiterServe l => arbiterOk l
  | .learnHandoffInsert => true
  | .pouncerPortFlush p => portOk p
  | .pouncerAgeVisit _ => true
  | .pouncerIdlePass f _ way => flowOk f && wayOk way
  | .compareWalkRead addr => addressOk addr
  | .compareConfirm addr => addressOk addr
  | .comparePeriodOverrun => true
  | .encapHoldExpiry i => encapOk i
  | .egressProcess k _ _ _ => sliceOk k
  | .engineDispatch k => sliceOk k
  | .engineHoldRetry k => sliceOk k
  | .engineWaitExpiry k => sliceOk k
  | .programStart e => engineOk e
  | .add i rd ra rb => engineOk i.e && regOk rd && regOk ra && regOk rb
  | .sub i rd ra rb => engineOk i.e && regOk rd && regOk ra && regOk rb
  | .and i rd ra rb => engineOk i.e && regOk rd && regOk ra && regOk rb
  | .or i rd ra rb => engineOk i.e && regOk rd && regOk ra && regOk rb
  | .xor i rd ra rb => engineOk i.e && regOk rd && regOk ra && regOk rb
  | .shl i rd ra rb => engineOk i.e && regOk rd && regOk ra && regOk rb
  | .shr i rd ra rb => engineOk i.e && regOk rd && regOk ra && regOk rb
  | .min i rd ra rb => engineOk i.e && regOk rd && regOk ra && regOk rb
  | .max i rd ra rb => engineOk i.e && regOk rd && regOk ra && regOk rb
  | .crc i rd ra rb => engineOk i.e && regOk rd && regOk ra && regOk rb
  | .clz i rd ra => engineOk i.e && regOk rd && regOk ra
  | .addi i rd ra _ => engineOk i.e && regOk rd && regOk ra
  | .andi i rd ra _ => engineOk i.e && regOk rd && regOk ra
  | .ori i rd ra _ => engineOk i.e && regOk rd && regOk ra
  | .xori i rd ra _ => engineOk i.e && regOk rd && regOk ra
  | .shli i rd ra _ => engineOk i.e && regOk rd && regOk ra
  | .shri i rd ra _ => engineOk i.e && regOk rd && regOk ra
  | .movi i rd _ => engineOk i.e && regOk rd
  | .insh i rd sz _ => engineOk i.e && regOk rd && sizeOk sz
  | .ld i rd ra sz _ => engineOk i.e && regOk rd && regOk ra && sizeOk sz
  | .st i rd ra sz _ => engineOk i.e && regOk rd && regOk ra && sizeOk sz
  | .xadd i rd ra rb => engineOk i.e && regOk rd && regOk ra && regOk rb
  | .beq i ra rb target => engineOk i.e && regOk ra && regOk rb && targetOk target
  | .bne i ra rb target => engineOk i.e && regOk ra && regOk rb && targetOk target
  | .blt i ra rb target => engineOk i.e && regOk ra && regOk rb && targetOk target
  | .bge i ra rb target => engineOk i.e && regOk ra && regOk rb && targetOk target
  | .jmp i target => engineOk i.e && targetOk target
  | .call i target => engineOk i.e && targetOk target
  | .ret i => engineOk i.e
  | .pfind i rd ra rb set => engineOk i.e && regOk rd && regOk ra && regOk rb && setOk set
  | .pfindScanDone e _ => engineOk e
  | .pmatch i rd ra set => engineOk i.e && regOk rd && regOk ra && setOk set
  | .verdict i action _ colour _ => engineOk i.e && actionOk action && anOk colour
  | .endProg i => engineOk i.e
  | .nop i => engineOk i.e
  | .programBudgetExpiry e => engineOk e
  | .engineResultReturn k => sliceOk k
  | .engineDrainWrite c _ => clusterOk c
  | .clusterDrained c => clusterOk c
  | .packetAdmit k _ => sliceOk k
  | .streamTail k _ => sliceOk k
  | .packetDepart n => nodeOk n
  | .bufferReadError _ _ _ => true
  | .quotaWrite r _ _ => requesterOk r
  | .portQueuesClose p => portOk p
  | .portNoticeSend p => portOk p
  | .noticeRx _ => true
  | .voqCloseOnNotice dev port => deviceOk dev && portOk port
  | .flushChainFree => true
  | .flushListAdmit => true
  | .hbmRequest x _ => ctlOk x
  | .hbmResponse x _ _ => ctlOk x
  | .openRowTimeout x bank => ctlOk x && bankOk bank
  | .fz24WriteAge x => ctlOk x
  | .refreshDue x bank => ctlOk x && bankOk bank
  | .trainPassStart stack _ => stackOk stack
  | .trainNowWrite stack => stackOk stack
  | .trainPause x _ => ctlOk x
  | .hbmCaParity x => ctlOk x
  | .hbmCmdTimeout x _ => ctlOk x
  | .hbmSyndromeRead h x => hdrOk h && ctlOk x
  | .hbmFreezeTimeout x => ctlOk x
  | .hbmRelease x => ctlOk x
  | .hbmRetrainDone x _ _ => ctlOk x
  | .schedDecision n => nodeOk n
  | .shaperRefresh kind _ => kindOk kind
  | .shaperProfileWrite i _ _ => profileOk i
  | .shaperAssignStart kind _ profile => kindOk kind && profileOk profile
  | .shaperSweepDone => true
  | .gateIntervalEnd p => portOk p
  | .hatbandCommit p => portOk p
  | .hatbandCancel p => portOk p
  | .hatbandTakeover p => portOk p
  | .replWalk c => ctxOk c
  | .replWalkTimeout c => ctxOk c
  | .stuckQueueVisit q => queueOk q
  | .fabricLaneSignalLoss l => fabLaneOk l
  | .malythFrameRx l _ => fabLaneOk l
  | .cellRx l _ _ => fabLaneOk l
  | .reasmTimeout srcDev _ port tc => deviceOk srcDev && portOk port && classOk tc
  | .reasmContextIdle srcDev _ port tc => deviceOk srcDev && portOk port && classOk tc
  | .cellSend q => queueOk q
  | .creditRequestSend q => queueOk q
  | .creditRequestRx _ => true
  | .creditGrantIssue port tc => portOk port && classOk tc
  | .creditGrantRx q _ => queueOk q
  | .standingCreditExpiry q => queueOk q
  | .starveTimeout q => queueOk q
  | .timeCellSend => true
  | .timeCellRx _ _ => true
  | .noticeRepeat p => portOk p
  | .noticeAckRx dev port seq => deviceOk dev && portOk port && byteOk seq
  | .heartbeatSend => true
  | .devTimeoutExpiry d => deviceOk d
  | .quietPeriodEnd => true
  | .epochOpen h => hdrOk h
  | .epochArm h _ _ => hdrOk h
  | .epochSwitchNow h => hdrOk h
  | .epochAbort h => hdrOk h
  | .epochSwitch => true
  | .epochDrainTimeout => true
  | .epochSweepDone => true
  | .lookupBoundary => true
  | .sliceReloadDone k => sliceOk k
  | .ppsInEdge _ _ _ => true
  | .todInMessage _ => true
  | .sourceQualified _ _ => true
  | .sourceLoss _ _ => true
  | .holdoverLimitExpiry => true
  | .slewDone => true
  | .timeAdjStart _ _ => true
  | .timeFreqWrite _ => true
  | .timeNowRead h => hdrOk h
  | .ppsOutEdge => true
  | .todOutSend => true
  | .creditEpoch _ => true
  | .regionSwitchOn _ _ _ => true
  | .pfwNFall => true
  | .pfwNRise => true
  | .pfwReleaseHoldExpiry => true
  | .sensorReading i _ => sensorOk i
  | .tierExit => true
  | .thermtrip => true
  | .peakClr i => sensorOk i
  | .mgmtOtherFrame m => mgmtOk m
  | .hello _ req _ _ _ => wordOk req
  | .auth h _ => hdrOk h
  | .keepalive h => hdrOk h
  | .close h => hdrOk h
  | .keepaliveSend sid => sessionOk sid
  | .sessionKeepaliveTimeout sid => sessionOk sid
  | .regRead h addr count => hdrOk h && addressOk addr && decide (count ≤ 255)
  | .regWrite h addr words => hdrOk h && addressOk addr && decide (words.length ≤ 255)
  | .regTxnTimeout h _ addr => hdrOk h && addressOk addr
  | .batchBegin h batch _ _ => hdrOk h && wordOk batch
  | .batchData h batch segment _ => hdrOk h && wordOk batch && halfOk segment
  | .batchEnd h batch segments => hdrOk h && wordOk batch && halfOk segments
  | .batchApply => true
  | .batchSegmentTimeout sid _ => sessionOk sid
  | .eventAck h seq => hdrOk h && wordOk seq
  | .eventResume h seq => hdrOk h && wordOk seq
  | .eventResend sid => sessionOk sid
  | .eventWindowClose code _ => halfOk code
  | .learnAck h => hdrOk h
  | .learnLogDrain _ => true
  | .shadowReloadDone t => tableOk t
  | .imageStage h _ _ _ => hdrOk h
  | .sliceReload h k => hdrOk h && sliceOk k
  | .flashWrite h addr _ => hdrOk h && addressOk addr
  | .restart h => hdrOk h
  | .reset h => hdrOk h
  | .resetDelayExpiry => true
  | .attest h _ => hdrOk h
  | .bootStatus h => hdrOk h
  | .fuseOwnerKey h _ _ _ => hdrOk h
  | .fuseRevokeOwner h _ _ => hdrOk h
  | .fuseRevokeProvisioning h _ _ => hdrOk h
  | .fuseJtagLevel h _ _ => hdrOk h
  | .secfloorRaise h => hdrOk h
  | .bistStart h segment _ => hdrOk h && segmentOk segment
  | .counterRead h _ => hdrOk h
  | .counterReadClear h _ => hdrOk h
  | .counterListNames h _ => hdrOk h
  | .kick => true
  | .watchdogExpiry => true
  | .boardHeartbeatWrite => true
  | .heartbeatTimeout => true
  | .twiTransfer _ pointer _ _ => halfOk pointer
  | .bypass => true
  | .idcode => true
  | .samplePreload => true
  | .extest => true
  | .clamp => true
  | .highz => true
  | .mgmt _ addr _ => addressOk addr
  | .snapshotInstant => true
  | .dumpWalkDone _ => true
  | .accumulatorFlushApply => true
  | .cntFilterWrite f word _ => filterOk f && decide (word < 3)
  | .telemetrySend i => collectorOk i
  | .bistSegmentStart => true
  | .bistSegmentDone seg _ _ => segmentOk seg
  | .bistRestoreDone seg _ => segmentOk seg
  | .bistDrainWaitExpiry => true
  | .pllOutputDeparts => true
  | .alarmSourceStopsFiring _ => true
  | .trainingPauseEnds x => ctlOk x
  | .ppsOutFall => true
  | .stagedImageChecksDone _ _ _ _ _ _ _ => true

end Sys2Proof
end

