-- ==== Sys2Proof/Tests/Slice0.lean ====
section
/-! SUPPORT. The author's tests: for each check of WellFormed a command that it refuses; and for each statement with hypotheses, states and operands that meet
those of each of its clauses. -/

section

set_option maxRecDepth 100000
set_option Elab.async false

open Sys2Proof Sys2Proof.Machine

namespace Sys2Proof.Tests

/-- The issue of an instruction by engine `e`, and a request of session `n`. -/
def W.issue (e : Nat) : Issue := { e := e, ecc := .good }
def W.request (n : Nat) : FcpHdr := { session := n, request := 4294967295, seq := 18446744073709551615, tagOk := true }

/-! ### WellFormed: for each check a command at the last value of its range, and one just beyond it -/

theorem test_wf_lane : Instr.wf (.lineLaneSignalLoss 95) = true ∧ Instr.wf (.lineLaneSignalLoss 96) = false := by decide
theorem test_wf_port : Instr.wf (.linkDownHoldExpiry 95) = true ∧ Instr.wf (.linkDownHoldExpiry 96) = false := by decide
theorem test_wf_flexe : Instr.wf (.flexeOverheadBlock 11 0 true true 0 0 0 0) = true ∧ Instr.wf (.flexeOverheadBlock 12 0 true true 0 0 0 0) = false := by decide
theorem test_wf_class : Instr.wf (.flexeOverheadBlock 0 7 true true 0 0 0 0) = true ∧ Instr.wf (.flexeOverheadBlock 0 8 true true 0 0 0 0) = false := by decide
theorem test_wf_channel : Instr.wf (.install 0 63 0) = true ∧ Instr.wf (.install 0 64 0) = false := by decide
theorem test_wf_an : Instr.wf (.install 0 0 3) = true ∧ Instr.wf (.install 0 0 4) = false := by decide
theorem test_wf_slice : Instr.wf (.bridgeBeatError 11 true true) = true ∧ Instr.wf (.bridgeBeatError 12 true true) = false := by decide
theorem test_wf_hashBank : Instr.wf (.emhashBankRead 63 0) = true ∧ Instr.wf (.emhashBankRead 64 0) = false := by decide
theorem test_wf_meter : Instr.wf (.meterRefresh 1048575) = true ∧ Instr.wf (.meterRefresh 1048576) = false := by decide
theorem test_wf_array : Instr.wf (.assocMoveStart 127 0 0 0 0) = true ∧ Instr.wf (.assocMoveStart 128 0 0 0 0) = false := by decide
theorem test_wf_row : Instr.wf (.assocMoveStart 0 32767 0 0 0) = true ∧ Instr.wf (.assocMoveStart 0 32768 0 0 0) = false := by decide
theorem test_wf_arbiter : Instr.wf (.learnArbiterServe 15) = true ∧ Instr.wf (.learnArbiterServe 16) = false := by decide
theorem test_wf_flow : Instr.wf (.pouncerIdlePass 15 0 0) = true ∧ Instr.wf (.pouncerIdlePass 16 0 0) = false := by decide
theorem test_wf_way : Instr.wf (.pouncerIdlePass 0 0 7) = true ∧ Instr.wf (.pouncerIdlePass 0 0 8) = false := by decide
theorem test_wf_address : Instr.wf (.compareWalkRead 281474976710655) = true ∧ Instr.wf (.compareWalkRead 281474976710656) = false := by decide
theorem test_wf_encap : Instr.wf (.encapHoldExpiry 524287) = true ∧ Instr.wf (.encapHoldExpiry 524288) = false := by decide
theorem test_wf_engine : Instr.wf (.programStart 255) = true ∧ Instr.wf (.programStart 256) = false := by decide
theorem test_wf_reg : Instr.wf (.add (W.issue 0) 15 0 0) = true ∧ Instr.wf (.add (W.issue 0) 16 0 0) = false := by decide
theorem test_wf_target : Instr.wf (.beq (W.issue 0) 0 0 4095) = true ∧ Instr.wf (.beq (W.issue 0) 0 0 4096) = false := by decide
theorem test_wf_set : Instr.wf (.pfind (W.issue 0) 0 0 0 1023) = true ∧ Instr.wf (.pfind (W.issue 0) 0 0 0 1024) = false := by decide
theorem test_wf_cluster : Instr.wf (.engineDrainWrite 7 true) = true ∧ Instr.wf (.engineDrainWrite 8 true) = false := by decide
theorem test_wf_node : Instr.wf (.packetDepart 511) = true ∧ Instr.wf (.packetDepart 512) = false := by decide
theorem test_wf_requester : Instr.wf (.quotaWrite 23 0 0) = true ∧ Instr.wf (.quotaWrite 24 0 0) = false := by decide
theorem test_wf_device : Instr.wf (.voqCloseOnNotice 4095 0) = true ∧ Instr.wf (.voqCloseOnNotice 4096 0) = false := by decide
theorem test_wf_ctl : Instr.wf (.openRowTimeout 511 0) = true ∧ Instr.wf (.openRowTimeout 512 0) = false := by decide
theorem test_wf_bank : Instr.wf (.openRowTimeout 0 15) = true ∧ Instr.wf (.openRowTimeout 0 16) = false := by decide
theorem test_wf_stack : Instr.wf (.trainPassStart 7 0) = true ∧ Instr.wf (.trainPassStart 8 0) = false := by decide
theorem test_wf_kind : Instr.wf (.shaperRefresh 2 0) = true ∧ Instr.wf (.shaperRefresh 3 0) = false := by decide
theorem test_wf_profile : Instr.wf (.shaperProfileWrite 4095 0 0) = true ∧ Instr.wf (.shaperProfileWrite 4096 0 0) = false := by decide
theorem test_wf_ctx : Instr.wf (.replWalk 262143) = true ∧ Instr.wf (.replWalk 262144) = false := by decide
theorem test_wf_queue : Instr.wf (.stuckQueueVisit 524287) = true ∧ Instr.wf (.stuckQueueVisit 524288) = false := by decide
theorem test_wf_fabLane : Instr.wf (.fabricLaneSignalLoss 119) = true ∧ Instr.wf (.fabricLaneSignalLoss 120) = false := by decide
theorem test_wf_byte : Instr.wf (.noticeAckRx 0 0 255) = true ∧ Instr.wf (.noticeAckRx 0 0 256) = false := by decide
theorem test_wf_sensor : Instr.wf (.sensorReading 23 0) = true ∧ Instr.wf (.sensorReading 24 0) = false := by decide
theorem test_wf_mgmt : Instr.wf (.mgmtOtherFrame 1) = true ∧ Instr.wf (.mgmtOtherFrame 2) = false := by decide
theorem test_wf_word : Instr.wf (.hello 0 4294967295 0 0 0) = true ∧ Instr.wf (.hello 0 4294967296 0 0 0) = false := by decide
theorem test_wf_session : Instr.wf (.keepaliveSend 8) = true ∧ Instr.wf (.keepaliveSend 9) = false := by decide
theorem test_wf_half : Instr.wf (.eventWindowClose 65535 0) = true ∧ Instr.wf (.eventWindowClose 65536 0) = false := by decide
theorem test_wf_table : Instr.wf (.shadowReloadDone 255) = true ∧ Instr.wf (.shadowReloadDone 256) = false := by decide
theorem test_wf_collector : Instr.wf (.telemetrySend 3) = true ∧ Instr.wf (.telemetrySend 4) = false := by decide
theorem test_wf_size : Instr.wf (.ld (W.issue 255) 15 15 3 0) = true ∧ Instr.wf (.ld (W.issue 0) 0 0 4 0) = false := by decide
theorem test_wf_action : Instr.wf (.verdict (W.issue 0) 3 true 3 0) = true ∧ Instr.wf (.verdict (W.issue 0) 4 true 0 0) = false := by decide
theorem test_wf_segment : Instr.wf (.bistSegmentDone 179 [] 0) = true ∧ Instr.wf (.bistSegmentDone 180 [] 0) = false := by decide
theorem test_wf_filter : Instr.wf (.cntFilterWrite 63 2 0) = true ∧ Instr.wf (.cntFilterWrite 64 0 0) = false := by decide
theorem test_wf_filterWord : Instr.wf (.cntFilterWrite 0 3 0) = false := by decide
theorem test_wf_sampler : Instr.wf (.samplerCfgWrite 1023 0) = true ∧ Instr.wf (.samplerCfgWrite 0 0) = false ∧ Instr.wf (.samplerCfgWrite 1024 0) = false := by decide
theorem test_wf_count : Instr.wf (.regRead (W.request 8) 0 255) = true ∧ Instr.wf (.regRead (W.request 8) 0 256) = false := by decide
theorem test_wf_words : Instr.wf (.regWrite (W.request 1) 0 (List.replicate 255 { value := 0, mask := 0 })) = true ∧ Instr.wf (.regWrite (W.request 1) 0 (List.replicate 256 { value := 0, mask := 0 })) = false := by decide
theorem test_wf_frame : Instr.wf (.rxFrame 0 (List.replicate 15 0) { cutByLinkDown := false, cdcOverrun := false, fecBad := false }) = false := by decide
theorem test_wf_header : Instr.wf (.keepalive (W.request 8)) = true ∧ Instr.wf (.keepalive (W.request 0)) = false ∧ Instr.wf (.keepalive (W.request 9)) = false
    ∧ Instr.wf (.keepalive { W.request 1 with request := 4294967296 }) = false ∧ Instr.wf (.keepalive { W.request 1 with seq := 18446744073709551616 }) = false := by decide

end Sys2Proof.Tests

namespace Sys2Proof.Tests

/-- Out of reset with its clocks on, the firmware running and READY asserted. -/
def W.run : State :=
  { State.reset with boot := { State.reset.boot with stage := .running, fwRunning := true }, pins := { State.reset.pins with ready := true, linkIdle := false, faultReset := false } }

/-- Start-up at a stage. -/
def W.at (g : Stage) : State := { State.reset with boot := { State.reset.boot with stage := g }, pins := { State.reset.pins with faultReset := false } }

/-- A state with a field set; the entry goes in front, without the canonical form, so that it is worked out only where it is read. -/
def W.f (s : State) (a : Nat) (f : Field) (v : Nat) : State := { s with regs := (a, putField f v (s.reg a)) :: s.regs }

/-- A state with a register word set in the same way. -/
def W.w (s : State) (a : Nat) (v : Word) : State := { s with regs := (a, v) :: s.regs }

/-- A state with its registers in the canonical form. -/
def W.canon (s : State) : State := { s with regs := s.regs.reverse.foldl (fun m e => mput resetOf m e.1 e.2) [] }

end Sys2Proof.Tests

namespace Sys2Proof.Tests.Q01

/-- An image header of one section: MAGIC, VERSION, the device, lengths, KEY_SLOT 0 and the reference temperatures of a legal header. -/
def W.header : Bytes :=
  natBe 4 0x534B5A46 ++ [2, 0] ++ natBe 2 544 ++ natBe 4 640 ++ natBe 2 0xF096 ++ natBe 2 0x00C1 ++ natBe 4 0 ++ natBe 4 0 ++ natBe 2 64 ++ natBe 2 1 ++ [0, 60, 0, 0] ++ List.replicate 480 0
/-- Its section table: 64 bytes of firmware at 576. -/
def W.table : Bytes := natBe 2 1 ++ natBe 2 0 ++ natBe 4 576 ++ natBe 4 64 ++ List.replicate 20 0
def W.body : Bytes := List.replicate 96 7
def W.fuses : Fuses := { Fuses.blank with ownerHash := [(0, 5)] }
/-- Start-up at a stage with that header in slot A, owner key 0 programmed. -/
def W.slot (g : Stage) : State := { W.at g with fuses := W.fuses, boot := { (W.at g).boot with flashMiB := 64, hdr := W.header, tbl := W.table } }
def W.applied : State := match (W.slot .body).imageApply W.header W.table W.body with | .ok t => t | .error _ => State.reset



/-- States and operands that meet the hypotheses of each clause of ColdResetLosesAllButFusesAndFlash. -/
theorem test_ColdResetLosesAllButFusesAndFlash :
    (∃ (ns : Nat) (rail : Bool), (100 ≤ ns ∨ rail = true)) ∧
    (∃ (ns : Nat), 100 ≤ ns) ∧
    (∃ (ns : Nat), ns < 100) :=
  ⟨⟨100, false, by decide +kernel⟩,
    ⟨100, by decide +kernel⟩,
    ⟨99, by decide +kernel⟩⟩

/-- States and operands that meet the hypotheses of each clause of StartUpPassesEachCheck. -/
theorem test_StartUpPassesEachCheck :
    (∃ (s : State), s.boot.stage = .coldReset ∧ s.pins.clocksStopped = false) ∧
    (∃ (s : State), s.clocked = true ∧ s.boot.stage = .released ∧ s.boot.stopped = false) ∧
    (∃ (ok : Bool) (mib : Nat) (hdr : Bytes) (s : State), s.clocked = true ∧ s.boot.stage = .header ∧ s.boot.stopped = false ∧ hdrCheck ok s.boot.slot mib hdr = 0) ∧
    (∃ (k : BitVec 384) (s : State), s.clocked = true ∧ s.boot.stage = .sectionTable ∧ s.boot.stopped = false ∧ s.keyOkay (keySlot s.boot.hdr) k = true) ∧
    (∃ (s : State), s.clocked = true ∧ s.boot.stage = .signature ∧ s.boot.stopped = false ∧ s.fuses.secFloor ≤ secVersionOf s.boot.hdr) :=
  ⟨⟨State.reset, by decide +kernel, by decide +kernel⟩,
    ⟨W.at .released, by decide +kernel, by decide +kernel, by decide +kernel⟩,
    ⟨true, 64, W.header, W.at .header, by decide +kernel, by decide +kernel, by decide +kernel, by decide +kernel⟩,
    ⟨5, W.slot .sectionTable, by decide +kernel, by decide +kernel, by decide +kernel, by decide +kernel⟩,
    ⟨W.slot .signature, by decide +kernel, by decide +kernel, by decide +kernel, by decide +kernel⟩⟩

/-- States and operands that meet the hypotheses of each clause of RefusedSlotFallsBack. -/
theorem test_RefusedSlotFallsBack :
    (∃ (ok : Bool) (mib : Nat) (hdr : Bytes) (s : State), s.clocked = true ∧ s.boot.stage = .header ∧ s.boot.stopped = false ∧ hdrCheck ok s.boot.slot mib hdr ≠ 0) ∧
    (∃ (k : BitVec 384) (s : State), s.clocked = true ∧ s.boot.stage = .sectionTable ∧ s.boot.stopped = false ∧ s.keyOkay (keySlot s.boot.hdr) k = false) ∧
    (∃ (ok : Bool) (s : State), s.clocked = true ∧ s.boot.stage = .signature ∧ s.boot.stopped = false ∧ (ok = false ∨ secVersionOf s.boot.hdr < s.fuses.secFloor)) ∧
    (∃ (s : State), s.clocked = true ∧ s.boot.stage = .body ∧ s.boot.stopped = false) ∧
    (∃ (body : Bytes) (r : Nat) (s : State), s.clocked = true ∧ s.boot.stage = .body ∧ s.boot.stopped = false ∧ s.imageApply s.boot.hdr s.boot.tbl body = .error r) ∧
    (∃ (s : State), s.clocked = true ∧ (s.boot.stage = .header ∨ s.boot.stage = .sectionTable ∨ s.boot.stage = .body) ∧ s.boot.stopped = false) ∧
    (∃ (s : State), s.clocked = true ∧ s.boot.stage = .fwStart ∧ s.boot.stopped = false) :=
  ⟨⟨false, 64, [], W.at .header, by decide +kernel, by decide +kernel, by decide +kernel, by decide +kernel⟩,
    ⟨6, W.slot .sectionTable, by decide +kernel, by decide +kernel, by decide +kernel, by decide +kernel⟩,
    ⟨false, W.slot .signature, by decide +kernel, by decide +kernel, by decide +kernel, by decide +kernel⟩,
    ⟨W.slot .body, by decide +kernel, by decide +kernel, by decide +kernel⟩,
    ⟨[], 0x0A, { W.slot .body with boot := { (W.slot .body).boot with tbl := [] } }, by decide +kernel, by decide +kernel, by decide +kernel, rfl⟩,
    ⟨W.slot .body, by decide +kernel, by decide +kernel, by decide +kernel⟩,
    ⟨W.slot .fwStart, by decide +kernel, by decide +kernel, by decide +kernel⟩⟩

/-- States and operands that meet the hypotheses of each clause of StartUpReachesReady. -/
theorem test_StartUpReachesReady :
    (∃ (body : Bytes) (u : State) (s : State), s.clocked = true ∧ s.boot.stage = .body ∧ s.boot.stopped = false ∧ s.imageApply s.boot.hdr s.boot.tbl body = .ok u) ∧
    (∃ (s : State), s.clocked = true ∧ s.boot.stage = .fwStart ∧ s.boot.stopped = false ∧ s.boot.warm = false) ∧
    (∃ (s : State), s.clocked = true ∧ s.boot.stage = .training ∧ s.boot.stopped = false) ∧
    (∃ (s : State), s.clocked = true ∧ s.boot.stage = .fabric ∧ s.boot.stopped = false) ∧
    (∃ (s : State), s.clocked = true ∧ s.boot.stage = .statics ∧ s.boot.stopped = false ∧ s.boot.fwRunning = true) :=
  ⟨⟨W.body, W.applied, W.slot .body, by decide +kernel, by decide +kernel, by decide +kernel, rfl⟩,
    ⟨W.slot .fwStart, by decide +kernel, by decide +kernel, by decide +kernel, by decide +kernel⟩,
    ⟨W.at .training, by decide +kernel, by decide +kernel, by decide +kernel⟩,
    ⟨W.at .fabric, by decide +kernel, by decide +kernel, by decide +kernel⟩,
    ⟨{ W.at .statics with boot := { (W.at .statics).boot with fwRunning := true } }, by decide +kernel, by decide +kernel, by decide +kernel, by decide +kernel⟩⟩

end Sys2Proof.Tests.Q01

namespace Sys2Proof.Tests.Q02

/-- Session 1 of peer 0, an operator of version 3. -/
def W.session : Session := Session.mk 1 0 3 0 0 true 1 0 0 [] 0 0 false 0 0

/-- The device running with that session open, and its first request. -/
def W.fcp : State := { W.run with fcp := { W.run.fcp with sessions := [W.session] } }
def W.hdr : FcpHdr := { session := 1, request := 9, seq := 1, tagOk := true }



/-- States and operands that meet the hypotheses of each clause of WarmRestartKeepsTheDevice. -/
theorem test_WarmRestartKeepsTheDevice :
    (∃ (s : State), s.clocked = true ∧ s.boot.fwRunning = true ∧ s.boot.warmStopped = false) ∧
    (∃ (h : FcpHdr) (x : Session) (s : State), s.clocked = true ∧ Granted s h x 0x34 privWrite ∧ s.boot.fwRunning = true ∧ s.boot.warmStopped = false) ∧
    (∃ (s : State), s.clocked = true ∧ s.boot.warm = true ∧ s.boot.warmFails + 1 < s.fld Reg.bootPolicy Fld.bootPolicy_warmLimit) ∧
    (∃ (s : State), s.clocked = true ∧ s.boot.warm = true ∧ s.fld Reg.bootPolicy Fld.bootPolicy_warmLimit ≤ s.boot.warmFails + 1) ∧
    (∃ (s : State), s.clocked = true ∧ s.boot.fwRunning = true ∧ s.boot.warmStopped = false ∧ s.boot.wdogAt + 1000000 * s.fld Reg.wdogCtrl Fld.wdogCtrl_period ≤ s.time.stepFree ∧ s.fld Reg.bootStatus Fld.bootStatus_warmCount = 0) :=
  ⟨⟨W.fcp, by decide +kernel, by decide +kernel, by decide +kernel⟩,
    ⟨W.hdr, W.session, W.fcp, by decide +kernel, ⟨⟨by decide +kernel, by decide +kernel, by decide +kernel, by decide +kernel, by decide +kernel⟩, by decide +kernel⟩, by decide +kernel, by decide +kernel⟩,
    ⟨{ W.run with boot := { W.run.boot with warm := true } }, by decide +kernel, by decide +kernel, by decide +kernel⟩,
    ⟨{ W.run with boot := { W.run.boot with warm := true, warmFails := 20 } }, by decide +kernel, by decide +kernel, by decide +kernel⟩,
    ⟨{ W.fcp with time := { W.fcp.time with stepFree := 100000000000 } }, by decide +kernel, by decide +kernel, by decide +kernel, by decide +kernel, by decide +kernel⟩⟩

end Sys2Proof.Tests.Q02

namespace Sys2Proof.Tests.Q03

/-- Line port `p` up, of one lane with signal and locks, frames of up to 1518 bytes. -/
def W.line (p : Nat) : State :=
  let s := (W.run.setFld (Reg.linePortCfg p) Fld.linePortCfg_mode 1).setFld (Reg.linePortCfg p) Fld.linePortCfg_maxFrame 1518
  let s := ((s.setFld (Reg.linePortCtrl p) Fld.linePortCtrl_adminUp 1).setFld (Reg.linePortStatus p) Fld.linePortStatus_up 1).setFld (Reg.linePortStatus p) Fld.linePortStatus_blockLock 1
  ((s.setFld (Reg.linePortStatus p) Fld.linePortStatus_amLock 1).setFld (Reg.linePortStatus p) Fld.linePortStatus_signal 1).setLane p 1

/-- Good marks, and 60 zero bytes with a given end. -/
def W.good : RxMarks := { cutByLinkDown := false, cdcOverrun := false, fecBad := false }
def W.bytes (e : Bytes) : Bytes := List.replicate 60 0 ++ e
def W.mac : Bytes := List.replicate 12 0 ++ [0x88, 0x08] ++ List.replicate 46 0

/-- A frame at a transmitter. -/
def W.tx (two : Bool) : TxPkt := { bytes := W.bytes (fcsOf (W.bytes [])), tc := 3, epoch := 0, counted := false, node := 3, win := 64, twoStep := two, tag := 7, stomp := false, stream := 0 }

/-- FlexE group `k` of one PHY at lane 0. -/
def W.flexe (k : Nat) : State := W.run.setFld (Reg.lineFlexeCfg k) Fld.lineFlexeCfg_phyMap 1



/-- States and operands that meet the hypotheses of each clause of ReceivedFramesAreCheckedInOrder. -/
theorem test_ReceivedFramesAreCheckedInOrder :
    (∃ (p : Nat) (s : State), s.clocked = true ∧ s.portUp p = false) ∧
    (∃ (p : Nat) (f : Bytes) (s : State), s.clocked = true ∧ s.portUp p = true ∧ f.length < 64) ∧
    (∃ (p : Nat) (f : Bytes) (m : RxMarks) (s : State), s.clocked = true ∧ s.portUp p = true ∧ 64 ≤ f.length ∧ s.flag (Reg.macsecSecyCfg p) Fld.macsecSecyCfg_enable = false ∧ m.cutByLinkDown = true) ∧
    (∃ (p : Nat) (f : Bytes) (m : RxMarks) (s : State), s.clocked = true ∧ s.portUp p = true ∧ 64 ≤ f.length ∧ s.flag (Reg.macsecSecyCfg p) Fld.macsecSecyCfg_enable = false ∧ m.cutByLinkDown = false ∧ m.cdcOverrun = true) ∧
    (∃ (p : Nat) (f : Bytes) (m : RxMarks) (s : State), s.clocked = true ∧ s.portUp p = true ∧ 64 ≤ f.length ∧ s.flag (Reg.macsecSecyCfg p) Fld.macsecSecyCfg_enable = false ∧ m.cutByLinkDown = false ∧ m.cdcOverrun = false ∧ m.fecBad = true) ∧
    (∃ (p : Nat) (f : Bytes) (m : RxMarks) (s : State), s.clocked = true ∧ s.portUp p = true ∧ 64 ≤ f.length ∧ s.flag (Reg.macsecSecyCfg p) Fld.macsecSecyCfg_enable = false ∧ m.cutByLinkDown = false ∧ m.cdcOverrun = false ∧ m.fecBad = false ∧ s.fld (Reg.linePortCfg p) Fld.linePortCfg_maxFrame < f.length) ∧
    (∃ (p : Nat) (f : Bytes) (m : RxMarks) (s : State), s.clocked = true ∧ s.portUp p = true ∧ 64 ≤ f.length ∧ s.flag (Reg.macsecSecyCfg p) Fld.macsecSecyCfg_enable = false ∧ m.cutByLinkDown = false ∧ m.cdcOverrun = false ∧ m.fecBad = false ∧ f.length ≤ s.fld (Reg.linePortCfg p) Fld.linePortCfg_maxFrame ∧ f.drop (f.length - 4) = stompedFcs (f.take (f.length - 4))) ∧
    (∃ (p : Nat) (f : Bytes) (m : RxMarks) (s : State), s.clocked = true ∧ s.portUp p = true ∧ 64 ≤ f.length ∧ s.flag (Reg.macsecSecyCfg p) Fld.macsecSecyCfg_enable = false ∧ m.cutByLinkDown = false ∧ m.cdcOverrun = false ∧ m.fecBad = false ∧ f.length ≤ s.fld (Reg.linePortCfg p) Fld.linePortCfg_maxFrame ∧ f.drop (f.length - 4) ≠ stompedFcs (f.take (f.length - 4)) ∧ f.drop (f.length - 4) ≠ fcsOf (f.take (f.length - 4))) ∧
    (∃ (p : Nat) (f : Bytes) (m : RxMarks) (s : State), s.clocked = true ∧ s.portUp p = true ∧ 64 ≤ f.length ∧ s.flag (Reg.macsecSecyCfg p) Fld.macsecSecyCfg_enable = false ∧ m.cutByLinkDown = false ∧ m.cdcOverrun = false ∧ m.fecBad = false ∧ f.length ≤ s.fld (Reg.linePortCfg p) Fld.linePortCfg_maxFrame ∧ f.drop (f.length - 4) ≠ stompedFcs (f.take (f.length - 4)) ∧ f.drop (f.length - 4) = fcsOf (f.take (f.length - 4)) ∧ beAt f 12 2 = 0x8808) ∧
    (∃ (p : Nat) (f : Bytes) (m : RxMarks) (s : State), s.clocked = true ∧ s.portUp p = true ∧ 64 ≤ f.length ∧ s.flag (Reg.macsecSecyCfg p) Fld.macsecSecyCfg_enable = false ∧ m.cutByLinkDown = false ∧ m.cdcOverrun = false ∧ m.fecBad = false ∧ f.length ≤ s.fld (Reg.linePortCfg p) Fld.linePortCfg_maxFrame ∧ f.drop (f.length - 4) ≠ stompedFcs (f.take (f.length - 4)) ∧ f.drop (f.length - 4) = fcsOf (f.take (f.length - 4)) ∧ beAt f 12 2 ≠ 0x8808 ∧ s.isControl f = false) :=
  ⟨⟨95, W.run, by decide +kernel, by decide +kernel⟩,
    ⟨95, List.replicate 63 0, W.line 95, by decide +kernel, by decide +kernel, by decide +kernel⟩,
    ⟨95, W.bytes [1,2,3,4], { W.good with cutByLinkDown := true }, W.line 95, by decide +kernel, by decide +kernel, by decide +kernel, by decide +kernel, by decide +kernel⟩,
    ⟨0, W.bytes [1,2,3,4], { W.good with cdcOverrun := true }, W.line 0, by decide +kernel, by decide +kernel, by decide +kernel, by decide +kernel, by decide +kernel, by decide +kernel⟩,
    ⟨0, W.bytes [1,2,3,4], { W.good with fecBad := true }, W.line 0, by decide +kernel, by decide +kernel, by decide +kernel, by decide +kernel, by decide +kernel, by decide +kernel, by decide +kernel⟩,
    ⟨0, W.bytes [1,2,3,4], W.good, (W.line 0).setFld (Reg.linePortCfg 0) Fld.linePortCfg_maxFrame 63, by decide +kernel, by decide +kernel, by decide +kernel, by decide +kernel, by decide +kernel, by decide +kernel, by decide +kernel, by decide +kernel⟩,
    ⟨0, W.bytes (stompedFcs (W.bytes [])), W.good, (W.line 0).setFld (Reg.linePortCfg 0) Fld.linePortCfg_maxFrame 64, by decide +kernel, by decide +kernel, by decide +kernel, by decide +kernel, by decide +kernel, by decide +kernel, by decide +kernel, by decide +kernel, by decide +kernel⟩,
    ⟨0, W.bytes [1,2,3,4], W.good, W.line 0, by decide +kernel, by decide +kernel, by decide +kernel, by decide +kernel, by decide +kernel, by decide +kernel, by decide +kernel, by decide +kernel, by decide +kernel, by decide +kernel⟩,
    ⟨0, W.mac ++ fcsOf W.mac, W.good, W.line 0, by decide +kernel, by decide +kernel, by decide +kernel, by decide +kernel, by decide +kernel, by decide +kernel, by decide +kernel, by decide +kernel, by decide +kernel, by decide +kernel, by decide +kernel⟩,
    ⟨0, W.bytes (fcsOf (W.bytes [])), W.good, W.line 0, by decide +kernel, by decide +kernel, by decide +kernel, by decide +kernel, by decide +kernel, by decide +kernel, by decide +kernel, by decide +kernel, by decide +kernel, by decide +kernel, by decide +kernel, by decide +kernel⟩⟩

/-- States and operands that meet the hypotheses of each clause of LaneChangesReachThePort. -/
theorem test_LaneChangesReachThePort :
    (∃ (l : Nat) (s : State), s.clocked = true ∧ l < 96) ∧
    (∃ (l : Nat) (s : State), s.clocked = true ∧ l < 96 ∧ s.lane l = 0 ∧ s.canSpend 3 retrainCost = true) ∧
    (∃ (l : Nat) (s : State), s.clocked = true ∧ l < 96 ∧ s.lane l = 0 ∧ s.canSpend 3 retrainCost = false) ∧
    (∃ (l : Nat) (s : State), s.clocked = true ∧ l < 96 ∧ s.lane l = 3) :=
  ⟨⟨95, W.line 95, by decide +kernel, by decide +kernel⟩,
    ⟨95, { (W.line 95).setLane 95 0 with gov := { W.run.gov with purse3 := 4000000 } }, by decide +kernel, by decide +kernel, by decide +kernel, by decide +kernel⟩,
    ⟨0, (W.line 0).setLane 0 0, by decide +kernel, by decide +kernel, by decide +kernel, by decide +kernel⟩,
    ⟨95, (W.line 95).setLane 95 3, by decide +kernel, by decide +kernel, by decide +kernel⟩⟩

/-- States and operands that meet the hypotheses of each clause of PortsGoDownAndComeUp. -/
theorem test_PortsGoDownAndComeUp :
    (∃ (p : Nat) (s : State), s.clocked = true ∧ p < 96 ∧ s.portUp p = true ∧ (s.port p).downHold = true ∧ s.portCause p ≠ 0) ∧
    (∃ (p : Nat) (s : State), s.clocked = true ∧ p < 96 ∧ s.portUp p = false ∧ (s.port p).upHold = true ∧ s.portCause p = 0) ∧
    (∃ (p : Nat) (s : State), s.clocked = true ∧ p < 96 ∧ s.portUp p = true ∧ s.flexePort p = false ∧ s.portFaults p = [] ∧ s.fld (Reg.linePortCfg p) Fld.linePortCfg_linkDownHold ≠ 0) ∧
    (∃ (p : Nat) (s : State), s.clocked = true ∧ p < 96 ∧ s.portUp p = true ∧ s.flexePort p = false ∧ s.portFaults p = [] ∧ s.fld (Reg.linePortCfg p) Fld.linePortCfg_linkDownHold = 0) ∧
    (∃ (p : Nat) (s : State), s.clocked = true ∧ p < 96 ∧ s.portMode p ≠ 0 ∧ s.portUp p = true ∧ s.flexePort p = false) :=
  ⟨⟨95, ((W.line 95).setLane 95 0).setPort 95 { LinePort.idle with downHold := true }, by decide +kernel, by decide +kernel, by decide +kernel, by decide +kernel, by decide +kernel⟩,
    ⟨95, ((W.line 95).setFld (Reg.linePortStatus 95) Fld.linePortStatus_up 0).setPort 95 { LinePort.idle with upHold := true }, by decide +kernel, by decide +kernel, by decide +kernel, by decide +kernel, by decide +kernel⟩,
    ⟨95, (W.line 95).setFld (Reg.linePortCfg 95) Fld.linePortCfg_linkDownHold 10, by decide +kernel, by decide +kernel, by decide +kernel, by decide +kernel, by decide +kernel, by decide +kernel⟩,
    ⟨0, W.line 0, by decide +kernel, by decide +kernel, by decide +kernel, by decide +kernel, by decide +kernel, by decide +kernel⟩,
    ⟨95, W.line 95, by decide +kernel, by decide +kernel, by decide +kernel, by decide +kernel, by decide +kernel⟩⟩

/-- States and operands that meet the hypotheses of each clause of FecDegradeSetsAndClears. -/
theorem test_FecDegradeSetsAndClears :
    (∃ (p : Nat) (v : Nat) (s : State), s.clocked = true ∧ p < 96 ∧ s.portMode p ≠ 0 ∧ v ≤ 16777215 ∧ (v ≠ 0 ∨ s.flag (Reg.linePortStatus p) Fld.linePortStatus_fecDegrade = false)) ∧
    (∃ (p : Nat) (s : State), s.clocked = true ∧ p < 96 ∧ s.portMode p ≠ 0 ∧ s.ringing = true ∧ s.flag (Reg.linePortStatus p) Fld.linePortStatus_fecDegrade = true) ∧
    (∃ (p : Nat) (s : State), s.clocked = true ∧ p < 96) ∧
    (∃ (p : Nat) (c : Nat) (s : State), s.clocked = true ∧ p < 96 ∧ s.ringing = true ∧ s.flag (Reg.linePortStatus p) Fld.linePortStatus_fecDegrade = false ∧ (s.port p).degWin ≠ 0 ∧ (s.port p).degWin < c) ∧
    (∃ (p : Nat) (c : Nat) (s : State), s.clocked = true ∧ p < 96 ∧ s.ringing = true ∧ s.flag (Reg.linePortStatus p) Fld.linePortStatus_fecDegrade = true ∧ c ≤ (s.port p).degWin / 2 ∧ (s.port p).goodWins = 9) :=
  ⟨⟨95, 16777215, W.line 95, by decide +kernel, by decide +kernel, by decide +kernel, by decide +kernel, by decide +kernel⟩,
    ⟨95, (W.line 95).setFld (Reg.linePortStatus 95) Fld.linePortStatus_fecDegrade 1, by decide +kernel, by decide +kernel, by decide +kernel, by decide +kernel, by decide +kernel⟩,
    ⟨95, W.line 95, by decide +kernel, by decide +kernel⟩,
    ⟨95, 2, (W.line 95).setPort 95 { LinePort.idle with degWin := 1 }, by decide +kernel, by decide +kernel, by decide +kernel, by decide +kernel, by decide +kernel, by decide +kernel⟩,
    ⟨95, 2, ((W.line 95).setFld (Reg.linePortStatus 95) Fld.linePortStatus_fecDegrade 1).setPort 95 { LinePort.idle with degWin := 4, goodWins := 9 }, by decide +kernel, by decide +kernel, by decide +kernel, by decide +kernel, by decide +kernel, by decide +kernel⟩⟩

/-- States and operands that meet the hypotheses of each clause of SentFramesLeaveThePort. -/
theorem test_SentFramesLeaveThePort :
    (∃ (p : Nat) (f : TxPkt) (rest : List TxPkt) (s : State), s.clocked = true ∧ p < 96 ∧ s.portUp p = true ∧ (s.port p).txQ = f :: rest ∧ f.stomp = false ∧ f.tc < 8 ∧ f.counted = false) :=
  ⟨95, W.tx false, [W.tx true], (W.line 95).setPort 95 { LinePort.idle with txQ := [W.tx false, W.tx true] }, by decide +kernel, by decide +kernel, by decide +kernel, by decide +kernel, by decide +kernel, by decide +kernel, by decide +kernel⟩

/-- States and operands that meet the hypotheses of each clause of FlexeLocksAndCalendars. -/
theorem test_FlexeLocksAndCalendars :
    (∃ (k : Nat) (j : Nat) (s : State), s.clocked = true ∧ k < 12 ∧ j < 8 ∧ bit (s.fld (Reg.lineFlexeCfg k) Fld.lineFlexeCfg_phyMap) j = true ∧ 1 ≤ (s.phy k j).ohGood) ∧
    (∃ (k : Nat) (cal : Nat) (s : State), s.clocked = true ∧ cal < 2 ∧ cal ≠ s.fld (Reg.lineFlexeStatus k) Fld.lineFlexeStatus_activeCal) ∧
    (∃ (k : Nat) (cal : Nat) (s : State), s.clocked = true ∧ (2 ≤ cal ∨ cal = s.fld (Reg.lineFlexeStatus k) Fld.lineFlexeStatus_activeCal)) ∧
    (∃ (s : State), s.clocked = true) ∧
    (∃ (k : Nat) (s : State), s.clocked = true ∧ k < 12 ∧ ((s.group k).reqSent = true ∨ (s.group k).acked = true)) ∧
    (∃ (s : State), s.clocked = true) :=
  ⟨⟨11, 0, { W.flexe 11 with line := { (W.flexe 11).line with phys := [(88, { FlexePhy.idle with ohGood := 1 })] } }, by decide +kernel, by decide +kernel, by decide +kernel, by decide +kernel, by decide +kernel⟩,
    ⟨11, 1, W.flexe 11, by decide +kernel, by decide +kernel, by decide +kernel⟩,
    ⟨11, 2, W.flexe 11, by decide +kernel, by decide +kernel⟩,
    ⟨W.flexe 11, by decide +kernel⟩,
    ⟨11, { W.flexe 11 with line := { (W.flexe 11).line with groups := [(11, { FlexeGroup.idle with acked := true })] } }, by decide +kernel, by decide +kernel, by decide +kernel⟩,
    ⟨W.flexe 11, by decide +kernel⟩⟩

end Sys2Proof.Tests.Q03

namespace Sys2Proof.Tests.Q04

/-- Session 1 of peer 0, an operator of version 3. -/
def W.session : Session := Session.mk 1 0 3 0 0 true 1 0 0 [] 0 0 false 0 0

/-- The device running with that session open, and its first request. -/
def W.fcp : State := { W.run with fcp := { W.run.fcp with sessions := [W.session] } }
def W.hdr : FcpHdr := { session := 1, request := 9, seq := 1, tagOk := true }

/-- A frame of 64 bytes after its addresses: with a SecTAG (AN 3, PN 5) of the implicit SCI, or of EtherType 0x0800. -/
def W.tagged (tci sl : Byte) : Bytes := List.replicate 12 0 ++ [0x88, 0xE5, tci, sl, 0, 0, 0, 5] ++ List.replicate 44 9
def W.plain : Bytes := List.replicate 12 0 ++ [8, 0] ++ List.replicate 50 9
/-- A received frame of port `p` with those bytes. -/
def W.rx (p : Nat) (b : Bytes) : RxPkt := { bytes := b, port := p, bad := false, ts := 0, tsValid := false, msec := 0, msecSc := 0 }
/-- Port 95 with a SecY: receive channel 63 valid for SCI 1, association 3 of it in state `st` with packet number 4, frames of 64 bytes held. -/
def W.secy (st : Nat) (x : RxPkt) : State :=
  let s := (W.f (W.f W.run (Reg.macsecSecyCfg 95) Fld.macsecSecyCfg_enable 1) (Reg.macsecSecyCfg 95) Fld.macsecSecyCfg_maxFrame 64).setPort 95 { LinePort.idle with macRx := [x, x] }
  let s := W.f (s.setReg (Reg.macsecScCfg 95 63) 1) (Reg.macsecScCtrl 95 63) Fld.macsecScCtrl_valid 1
  (s.setReg (Reg.macsecSaPn 95 63 3) 4).setSaState 95 63 3 st
def W.check (s : State) : State := W.f s (Reg.macsecSecyCfg 95) Fld.macsecSecyCfg_validate 1
def W.strip : Bytes := macStrip (W.tagged 3 0) (secTagOf (W.tagged 3 0)) []

/-- A frame at a transmitter, and port 95 with it waiting: a SecY that protects with association 2 in state `st`. -/
def W.out : TxPkt := { bytes := W.plain ++ fcsOf W.plain, tc := 3, epoch := 0, counted := false, node := 3, win := 64, twoStep := false, tag := 7, stomp := false, stream := 0 }
def W.send (st pn : Nat) : State :=
  let s := W.f (W.f (W.f W.run (Reg.macsecSecyCfg 95) Fld.macsecSecyCfg_enable 1) (Reg.macsecSecyCfg 95) Fld.macsecSecyCfg_maxFrame 100) (Reg.macsecSecyCfg 95) Fld.macsecSecyCfg_protect 1
  ((W.f (s.setPort 95 { LinePort.idle with macTx := [W.out] }) (Reg.macsecSecyCtrl 95) Fld.macsecSecyCtrl_txAn 2).setReg (Reg.macsecSaPn 95 0 2) (BitVec.ofNat 64 pn)).setSaState 95 0 2 st
def W.staged (st pn : Nat) : State := W.run.setSa 95 63 3 { MacsecSa.idle with keyStage := 7, saltStage := 8, pnStage := some pn } |>.setSaState 95 63 3 st
def W.key : State := W.run.setSa 95 63 3 { MacsecSa.idle with key := 7, salt := 9, present := true } |>.setFld (Reg.macsecSaCtrl 95 63 3) Fld.macsecSaCtrl_state 3



namespace MacsecReceiveFollowsTable42
abbrev held (s : State) (p : Nat) (x : RxPkt) (rest : List RxPkt) : Prop := s.clocked = true ∧ (s.port p).macRx = x :: rest
abbrev tagged (s : State) (p : Nat) (x : RxPkt) : Prop := x.bad = false ∧ beAt x.bytes 12 2 = 0x88E5 ∧ badTag x.bytes (secTagOf x.bytes) = false ∧ x.bytes.length ≤ s.fld (Reg.macsecSecyCfg p) Fld.macsecSecyCfg_maxFrame
abbrev fresh (s : State) (p c : Nat) (x : RxPkt) : Prop := s.scOf p (secTagOf x.bytes).sci = some c ∧ s.saMarked p c (secTagOf x.bytes).an = false ∧ (s.saState p c (secTagOf x.bytes).an = 1 ∨ s.saState p c (secTagOf x.bytes).an = 2) ∧ (s.flag (Reg.macsecSecyCtrl p) Fld.macsecSecyCtrl_replayProtect = false ∨ s.saPn p c (secTagOf x.bytes).an ≤ recoverPn (s.xpn p) (s.saPn p c (secTagOf x.bytes).an) (secTagOf x.bytes).pn)

/-- States and operands that meet the hypotheses of each clause of MacsecReceiveFollowsTable42. -/
theorem test_MacsecReceiveFollowsTable42 :
    (∃ (p : Nat) (s : State) (x : RxPkt) (rest : List RxPkt), held s p x rest ∧ x.bad = true) ∧
    (∃ (p : Nat) (s : State) (x : RxPkt) (rest : List RxPkt), held s p x rest ∧ x.bad = false ∧ beAt x.bytes 12 2 ≠ 0x88E5 ∧ s.macBypass p x.bytes = false ∧ s.flag (Reg.macsecSecyCfg p) Fld.macsecSecyCfg_validate = false) ∧
    (∃ (p : Nat) (s : State) (x : RxPkt) (rest : List RxPkt), held s p x rest ∧ x.bad = false ∧ beAt x.bytes 12 2 = 0x88E5 ∧ badTag x.bytes (secTagOf x.bytes) = true) ∧
    (∃ (p : Nat) (s : State) (x : RxPkt) (rest : List RxPkt), held s p x rest ∧ x.bad = false ∧ beAt x.bytes 12 2 = 0x88E5 ∧ badTag x.bytes (secTagOf x.bytes) = false ∧ s.fld (Reg.macsecSecyCfg p) Fld.macsecSecyCfg_maxFrame < x.bytes.length) ∧
    (∃ (p : Nat) (s : State) (x : RxPkt) (rest : List RxPkt), held s p x rest ∧ tagged s p x ∧ s.scOf p (secTagOf x.bytes).sci = none) ∧
    (∃ (p : Nat) (c : Nat) (s : State) (x : RxPkt) (rest : List RxPkt), held s p x rest ∧ tagged s p x ∧ s.scOf p (secTagOf x.bytes).sci = some c ∧ s.saMarked p c (secTagOf x.bytes).an = true) ∧
    (∃ (p : Nat) (c : Nat) (s : State) (x : RxPkt) (rest : List RxPkt), held s p x rest ∧ tagged s p x ∧ s.scOf p (secTagOf x.bytes).sci = some c ∧ s.saMarked p c (secTagOf x.bytes).an = false ∧ s.saState p c (secTagOf x.bytes).an ≠ 1 ∧ s.saState p c (secTagOf x.bytes).an ≠ 2 ∧ s.saState p c (secTagOf x.bytes).an ≤ 4) ∧
    (∃ (p : Nat) (c : Nat) (s : State) (x : RxPkt) (rest : List RxPkt), held s p x rest ∧ tagged s p x ∧ s.scOf p (secTagOf x.bytes).sci = some c ∧ s.saMarked p c (secTagOf x.bytes).an = false ∧ (s.saState p c (secTagOf x.bytes).an = 1 ∨ s.saState p c (secTagOf x.bytes).an = 2) ∧ s.flag (Reg.macsecSecyCtrl p) Fld.macsecSecyCtrl_replayProtect = true ∧ recoverPn (s.xpn p) (s.saPn p c (secTagOf x.bytes).an) (secTagOf x.bytes).pn < s.saPn p c (secTagOf x.bytes).an) ∧
    (∃ (p : Nat) (c : Nat) (s : State) (x : RxPkt) (rest : List RxPkt), held s p x rest ∧ tagged s p x ∧ fresh s p c x ∧ ((secTagOf x.bytes).e = true ∨ s.flag (Reg.macsecSecyCfg p) Fld.macsecSecyCfg_validate = false)) ∧
    (∃ (p : Nat) (s : State) (x : RxPkt) (rest : List RxPkt), held s p x rest ∧ x.bad = false ∧ s.isControl x.bytes = false ∧ beAt x.bytes 12 2 ≠ 0x88E5 ∧ s.macBypass p x.bytes = true) ∧
    (∃ (p : Nat) (s : State) (x : RxPkt) (rest : List RxPkt), held s p x rest ∧ x.bad = false ∧ s.isControl x.bytes = false ∧ beAt x.bytes 12 2 ≠ 0x88E5 ∧ s.macBypass p x.bytes = false ∧ s.flag (Reg.macsecSecyCfg p) Fld.macsecSecyCfg_validate = true) ∧
    (∃ (p : Nat) (c : Nat) (s : State) (x : RxPkt) (rest : List RxPkt), held s p x rest ∧ tagged s p x ∧ s.isControl x.bytes = false ∧ fresh s p c x ∧ (secTagOf x.bytes).e = false ∧ s.flag (Reg.macsecSecyCfg p) Fld.macsecSecyCfg_validate = true) ∧
    (∃ (p : Nat) (c : Nat) (plain : Bytes) (s : State) (x : RxPkt) (rest : List RxPkt), held s p x rest ∧ tagged s p x ∧ s.isControl (macStrip x.bytes (secTagOf x.bytes) plain) = false ∧ fresh s p c x) :=
  ⟨⟨95, W.secy 1 { W.rx 95 W.plain with bad := true }, { W.rx 95 W.plain with bad := true }, [{ W.rx 95 W.plain with bad := true }], ⟨by decide +kernel, by decide +kernel⟩, by decide +kernel⟩,
    ⟨95, W.secy 1 (W.rx 95 W.plain), W.rx 95 W.plain, [W.rx 95 W.plain], ⟨by decide +kernel, by decide +kernel⟩, by decide +kernel, by decide +kernel, by decide +kernel, by decide +kernel⟩,
    ⟨95, W.secy 1 (W.rx 95 (W.tagged 0x83 0)), W.rx 95 (W.tagged 0x83 0), [W.rx 95 (W.tagged 0x83 0)], ⟨by decide +kernel, by decide +kernel⟩, by decide +kernel, by decide +kernel, by decide +kernel⟩,
    ⟨95, W.f (W.secy 1 (W.rx 95 (W.tagged 3 24))) (Reg.macsecSecyCfg 95) Fld.macsecSecyCfg_maxFrame 63, W.rx 95 (W.tagged 3 24), [W.rx 95 (W.tagged 3 24)], ⟨by decide +kernel, by decide +kernel⟩, by decide +kernel, by decide +kernel, by decide +kernel, by decide +kernel⟩,
    ⟨95, W.f (W.secy 1 (W.rx 95 (W.tagged 3 24))) (Reg.macsecScCtrl 95 63) Fld.macsecScCtrl_valid 0, W.rx 95 (W.tagged 3 24), [W.rx 95 (W.tagged 3 24)], ⟨by decide +kernel, by decide +kernel⟩, ⟨by decide +kernel, by decide +kernel, by decide +kernel, by decide +kernel⟩, by decide +kernel⟩,
    ⟨95, 63, State.fireAlarm (W.secy 1 (W.rx 95 (W.tagged 3 0))) .clock, W.rx 95 (W.tagged 3 0), [W.rx 95 (W.tagged 3 0)], ⟨by decide +kernel, by decide +kernel⟩, ⟨by decide +kernel, by decide +kernel, by decide +kernel, by decide +kernel⟩, by decide +kernel, by decide +kernel⟩,
    ⟨95, 63, W.secy 4 (W.rx 95 (W.tagged 3 0)), W.rx 95 (W.tagged 3 0), [W.rx 95 (W.tagged 3 0)], ⟨by decide +kernel, by decide +kernel⟩, ⟨by decide +kernel, by decide +kernel, by decide +kernel, by decide +kernel⟩, by decide +kernel, by decide +kernel, by decide +kernel, by decide +kernel, by decide +kernel⟩,
    ⟨95, 63, W.f ((W.secy 1 (W.rx 95 (W.tagged 3 0))).setReg (Reg.macsecSaPn 95 63 3) 6) (Reg.macsecSecyCtrl 95) Fld.macsecSecyCtrl_replayProtect 1, W.rx 95 (W.tagged 3 0), [W.rx 95 (W.tagged 3 0)], ⟨by decide +kernel, by decide +kernel⟩, ⟨by decide +kernel, by decide +kernel, by decide +kernel, by decide +kernel⟩, by decide +kernel, by decide +kernel, by decide +kernel, by decide +kernel, by decide +kernel⟩,
    ⟨95, 63, W.secy 1 (W.rx 95 (W.tagged 3 0)), W.rx 95 (W.tagged 3 0), [W.rx 95 (W.tagged 3 0)], ⟨by decide +kernel, by decide +kernel⟩, ⟨by decide +kernel, by decide +kernel, by decide +kernel, by decide +kernel⟩, ⟨by decide +kernel, by decide +kernel, by decide +kernel, by decide +kernel⟩, by decide +kernel⟩,
    ⟨95, W.secy 1 (W.rx 95 (List.replicate 12 0 ++ [0x88, 0x8E] ++ W.plain)), W.rx 95 (List.replicate 12 0 ++ [0x88, 0x8E] ++ W.plain), [W.rx 95 (List.replicate 12 0 ++ [0x88, 0x8E] ++ W.plain)], ⟨by decide +kernel, by decide +kernel⟩, by decide +kernel, by decide +kernel, by decide +kernel, by decide +kernel⟩,
    ⟨95, W.check (W.secy 1 (W.rx 95 W.plain)), W.rx 95 W.plain, [W.rx 95 W.plain], ⟨by decide +kernel, by decide +kernel⟩, by decide +kernel, by decide +kernel, by decide +kernel, by decide +kernel, by decide +kernel⟩,
    ⟨95, 63, W.check (W.secy 2 (W.rx 95 (W.tagged 3 0))), W.rx 95 (W.tagged 3 0), [W.rx 95 (W.tagged 3 0)], ⟨by decide +kernel, by decide +kernel⟩, ⟨by decide +kernel, by decide +kernel, by decide +kernel, by decide +kernel⟩, by decide +kernel, ⟨by decide +kernel, by decide +kernel, by decide +kernel, by decide +kernel⟩, by decide +kernel, by decide +kernel⟩,
    ⟨95, 63, [], W.check (W.secy 1 (W.rx 95 (W.tagged 3 0))), W.rx 95 (W.tagged 3 0), [W.rx 95 (W.tagged 3 0)], ⟨by decide +kernel, by decide +kernel⟩, ⟨by decide +kernel, by decide +kernel, by decide +kernel, by decide +kernel⟩, by decide +kernel, ⟨by decide +kernel, by decide +kernel, by decide +kernel, by decide +kernel⟩⟩⟩

end MacsecReceiveFollowsTable42

namespace MacsecTransmitFollowsTable43
abbrev front (s : State) (p : Nat) (f : TxPkt) (rest : List TxPkt) : Prop := s.clocked = true ∧ (s.port p).macTx = f :: rest
abbrev an (s : State) (p : Nat) : Nat := s.fld (Reg.macsecSecyCtrl p) Fld.macsecSecyCtrl_txAn
abbrev guarded (s : State) (p : Nat) (f : TxPkt) : Prop := s.macBypass p f.bytes = false ∧ s.flag (Reg.macsecSecyCfg p) Fld.macsecSecyCfg_protect = true
abbrev len (s : State) (p : Nat) (f : TxPkt) : Nat := f.bytes.length + (if s.flag (Reg.macsecSecyCfg p) Fld.macsecSecyCfg_includeSci then 32 else 24)

/-- States and operands that meet the hypotheses of each clause of MacsecTransmitFollowsTable43. -/
theorem test_MacsecTransmitFollowsTable43 :
    (∃ (a : Nat) (s : State), s.clocked = true ∧ a < 4) ∧
    (∃ (p : Nat) (f : TxPkt) (rest : List TxPkt) (s : State), front s p f rest ∧ s.macBypass p f.bytes = true) ∧
    (∃ (p : Nat) (f : TxPkt) (rest : List TxPkt) (s : State), front s p f rest ∧ s.macBypass p f.bytes = false ∧ s.flag (Reg.macsecSecyCfg p) Fld.macsecSecyCfg_protect = false) ∧
    (∃ (p : Nat) (f : TxPkt) (rest : List TxPkt) (s : State), front s p f rest ∧ guarded s p f ∧ s.saMarked p 0 (an s p) = true) ∧
    (∃ (p : Nat) (f : TxPkt) (rest : List TxPkt) (s : State), front s p f rest ∧ guarded s p f ∧ s.saMarked p 0 (an s p) = false ∧ s.saState p 0 (an s p) = 4) ∧
    (∃ (p : Nat) (f : TxPkt) (rest : List TxPkt) (s : State), front s p f rest ∧ guarded s p f ∧ s.saMarked p 0 (an s p) = false ∧ (s.saState p 0 (an s p) = 0 ∨ s.saState p 0 (an s p) = 3)) ∧
    (∃ (p : Nat) (f : TxPkt) (rest : List TxPkt) (s : State), front s p f rest ∧ guarded s p f ∧ s.saMarked p 0 (an s p) = false ∧ (s.saState p 0 (an s p) = 1 ∨ s.saState p 0 (an s p) = 2) ∧ s.fld (Reg.macsecSecyCfg p) Fld.macsecSecyCfg_maxFrame < len s p f) ∧
    (∃ (p : Nat) (f : TxPkt) (rest : List TxPkt) (s : State), front s p f rest ∧ guarded s p f ∧ s.saMarked p 0 (an s p) = false ∧ (s.saState p 0 (an s p) = 1 ∨ s.saState p 0 (an s p) = 2) ∧ len s p f ≤ s.fld (Reg.macsecSecyCfg p) Fld.macsecSecyCfg_maxFrame) :=
  ⟨⟨3, W.send 2 1, by decide +kernel, by decide +kernel⟩,
    ⟨95, W.out, [], W.f (W.send 1 1) (Reg.macsecSecyCfg 95) Fld.macsecSecyCfg_bypassEtype 0x0800, ⟨by decide +kernel, by decide +kernel⟩, by decide +kernel⟩,
    ⟨95, W.out, [], W.f (W.send 1 1) (Reg.macsecSecyCfg 95) Fld.macsecSecyCfg_protect 0, ⟨by decide +kernel, by decide +kernel⟩, by decide +kernel, by decide +kernel⟩,
    ⟨95, W.out, [], (W.send 1 1).fireAlarm .fault, ⟨by decide +kernel, by decide +kernel⟩, ⟨by decide +kernel, by decide +kernel⟩, by decide +kernel⟩,
    ⟨95, W.out, [], W.send 4 1, ⟨by decide +kernel, by decide +kernel⟩, ⟨by decide +kernel, by decide +kernel⟩, by decide +kernel, by decide +kernel⟩,
    ⟨95, W.out, [], W.send 3 1, ⟨by decide +kernel, by decide +kernel⟩, ⟨by decide +kernel, by decide +kernel⟩, by decide +kernel, by decide +kernel⟩,
    ⟨95, W.out, [], W.f (W.send 1 1) (Reg.macsecSecyCfg 95) Fld.macsecSecyCfg_maxFrame 87, ⟨by decide +kernel, by decide +kernel⟩, ⟨by decide +kernel, by decide +kernel⟩, by decide +kernel, by decide +kernel, by decide +kernel⟩,
    ⟨95, W.out, [], W.f (W.send 1 1) (Reg.macsecSecyCfg 95) Fld.macsecSecyCfg_confidential 1, ⟨by decide +kernel, by decide +kernel⟩, ⟨by decide +kernel, by decide +kernel⟩, by decide +kernel, by decide +kernel, by decide +kernel⟩⟩

end MacsecTransmitFollowsTable43

namespace KeysAreInstalledWholeOrRefused
abbrev pn (s : State) (p c a : Nat) : Nat := ((s.sa p c a).pnStage).getD (s.saPn p c a)

/-- States and operands that meet the hypotheses of each clause of KeysAreInstalledWholeOrRefused. -/
theorem test_KeysAreInstalledWholeOrRefused :
    (∃ (p : Nat) (c : Nat) (a : Nat) (s : State), s.clocked = true ∧ s.saState p c a = 0 ∧ s.fld Reg.macsecAlarm Fld.macsecAlarm_source = 0 ∧ 0 < pn s p c a ∧ pn s p c a < (if s.xpn p then 2 ^ 64 else 2 ^ 32)) ∧
    (∃ (p : Nat) (c : Nat) (a : Nat) (s : State), s.clocked = true ∧ s.installReason p c a ≠ 0) ∧
    (∃ (s : State), s.clocked = true) ∧
    (∃ (p : Nat) (c : Nat) (a : Nat) (s : State), s.clocked = true ∧ s.saState p c a = 3) :=
  ⟨⟨95, 63, 3, W.staged 0 (2 ^ 32 - 1), by decide +kernel, by decide +kernel, by decide +kernel, by decide +kernel, by decide +kernel⟩,
    ⟨95, 63, 3, W.staged 0 (2 ^ 32), by decide +kernel, by decide +kernel⟩,
    ⟨W.staged 1 1, by decide +kernel⟩,
    ⟨95, 63, 3, W.key, by decide +kernel, by decide +kernel⟩⟩

end KeysAreInstalledWholeOrRefused

/-- States and operands that meet the hypotheses of each clause of AlarmsEraseEveryKey. -/
theorem test_AlarmsEraseEveryKey :
    (∃ (s : State), s.clocked = true) ∧
    (∃ (s : State), s.clocked = true) ∧
    (∃ (s : State), s.clocked = true) ∧
    (∃ (s : State), s.clocked = true) ∧
    (∃ (ns : Nat) (s : State), s.clocked = true ∧ 200 < ns ∧ 3 ≤ s.fld Reg.bootStatus Fld.bootStatus_step) ∧
    (∃ (ns : Nat) (s : State), (ns ≤ 200 ∨ s.fld Reg.bootStatus Fld.bootStatus_step < 3)) ∧
    (∃ (s : State), s.clocked = true) ∧
    (∃ (s : State), s.clocked = true) :=
  ⟨⟨W.key, by decide +kernel⟩,
    ⟨W.key, by decide +kernel⟩,
    ⟨W.key, by decide +kernel⟩,
    ⟨W.f W.key Reg.timeStatus Fld.timeStatus_todValid 1, by decide +kernel⟩,
    ⟨201, W.f W.key Reg.bootStatus Fld.bootStatus_step 3, by decide +kernel, by decide +kernel, by decide +kernel⟩,
    ⟨200, W.f W.key Reg.bootStatus Fld.bootStatus_step 3, by decide +kernel⟩,
    ⟨W.run.fireAlarm .clock, by decide +kernel⟩,
    ⟨alarmSourceStopsFiring .clock (W.run.fireAlarm .clock), by decide +kernel⟩⟩

/-- States and operands that meet the hypotheses of each clause of BridgeReplaysRetrainsAndFences. -/
theorem test_BridgeReplaysRetrainsAndFences :
    (∃ (k : Nat) (d : Bool) (s : State), s.clocked = true ∧ s.bridgeCarries k d = true) ∧
    (∃ (k : Nat) (d : Bool) (s : State), s.clocked = true ∧ s.bridgeCarries k d = true ∧ s.fld Reg.bridgeCtrl Fld.bridgeCtrl_retryLimit ≤ (s.chan k d).failed + 1) ∧
    (∃ (k : Nat) (d : Bool) (s : State), s.clocked = true ∧ s.bridgeCarries k d = true ∧ (s.chan k d).failed + 1 < s.fld Reg.bridgeCtrl Fld.bridgeCtrl_retryLimit) ∧
    (∃ (k : Nat) (d : Bool) (s : State), s.clocked = true ∧ (s.chan k d).retrain = true) ∧
    (∃ (k : Nat) (d : Bool) (s : State), s.clocked = true ∧ k < 12 ∧ (s.chan k d).retrain = true) ∧
    (∃ (k : Nat) (s : State), s.clocked = true ∧ k < 12) ∧
    (∃ (h : FcpHdr) (x : Session) (w : Bool) (s : State), s.clocked = true ∧ Granted s h x (if w then 0x11 else 0x10) privWrite) :=
  ⟨⟨11, true, W.run.setChan 11 true { W.run.chan 11 true with failed := 3 }, by decide +kernel, by decide +kernel⟩,
    ⟨11, true, W.f (W.run.setChan 11 true { W.run.chan 11 true with failed := 3 }) Reg.bridgeCtrl Fld.bridgeCtrl_retryLimit 4, by decide +kernel, by decide +kernel, by decide +kernel⟩,
    ⟨11, false, W.f W.run Reg.bridgeCtrl Fld.bridgeCtrl_retryLimit 4, by decide +kernel, by decide +kernel, by decide +kernel⟩,
    ⟨11, false, W.run.setChan 11 false { W.run.chan 11 false with retrain := true, fenced := true }, by decide +kernel, by decide +kernel⟩,
    ⟨11, true, W.run.setChan 11 true { W.run.chan 11 true with retrain := true }, by decide +kernel, by decide +kernel, by decide +kernel⟩,
    ⟨11, W.run, by decide +kernel, by decide +kernel⟩,
    ⟨W.hdr, W.session, true, W.fcp, by decide +kernel, ⟨⟨by decide +kernel, by decide +kernel, by decide +kernel, by decide +kernel, by decide +kernel⟩, by decide +kernel⟩⟩⟩

end Sys2Proof.Tests.Q04

namespace Sys2Proof.Tests.Q05

/-- A received frame of port `p` with those bytes. -/
def W.rx (p : Nat) (b : Bytes) : RxPkt := { bytes := b, port := p, bad := false, ts := 0, tsValid := false, msec := 0, msecSc := 0 }
def W.plain : Bytes := List.replicate 12 0 ++ [8, 0] ++ List.replicate 50 9
/-- The frame of an IPv4 fragment at offset `off` with identification 7, read by form 1 at byte 0: the IPv4 header stands first. -/
def W.ip (hi lo : Byte) : Bytes := [0x45, 0, 0, 60, 0, 7, hi, lo, 64, 17, 0, 0, 10, 0, 0, 1, 10, 0, 0, 2] ++ List.replicate 44 9
/-- Slice 11 with frame `b` of port 95 waiting: entry form 1 is 20 bytes with word 0 `d`, then accept. -/
def W.slice (b : Bytes) (d : Nat) : State :=
  let s := (W.f W.run (Reg.parserPortCfg 11 7) Fld.parserPortCfg_entryForm 1).setReg (Reg.parserFormWord 11 1 0) (BitVec.ofNat 64 (2 ^ 63 * (d / 2 ^ 63) + 2 ^ 56 * 20 + 255 * 2 ^ 29 + d % 2 ^ 56))
  { s with hdrQ := [(11, [W.rx 95 b, W.rx 94 b])] }
def W.frag (hi lo : Byte) : State := W.slice (W.ip hi lo) (2 ^ 63 + 2 ^ 51 + 2 ^ 46)
def W.key : List Nat := [0x0A000001, 0x0A000002, 17, 7, 0, 0]
/-- That slice with the entry of the fragment's key in use. -/
def W.entry (pending : Bool) : State := (W.frag 0 1)|> fun s => { s with lookup := { s.lookup with fragPriv := [(1024 * 11 + 4 * (Config.fragSet W.key % 256), { FragEntry.free with key := W.key, used := true, pending := pending })] } }
/-- A pass of port 95 and a state that holds it as a fragment. -/
def W.pass : Pass := (W.run.parsePass { W.run.firstPass 7 (W.rx 95 W.plain) with form := 255 }).1
def W.held : State := W.f (((W.run.setHold 11 [{ pass := W.pass, shared := true, slot := 4095 }])).setFrag true 11 4095 { FragEntry.free with used := true, pending := true }) (Reg.parserPortCfg 11 7) Fld.parserPortCfg_fragPolicy 1

/-- A batch of which nothing has arrived, and slice 11 while its flip is due. -/
def W.batch : Batch := { session := 1, request := 1, peer := 0, number := 1, kind := 0, count := 0, segments := [], ended := none }
def W.flipDue : State := { W.slice W.plain (2 ^ 63) with fcp := { W.run.fcp with flip := some W.batch } }
/-- Slice 11 with a first fragment waiting and every way that its key may take in use. -/
def W.full : State :=
  let e := { FragEntry.free with used := true }
  { W.frag 32 0 with lookup := { W.run.lookup with fragPriv := (List.range 4).map (fun w => (1024 * 11 + (4 * (Config.fragSet W.key % 256) + w), e)), fragShared := (List.range 4).map (fun w => (4 * (Config.fragSet W.key % 1024) + w, e)) } }

/-- The ways of `W.key`: what no entry, an entry in the first way, and four other entries make of a search. -/
theorem W.first_free (s : State) (k : Nat) (key : List Nat) (hp : s.lookup.fragPriv = []) : s.fragFree 0 k key = some (false, 4 * (Config.fragSet key % 256)) := by
  simp [State.fragFree, fragWays, State.frag, hp, mget, FragEntry.free, List.range, List.range.loop]
theorem W.first_found (s : State) (k : Nat) (key : List Nat) (e : FragEntry) (hu : e.used = true) (hk : e.key = key) (hp : s.lookup.fragPriv = [(1024 * k + 4 * (Config.fragSet key % 256), e)]) :
    s.fragFind 0 k key = some (false, 4 * (Config.fragSet key % 256)) := by
  simp [State.fragFind, State.fragIn, fragWays, State.frag, hp, mget, hu, hk, List.range, List.range.loop]
theorem W.full_found : W.full.fragFind 0 11 W.key = none := by
  simp [State.fragFind, State.fragIn, fragWays, State.frag, mget, W.full, FragEntry.free, List.range, List.range.loop, W.key]
theorem W.full_free : W.full.fragFree 0 11 W.key = none := by
  simp [State.fragFree, fragWays, State.frag, mget, W.full, List.range, List.range.loop]
theorem W.entry_is (b : Bool) : (W.entry b).frag false 11 (4 * (Config.fragSet W.key % 256)) = { FragEntry.free with key := W.key, used := true, pending := b } := by
  simp [State.frag, W.entry, mget]

namespace HeadersAreParsedInTheirSlots
abbrev w (s : State) (r : RxPkt) : Walk := (s.parsePass (s.firstPass s.lookup.nextPid r)).2
abbrev action (s : State) (r : RxPkt) : Nat := bits (s.fldEp s.epoch (Reg.parserPortCfg (r.port / 8) (r.port % 8)) Fld.parserPortCfg_errAction) (2 * (w s r).err - 1) (2 * (w s r).err - 2)

/-- States and operands that meet the hypotheses of each clause of HeadersAreParsedInTheirSlots. -/
theorem test_HeadersAreParsedInTheirSlots :
    (∃ (s : State), s.boundaryDue = true) ∧
    (∃ (k : Nat) (s : State), s.hdrOf k = [] ∧ s.recOf k = []) ∧
    (∃ (k : Nat) (r : RxPkt) (rest : List RxPkt) (s : State), s.clocked = true ∧ s.boundaryDue = false ∧ s.hdrOf k = r :: rest ∧ (w s r).err = 0 ∧ (w s r).frag = 0) ∧
    (∃ (k : Nat) (r : RxPkt) (rest : List RxPkt) (s : State), s.clocked = true ∧ s.boundaryDue = false ∧ s.hdrOf k = r :: rest ∧ (w s r).err ≠ 0 ∧ (w s r).frag = 0 ∧ action s r = 0) ∧
    (∃ (k : Nat) (r : RxPkt) (rest : List RxPkt) (s : State), s.clocked = true ∧ s.boundaryDue = false ∧ s.hdrOf k = r :: rest ∧ (w s r).err ≠ 0 ∧ (w s r).frag = 0 ∧ action s r = 1) ∧
    (∃ (k : Nat) (r : RxPkt) (rest : List RxPkt) (s : State), s.clocked = true ∧ s.boundaryDue = false ∧ s.hdrOf k = r :: rest ∧ (w s r).err ≠ 0 ∧ (w s r).frag = 0 ∧ action s r = 2) ∧
    (∃ (k : Nat) (x : Pass) (rest : List Pass) (s : State), s.clocked = true ∧ s.boundaryDue = false ∧ s.hdrOf k = [] ∧ s.recOf k = x :: rest ∧ s.epochLive x.epoch = true ∧ 1 < x.passNo ∧ (s.parsePass x).2.err = 0) ∧
    (∃ (k : Nat) (x : Pass) (rest : List Pass) (s : State), s.clocked = true ∧ s.boundaryDue = false ∧ s.hdrOf k = [] ∧ s.recOf k = x :: rest ∧ s.epochLive x.epoch = false) :=
  ⟨⟨W.flipDue, by decide +kernel⟩,
    ⟨11, W.run, by decide +kernel, by decide +kernel⟩,
    ⟨11, W.rx 95 W.plain, [W.rx 94 W.plain], W.slice W.plain (2 ^ 63), by decide +kernel, by decide +kernel, by decide +kernel, by decide +kernel, by decide +kernel⟩,
    ⟨11, W.rx 95 W.plain, [W.rx 94 W.plain], W.f (W.slice W.plain 0) (Reg.parserPortCfg 11 7) Fld.parserPortCfg_errAction 0, by decide +kernel, by decide +kernel, by decide +kernel, by decide +kernel, by decide +kernel, by decide +kernel⟩,
    ⟨11, W.rx 95 W.plain, [W.rx 94 W.plain], W.f (W.slice W.plain 0) (Reg.parserPortCfg 11 7) Fld.parserPortCfg_errAction 65536, by decide +kernel, by decide +kernel, by decide +kernel, by decide +kernel, by decide +kernel, by decide +kernel⟩,
    ⟨11, W.rx 95 W.plain, [W.rx 94 W.plain], W.f (W.slice W.plain 0) (Reg.parserPortCfg 11 7) Fld.parserPortCfg_errAction 131072, by decide +kernel, by decide +kernel, by decide +kernel, by decide +kernel, by decide +kernel, by decide +kernel⟩,
    ⟨11, { W.pass with passNo := 2 }, [], W.run.setRec 11 [{ W.pass with passNo := 2 }], by decide +kernel, by decide +kernel, by decide +kernel, by decide +kernel, by decide +kernel, by decide +kernel, by decide +kernel⟩,
    ⟨11, { W.pass with epoch := 9 }, [], W.run.setRec 11 [{ W.pass with epoch := 9 }], by decide +kernel, by decide +kernel, by decide +kernel, by decide +kernel, by decide +kernel⟩⟩

end HeadersAreParsedInTheirSlots

namespace FragmentsFollowTheFirst
abbrev y (s : State) (r : RxPkt) : Pass := (s.parsePass (s.firstPass s.lookup.nextPid r)).1
abbrev w (s : State) (r : RxPkt) : Walk := (s.parsePass (s.firstPass s.lookup.nextPid r)).2
abbrev key (s : State) (r : RxPkt) : List Nat := (w s r).fragKey ++ [(y s r).vrfTag]
abbrev scope (s : State) (r : RxPkt) : Nat := s.fldEp s.epoch (Reg.parserPortCfg (r.port / 8) (r.port % 8)) Fld.parserPortCfg_fragScope
abbrev policy (s : State) (x : Pass) : Nat := s.fldEp x.epoch (Reg.parserPortCfg x.slice (x.port % 8)) Fld.parserPortCfg_fragPolicy
abbrev taken (s : State) (k : Nat) (r : RxPkt) (rest : List RxPkt) (c : Nat) : Prop := s.clocked = true ∧ s.boundaryDue = false ∧ s.hdrOf k = r :: rest ∧ (w s r).err = 0 ∧ (w s r).frag = c

/-- States and operands that meet the hypotheses of each clause of FragmentsFollowTheFirst. -/
theorem test_FragmentsFollowTheFirst :
    (∃ (k : Nat) (i : Nat) (sh : Bool) (r : RxPkt) (rest : List RxPkt) (s : State), taken s k r rest 1 ∧ s.fragFind (scope s r) (r.port / 8) (key s r) = none ∧ s.fragFree (scope s r) (r.port / 8) (key s r) = some (sh, i)) ∧
    (∃ (k : Nat) (r : RxPkt) (rest : List RxPkt) (s : State), taken s k r rest 1 ∧ s.fragFind (scope s r) (r.port / 8) (key s r) = none ∧ s.fragFree (scope s r) (r.port / 8) (key s r) = none) ∧
    (∃ (k : Nat) (i : Nat) (sh : Bool) (r : RxPkt) (rest : List RxPkt) (s : State), taken s k r rest 2 ∧ s.fragFind (scope s r) (r.port / 8) (key s r) = some (sh, i) ∧ s.epochLive (s.frag sh (r.port / 8) i).epoch = true ∧ (s.frag sh (r.port / 8) i).pending = false) ∧
    (∃ (k : Nat) (i : Nat) (sh : Bool) (r : RxPkt) (rest : List RxPkt) (s : State), taken s k r rest 2 ∧ s.fragFind (scope s r) (r.port / 8) (key s r) = some (sh, i) ∧ s.epochLive (s.frag sh (r.port / 8) i).epoch = true ∧ (s.frag sh (r.port / 8) i).pending = true ∧ (s.holdOf (r.port / 8)).length < 32) ∧
    (∃ (k : Nat) (r : RxPkt) (rest : List RxPkt) (s : State), taken s k r rest 2 ∧ s.fragFind (scope s r) (r.port / 8) (key s r) = none ∧ policy s (y s r) = 0) ∧
    (∃ (k : Nat) (r : RxPkt) (rest : List RxPkt) (s : State), taken s k r rest 2 ∧ s.fragFind (scope s r) (r.port / 8) (key s r) = none ∧ policy s (y s r) = 1) ∧
    (∃ (k : Nat) (r : RxPkt) (rest : List RxPkt) (s : State), taken s k r rest 2 ∧ s.fragFind (scope s r) (r.port / 8) (key s r) = none ∧ policy s (y s r) = 2) ∧
    (∃ (k : Nat) (s : State), s.holdOf k = []) ∧
    (∃ (k : Nat) (h : Held) (rest : List Held) (s : State), s.clocked = true ∧ s.holdOf k = h :: rest ∧ (s.frag h.shared k h.slot).used = true ∧ (s.frag h.shared k h.slot).pending = true ∧ s.epochLive h.pass.epoch = true ∧ policy s h.pass = 1) ∧
    (∃ (k : Nat) (i : Nat) (sh : Bool) (s : State), s.clocked = true ∧ (s.frag sh k i).used = true ∧ (s.frag sh k i).pending = false) ∧
    (∃ (k : Nat) (i : Nat) (sh : Bool) (s : State), ((s.frag sh k i).used = false ∨ (s.frag sh k i).pending = true)) :=
  ⟨⟨11, 4 * (Config.fragSet W.key % 256), false, W.rx 95 (W.ip 32 0), [W.rx 94 (W.ip 32 0)], W.frag 32 0, ⟨by decide +kernel, by decide +kernel, by decide +kernel, by decide +kernel, by decide +kernel⟩, by decide +kernel, by rw [show scope (W.frag 32 0) (W.rx 95 (W.ip 32 0)) = 0 from by decide +kernel, show key (W.frag 32 0) (W.rx 95 (W.ip 32 0)) = W.key from by decide +kernel]; exact W.first_free _ _ _ rfl⟩,
    ⟨11, W.rx 95 (W.ip 32 0), [W.rx 94 (W.ip 32 0)], W.full, ⟨by decide +kernel, by decide +kernel, by decide +kernel, by decide +kernel, by decide +kernel⟩, by rw [show scope W.full (W.rx 95 (W.ip 32 0)) = 0 from by decide +kernel, show key W.full (W.rx 95 (W.ip 32 0)) = W.key from by decide +kernel]; exact W.full_found, by rw [show scope W.full (W.rx 95 (W.ip 32 0)) = 0 from by decide +kernel, show key W.full (W.rx 95 (W.ip 32 0)) = W.key from by decide +kernel]; exact W.full_free⟩,
    ⟨11, 4 * (Config.fragSet W.key % 256), false, W.rx 95 (W.ip 0 1), [W.rx 94 (W.ip 0 1)], W.entry false, ⟨by decide +kernel, by decide +kernel, by decide +kernel, by decide +kernel, by decide +kernel⟩, by rw [show scope (W.entry false) (W.rx 95 (W.ip 0 1)) = 0 from by decide +kernel, show key (W.entry false) (W.rx 95 (W.ip 0 1)) = W.key from by decide +kernel]; exact W.first_found _ _ _ _ rfl rfl rfl, by show State.epochLive (W.entry false) (State.frag (W.entry false) false 11 (4 * (Config.fragSet W.key % 256))).epoch = true; rw [W.entry_is]; decide +kernel, by show (State.frag (W.entry false) false 11 (4 * (Config.fragSet W.key % 256))).pending = false; rw [W.entry_is]⟩,
    ⟨11, 4 * (Config.fragSet W.key % 256), false, W.rx 95 (W.ip 0 1), [W.rx 94 (W.ip 0 1)], W.entry true, ⟨by decide +kernel, by decide +kernel, by decide +kernel, by decide +kernel, by decide +kernel⟩, by rw [show scope (W.entry true) (W.rx 95 (W.ip 0 1)) = 0 from by decide +kernel, show key (W.entry true) (W.rx 95 (W.ip 0 1)) = W.key from by decide +kernel]; exact W.first_found _ _ _ _ rfl rfl rfl, by show State.epochLive (W.entry true) (State.frag (W.entry true) false 11 (4 * (Config.fragSet W.key % 256))).epoch = true; rw [W.entry_is]; decide +kernel, by show (State.frag (W.entry true) false 11 (4 * (Config.fragSet W.key % 256))).pending = true; rw [W.entry_is], by decide +kernel⟩,
    ⟨11, W.rx 95 (W.ip 0 1), [W.rx 94 (W.ip 0 1)], W.f (W.frag 0 1) (Reg.parserPortCfg 11 7) Fld.parserPortCfg_fragPolicy 0, ⟨by decide +kernel, by decide +kernel, by decide +kernel, by decide +kernel, by decide +kernel⟩, by decide +kernel, by decide +kernel⟩,
    ⟨11, W.rx 95 (W.ip 0 1), [W.rx 94 (W.ip 0 1)], W.f (W.frag 0 1) (Reg.parserPortCfg 11 7) Fld.parserPortCfg_fragPolicy 1, ⟨by decide +kernel, by decide +kernel, by decide +kernel, by decide +kernel, by decide +kernel⟩, by decide +kernel, by decide +kernel⟩,
    ⟨11, W.rx 95 (W.ip 0 1), [W.rx 94 (W.ip 0 1)], W.f (W.frag 0 1) (Reg.parserPortCfg 11 7) Fld.parserPortCfg_fragPolicy 2, ⟨by decide +kernel, by decide +kernel, by decide +kernel, by decide +kernel, by decide +kernel⟩, by decide +kernel, by decide +kernel⟩,
    ⟨11, W.run, by decide +kernel⟩,
    ⟨11, { pass := W.pass, shared := true, slot := 4095 }, [], W.held, by decide +kernel, by decide +kernel, by decide +kernel, by decide +kernel, by decide +kernel, by decide +kernel⟩,
    ⟨11, 4095, true, W.run.setFrag true 11 4095 { FragEntry.free with used := true }, by decide +kernel, by decide +kernel, by decide +kernel⟩,
    ⟨11, 4095, true, W.run, by decide +kernel⟩⟩

end FragmentsFollowTheFirst

end Sys2Proof.Tests.Q05

namespace Sys2Proof.Tests.Q06

/-- A received frame of port `p` with those bytes, and the pass of it, its chain ended, with operation `op` and argument `arg`. -/
def W.rx (p : Nat) (b : Bytes) : RxPkt := { bytes := b, port := p, bad := false, ts := 0, tsValid := false, msec := 0, msecSc := 0 }
def W.plain : Bytes := List.replicate 12 0 ++ [8, 0] ++ List.replicate 50 9
def W.pass (op arg : Nat) : Pass :=
  let x := W.run.firstPass 7 (W.rx 95 W.plain)
  { x with batt := List.replicate 128 0, m := { Merged.none with op := op, arg := arg } }
/-- Slice 11 with a pass parsed; one packet of the epoch on the device. -/
def W.look (x : Pass) : State := W.f { W.run with lookup := { W.run.lookup with lookQ := [(11, [x])] } } Reg.epochInflight Fld.epochInflight_current 1
def W.noEcc : EccErrs := { hash := [], hashCorr := 0, dit := [], ditCorr := 0 }
/-- Stage 0 of slice 11 looks flow table 255 up with a key of 4 bytes. -/
def W.flow : State := W.f (W.f (W.f W.run (Reg.classStageCfg 11 0) Fld.classStageCfg_type 2) (Reg.classStageCfg 11 0) Fld.classStageCfg_table 255) (Reg.flowTableCfg 255) Fld.flowTableCfg_keyLen 4
def W.atFlow : Pass := { W.pass 0 0 with stage := 0 }
def W.flowing : State := { W.flow with lookup := { W.flow.lookup with flowWait := [W.atFlow] } }
/-- Array 127 is the unit of table 63 for every key; search 0 of slice 11 is made of it. -/
def W.assoc : State :=
  let s := W.run.setReg (Reg.assocPartHi 127) (BitVec.ofNat 64 (2 ^ 63 + 63 * 2 ^ 57))
  W.f (W.f (s.setReg (Reg.assocPartLo 127) (BitVec.ofNat 64 (127 * 2 ^ 54))) (Reg.assocSearch 11 0) Fld.assocSearch_valid 1) (Reg.assocSearch 11 0) Fld.assocSearch_table 63
def W.q (phase : Nat) : Search := { Search.idle with phase := phase, table := 63, key := 5, units := [127], queued := if phase = 2 then [127] else [] }
def W.missed : Search := { W.q 2 with units := [] }
def W.wait (l : List Search) : Pass := { W.pass 0 0 with searches := l }
def W.search (l : List Search) : State := { W.assoc with lookup := { W.assoc.lookup with assocWait := [W.wait l] } }
/-- Row 0 of array 127 valid with mask 0: it matches every key. -/
def W.row : State := (W.search [W.q 2, W.q 2]).tblPut (rowAddr 127 0 + 0x18) (2 ^ 63 + 2 ^ 62 + 5)
/-- Meter 7 of profile 3 with rates and bursts. -/
def W.meter : State := { ((W.run.put128 false (meterProfAddr 3) (2 ^ 96 * 1000 + 2 ^ 64 * 2000 + 2 ^ 44 * 10 + 2 ^ 24 * 20)).put128 false (meterAddr 7) (2 ^ 10 * 5 + 3)) with time := { W.run.time with stepFree := 1000000 } }
/-- LAG group 255 has the one slot 1,048,575, which is port 1 of device 5. -/
def W.lag : State := (W.run.tblPut (lagAddr 255) (2 ^ 63 + 2 ^ 39 * 1048575 + 2 ^ 26)).tblPut 0x000122FFFFF8 (2 * 2 ^ 22 + 641)



namespace PassesEndWithAStampedResult
abbrev quiet (s : State) (x : Pass) : Prop := x.m.meter = none ∧ x.m.mirror = 0 ∧ x.m.sampler = 0 ∧ s.fld (Reg.classPortCfg x.slice (x.port % 8)) Fld.classPortCfg_rxMirror = 0 ∧ s.flag (Reg.traceCfg x.slice) Fld.traceCfg_valid = false ∧ x.fragSlot = none ∧ x.park = [] ∧ x.m.program = 255
abbrev ended (s : State) (x : Pass) : Prop := x.follow = none ∧ 8 ≤ x.stage ∧ (∀ i, i < 4 → s.searchMade x i = false)

/-- States and operands that meet the hypotheses of each clause of PassesEndWithAStampedResult. -/
theorem test_PassesEndWithAStampedResult :
    (∃ (k : Nat) (s : State), s.lookOf k = []) ∧
    (∃ (k : Nat) (x : Pass) (rest : List Pass) (f : Stamp) (s : State), s.clocked = true ∧ s.lookOf k = x :: rest ∧ x.follow = some f ∧ f.dkind = 3 ∧ quiet s x) ∧
    (∃ (k : Nat) (x : Pass) (rest : List Pass) (s : State), s.clocked = true ∧ s.lookOf k = x :: rest ∧ ended s x ∧ quiet s x ∧ x.m.op = 7) ∧
    (∃ (k : Nat) (x : Pass) (rest : List Pass) (s : State), s.clocked = true ∧ s.lookOf k = x :: rest ∧ ended s x ∧ quiet s x ∧ x.m.op = 0 ∧ (s.flag Reg.ditCtrl Fld.ditCtrl_labelAuto && bit (x.battByte 3) 1) = false) ∧
    (∃ (k : Nat) (x : Pass) (rest : List Pass) (s : State), s.clocked = true ∧ s.lookOf k = x :: rest ∧ ended s x ∧ quiet s x ∧ x.m.op = 4) ∧
    (∃ (k : Nat) (x : Pass) (rest : List Pass) (s : State), s.clocked = true ∧ s.lookOf k = x :: rest ∧ ended s x ∧ quiet s x ∧ x.m.op = 8) ∧
    (∃ (k : Nat) (x : Pass) (rest : List Pass) (s : State), s.clocked = true ∧ s.lookOf k = x :: rest ∧ x.follow = none ∧ x.stage < 8 ∧ s.fldEp x.epoch (Reg.classStageCfg x.slice x.stage) Fld.classStageCfg_type = 2) ∧
    (∃ (k : Nat) (u : Nat) (x : Pass) (rest : List Pass) (s : State), s.clocked = true ∧ s.lookOf k = x :: rest ∧ x.follow = none ∧ 8 ≤ x.stage ∧ s.searchMade x 0 = true ∧ s.covering (s.searchTable x 0) (beNat (padKey (10 * s.cascade (s.searchTable x 0)) (x.key (s.stageWord x (Reg.assocSearchKey0 x.slice 0)) (s.stageWord x (Reg.assocSearchKey1 x.slice 0))))) = [u] ∧ (∀ i, i < 4 → 1 ≤ i → s.searchMade x i = false)) :=
  ⟨⟨11, W.run, by decide +kernel⟩,
    ⟨11, (W.pass 0 0).decided 3 9, [], { Stamp.none with dkind := 3, dest := 9 }, W.look ((W.pass 0 0).decided 3 9), by decide +kernel, by decide +kernel, by decide +kernel, by decide +kernel, ⟨by decide +kernel, by decide +kernel, by decide +kernel, by decide +kernel, by decide +kernel, by decide +kernel, by decide +kernel, by decide +kernel⟩⟩,
    ⟨11, W.pass 7 9, [], W.look (W.pass 7 9), by decide +kernel, by decide +kernel, ⟨by decide +kernel, by decide +kernel, by decide +kernel⟩, ⟨by decide +kernel, by decide +kernel, by decide +kernel, by decide +kernel, by decide +kernel, by decide +kernel, by decide +kernel, by decide +kernel⟩, by decide +kernel⟩,
    ⟨11, W.pass 0 9, [], W.look (W.pass 0 9), by decide +kernel, by decide +kernel, ⟨by decide +kernel, by decide +kernel, by decide +kernel⟩, ⟨by decide +kernel, by decide +kernel, by decide +kernel, by decide +kernel, by decide +kernel, by decide +kernel, by decide +kernel, by decide +kernel⟩, by decide +kernel, by decide +kernel⟩,
    ⟨11, W.pass 4 1048575, [], W.look (W.pass 4 1048575), by decide +kernel, by decide +kernel, ⟨by decide +kernel, by decide +kernel, by decide +kernel⟩, ⟨by decide +kernel, by decide +kernel, by decide +kernel, by decide +kernel, by decide +kernel, by decide +kernel, by decide +kernel, by decide +kernel⟩, by decide +kernel⟩,
    ⟨11, W.pass 8 65535, [], W.look (W.pass 8 65535), by decide +kernel, by decide +kernel, ⟨by decide +kernel, by decide +kernel, by decide +kernel⟩, ⟨by decide +kernel, by decide +kernel, by decide +kernel, by decide +kernel, by decide +kernel, by decide +kernel, by decide +kernel, by decide +kernel⟩, by decide +kernel⟩,
    ⟨11, W.atFlow, [], { W.flow with lookup := (W.look W.atFlow).lookup }, by decide +kernel, by decide +kernel, by decide +kernel, by decide +kernel, by decide +kernel⟩,
    ⟨11, 127, W.pass 0 0, [], { W.assoc with lookup := (W.look (W.pass 0 0)).lookup }, by decide +kernel, by decide +kernel, by decide +kernel, by decide +kernel, by decide +kernel, by decide +kernel, by decide +kernel⟩⟩

end PassesEndWithAStampedResult

namespace LookupAnswersMoveTheirPass
abbrev table (s : State) (x : Pass) : Nat := s.fldEp x.epoch (Reg.classStageCfg x.slice x.stage) Fld.classStageCfg_table
abbrev key (s : State) (x : Pass) : Bytes := padKey (s.fld (Reg.flowTableCfg (table s x)) Fld.flowTableCfg_keyLen) (s.stageKey x)
abbrev b0 (s : State) (x : Pass) : Nat := (s.flowCands (table s x) (key s x)).1
abbrev wait (s : State) (pid : Nat) (x : Pass) (i j : Nat) : Prop := s.waiting pid = some x ∧ i < x.searches.length ∧ i ≠ j ∧ (∃ q, x.searches[j]? = some q ∧ (q.phase = 1 ∨ q.phase = 2))

/-- States and operands that meet the hypotheses of each clause of LookupAnswersMoveTheirPass. -/
theorem test_LookupAnswersMoveTheirPass :
    (∃ (pid : Nat) (s : State), s.flowPass pid = none) ∧
    (∃ (pid : Nat) (a : Nat) (x : Pass) (s : State), s.clocked = true ∧ s.flowPass pid = some x ∧ s.hbmServes (tableCtl (b0 s x)) = true ∧ flowFind s.mem (table s x) (b0 s x) (some x.epoch) (key s x) = some a) ∧
    (∃ (pid : Nat) (x : Pass) (s : State), s.clocked = true ∧ s.flowPass pid = some x ∧ s.hbmServes (tableCtl (b0 s x)) = true ∧ flowFind s.mem (table s x) (b0 s x) (some x.epoch) (key s x) = none ∧ flowOvf s.mem (b0 s x) = 0) ∧
    (∃ (pid : Nat) (x : Pass) (s : State), s.clocked = true ∧ s.flowPass pid = some x ∧ s.hbmServes (tableCtl (b0 s x)) = false) ∧
    (∃ (pid : Nat) (x : Pass) (s : State), s.clocked = true ∧ s.flowPass pid = some x) ∧
    (∃ (pid : Nat) (s : State), s.waiting pid = none) ∧
    (∃ (s : State), s.lookup.assocWait = []) ∧
    (∃ (k : Nat) (u : Nat) (x : Pass) (q : Search) (s : State), s.clocked = true ∧ s.lookup.assocWait = [x] ∧ x.slice = k ∧ x.searches = [q] ∧ q.phase = 1 ∧ q.units = [u] ∧ q.queued = [] ∧ s.unitQueue u < 32) ∧
    (∃ (pid : Nat) (i : Nat) (j : Nat) (x : Pass) (q : Search) (s : State), s.clocked = true ∧ wait s pid x i j ∧ x.searches[i]? = some q ∧ q.phase = 2 ∧ bestHit (q.units.filterMap (fun u => s.unitSearch q.table u x.epoch q.key)) = none) ∧
    (∃ (pid : Nat) (i : Nat) (j : Nat) (w : Nat) (x : Pass) (q : Search) (h : RowHit) (s : State), s.clocked = true ∧ wait s pid x i j ∧ x.searches[i]? = some q ∧ q.phase = 2 ∧ bestHit (q.units.filterMap (fun u => s.unitSearch q.table u x.epoch q.key)) = some h ∧ s.assocResult q.table h.result = some w) ∧
    (∃ (pid : Nat) (i : Nat) (j : Nat) (x : Pass) (q : Search) (h : RowHit) (s : State), s.clocked = true ∧ wait s pid x i j ∧ x.searches[i]? = some q ∧ q.phase = 2 ∧ bestHit (q.units.filterMap (fun u => s.unitSearch q.table u x.epoch q.key)) = some h) ∧
    (∃ (pid : Nat) (i : Nat) (j : Nat) (x : Pass) (q : Search) (s : State), s.clocked = true ∧ wait s pid x i j ∧ x.searches[i]? = some q ∧ (q.phase = 1 ∨ q.phase = 2)) :=
  ⟨⟨7, W.run, by decide +kernel⟩,
    ⟨7, hbmAddr (W.flowing.flowCands 255 [0,0,0,0]).1, W.atFlow, W.f (W.flowing.tblPut (hbmAddr (W.flowing.flowCands 255 [0,0,0,0]).1) (2 ^ 63 + 2 ^ 59 + 255 * 2 ^ 48 + 77)) (Reg.hbmStatus 0) Fld.hbmStatus_state 1, by decide +kernel, by decide +kernel, by decide +kernel, by decide +kernel⟩,
    ⟨7, W.atFlow, W.f W.flowing (Reg.hbmStatus 0) Fld.hbmStatus_state 1, by decide +kernel, by decide +kernel, by decide +kernel, by decide +kernel, by decide +kernel⟩,
    ⟨7, W.atFlow, W.flowing, by decide +kernel, by decide +kernel, by decide +kernel⟩,
    ⟨7, W.atFlow, W.flowing, by decide +kernel, by decide +kernel⟩,
    ⟨7, W.run, by decide +kernel⟩,
    ⟨W.run, by decide +kernel⟩,
    ⟨11, 127, W.wait [W.q 1], W.q 1, W.search [W.q 1], by decide +kernel, by decide +kernel, by decide +kernel, by decide +kernel, by decide +kernel, by decide +kernel, by decide +kernel, by decide +kernel⟩,
    ⟨7, 1, 0, W.wait [W.q 2, W.missed], W.missed, W.search [W.q 2, W.missed], by decide +kernel, ⟨by decide +kernel, by decide +kernel, by decide +kernel, ⟨W.q 2, by decide +kernel, by decide +kernel⟩⟩, by decide +kernel, by decide +kernel, by decide +kernel⟩,
    ⟨7, 1, 0, 5, W.wait [W.q 2, W.q 2], W.q 2, { lead := 127, array := 127, row := 0, lrow := 0, prio := 0, result := 5 }, W.row, by decide +kernel, ⟨by decide +kernel, by decide +kernel, by decide +kernel, ⟨W.q 2, by decide +kernel, by decide +kernel⟩⟩, by decide +kernel, by decide +kernel, by decide +kernel, by decide +kernel⟩,
    ⟨7, 0, 1, W.wait [W.q 2, W.q 2], W.q 2, { lead := 127, array := 127, row := 0, lrow := 0, prio := 0, result := 5 }, W.row, by decide +kernel, ⟨by decide +kernel, by decide +kernel, by decide +kernel, ⟨W.q 2, by decide +kernel, by decide +kernel⟩⟩, by decide +kernel, by decide +kernel, by decide +kernel⟩,
    ⟨7, 0, 1, W.wait [W.q 1, W.q 2], W.q 1, W.search [W.q 1, W.q 2], by decide +kernel, ⟨by decide +kernel, by decide +kernel, by decide +kernel, ⟨W.q 2, by decide +kernel, by decide +kernel⟩⟩, by decide +kernel, by decide +kernel⟩⟩

end LookupAnswersMoveTheirPass

/-- States and operands that meet the hypotheses of each clause of DecisionsFollowTheirOrders. -/
theorem test_DecisionsFollowTheirOrders :
    (∃ (l : List RowHit) (h : RowHit), bestHit l = some h) ∧
    (∃ (s : State) (g : Nat) (h : Nat) (v : Nat), s.spreadLag g h = .slot 2 v) ∧
    (∃ (m : Merged), 7 ≤ m.op ∧ m.op ≤ 9) ∧
    (∃ (s : State) (x : Pass), x.m.op = 1 ∧ bit (tblWord s.mem (nhAddr (x.m.arg % 2 ^ 20))) 63 = false ∧ x.errs.dit = []) ∧
    (∃ (s : State) (x : Pass), x.m.op = 3 ∧ bit (tblWord s.mem (lagAddr (x.m.arg % 256))) 63 = false) ∧
    (∃ (s : State) (x : Pass), x.m.op = 6 ∧ bit (tbl128 s.mem (bdAddr (x.m.arg % 65536))) 127 = false ∧ x.errs.dit = []) :=
  ⟨⟨[{ lead := 127, array := 127, row := 0, lrow := 0, prio := 0, result := 5 }, { lead := 126, array := 127, row := 0, lrow := 0, prio := 0, result := 6 }], { lead := 126, array := 127, row := 0, lrow := 0, prio := 0, result := 6 }, by decide +kernel⟩,
    ⟨W.lag, 255, 4294967295, 641, by decide +kernel⟩,
    ⟨{ Merged.none with op := 9, arg := 4 }, by decide +kernel, by decide +kernel⟩,
    ⟨W.run, W.pass 1 1048575, by decide +kernel, by decide +kernel, by decide +kernel⟩,
    ⟨W.run, W.pass 3 255, by decide +kernel, by decide +kernel⟩,
    ⟨W.run, W.pass 6 65535, by decide +kernel, by decide +kernel, by decide +kernel⟩⟩

/-- States and operands that meet the hypotheses of each clause of MetersRefillAndSamplersReload. -/
theorem test_MetersRefillAndSamplersReload :
    (∃ (s : State), s.clocked = true) ∧
    (∃ (n : Nat) (v : Word) (s : State) (u : State), s.clocked = true ∧ s.hostWrite (Reg.samplerCfg n) v = some u) ∧
    (∃ (n : Nat) (v : Word) (s : State), s.hostWrite (Reg.samplerCfg n) v = none) ∧
    (∃ (s : State), s.clocked = true) :=
  ⟨⟨W.meter, by decide +kernel⟩,
    ⟨511, putField Fld.samplerCfg_n 100 (putField Fld.samplerCfg_trunc 64 (putField Fld.samplerCfg_mode 1 0)), W.run, ((W.run.hostWrite (Reg.samplerCfg 511) (putField Fld.samplerCfg_n 100 (putField Fld.samplerCfg_trunc 64 (putField Fld.samplerCfg_mode 1 0)))).getD W.run), by decide +kernel, by decide +kernel⟩,
    ⟨511, BitVec.allOnes 64, W.run, by decide +kernel⟩,
    ⟨W.run, by decide +kernel⟩⟩

end Sys2Proof.Tests.Q06

namespace Sys2Proof.Tests.Q07

/-- Array 127 enabled as a unit of table 63, with a valid row 0. -/
def W.array : State := (W.run.setReg (Reg.assocPartHi 127) (BitVec.ofNat 64 (2 ^ 63 + 63 * 2 ^ 57))).put true (rowAddr 127 0 + 0x18) (2 ^ 63 + 5)
/-- A move of that array in hand, to row 32767 of array `d`. -/
def W.moving (d left : Nat) (c : Option Nat) : State :=
  let s := W.f W.array (Reg.assocMove 127) Fld.assocMove_count left
  { s with lookup := { s.lookup with moves := [(127, { src := 0, dst := 32767 - left + 1, dstArray := d, left := left, down := true, toClear := c })] } }
def W.scrub (row repair : Nat) : State := W.f (W.f W.array (Reg.assocArrayStatus 127) Fld.assocArrayStatus_scrubRow row) (Reg.assocTableCfg 63) Fld.assocTableCfg_repair repair
def W.repair : State := { W.array with lookup := { W.array.lookup with rowRepair := [(127, 32767)] } }
/-- A request of port 95 in table 255, bridge domain 65535; the table is one of banks 0 and 1, and learns. -/
def W.req : LearnReq := { slice := 11, port := 95, table := 255, bd := 65535, mac := 0x0200DEADBEEF, nh := 1048575 }
def W.mac : State :=
  W.f (W.f W.run (Reg.emhashTableCfg 255) Fld.emhashTableCfg_bankCnt 2) (Reg.tableAgeCfg 255) Fld.tableAgeCfg_learnTable 1
def W.asked : State := { W.mac with lookup := { W.mac.lookup with learnQ := [(15, [W.req])], handoff := [W.req] } }
def W.place : Nat := (W.asked.hashRoom 255 0 W.req.key).getD 0
/-- That table with the key held with next hop `nh` and more bits of its first word. -/
def W.held (nh more : Nat) : State := W.asked.putEntry false W.place (entryWords (2 ^ 63 + 3 * 2 ^ 57 + 2 ^ 48 * 255 + nh + more) 0 W.req.key)
/-- That table with every candidate slot of the key taken by another entry. -/
def W.taken : State :=
  { W.asked with mem := (W.asked.hashPlaces 255 W.req.key).flatMap (fun p => (List.range (2 * p.2)).map (fun i => (p.1 + i / 2 * 16 + i % 2, if i % 2 = 0 then 0x80 else 0xFF))) }
/-- The purse of class 3 full, and an entry in the stash of bank 255 with AGE_EN. -/
def W.purse (s : State) : State := { s with gov := { s.gov with purse3 := 100 } }
def W.stash : State :=
  let s := W.f (W.f (W.mac.putEntry false (stashAddr 63 15) (entryWords (2 ^ 63 + 3 * 2 ^ 57 + 2 ^ 48 * 255 + 2 ^ 32 * 65533) 0 [1])) (Reg.tableAgeCfg 255) Fld.tableAgeCfg_ageEn 1) (Reg.tableAgeCfg 255) Fld.tableAgeCfg_ageLimit 2
  W.purse s
/-- Way 7 of bucket 0 of flow table 255, whose first word has `b` beside VALID and FLOW. -/
def W.flow (b : Nat) : State := W.purse (W.f (W.run.tblPut (hbmAddr 448) (2 ^ 63 + 255 * 2 ^ 48 + b)) (Reg.flowTableCfg 255) Fld.flowTableCfg_ageEn 1)
/-- A label entry that differs from its shadow, noted by the walk. -/
def W.label : State := W.purse (W.run.tblPut (labelAddr 1048575) 5)
def W.noted (s : State) : State := { s with lookup := { s.lookup with mismatches := [{ addr := labelAddr 1048575, table := 0, logLeft := 0 }] } }
def W.due (s : State) : State := W.f { s with line := { s.line with pouncerDue := [95] } } (ditPort 95) Fld.ditPortCfg_learnNh 77



namespace RowsMoveAndAreRepaired
abbrev valid (s : State) (a r : Nat) : Bool := bit (rowCtl s.mem a r) 63
abbrev down (s : State) (a : Nat) : Nat := if (s.move a).down then (s.move a).left - 1 else s.fld (Reg.assocMove a) Fld.assocMove_count - (s.move a).left
abbrev going (s : State) (a : Nat) : Prop := s.clocked = true ∧ a < 128 ∧ (s.move a).left ≠ 0 ∧ (s.move a).toClear = none ∧ s.cascade (s.partTable a) = 1 ∧ (s.move a).dstArray < 128 ∧ (s.move a).src + down s a < 32768 ∧ (s.move a).dst + down s a < 32768

/-- States and operands that meet the hypotheses of each clause of RowsMoveAndAreRepaired. -/
theorem test_RowsMoveAndAreRepaired :
    (∃ (src : Nat) (dst : Nat) (n : Nat) (s : State), s.clocked = true ∧ (32768 < src + n ∨ 32768 < dst + n)) ∧
    (∃ (a : Nat) (src : Nat) (dst : Nat) (n : Nat) (s : State), s.clocked = true ∧ 0 < n ∧ src + n ≤ 32768 ∧ dst + n ≤ 32768 ∧ bit (s.part a) 127 = true ∧ (∀ i, i < n → valid s a (dst + i) = true → src ≤ dst + i ∧ dst + i < src + n)) ∧
    (∃ (a : Nat) (s : State), ((s.move a).left = 0 ∨ (s.move a).toClear ≠ none)) ∧
    (∃ (a : Nat) (s : State), going s a ∧ (s.move a).dstArray = a ∧ (s.move a).src ≠ (s.move a).dst) ∧
    (∃ (a : Nat) (s : State), going s a ∧ s.chainHead a ≠ s.chainHead (s.move a).dstArray ∧ (s.move a).dstArray ≠ a) ∧
    (∃ (a : Nat) (s : State), (s.move a).toClear = none) ∧
    (∃ (a : Nat) (r : Nat) (s : State), s.clocked = true ∧ a < 128 ∧ r < 32768 ∧ s.cascade (s.partTable a) = 1 ∧ (s.move a).toClear = some r ∧ 1 < (s.move a).left) ∧
    (∃ (a : Nat) (s : State), bit (s.part a) 127 = false) ∧
    (∃ (a : Nat) (s : State), s.clocked = true ∧ bit (s.part a) 127 = true) ∧
    (∃ (a : Nat) (s : State), s.clocked = true ∧ a < 128 ∧ bit (s.part a) 127 = true) ∧
    (∃ (a : Nat) (r : Nat) (s : State), s.lookup.rowRepair.contains (a, r) = false) ∧
    (∃ (a : Nat) (r : Nat) (s : State), s.clocked = true ∧ a < 128 ∧ r < 32768 ∧ s.lookup.rowRepair.contains (a, r) = true) :=
  ⟨⟨1, 0, 32768, W.array, by decide +kernel, by decide +kernel⟩,
    ⟨127, 0, 32767, 1, W.array, by decide +kernel, by decide +kernel, by decide +kernel, by decide +kernel, by decide +kernel, by decide +kernel⟩,
    ⟨127, W.array, by decide +kernel⟩,
    ⟨127, W.moving 127 1 none, ⟨by decide +kernel, by decide +kernel, by decide +kernel, by decide +kernel, by decide +kernel, by decide +kernel, by decide +kernel, by decide +kernel⟩, by decide +kernel, by decide +kernel⟩,
    ⟨127, W.moving 126 1 none, ⟨by decide +kernel, by decide +kernel, by decide +kernel, by decide +kernel, by decide +kernel, by decide +kernel, by decide +kernel, by decide +kernel⟩, by decide +kernel, by decide +kernel⟩,
    ⟨127, W.array, by decide +kernel⟩,
    ⟨127, 0, W.moving 126 2 (some 0), by decide +kernel, by decide +kernel, by decide +kernel, by decide +kernel, by decide +kernel, by decide +kernel⟩,
    ⟨127, W.run, by decide +kernel⟩,
    ⟨127, W.scrub 32767 1, by decide +kernel, by decide +kernel⟩,
    ⟨127, W.scrub 32767 1, by decide +kernel, by decide +kernel, by decide +kernel⟩,
    ⟨127, 0, W.array, by decide +kernel⟩,
    ⟨127, 32767, W.repair, by decide +kernel, by decide +kernel, by decide +kernel, by decide +kernel⟩⟩

end RowsMoveAndAreRepaired

namespace LearnRequestsFollowTable810
abbrev front (s : State) (l : Nat) (q : LearnReq) (rest : List LearnReq) : Prop := s.clocked = true ∧ s.learnOf l = q :: rest
abbrev absent (s : State) (q : LearnReq) : Prop := s.hashFind s.mem q.table none q.key = []
abbrev limit (s : State) (q : LearnReq) : Nat := s.fld (ditPort q.port) Fld.ditPortCfg_learnLimit

/-- States and operands that meet the hypotheses of each clause of LearnRequestsFollowTable810. -/
theorem test_LearnRequestsFollowTable810 :
    (∃ (l : Nat) (s : State), s.learnOf l = []) ∧
    (∃ (l : Nat) (q : LearnReq) (rest : List LearnReq) (s : State), front s l q rest ∧ absent s q ∧ 0 < limit s q ∧ limit s q ≤ s.fld (ditPort q.port) Fld.ditPortCfg_learned) ∧
    (∃ (l : Nat) (a : Nat) (q : LearnReq) (rest : List LearnReq) (s : State), front s l q rest ∧ absent s q ∧ (limit s q = 0 ∨ s.fld (ditPort q.port) Fld.ditPortCfg_learned < limit s q) ∧ s.hashRoom q.table 0 q.key = some a ∧ a < 0x0001_1000_0000 ∧ q.table < 256 ∧ q.nh < 2 ^ 20) ∧
    (∃ (l : Nat) (q : LearnReq) (rest : List LearnReq) (s : State), front s l q rest ∧ absent s q ∧ (limit s q = 0 ∨ s.fld (ditPort q.port) Fld.ditPortCfg_learned < limit s q) ∧ s.hashRoom q.table 0 q.key = none ∧ s.lookup.handoff.length < 256) ∧
    (∃ (l : Nat) (a : Nat) (q : LearnReq) (rest : List LearnReq) (more : List Nat) (s : State), front s l q rest ∧ s.hashFind s.mem q.table none q.key = a :: more ∧ tblWord s.mem a % 2 ^ 20 = q.nh) ∧
    (∃ (l : Nat) (a : Nat) (q : LearnReq) (rest : List LearnReq) (s : State), front s l q rest ∧ s.hashFind s.mem q.table none q.key = [a] ∧ tblWord s.mem a % 2 ^ 20 ≠ q.nh ∧ (bit (tblWord s.mem a) 59 = true ∨ bit (tblWord s.mem a) 31 = true)) ∧
    (∃ (l : Nat) (a : Nat) (q : LearnReq) (rest : List LearnReq) (s : State), front s l q rest ∧ s.hashFind s.mem q.table none q.key = [a] ∧ a < 0x0001_1000_0000 ∧ tblWord s.mem a % 2 ^ 20 ≠ q.nh ∧ bit (tblWord s.mem a) 59 = false ∧ bit (tblWord s.mem a) 31 = false ∧ s.flag Reg.learnCfg Fld.learnCfg_dampen = false ∧ q.nh < 2 ^ 20) ∧
    (∃ (s : State), s.lookup.handoff = []) ∧
    (∃ (a : Nat) (q : LearnReq) (rest : List LearnReq) (s : State), s.clocked = true ∧ s.lookup.handoff = q :: rest ∧ absent s q ∧ (limit s q = 0 ∨ s.fld (ditPort q.port) Fld.ditPortCfg_learned < limit s q) ∧ s.hashRoom q.table 0 q.key = some a ∧ a < 0x0001_1000_0000 ∧ q.table < 256 ∧ q.nh < 2 ^ 20) ∧
    (∃ (a : Nat) (q : LearnReq) (rest : List LearnReq) (s : State), s.clocked = true ∧ s.lookup.handoff = q :: rest ∧ s.hashFind s.mem q.table none q.key = [a] ∧ tblWord s.mem a % 2 ^ 20 = q.nh) :=
  ⟨⟨15, W.run, by decide +kernel⟩,
    ⟨15, W.req, [], W.f (W.f W.asked (ditPort 95) Fld.ditPortCfg_learnLimit 7) (ditPort 95) Fld.ditPortCfg_learned 7, ⟨by decide +kernel, by decide +kernel⟩, by decide +kernel, by decide +kernel, by decide +kernel⟩,
    ⟨15, W.place, W.req, [], W.f (W.f W.asked (ditPort 95) Fld.ditPortCfg_learnLimit 7) (ditPort 95) Fld.ditPortCfg_learned 6, ⟨by decide +kernel, by decide +kernel⟩, by decide +kernel, by decide +kernel, by decide +kernel, by decide +kernel, by decide +kernel, by decide +kernel⟩,
    ⟨15, W.req, [], W.taken, ⟨by decide +kernel, by decide +kernel⟩, by decide +kernel, by decide +kernel, by decide +kernel, by decide +kernel⟩,
    ⟨15, W.place, W.req, [], [], W.held 1048575 0, ⟨by decide +kernel, by decide +kernel⟩, by decide +kernel, by decide +kernel⟩,
    ⟨15, W.place, W.req, [], W.held 1 (2 ^ 59), ⟨by decide +kernel, by decide +kernel⟩, by decide +kernel, by decide +kernel, by decide +kernel⟩,
    ⟨15, W.place, W.req, [], W.f (W.held 1 0) Reg.learnCfg Fld.learnCfg_dampen 0, ⟨by decide +kernel, by decide +kernel⟩, by decide +kernel, by decide +kernel, by decide +kernel, by decide +kernel, by decide +kernel, by decide +kernel, by decide +kernel⟩,
    ⟨W.run, by decide +kernel⟩,
    ⟨W.place, W.req, [], W.asked, by decide +kernel, by decide +kernel, by decide +kernel, by decide +kernel, by decide +kernel, by decide +kernel, by decide +kernel, by decide +kernel⟩,
    ⟨W.place, W.req, [], W.held 1048575 0, by decide +kernel, by decide +kernel, by decide +kernel, by decide +kernel⟩⟩

end LearnRequestsFollowTable810

namespace EntriesAgeAndAreCompared
abbrev flow (s : State) (f b w : Nat) : Prop := s.clocked = true ∧ s.canSpend 3 40 = true ∧ s.flag (Reg.flowTableCfg f) Fld.flowTableCfg_ageEn = true ∧ bit (tblWord s.mem (hbmAddr (b + 64 * w))) 63 = true ∧ bits (tblWord s.mem (hbmAddr (b + 64 * w))) 55 48 = f ∧ bit (tblWord s.mem (hbmAddr (b + 64 * w))) 60 = false

/-- States and operands that meet the hypotheses of each clause of EntriesAgeAndAreCompared. -/
theorem test_EntriesAgeAndAreCompared :
    (∃ (s : State), s.canSpend 3 40 = false) ∧
    (∃ (a : Nat) (s : State), s.clocked = true ∧ s.canSpend 3 40 = true ∧ (isHead s.mem a = false ∨ bit (tbl128 s.mem a) 123 = true ∨ (s.ageNow + 65536 - bits (tbl128 s.mem a) 111 96) % 65536 ≤ s.fld (Reg.tableAgeCfg (bits (tbl128 s.mem a) 119 112)) Fld.tableAgeCfg_ageLimit)) ∧
    (∃ (a : Nat) (s : State), s.clocked = true ∧ s.canSpend 3 40 = true ∧ isHead s.mem a = true ∧ s.flag (Reg.tableAgeCfg (bits (tbl128 s.mem a) 119 112)) Fld.tableAgeCfg_ageEn = true ∧ bit (tbl128 s.mem a) 123 = false ∧ 0x0001_0400_0000 ≤ a ∧ a < 0x0001_1000_0000 ∧ bits (tbl128 s.mem a) 126 125 = 0 ∧ s.fld (Reg.tableAgeCfg (bits (tbl128 s.mem a) 119 112)) Fld.tableAgeCfg_ageLimit < (s.ageNow + 65536 - bits (tbl128 s.mem a) 111 96) % 65536) ∧
    (∃ (f : Nat) (b : Nat) (w : Nat) (s : State), flow s f b w ∧ bit (tblWord s.mem (hbmAddr (b + 64 * w))) 62 = true) ∧
    (∃ (f : Nat) (b : Nat) (w : Nat) (s : State), flow s f b w ∧ bit (tblWord s.mem (hbmAddr (b + 64 * w))) 62 = false ∧ bit (tblWord s.mem (hbmAddr (b + 64 * w))) 61 = false) ∧
    (∃ (f : Nat) (b : Nat) (w : Nat) (s : State), flow s f b w ∧ bit (tblWord s.mem (hbmAddr (b + 64 * w))) 62 = false ∧ bit (tblWord s.mem (hbmAddr (b + 64 * w))) 61 = true) ∧
    (∃ (p : Nat) (s : State), s.line.pouncerDue.contains p = false) ∧
    (∃ (p : Nat) (s : State), s.clocked = true ∧ s.line.pouncerDue.contains p = true ∧ (∀ a, a ∈ allHeads s.mem → bits (tbl128 s.mem a) 83 64 ≠ s.fld (ditPort p) Fld.ditPortCfg_learnNh)) ∧
    (∃ (p : Nat) (a : Nat) (s : State), s.clocked = true ∧ s.line.pouncerDue.contains p = true ∧ allHeads s.mem = [a] ∧ bit (tbl128 s.mem a) 127 = true ∧ bit (tbl128 s.mem a) 123 = false ∧ s.flag (Reg.tableAgeCfg (bits (tbl128 s.mem a) 119 112)) Fld.tableAgeCfg_learnTable = true ∧ bits (tbl128 s.mem a) 83 64 = s.fld (ditPort p) Fld.ditPortCfg_learnNh) ∧
    (∃ (a : Nat) (e : Entry) (s : State), s.clocked = true ∧ s.canSpend 3 40 = true ∧ s.entryAt a = some e) ∧
    (∃ (a : Nat) (m : Mismatch) (e : Entry) (s : State), s.clocked = true ∧ s.lookup.mismatches.find? (fun m => m.addr == a) = some m ∧ m.logLeft = 0 ∧ s.fcp.flip = none ∧ s.entryAt a = some e ∧ s.differs e = true ∧ s.flag Reg.ditCtrl Fld.ditCtrl_repair = false) ∧
    (∃ (a : Nat) (m : Mismatch) (e : Entry) (s : State), s.clocked = true ∧ s.lookup.mismatches.find? (fun m => m.addr == a) = some m ∧ m.logLeft = 0 ∧ s.fcp.flip = none ∧ s.entryAt a = some e ∧ s.differs e = true ∧ e.words = 1 ∧ 0x0001_2000_0000 ≤ e.addr ∧ s.flag Reg.ditCtrl Fld.ditCtrl_repair = true) ∧
    (∃ (a : Nat) (m : Mismatch) (e : Entry) (s : State), s.clocked = true ∧ s.lookup.mismatches.find? (fun m => m.addr == a) = some m ∧ m.logLeft = 0 ∧ s.fcp.flip = none ∧ s.entryAt a = some e ∧ s.differs e = false) ∧
    (∃ (s : State), s.clocked = true) ∧
    (∃ (i : Nat) (s : State), s.lookup.encapHold.contains i = false) ∧
    (∃ (i : Nat) (s : State), s.clocked = true ∧ s.lookup.encapHold.contains i = true) :=
  ⟨⟨W.run, by decide +kernel⟩,
    ⟨stashAddr 63 15, W.purse W.run, by decide +kernel, by decide +kernel, by decide +kernel⟩,
    ⟨stashAddr 63 15, W.stash, by decide +kernel, by decide +kernel, by decide +kernel, by decide +kernel, by decide +kernel, by decide +kernel, by decide +kernel, by decide +kernel, by decide +kernel⟩,
    ⟨255, 0, 7, W.flow (3 * 2 ^ 61), ⟨by decide +kernel, by decide +kernel, by decide +kernel, by decide +kernel, by decide +kernel, by decide +kernel⟩, by decide +kernel⟩,
    ⟨255, 0, 7, W.flow 0, ⟨by decide +kernel, by decide +kernel, by decide +kernel, by decide +kernel, by decide +kernel, by decide +kernel⟩, by decide +kernel, by decide +kernel⟩,
    ⟨255, 0, 7, W.flow (2 ^ 61), ⟨by decide +kernel, by decide +kernel, by decide +kernel, by decide +kernel, by decide +kernel, by decide +kernel⟩, by decide +kernel, by decide +kernel⟩,
    ⟨95, W.run, by decide +kernel⟩,
    ⟨95, W.due W.run, by decide +kernel, by decide +kernel, by decide +kernel⟩,
    ⟨95, W.place, W.due (W.held 77 0), by decide +kernel, by decide +kernel, by decide +kernel, by decide +kernel, by decide +kernel, by decide +kernel, by decide +kernel⟩,
    ⟨labelAddr 1048575, { table := 0, index := 1048575, addr := labelAddr 1048575, words := 1 }, W.label, by decide +kernel, by decide +kernel, by decide +kernel⟩,
    ⟨labelAddr 1048575, { addr := labelAddr 1048575, table := 0, logLeft := 0 }, { table := 0, index := 1048575, addr := labelAddr 1048575, words := 1 }, W.f (W.noted W.label) Reg.ditCtrl Fld.ditCtrl_repair 0, by decide +kernel, by decide +kernel, by decide +kernel, by decide +kernel, by decide +kernel, by decide +kernel, by decide +kernel⟩,
    ⟨labelAddr 1048575, { addr := labelAddr 1048575, table := 0, logLeft := 0 }, { table := 0, index := 1048575, addr := labelAddr 1048575, words := 1 }, W.f (W.noted W.label) Reg.ditCtrl Fld.ditCtrl_repair 1, by decide +kernel, by decide +kernel, by decide +kernel, by decide +kernel, by decide +kernel, by decide +kernel, by decide +kernel, by decide +kernel, by decide +kernel⟩,
    ⟨labelAddr 1048575, { addr := labelAddr 1048575, table := 0, logLeft := 0 }, { table := 0, index := 1048575, addr := labelAddr 1048575, words := 1 }, W.noted W.run, by decide +kernel, by decide +kernel, by decide +kernel, by decide +kernel, by decide +kernel, by decide +kernel⟩,
    ⟨W.run, by decide +kernel⟩,
    ⟨524287, W.run, by decide +kernel⟩,
    ⟨524287, { W.run.put true (encapAddr 524287) (2 ^ 63 + 3) with lookup := { W.run.lookup with encapHold := [524287] } }, by decide +kernel, by decide +kernel⟩⟩

end EntriesAgeAndAreCompared

end Sys2Proof.Tests.Q07

namespace Sys2Proof.Tests.Q08

/-- A departing packet of 64 bytes with nothing to rewrite, and slice 11 with it waiting on port 95. -/
def W.frame : Bytes := List.replicate 12 1 ++ [8, 0] ++ List.replicate 46 9
def W.desc (enc : Nat) : Desc :=
  { stamp := { Stamp.none with encap := enc, gen := 3 }, bytes := W.frame ++ fcsOf W.frame, port := 94, slice := 11, epoch := 0, bad := false, ts := 0, tsValid := false,
    fragClass := 0, batt := [], payload := 0, program := 255, inspect := 0, fragSlot := none, meter := none, stripped := false, park := [], stream := 0, rate := 0, streamed := false,
    node := 95, win := 64, replica := false, copy := false, copyDest := 0 }
def W.egr (d : Desc) (max : Nat) : State :=
  W.f { W.run with lookup := { W.run.lookup with egrQ := [(11, [d])] }, traffic := { W.run.traffic with inflight := [(95, 100)] } } (Reg.linePortCfg 95) Fld.linePortCfg_maxFrame max
def W.ip4 : Bytes := [0x45, 0, 0, 0x73, 0, 0, 0x40, 0, 0x40, 0x11, 0xb8, 0x61, 0xc0, 0xa8, 0, 1, 0xc0, 0xa8, 0, 0xc7]
def W.parts (l : List Nat) : Parts := { l2 := [], et := 0x8847, labels := l, body := W.ip4 }



namespace DepartingPacketsAreRewrittenOrDropped
abbrev egr (s : State) (k : Nat) : List Desc := mget (fun _ => []) s.lookup.egrQ k
abbrev front (s : State) (k : Nat) (d : Desc) (rest : List Desc) : Prop := s.clocked = true ∧ egr s k = d :: rest
abbrev stale (s : State) (d : Desc) : Prop := d.stamp.encap ≠ 0 ∧ (bit (tbl128 s.mem (encapAddr d.stamp.encap)) 127 = false ∨ bits (tbl128 s.mem (encapAddr d.stamp.encap)) 126 119 ≠ d.stamp.gen)
abbrev plain (d : Desc) : Prop := d.stamp.encap = 0 ∧ d.stamp.labelOp = 0 ∧ d.stamp.ttlDec = false ∧ d.stripped = false ∧ 20 ≤ d.bytes.length ∧ l2Len (d.bytes.take (d.bytes.length - 4)) (d.bytes.length - 4) 12 + 6 ≤ d.bytes.length
abbrev out (d : Desc) : Bytes := d.bytes.take (d.bytes.length - 4) ++ List.replicate (64 - d.bytes.length) 0
abbrev unseen (s : State) (p : Nat) : Prop := s.fld (Reg.classPortCfg (p / 8) (p % 8)) Fld.classPortCfg_txMirror = 0 ∧ s.fld (Reg.classPortCfg (p / 8) (p % 8)) Fld.classPortCfg_txSampler = 0

/-- States and operands that meet the hypotheses of each clause of DepartingPacketsAreRewrittenOrDropped. -/
theorem test_DepartingPacketsAreRewrittenOrDropped :
    (∃ (k : Nat) (s : State), egr s k = []) ∧
    (∃ (k : Nat) (d : Desc) (rest : List Desc) (s : State), front s k d rest ∧ d.copy = false ∧ s.epochLive d.epoch = false) ∧
    (∃ (k : Nat) (d : Desc) (rest : List Desc) (s : State), front s k d rest ∧ d.copy = false ∧ s.epochLive d.epoch = true) ∧
    (∃ (k : Nat) (d : Desc) (rest : List Desc) (s : State), front s k d rest ∧ (d.copy = true ∨ s.epochLive d.epoch = true) ∧ stale s d) ∧
    (∃ (k : Nat) (p : Nat) (d : Desc) (rest : List Desc) (s : State), front s k d rest ∧ (d.copy = true ∨ s.epochLive d.epoch = true) ∧ plain d ∧ s.nodePort d.node = some p ∧ s.fld (Reg.linePortCfg p) Fld.linePortCfg_maxFrame < (out d).length + 4) ∧
    (∃ (k : Nat) (p : Nat) (d : Desc) (rest : List Desc) (s : State), front s k d rest ∧ (d.copy = true ∨ s.epochLive d.epoch = true) ∧ plain d ∧ s.nodePort d.node = some p ∧ (out d).length + 4 ≤ s.fld (Reg.linePortCfg p) Fld.linePortCfg_maxFrame ∧ unseen s p ∧ s.flag (Reg.macsecSecyCfg p) Fld.macsecSecyCfg_enable = false) ∧
    (∃ (k : Nat) (p : Nat) (d : Desc) (rest : List Desc) (s : State), front s k d rest ∧ (d.copy = true ∨ s.epochLive d.epoch = true) ∧ plain d ∧ s.nodePort d.node = some p ∧ (out d).length + 4 ≤ s.fld (Reg.linePortCfg p) Fld.linePortCfg_maxFrame ∧ unseen s p ∧ s.flag (Reg.macsecSecyCfg p) Fld.macsecSecyCfg_enable = true) :=
  ⟨⟨11, W.run, by decide +kernel⟩,
    ⟨11, { W.desc 0 with epoch := 9 }, [], W.egr { W.desc 0 with epoch := 9 } 64, ⟨by decide +kernel, by decide +kernel⟩, by decide +kernel, by decide +kernel⟩,
    ⟨11, W.desc 0, [], W.egr (W.desc 0) 64, ⟨by decide +kernel, by decide +kernel⟩, by decide +kernel, by decide +kernel⟩,
    ⟨11, W.desc 524287, [], W.egr (W.desc 524287) 64, ⟨by decide +kernel, by decide +kernel⟩, by decide +kernel, ⟨by decide +kernel, by decide +kernel⟩⟩,
    ⟨11, 95, W.desc 0, [], W.egr (W.desc 0) 63, ⟨by decide +kernel, by decide +kernel⟩, by decide +kernel, ⟨by decide +kernel, by decide +kernel, by decide +kernel, by decide +kernel, by decide +kernel, by decide +kernel⟩, by decide +kernel, by decide +kernel⟩,
    ⟨11, 95, W.desc 0, [], W.egr (W.desc 0) 64, ⟨by decide +kernel, by decide +kernel⟩, by decide +kernel, ⟨by decide +kernel, by decide +kernel, by decide +kernel, by decide +kernel, by decide +kernel, by decide +kernel⟩, by decide +kernel, by decide +kernel, ⟨by decide +kernel, by decide +kernel⟩, by decide +kernel⟩,
    ⟨11, 95, W.desc 0, [], W.f (W.egr (W.desc 0) 64) (Reg.macsecSecyCfg 95) Fld.macsecSecyCfg_enable 1, ⟨by decide +kernel, by decide +kernel⟩, by decide +kernel, ⟨by decide +kernel, by decide +kernel, by decide +kernel, by decide +kernel, by decide +kernel, by decide +kernel⟩, by decide +kernel, by decide +kernel, ⟨by decide +kernel, by decide +kernel⟩, by decide +kernel⟩⟩

end DepartingPacketsAreRewrittenOrDropped

/-- States and operands that meet the hypotheses of each clause of RewritesKeepHeadersRight. -/
theorem test_RewritesKeepHeadersRight :
    (∃ (b : Bytes), 20 ≤ b.length ∧ beAt b 0 1 / 16 = 4 ∧ inetSum (b.take 20) = 0) ∧
    (∃ (b : Bytes), 40 ≤ b.length ∧ beAt b 0 1 / 16 = 6) ∧
    (∃ (n : Nat) (w : Nat) (rest : List Nat) (p : Parts), p.labels = w :: rest ∧ w < 2 ^ 32 ∧ n < 2 ^ 20 ∧ 1 < w % 256) ∧
    (∃ (w : Nat) (v : Nat) (rest : List Nat) (p : Parts), p.labels = w :: v :: rest) ∧
    (∃ (s : State) (i : Nat), bits (tbl128 s.mem (encapAddr i)) 118 116 = 0 ∧ bit (tbl128 s.mem (encapAddr i)) 59 = false) :=
  ⟨⟨W.ip4, by decide +kernel, by decide +kernel, by decide +kernel⟩,
    ⟨0x60 :: List.replicate 39 255, by decide +kernel, by decide +kernel⟩,
    ⟨1048575, 4294967295, [5], W.parts [4294967295, 5], by decide +kernel, by decide +kernel, by decide +kernel, by decide +kernel⟩,
    ⟨7, 8, [], W.parts [7, 8], by decide +kernel⟩,
    ⟨W.run, 524287, by decide +kernel, by decide +kernel⟩⟩

end Sys2Proof.Tests.Q08

namespace Sys2Proof.Tests.Q09

/-- A packet of slice 11 dispatched to program 254 with sequence 5, of 64 bytes all payload. -/
def W.desc : Desc :=
  { Desc.none with bytes := List.replicate 60 65 ++ [1, 2, 3, 4], port := 94, slice := 11, program := 254 }
/-- Engine 255 at instruction 100 of a program of 10 instructions from 95 with budget 50, 3 cycles in, w1 = 5 and w2 = 69. -/
def W.running : Engine :=
  { Engine.idle with run := true, slice := 11, seq := 5, d := W.desc, program := 254, regs := [60, 5, 69, 64] ++ List.replicate 12 0, pc := 100, cycles := 3 }
def W.with (x : Engine) : State :=
  let s := W.f (W.f (W.f W.run (Reg.engineProg 254) Fld.engineProg_entry 95) (Reg.engineProg 254) Fld.engineProg_length 10) (Reg.engineProg 254) Fld.engineProg_budget 50
  (s.setEng 255 x).setOut 11 [{ seq := 5, cluster := 7, d := W.desc, ended := false }]
def W.engine : State := W.with W.running
/-- The same with w1 = `a`. -/
def W.to (a : Word) : State := W.with { W.running with regs := [60, a, 69, 64] ++ List.replicate 12 0 }
def W.i : Issue := { e := 255, ecc := .good }
/-- Eight other engines of cluster 7 search. -/
def W.q : Scan := { rd := 15, start := 0, len := 17, set := 0, scanning := true, result := 77, addr := 100 }
def W.scans : State := (List.range 8).foldl (fun s j => s.setEng (224 + j) { Engine.idle with run := true, scan := some W.q }) W.engine



/-- States and operands that meet the hypotheses of each clause of RegisterInstructionsWriteTheirResult. -/
theorem test_RegisterInstructionsWriteTheirResult :
    (∃ (i : Issue) (s : State), Completes s i) ∧
    (∃ (i : Issue) (s : State), Completes s i) ∧
    (∃ (i : Issue) (s : State), Completes s i) ∧
    (∃ (i : Issue) (s : State), Completes s i) ∧
    (∃ (i : Issue) (s : State), Completes s i) ∧
    (∃ (i : Issue) (s : State), Completes s i) ∧
    (∃ (i : Issue) (s : State), Completes s i) ∧
    (∃ (i : Issue) (s : State), Completes s i) ∧
    (∃ (i : Issue) (s : State), Completes s i) ∧
    (∃ (i : Issue) (s : State), Completes s i) ∧
    (∃ (i : Issue) (s : State), Completes s i) ∧
    (∃ (i : Issue) (s : State), Completes s i) ∧
    (∃ (i : Issue) (s : State), Completes s i) ∧
    (∃ (i : Issue) (s : State), Completes s i) ∧
    (∃ (i : Issue) (s : State), Completes s i) ∧
    (∃ (i : Issue) (s : State), Completes s i) ∧
    (∃ (i : Issue) (s : State), Completes s i) ∧
    (∃ (i : Issue) (s : State), Completes s i) ∧
    (∃ (i : Issue) (s : State), Completes s i) :=
  ⟨⟨{ e := 255, ecc := .good }, W.engine, ⟨⟨by decide +kernel, by decide +kernel, by decide +kernel, by decide +kernel⟩, by decide +kernel, by decide +kernel⟩⟩,
    ⟨{ e := 255, ecc := .good }, W.engine, ⟨⟨by decide +kernel, by decide +kernel, by decide +kernel, by decide +kernel⟩, by decide +kernel, by decide +kernel⟩⟩,
    ⟨{ e := 255, ecc := .good }, W.engine, ⟨⟨by decide +kernel, by decide +kernel, by decide +kernel, by decide +kernel⟩, by decide +kernel, by decide +kernel⟩⟩,
    ⟨{ e := 255, ecc := .good }, W.engine, ⟨⟨by decide +kernel, by decide +kernel, by decide +kernel, by decide +kernel⟩, by decide +kernel, by decide +kernel⟩⟩,
    ⟨{ e := 255, ecc := .good }, W.engine, ⟨⟨by decide +kernel, by decide +kernel, by decide +kernel, by decide +kernel⟩, by decide +kernel, by decide +kernel⟩⟩,
    ⟨{ e := 255, ecc := .good }, W.engine, ⟨⟨by decide +kernel, by decide +kernel, by decide +kernel, by decide +kernel⟩, by decide +kernel, by decide +kernel⟩⟩,
    ⟨{ e := 255, ecc := .good }, W.engine, ⟨⟨by decide +kernel, by decide +kernel, by decide +kernel, by decide +kernel⟩, by decide +kernel, by decide +kernel⟩⟩,
    ⟨{ e := 255, ecc := .good }, W.engine, ⟨⟨by decide +kernel, by decide +kernel, by decide +kernel, by decide +kernel⟩, by decide +kernel, by decide +kernel⟩⟩,
    ⟨{ e := 255, ecc := .good }, W.engine, ⟨⟨by decide +kernel, by decide +kernel, by decide +kernel, by decide +kernel⟩, by decide +kernel, by decide +kernel⟩⟩,
    ⟨{ e := 255, ecc := .good }, W.engine, ⟨⟨by decide +kernel, by decide +kernel, by decide +kernel, by decide +kernel⟩, by decide +kernel, by decide +kernel⟩⟩,
    ⟨{ e := 255, ecc := .good }, W.engine, ⟨⟨by decide +kernel, by decide +kernel, by decide +kernel, by decide +kernel⟩, by decide +kernel, by decide +kernel⟩⟩,
    ⟨{ e := 255, ecc := .good }, W.engine, ⟨⟨by decide +kernel, by decide +kernel, by decide +kernel, by decide +kernel⟩, by decide +kernel, by decide +kernel⟩⟩,
    ⟨{ e := 255, ecc := .good }, W.engine, ⟨⟨by decide +kernel, by decide +kernel, by decide +kernel, by decide +kernel⟩, by decide +kernel, by decide +kernel⟩⟩,
    ⟨{ e := 255, ecc := .good }, W.engine, ⟨⟨by decide +kernel, by decide +kernel, by decide +kernel, by decide +kernel⟩, by decide +kernel, by decide +kernel⟩⟩,
    ⟨{ e := 255, ecc := .good }, W.engine, ⟨⟨by decide +kernel, by decide +kernel, by decide +kernel, by decide +kernel⟩, by decide +kernel, by decide +kernel⟩⟩,
    ⟨{ e := 255, ecc := .good }, W.engine, ⟨⟨by decide +kernel, by decide +kernel, by decide +kernel, by decide +kernel⟩, by decide +kernel, by decide +kernel⟩⟩,
    ⟨{ e := 255, ecc := .good }, W.engine, ⟨⟨by decide +kernel, by decide +kernel, by decide +kernel, by decide +kernel⟩, by decide +kernel, by decide +kernel⟩⟩,
    ⟨{ e := 255, ecc := .good }, W.engine, ⟨⟨by decide +kernel, by decide +kernel, by decide +kernel, by decide +kernel⟩, by decide +kernel, by decide +kernel⟩⟩,
    ⟨{ e := 255, ecc := .good }, W.engine, ⟨⟨by decide +kernel, by decide +kernel, by decide +kernel, by decide +kernel⟩, by decide +kernel, by decide +kernel⟩⟩⟩

namespace EnginesReachTheirMemory
abbrev addr (s : State) (i : Issue) (ra : Nat) (imm : BitVec 16) : Nat := (((s.eng i.e).reg ra).toNat + imm.toNat) % 2 ^ 20
abbrev word (s : State) (i : Issue) (ra : Nat) : Nat := ((s.eng i.e).reg ra).toNat % 2 ^ 20
abbrev size (sz : Nat) : Nat := 2 ^ (sz % 4)

/-- States and operands that meet the hypotheses of each clause of EnginesReachTheirMemory. -/
theorem test_EnginesReachTheirMemory :
    (∃ (i : Issue) (ra : Nat) (sz : Nat) (imm : BitVec 16) (g : Region) (s : State), Completes s i ∧ accessRegion (addr s i ra imm) (size sz) = some g ∧ (g = .table → addr s i ra imm % size sz = 0)) ∧
    (∃ (i : Issue) (ra : Nat) (sz : Nat) (imm : BitVec 16) (s : State), Completes s i ∧ accessRegion (addr s i ra imm) (size sz) = some .scratch) ∧
    (∃ (i : Issue) (ra : Nat) (sz : Nat) (imm : BitVec 16) (s : State), Completes s i ∧ accessRegion (addr s i ra imm) (size sz) = some .table ∧ addr s i ra imm % size sz = 0) ∧
    (∃ (i : Issue) (ra : Nat) (s : State), Completes s i ∧ accessRegion (word s i ra) 8 = some .table ∧ word s i ra % 8 = 0) ∧
    (∃ (i : Issue) (ra : Nat) (sz : Nat) (imm : BitVec 16) (s : State), Completes s i ∧ accessRegion (addr s i ra imm) (size sz) = none) ∧
    (∃ (i : Issue) (ra : Nat) (sz : Nat) (imm : BitVec 16) (s : State), Completes s i ∧ accessRegion (addr s i ra imm) (size sz) = some .table ∧ addr s i ra imm % size sz ≠ 0) ∧
    (∃ (i : Issue) (ra : Nat) (sz : Nat) (imm : BitVec 16) (g : Region) (s : State), Completes s i ∧ accessRegion (addr s i ra imm) (size sz) = some g ∧ g ≠ .table ∧ g ≠ .scratch) ∧
    (∃ (i : Issue) (ra : Nat) (s : State), Completes s i ∧ accessRegion (word s i ra) 8 = some .table ∧ word s i ra % 8 ≠ 0) :=
  ⟨⟨W.i, 1, 3, 0, .table, W.to 0x3FFF8, ⟨⟨by decide +kernel, by decide +kernel, by decide +kernel, by decide +kernel⟩, by decide +kernel, by decide +kernel⟩, by decide +kernel, by decide +kernel⟩,
    ⟨W.i, 1, 1, 1, W.to 0x9FD, ⟨⟨by decide +kernel, by decide +kernel, by decide +kernel, by decide +kernel⟩, by decide +kernel, by decide +kernel⟩, by decide +kernel⟩,
    ⟨W.i, 1, 3, 0, W.to 0x3FFF8, ⟨⟨by decide +kernel, by decide +kernel, by decide +kernel, by decide +kernel⟩, by decide +kernel, by decide +kernel⟩, by decide +kernel, by decide +kernel⟩,
    ⟨W.i, 1, W.to 0x3FFF8, ⟨⟨by decide +kernel, by decide +kernel, by decide +kernel, by decide +kernel⟩, by decide +kernel, by decide +kernel⟩, by decide +kernel, by decide +kernel⟩,
    ⟨W.i, 1, 3, 1, W.to 0x9F8, ⟨⟨by decide +kernel, by decide +kernel, by decide +kernel, by decide +kernel⟩, by decide +kernel, by decide +kernel⟩, by decide +kernel⟩,
    ⟨W.i, 1, 3, 4, W.to 0x20000, ⟨⟨by decide +kernel, by decide +kernel, by decide +kernel, by decide +kernel⟩, by decide +kernel, by decide +kernel⟩, by decide +kernel, by decide +kernel⟩,
    ⟨W.i, 1, 0, 0, .header, W.to 0xFF, ⟨⟨by decide +kernel, by decide +kernel, by decide +kernel, by decide +kernel⟩, by decide +kernel, by decide +kernel⟩, by decide +kernel, by decide +kernel, by decide +kernel⟩,
    ⟨W.i, 1, W.to 0x3FFF7, ⟨⟨by decide +kernel, by decide +kernel, by decide +kernel, by decide +kernel⟩, by decide +kernel, by decide +kernel⟩, by decide +kernel, by decide +kernel⟩⟩

end EnginesReachTheirMemory

/-- States and operands that meet the hypotheses of each clause of CallsReturnsAndFetchesBeyondTheProgram. -/
theorem test_CallsReturnsAndFetchesBeyondTheProgram :
    (∃ (i : Issue) (s : State), Completes s i ∧ (s.eng i.e).stack.length < 8) ∧
    (∃ (i : Issue) (s : State), Completes s i ∧ 8 ≤ (s.eng i.e).stack.length) ∧
    (∃ (i : Issue) (a : Nat) (rest : List Nat) (s : State), Completes s i ∧ (s.eng i.e).stack = a :: rest) ∧
    (∃ (i : Issue) (s : State), Completes s i ∧ (s.eng i.e).stack = []) ∧
    (∃ (c : Instr) (i : Issue) (s : State), issueOf c = some i ∧ Issues s i.e ∧ s.progEnds i.e ≤ (s.eng i.e).pc) :=
  ⟨⟨W.i, W.with { W.running with stack := [1,2,3,4,5,6,7] }, ⟨⟨by decide +kernel, by decide +kernel, by decide +kernel, by decide +kernel⟩, by decide +kernel, by decide +kernel⟩, by decide +kernel⟩,
    ⟨W.i, W.with { W.running with stack := [1,2,3,4,5,6,7,8] }, ⟨⟨by decide +kernel, by decide +kernel, by decide +kernel, by decide +kernel⟩, by decide +kernel, by decide +kernel⟩, by decide +kernel⟩,
    ⟨W.i, 97, [], W.with { W.running with stack := [97] }, ⟨⟨by decide +kernel, by decide +kernel, by decide +kernel, by decide +kernel⟩, by decide +kernel, by decide +kernel⟩, by decide +kernel⟩,
    ⟨W.i, W.engine, ⟨⟨by decide +kernel, by decide +kernel, by decide +kernel, by decide +kernel⟩, by decide +kernel, by decide +kernel⟩, by decide +kernel⟩,
    ⟨.endProg W.i, W.i, W.with { W.running with pc := 105 }, by decide +kernel, ⟨by decide +kernel, by decide +kernel, by decide +kernel, by decide +kernel⟩, by decide +kernel⟩⟩

namespace BranchesSearchesAndVerdicts
abbrev waits (s : State) (i : Issue) : List Nat := mget (fun _ => []) s.engine.scanQ (i.e / 32)
abbrev scanning (s : State) (i : Issue) : Nat := ((List.range 32).filter (fun j => match (s.eng (32 * (i.e / 32) + j)).scan with | some q => q.scanning | none => false)).length

/-- States and operands that meet the hypotheses of each clause of BranchesSearchesAndVerdicts. -/
theorem test_BranchesSearchesAndVerdicts :
    (∃ (i : Issue) (s : State), Completes s i) ∧
    (∃ (i : Issue) (s : State), Completes s i) ∧
    (∃ (i : Issue) (s : State), Completes s i) ∧
    (∃ (i : Issue) (s : State), Completes s i) ∧
    (∃ (i : Issue) (s : State), Completes s i) ∧
    (∃ (i : Issue) (s : State), Completes s i) ∧
    (∃ (i : Issue) (s : State), Completes s i) ∧
    (∃ (i : Issue) (s : State), Completes s i) ∧
    (∃ (i : Issue) (s : State), Completes s i ∧ waits s i = [] ∧ scanning s i < 8) ∧
    (∃ (i : Issue) (s : State), Completes s i ∧ 8 ≤ scanning s i) ∧
    (∃ (e : Nat) (q : Scan) (s : State), s.clocked = true ∧ (s.eng e).scan = some q ∧ q.scanning = true) ∧
    (∃ (e : Nat) (s : State), (s.eng e).scan = none) ∧
    (∃ (i : Issue) (s : State), Completes s i) ∧
    (∃ (e : Nat) (s : State), s.clocked = true ∧ (s.eng e).run = true) ∧
    (∃ (e : Nat) (s : State), (s.eng e).run = false) ∧
    (∃ (c : Instr) (e : Nat) (n : Nat) (s : State), issueOf c = some { e := e, ecc := .uncorrectable n } ∧ Issues s e ∧ (s.eng e).pc < s.progEnds e) ∧
    (∃ (c : Instr) (i : Issue) (s : State), issueOf c = some i ∧ ((s.eng i.e).run = false ∨ (s.eng i.e).scan ≠ none ∨ s.fld (Reg.engineProg (s.eng i.e).program) Fld.engineProg_budget ≤ (s.eng i.e).cycles + 1)) :=
  ⟨⟨W.i, W.engine, ⟨⟨by decide +kernel, by decide +kernel, by decide +kernel, by decide +kernel⟩, by decide +kernel, by decide +kernel⟩⟩,
    ⟨W.i, W.engine, ⟨⟨by decide +kernel, by decide +kernel, by decide +kernel, by decide +kernel⟩, by decide +kernel, by decide +kernel⟩⟩,
    ⟨W.i, W.engine, ⟨⟨by decide +kernel, by decide +kernel, by decide +kernel, by decide +kernel⟩, by decide +kernel, by decide +kernel⟩⟩,
    ⟨W.i, W.engine, ⟨⟨by decide +kernel, by decide +kernel, by decide +kernel, by decide +kernel⟩, by decide +kernel, by decide +kernel⟩⟩,
    ⟨W.i, W.engine, ⟨⟨by decide +kernel, by decide +kernel, by decide +kernel, by decide +kernel⟩, by decide +kernel, by decide +kernel⟩⟩,
    ⟨W.i, W.engine, ⟨⟨by decide +kernel, by decide +kernel, by decide +kernel, by decide +kernel⟩, by decide +kernel, by decide +kernel⟩⟩,
    ⟨W.i, W.engine, ⟨⟨by decide +kernel, by decide +kernel, by decide +kernel, by decide +kernel⟩, by decide +kernel, by decide +kernel⟩⟩,
    ⟨W.i, W.to 61, ⟨⟨by decide +kernel, by decide +kernel, by decide +kernel, by decide +kernel⟩, by decide +kernel, by decide +kernel⟩⟩,
    ⟨W.i, W.to 59, ⟨⟨by decide +kernel, by decide +kernel, by decide +kernel, by decide +kernel⟩, by decide +kernel, by decide +kernel⟩, by decide +kernel, by decide +kernel⟩,
    ⟨W.i, W.scans, ⟨⟨by decide +kernel, by decide +kernel, by decide +kernel, by decide +kernel⟩, by decide +kernel, by decide +kernel⟩, by decide +kernel⟩,
    ⟨224, W.q, W.scans, by decide +kernel, by decide +kernel, by decide +kernel⟩,
    ⟨255, W.engine, by decide +kernel⟩,
    ⟨W.i, W.with { W.running with act := 1, value := 9 }, ⟨⟨by decide +kernel, by decide +kernel, by decide +kernel, by decide +kernel⟩, by decide +kernel, by decide +kernel⟩⟩,
    ⟨255, W.engine, by decide +kernel, by decide +kernel⟩,
    ⟨254, W.engine, by decide +kernel⟩,
    ⟨.endProg { e := 255, ecc := .uncorrectable 1 }, 255, 1, W.engine, by decide +kernel, ⟨by decide +kernel, by decide +kernel, by decide +kernel, by decide +kernel⟩, by decide +kernel⟩,
    ⟨.endProg W.i, W.i, W.with { W.running with cycles := 49 }, by decide +kernel, by decide +kernel⟩⟩

end BranchesSearchesAndVerdicts

end Sys2Proof.Tests.Q09

namespace Sys2Proof.Tests.Q10

/-- A packet of port 95 for program 254, of 64 bytes. -/
def W.desc : Desc := { Desc.none with stamp := { Stamp.none with tc := 7 }, bytes := List.replicate 60 65 ++ [1, 2, 3, 4], port := 95, slice := 11, program := 254 }
def W.eng (pol : Nat) : State :=
  let s := W.f (W.f W.run (Reg.engineProg 254) Fld.engineProg_valid 1) (Reg.engineTcPolicy 7) Fld.engineTcPolicy_policy pol
  { s with lookup := { s.lookup with engQ := [(11, [W.desc])] } }
def W.open (s : State) : State := { W.f s (Reg.engineProg 254) Fld.engineProg_clusters 128 with gov := { s.gov with purse2 := 40000 } }
def W.hold (s : State) : State := s.setEngHold 11 [W.desc]
def W.asked : State := (W.f W.run (Reg.engineProg 254) Fld.engineProg_entry 95).setCq 7 [(11, 5)] |>.setOut 11 [{ seq := 5, cluster := 7, d := W.desc, ended := false }]
def W.back (ep : Nat) : State := W.run.setOut 11 [{ seq := 5, cluster := 7, d := { W.desc with epoch := ep }, ended := true }, { seq := 6, cluster := 7, d := W.desc, ended := true }]
def W.drain : State := W.f W.run (Reg.engineClusterCtrl 7) Fld.engineClusterCtrl_drain 1
/-- A packet of that port for port 0, in the bridge queue of slice 11; node 0 selects queue 800 + class. -/
def W.to (n : Nat) (dk : Nat) : Desc := { W.desc with stamp := { W.desc.stamp with dkind := dk }, bytes := List.replicate n 65 }
def W.bridge (d : Desc) : State :=
  let s := W.f (W.f (W.f W.run (Reg.linePortCfg 0) Fld.linePortCfg_mode 1) (Reg.trafficSchedPort 0) Fld.trafficSchedPort_valid 1) (Reg.trafficSchedPort 0) Fld.trafficSchedPort_qbase 800
  let s := (s.setReg (Reg.trafficAdmitProfileHi 0) (BitVec.allOnes 64))
  let s := W.f (W.f s (Reg.trafficPortTcLimit 95 7) Fld.trafficPortTcLimit_ingLimit 10) (Reg.trafficPortTcLimit 0 7) Fld.trafficPortTcLimit_egrLimit 10
  { s with lookup := { s.lookup with bridgeQ := [(11, [d, W.desc])] } }
def W.opened (o : Nat) : State := (W.bridge (W.to 64 0)).setQueue 807 { Queue.empty with open_ := some (67108864, o) }
def W.quotas (s : State) (a : Nat) : State := W.f (W.f s (Reg.trafficQuota 11) Fld.trafficQuota_ondieQuota a) Reg.trafficPoolStatus Fld.trafficPoolStatus_ondieFree a
def W.grant : State × Option Nat := State.poolGrant { W.quotas (W.bridge (W.to 64 0)) 9 with lookup := { (W.bridge (W.to 64 0)).lookup with bridgeQ := [(11, [W.desc])] } } 11 0 0 807
def W.stream (cut : Bool) : Stream := { id := 1, d := { W.to 300 0 with stream := 1 }, q := some 807, req := 11, chain := [67108864], cut := cut }
def W.streams : State := { W.run.setStreams 11 [W.stream false] with traffic := { (W.run.setStreams 11 [W.stream false]).traffic with bufs := [(67108864, { ownerKind := 0, owner := 807, req := 11, replicas := 0 })] } }
def W.rec : Rec := { d := W.desc, size := 96, ctx := none, bufs := [67108864], start := (67108864, 0) }
def W.departs (n : Nat) : State := { W.run.setDeparting n [(807, W.rec), (807, W.rec)] with traffic := { (W.run.setDeparting n [(807, W.rec), (807, W.rec)]).traffic with bufs := [(67108864, { ownerKind := 0, owner := 807, req := 11, replicas := 0 })] } }
def W.tx : TxPkt := { bytes := W.desc.bytes, tc := 3, epoch := 0, counted := false, node := 95, win := 64, twoStep := false, tag := 7, stomp := false, stream := 0 }
/-- Queue 800 is an egress queue of group 5 of port node 95, and holds a record; the port is due to be closed. -/
def W.chained : Queue := { Queue.empty with recs := [W.rec] }
def W.close : State :=
  let s := (W.run.tblPut 0x000150006410 (2 * 2 ^ 34)).tblPut 0x0001510000A0 (2 ^ 63 + 2 ^ 44 * 800 + 2 ^ 29 * 95)
  { s.setQueue 800 W.chained with line := { s.line with closeDue := [95] } }
def W.flush (c : FlushChain) : State := { W.run with traffic := { W.run.traffic with flush := [c], flushFreed := [(95, 8)], bufs := [(67108864, { ownerKind := 0, owner := 800, req := 11, replicas := 0 })] } }
def W.chain : FlushChain := { q := 800, port := some 95, recs := [], bufs := [67108864] }



namespace EnginesTakeAndReturnPackets
abbrev front (s : State) (k : Nat) (d : Desc) (rest : List Desc) : Prop := s.clocked = true ∧ s.engOf k = d :: rest
abbrev held (s : State) (k : Nat) (d : Desc) (rest : List Desc) : Prop := s.clocked = true ∧ s.engHold k = d :: rest
abbrev runs (d : Desc) : Prop := d.stamp.dkind ≠ 3 ∧ d.fragSlot = none
abbrev gets (s : State) (d : Desc) (c : Nat) : Prop := s.pickCluster d.program = some c ∧ (s.outOf d.slice).length < 512 ∧ s.canSpend 2 (s.dispatchCost d.program) = true
abbrev policy (s : State) (d : Desc) : Nat := s.fld (Reg.engineTcPolicy d.stamp.tc) Fld.engineTcPolicy_policy

/-- States and operands that meet the hypotheses of each clause of EnginesTakeAndReturnPackets. -/
theorem test_EnginesTakeAndReturnPackets :
    (∃ (k : Nat) (s : State), s.engOf k = []) ∧
    (∃ (k : Nat) (d : Desc) (rest : List Desc) (s : State), front s k d rest ∧ runs d ∧ s.flag (Reg.engineProg d.program) Fld.engineProg_valid = false) ∧
    (∃ (k : Nat) (c : Nat) (d : Desc) (rest : List Desc) (s : State), front s k d rest ∧ s.flag (Reg.engineProg d.program) Fld.engineProg_valid = true ∧ gets s d c) ∧
    (∃ (k : Nat) (d : Desc) (rest : List Desc) (s : State), front s k d rest ∧ runs d ∧ s.flag (Reg.engineProg d.program) Fld.engineProg_valid = true ∧ s.pickCluster d.program = none ∧ policy s d = 0) ∧
    (∃ (k : Nat) (d : Desc) (rest : List Desc) (s : State), front s k d rest ∧ s.flag (Reg.engineProg d.program) Fld.engineProg_valid = true ∧ s.pickCluster d.program = none ∧ policy s d = 1 ∧ (s.engHold k).length < 64) ∧
    (∃ (k : Nat) (d : Desc) (rest : List Desc) (s : State), front s k d rest ∧ runs d ∧ s.flag (Reg.engineProg d.program) Fld.engineProg_valid = true ∧ s.pickCluster d.program = none ∧ policy s d = 2) ∧
    (∃ (k : Nat) (s : State), s.engHold k = []) ∧
    (∃ (k : Nat) (c : Nat) (d : Desc) (rest : List Desc) (s : State), held s k d rest ∧ gets s d c) ∧
    (∃ (k : Nat) (d : Desc) (rest : List Desc) (s : State), held s k d rest ∧ s.pickCluster d.program = none) ∧
    (∃ (k : Nat) (d : Desc) (rest : List Desc) (s : State), held s k d rest ∧ runs d ∧ s.flag (Reg.engineTcPolicy d.stamp.tc) Fld.engineTcPolicy_expire = false) ∧
    (∃ (e : Nat) (k : Nat) (q : Nat) (o : Dispatched) (rest : List (Nat × Nat)) (s : State), s.clocked = true ∧ s.cq (e / 32) = (k, q) :: rest ∧ (s.eng e).run = false ∧ (s.outOf k).find? (fun o => o.seq == q) = some o) ∧
    (∃ (e : Nat) (s : State), (s.cq (e / 32) = [] ∨ (s.eng e).run = true)) ∧
    (∃ (k : Nat) (s : State), (∀ o ∈ s.outOf k, o.ended = false)) ∧
    (∃ (k : Nat) (o : Dispatched) (rest : List Dispatched) (s : State), s.clocked = true ∧ s.outOf k = o :: rest ∧ o.ended = true ∧ (∀ y ∈ rest, y.seq ≠ o.seq) ∧ s.epochLive o.d.epoch = true ∧ o.d.fragSlot = none ∧ o.d.stamp.dkind ≠ 3) ∧
    (∃ (k : Nat) (o : Dispatched) (rest : List Dispatched) (s : State), s.clocked = true ∧ s.outOf k = o :: rest ∧ o.ended = true ∧ (∀ y ∈ rest, y.seq ≠ o.seq) ∧ s.epochLive o.d.epoch = false) ∧
    (∃ (s : State), s.clocked = true) ∧
    (∃ (c : Nat) (s : State), s.clocked = true ∧ s.flag (Reg.engineClusterCtrl c) Fld.engineClusterCtrl_drain = true ∧ s.fld (Reg.bistSegStatus (52 + c)) Fld.bistSegStatus_state < 3 ∧ s.bist.barred.contains (500 + c) = false) ∧
    (∃ (c : Nat) (s : State), s.fld (Reg.bistSegStatus (52 + c)) Fld.bistSegStatus_state < 3 ∧ s.clocked = true ∧ s.bist.barred.contains (500 + c) = true) ∧
    (∃ (c : Nat) (s : State), s.clocked = true ∧ s.flag (Reg.engineClusterCtrl c) Fld.engineClusterCtrl_drain = true ∧ s.cq c = [] ∧ s.busy c = 0 ∧ s.flag (Reg.engineClusterStatus c) Fld.engineClusterStatus_drained = false) ∧
    (∃ (c : Nat) (s : State), (s.flag (Reg.engineClusterCtrl c) Fld.engineClusterCtrl_drain = false ∨ s.busy c ≠ 0 ∨ s.flag (Reg.engineClusterStatus c) Fld.engineClusterStatus_drained = true)) :=
  ⟨⟨11, W.run, by decide +kernel⟩,
    ⟨11, W.desc, [], W.f (W.eng 0) (Reg.engineProg 254) Fld.engineProg_valid 0, ⟨by decide +kernel, by decide +kernel⟩, ⟨by decide +kernel, by decide +kernel⟩, by decide +kernel⟩,
    ⟨11, 7, W.desc, [], W.open (W.eng 0), ⟨by decide +kernel, by decide +kernel⟩, by decide +kernel, ⟨by decide +kernel, by decide +kernel, by decide +kernel⟩⟩,
    ⟨11, W.desc, [], W.eng 0, ⟨by decide +kernel, by decide +kernel⟩, ⟨by decide +kernel, by decide +kernel⟩, by decide +kernel, by decide +kernel, by decide +kernel⟩,
    ⟨11, W.desc, [], W.eng 1, ⟨by decide +kernel, by decide +kernel⟩, by decide +kernel, by decide +kernel, by decide +kernel, by decide +kernel⟩,
    ⟨11, W.desc, [], W.eng 2, ⟨by decide +kernel, by decide +kernel⟩, ⟨by decide +kernel, by decide +kernel⟩, by decide +kernel, by decide +kernel, by decide +kernel⟩,
    ⟨11, W.run, by decide +kernel⟩,
    ⟨11, 7, W.desc, [], W.hold (W.open (W.eng 0)), ⟨by decide +kernel, by decide +kernel⟩, ⟨by decide +kernel, by decide +kernel, by decide +kernel⟩⟩,
    ⟨11, W.desc, [], W.hold (W.eng 0), ⟨by decide +kernel, by decide +kernel⟩, by decide +kernel⟩,
    ⟨11, W.desc, [], W.f (W.hold (W.eng 0)) (Reg.engineTcPolicy 7) Fld.engineTcPolicy_expire 0, ⟨by decide +kernel, by decide +kernel⟩, ⟨by decide +kernel, by decide +kernel⟩, by decide +kernel⟩,
    ⟨255, 11, 5, { seq := 5, cluster := 7, d := W.desc, ended := false }, [], W.asked, by decide +kernel, by decide +kernel, by decide +kernel, by decide +kernel⟩,
    ⟨255, W.run, by decide +kernel⟩,
    ⟨11, W.asked, by decide +kernel⟩,
    ⟨11, { seq := 5, cluster := 7, d := W.desc, ended := true }, [{ seq := 6, cluster := 7, d := W.desc, ended := true }], W.back 0, by decide +kernel, by decide +kernel, by decide +kernel, by decide +kernel, by decide +kernel, by decide +kernel, by decide +kernel⟩,
    ⟨11, { seq := 5, cluster := 7, d := { W.desc with epoch := 9 }, ended := true }, [{ seq := 6, cluster := 7, d := W.desc, ended := true }], W.back 9, by decide +kernel, by decide +kernel, by decide +kernel, by decide +kernel, by decide +kernel⟩,
    ⟨W.run, by decide +kernel⟩,
    ⟨7, W.drain, by decide +kernel, by decide +kernel, by decide +kernel, by decide +kernel⟩,
    ⟨7, { W.run with bist := { W.run.bist with barred := [507] } }, by decide +kernel, by decide +kernel, by decide +kernel⟩,
    ⟨7, W.drain, by decide +kernel, by decide +kernel, by decide +kernel, by decide +kernel, by decide +kernel⟩,
    ⟨7, W.run, by decide +kernel⟩⟩

end EnginesTakeAndReturnPackets

namespace PacketsAreAdmittedAndDepart
abbrev front (s : State) (k : Nat) (d : Desc) (rest : List Desc) : Prop := s.clocked = true ∧ s.bridgeOf k = d :: rest ∧ s.bridgeCarries k false = true ∧ d.park = []
abbrev popped (s : State) (k : Nat) (rest : List Desc) : State := { s with lookup := { s.lookup with bridgeQ := mput (fun _ => []) s.lookup.bridgeQ k rest } }
abbrev seen (s : State) (d : Desc) : Desc := { d with park := [], rate := s.portRate d.port }
abbrev unicast (d : Desc) : Prop := d.stamp.dkind = 0 ∨ d.stamp.dkind = 2

/-- States and operands that meet the hypotheses of each clause of PacketsAreAdmittedAndDepart. -/
theorem test_PacketsAreAdmittedAndDepart :
    (∃ (k : Nat) (s : State), (s.bridgeOf k = [] ∨ s.bridgeCarries k false = false)) ∧
    (∃ (s : State), s.fabric.inQ = []) ∧
    (∃ (k : Nat) (d : Desc) (rest : List Desc) (s : State), front s k d rest ∧ unicast d ∧ (popped s k rest).target (seen s d) = .none) ∧
    (∃ (k : Nat) (q : Nat) (c : Ctr) (d : Desc) (rest : List Desc) (s : State), front s k d rest ∧ unicast d ∧ (popped s k rest).target (seen s d) = .queue q ∧ (popped s k rest).admitCheck (seen s d) q (recSize d.bytes.length) ((popped s k rest).isWhole (seen s d)) false = some c) ∧
    (∃ (k : Nat) (q : Nat) (h : Nat) (o : Nat) (d : Desc) (rest : List Desc) (s : State), front s k d rest ∧ unicast d ∧ (popped s k rest).target (seen s d) = .queue q ∧ (popped s k rest).isWhole (seen s d) = true ∧ (popped s k rest).admitCheck (seen s d) q (recSize d.bytes.length) true false = none ∧ (s.queue q).open_ = some (h, o) ∧ o + recSize d.bytes.length ≤ 2016) ∧
    (∃ (k : Nat) (q : Nat) (h : Nat) (u : State) (d : Desc) (rest : List Desc) (s : State), front s k d rest ∧ unicast d ∧ (popped s k rest).target (seen s d) = .queue q ∧ (popped s k rest).isWhole (seen s d) = true ∧ (popped s k rest).admitCheck (seen s d) q (recSize d.bytes.length) true false = none ∧ (s.queue q).open_ = none ∧ recSize d.bytes.length ≤ 2016 ∧ (popped s k rest).poolGrant (seen s d).requester ((popped s k rest).poolOf ((popped s k rest).qProfile q)) 0 q = (u, some h)) ∧
    (∃ (k : Nat) (s : State), s.streamsOf k = []) ∧
    (∃ (k : Nat) (q : Nat) (x : Stream) (rest : List Stream) (s : State), s.clocked = true ∧ s.streamsOf k = x :: rest ∧ x.q = some q ∧ x.cut = false) ∧
    (∃ (k : Nat) (q : Nat) (x : Stream) (rest : List Stream) (s : State), s.clocked = true ∧ s.streamsOf k = x :: rest ∧ x.q = some q ∧ x.cut = false ∧ x.d.bad = false ∧ (s.chan k false).fenced = false ∧ recSize x.d.bytes.length ≤ 2016 * x.chain.length) ∧
    (∃ (n : Nat) (s : State), s.departingOf n = []) ∧
    (∃ (n : Nat) (q : Nat) (r : Rec) (rest : List (Nat × Rec)) (s : State), s.clocked = true ∧ n < 96 ∧ s.departingOf n = (q, r) :: rest) ∧
    (∃ (q : Nat) (r : Rec) (rest : List (Nat × Rec)) (s : State), s.clocked = true ∧ s.departingOf 480 = (q, r) :: rest) ∧
    (∃ (st : Nat), st ≠ 2 ∧ st ≠ 3) ∧
    (∃ (n : Nat) (q : Nat) (r : Rec) (rest : List (Nat × Rec)) (s : State), s.clocked = true ∧ s.departingOf n = (q, r) :: rest) ∧
    (∃ (p : Nat) (f : TxPkt) (rest : List TxPkt) (s : State), s.clocked = true ∧ p < 96 ∧ s.departingOf p = [] ∧ (s.port p).txQ = f :: rest) ∧
    (∃ (r : Nat) (a : Nat) (b : Nat), (24 ≤ r ∨ 32768 < a ∨ 50331648 < b)) ∧
    (∃ (r : Nat) (a : Nat) (b : Nat) (s : State), s.clocked = true ∧ r < 24 ∧ a ≤ 32768 ∧ b ≤ 50331648) ∧
    (∃ (kind : Nat) (owner : Nat) (h : Nat) (s : State), ((s.buf h).ownerKind ≠ kind ∨ (s.buf h).owner ≠ owner)) :=
  ⟨⟨11, W.run, by decide +kernel⟩,
    ⟨W.run, by decide +kernel⟩,
    ⟨11, W.to 64 2, [W.desc], W.bridge (W.to 64 2), ⟨by decide +kernel, by decide +kernel, by decide +kernel, by decide +kernel⟩, by decide +kernel, by decide +kernel⟩,
    ⟨11, 807, .trafficAdmitQueueLimit, W.to 64 0, [W.desc], (W.bridge (W.to 64 0)).setReg (Reg.trafficAdmitProfileHi 0) 0, ⟨by decide +kernel, by decide +kernel, by decide +kernel, by decide +kernel⟩, by decide +kernel, by decide +kernel, by decide +kernel⟩,
    ⟨11, 807, 67108864, 1920, W.to 64 0, [W.desc], W.opened 1920, ⟨by decide +kernel, by decide +kernel, by decide +kernel, by decide +kernel⟩, by decide +kernel, by decide +kernel, by decide +kernel, by decide +kernel, by decide +kernel, by decide +kernel⟩,
    ⟨11, 807, 67108864, W.grant.1, W.to 64 0, [W.desc], W.quotas (W.bridge (W.to 64 0)) 9, ⟨by decide +kernel, by decide +kernel, by decide +kernel, by decide +kernel⟩, by decide +kernel, by decide +kernel, by decide +kernel, by decide +kernel, by decide +kernel, by decide +kernel, by decide +kernel⟩,
    ⟨11, W.run, by decide +kernel⟩,
    ⟨11, 807, W.stream false, [], W.streams, by decide +kernel, by decide +kernel, by decide +kernel, by decide +kernel⟩,
    ⟨11, 807, W.stream false, [], W.streams, by decide +kernel, by decide +kernel, by decide +kernel, by decide +kernel, by decide +kernel, by decide +kernel, by decide +kernel⟩,
    ⟨95, W.run, by decide +kernel⟩,
    ⟨95, 807, W.rec, [(807, W.rec)], W.departs 95, by decide +kernel, by decide +kernel, by decide +kernel⟩,
    ⟨807, W.rec, [(807, W.rec)], W.departs 480, by decide +kernel, by decide +kernel⟩,
    ⟨1, by decide +kernel, by decide +kernel⟩,
    ⟨95, 807, W.rec, [(807, W.rec)], W.departs 95, by decide +kernel, by decide +kernel⟩,
    ⟨95, W.tx, [], W.run.setPort 95 { LinePort.idle with txQ := [W.tx] }, by decide +kernel, by decide +kernel, by decide +kernel, by decide +kernel⟩,
    ⟨24, 1, 1, by decide +kernel⟩,
    ⟨23, 32768, 0, W.f (W.f W.run (Reg.trafficQuotaUsed 23) Fld.trafficQuotaUsed_hbmUsed 1) (Reg.trafficQuotaUsed 23) Fld.trafficQuotaUsed_overOndie 1, by decide +kernel, by decide +kernel, by decide +kernel, by decide +kernel⟩,
    ⟨0, 1, 67141631, W.run, by decide +kernel⟩⟩

end PacketsAreAdmittedAndDepart

/-- States and operands that meet the hypotheses of each clause of PortsThatGoDownFlushTheirQueues. -/
theorem test_PortsThatGoDownFlushTheirQueues :
    (∃ (p : Nat) (s : State), s.line.closeDue.contains p = false) ∧
    (∃ (p : Nat) (s : State), s.clocked = true ∧ s.line.closeDue.contains p = true) ∧
    (∃ (p : Nat) (q : Nat) (x : Queue) (s : State), s.clocked = true ∧ s.line.closeDue.contains p = true ∧ s.traffic.queues = [(q, x)] ∧ s.qKind q = 2 ∧ s.qPort q = some p ∧ x.recs ≠ [] ∧ x.wait = none ∧ s.traffic.flush = [] ∧ s.traffic.departing = [] ∧ (s.voqMaps.find? (fun m => m.1 == s.self && decide (p < m.2.2))) = none) ∧
    (∃ (d : Nat) (p : Nat) (s : State), s.fabric.closeVoq.contains (d, p) = false) ∧
    (∃ (d : Nat) (p : Nat) (s : State), s.clocked = true ∧ s.fabric.closeVoq.contains (d, p) = true) ∧
    (∃ (s : State), s.traffic.flush = []) ∧
    (∃ (c : FlushChain) (rest : List FlushChain) (s : State), s.clocked = true ∧ s.traffic.flush = c :: rest ∧ c.recs = []) ∧
    (∃ (c : FlushChain) (p : Nat) (s : State), s.clocked = true ∧ s.traffic.flush = [c] ∧ c.recs = [] ∧ c.port = some p ∧ s.traffic.flushWait = []) ∧
    (∃ (s : State), (s.traffic.flushWait = [] ∨ 4096 ≤ s.traffic.flush.length)) ∧
    (∃ (q : Nat) (rest : List Nat) (s : State), s.clocked = true ∧ s.traffic.flushWait = q :: rest ∧ s.traffic.flush.length < 4096) :=
  ⟨⟨95, W.run, by decide +kernel⟩,
    ⟨95, W.close, by decide +kernel, by decide +kernel⟩,
    ⟨95, 800, W.chained, W.close, by decide +kernel, by decide +kernel, by decide +kernel, by decide +kernel, by decide +kernel, by decide +kernel, by decide +kernel, by decide +kernel, by decide +kernel, by decide +kernel⟩,
    ⟨4095, 95, W.run, by decide +kernel⟩,
    ⟨4095, 95, { W.run with fabric := { W.run.fabric with closeVoq := [(4095, 95)] } }, by decide +kernel, by decide +kernel⟩,
    ⟨W.run, by decide +kernel⟩,
    ⟨W.chain, [], W.flush W.chain, by decide +kernel, by decide +kernel, by decide +kernel⟩,
    ⟨W.chain, 95, W.flush W.chain, by decide +kernel, by decide +kernel, by decide +kernel, by decide +kernel, by decide +kernel⟩,
    ⟨W.run, by decide +kernel⟩,
    ⟨800, [], { W.close.setQueue 800 { W.chained with wait := some 95 } with traffic := { (W.close.setQueue 800 { W.chained with wait := some 95 }).traffic with flushWait := [800] } }, by decide +kernel, by decide +kernel, by decide +kernel⟩⟩

end Sys2Proof.Tests.Q10

namespace Sys2Proof.Tests.Q11

/-- Session 1 of peer 0, an operator of version 3. -/
def W.session : Session := Session.mk 1 0 3 0 0 true 1 0 0 [] 0 0 false 0 0

/-- The device running with that session open, and its first request. -/
def W.fcp : State := { W.run with fcp := { W.run.fcp with sessions := [W.session] } }
def W.hdr : FcpHdr := { session := 1, request := 9, seq := 1, tagOk := true }
/-- Controller `x` in state `st`. -/
def W.ctl (x st : Nat) : State := W.f W.run (Reg.hbmStatus x) Fld.hbmStatus_state st
/-- A request of two bursts, and controller 127 running with it queued and its row open. -/
def W.req (w : Bool) : HbmReq := { write := w, hint := 1, cls := 1, len := 1, burst := 5, tag := 7, data := List.replicate 64 171 }
def W.wait (w : Bool) : HbmWait := { r := W.req w, at_ := 0 }
def W.queued (w : Bool) (mode : Nat) : State :=
  (W.f (W.ctl 127 1) (Reg.hbmCtrl 127) Fld.hbmCtrl_mode mode).setCtl 127 { HbmCtl.idle with queue := [W.wait w], open_ := [(bankOf 160, rowOf 160 + 1)] }
def W.full : State := (W.ctl 127 1).setCtl 127 { HbmCtl.idle with queue := List.replicate 64 (W.wait true) }
def W.poison : State := (W.queued false 0).setReg (Reg.hbmPoison 127 15) (BitVec.ofNat 64 (2 ^ 63 + 2 ^ 40 * 6))
def W.pass (x st : Nat) : State := (W.f (W.ctl x st) (Reg.hbmStackStatus (x / 64)) Fld.hbmStackStatus_passActive 1).setPass (x / 64) { next := x % 64, due := false }



namespace HbmRequestsAreServed
abbrev waits (s : State) (x : Nat) (r : HbmReq) (w : HbmWait) : Prop := s.clocked = true ∧ (s.ctl x).queue.find? (fun y => y.r.tag == r.tag) = some w ∧ w.r = r ∧ s.hbmState x = 1 ∧ s.hbmReady x w = true
abbrev opened (s : State) (x : Nat) (r : HbmReq) : Prop := (s.ctl x).row (bankOf (32 * r.burst)) = rowOf (32 * r.burst) + 1
abbrev clean (s : State) (x : Nat) (r : HbmReq) : Prop := (s.poison x).any (fun p => decide (r.burst ≤ p.2) && decide (p.2 ≤ r.burst + r.len)) = false

/-- States and operands that meet the hypotheses of each clause of HbmRequestsAreServed. -/
theorem test_HbmRequestsAreServed :
    (∃ (r : HbmReq) (s : State), s.clocked = true ∧ reqOk r = false) ∧
    (∃ (x : Nat) (r : HbmReq) (s : State), s.clocked = true ∧ reqOk r = true ∧ s.hbmServes x = false) ∧
    (∃ (x : Nat) (r : HbmReq) (s : State), reqOk r = true ∧ s.hbmServes x = true ∧ s.segTested (ctlSeg x) = false ∧ 64 ≤ (s.ctl x).queue.length) ∧
    (∃ (x : Nat) (r : HbmReq) (s : State), s.clocked = true ∧ reqOk r = true ∧ s.hbmServes x = true ∧ s.segTested (ctlSeg x) = false ∧ (s.ctl x).queue.length < 64 ∧ (s.fld (Reg.hbmCtrl x) Fld.hbmCtrl_mode = 0 ∨ r.write = true ∨ (s.ctl x).forward r = none)) ∧
    (∃ (x : Nat) (r : HbmReq) (w : HbmReq) (s : State), s.clocked = true ∧ reqOk r = true ∧ s.hbmServes x = true ∧ s.segTested (ctlSeg x) = false ∧ (s.ctl x).queue.length < 64 ∧ s.fld (Reg.hbmCtrl x) Fld.hbmCtrl_mode = 1 ∧ r.write = false ∧ (s.ctl x).forward r = some w) ∧
    (∃ (x : Nat) (tag : Nat) (s : State), ((s.ctl x).queue.find? (fun y => y.r.tag == tag) = none ∨ s.hbmState x ≠ 1)) ∧
    (∃ (x : Nat) (r : HbmReq) (w : HbmWait) (s : State), waits s x r w ∧ opened s x r ∧ clean s x r ∧ r.write = false ∧ x < 128) ∧
    (∃ (x : Nat) (r : HbmReq) (w : HbmWait) (s : State), waits s x r w ∧ opened s x r ∧ (s.poison x).any (fun p => decide (r.burst ≤ p.2) && decide (p.2 ≤ r.burst + r.len)) = true ∧ r.write = false) ∧
    (∃ (x : Nat) (r : HbmReq) (w : HbmWait) (s : State), waits s x r w ∧ opened s x r ∧ r.write = true ∧ x < 128) ∧
    (∃ (x : Nat) (r : HbmReq) (w : HbmWait) (s : State), waits s x r w ∧ (s.ctl x).row (bankOf (32 * r.burst)) ≠ rowOf (32 * r.burst) + 1 ∧ s.canSpend r.cls (1000 + 320 * (r.len + 1)) = false) ∧
    (∃ (x : Nat) (b : Nat) (s : State), s.clocked = true ∧ s.hbmServes x = true ∧ (s.ctl x).row b ≠ 0) ∧
    (∃ (x : Nat) (b : Nat) (s : State), (s.hbmServes x = false ∨ (s.ctl x).row b = 0)) ∧
    (∃ (x : Nat) (s : State), s.clocked = true ∧ s.hbmServes x = true ∧ s.fld (Reg.hbmCtrl x) Fld.hbmCtrl_mode = 1 ∧ (s.ctl x).queue.any (fun w => w.r.write) = true) ∧
    (∃ (x : Nat) (s : State), s.clocked = true ∧ s.hbmState x = 3) ∧
    (∃ (x : Nat) (b : Nat) (s : State), s.clocked = true ∧ s.hbmServes x = true ∧ (s.ctl x).owed = [] ∧ 1 < s.fld (Reg.hbmCtrl x) Fld.hbmCtrl_refUrgent ∧ (s.ctl x).busy b = false) ∧
    (∃ (x : Nat) (b : Nat) (s : State), s.clocked = true ∧ s.hbmServes x = true ∧ (s.ctl x).owed = [] ∧ 1 < s.fld (Reg.hbmCtrl x) Fld.hbmCtrl_refUrgent ∧ (s.ctl x).busy b = true) :=
  ⟨⟨{ W.req true with hint := 3 }, W.ctl 127 1, by decide +kernel, by decide +kernel⟩,
    ⟨511, W.req true, W.ctl 511 3, by decide +kernel, by decide +kernel, by decide +kernel⟩,
    ⟨127, W.req true, W.full, by decide +kernel, by decide +kernel, by decide +kernel, by decide +kernel⟩,
    ⟨127, W.req true, W.queued true 1, by decide +kernel, by decide +kernel, by decide +kernel, by decide +kernel, by decide +kernel, by decide +kernel⟩,
    ⟨127, W.req false, W.req true, W.queued true 1, by decide +kernel, by decide +kernel, by decide +kernel, by decide +kernel, by decide +kernel, by decide +kernel, by decide +kernel, by decide +kernel⟩,
    ⟨127, 8, W.queued true 1, by decide +kernel⟩,
    ⟨127, W.req false, W.wait false, W.queued false 0, ⟨by decide +kernel, by decide +kernel, by decide +kernel, by decide +kernel, by decide +kernel⟩, by decide +kernel, by decide +kernel, by decide +kernel, by decide +kernel⟩,
    ⟨127, W.req false, W.wait false, W.poison, ⟨by decide +kernel, by decide +kernel, by decide +kernel, by decide +kernel, by decide +kernel⟩, by decide +kernel, by decide +kernel, by decide +kernel⟩,
    ⟨127, W.req true, W.wait true, W.queued true 0, ⟨by decide +kernel, by decide +kernel, by decide +kernel, by decide +kernel, by decide +kernel⟩, by decide +kernel, by decide +kernel, by decide +kernel⟩,
    ⟨127, W.req true, W.wait true, (W.ctl 127 1).setCtl 127 { HbmCtl.idle with queue := [W.wait true] }, ⟨by decide +kernel, by decide +kernel, by decide +kernel, by decide +kernel, by decide +kernel⟩, by decide +kernel, by decide +kernel⟩,
    ⟨127, 0, W.queued true 0, by decide +kernel, by decide +kernel, by decide +kernel⟩,
    ⟨127, 1, W.queued true 0, by decide +kernel⟩,
    ⟨127, W.queued true 1, by decide +kernel, by decide +kernel, by decide +kernel, by decide +kernel⟩,
    ⟨127, W.ctl 127 3, by decide +kernel, by decide +kernel⟩,
    ⟨127, 15, W.f (W.queued true 0) (Reg.hbmCtrl 127) Fld.hbmCtrl_refUrgent 2, by decide +kernel, by decide +kernel, by decide +kernel, by decide +kernel, by decide +kernel⟩,
    ⟨127, 0, W.f (W.queued true 0) (Reg.hbmCtrl 127) Fld.hbmCtrl_refUrgent 2, by decide +kernel, by decide +kernel, by decide +kernel, by decide +kernel, by decide +kernel⟩⟩

end HbmRequestsAreServed

namespace HbmControllersFreezeAndReturn
abbrev st (n : Nat) : Nat := Reg.hbmStackStatus n
abbrev active (s : State) (n : Nat) : Bool := s.flag (st n) Fld.hbmStackStatus_passActive

/-- States and operands that meet the hypotheses of each clause of HbmControllersFreezeAndReturn. -/
theorem test_HbmControllersFreezeAndReturn :
    (∃ (n : Nat) (s : State), s.clocked = true ∧ n < 8 ∧ active s n = false) ∧
    (∃ (n : Nat) (s : State), s.clocked = true ∧ active s n = false) ∧
    (∃ (n : Nat) (s : State), s.clocked = true ∧ active s n = true) ∧
    (∃ (x : Nat) (s : State), (active s (x / 64) = false ∨ (s.hbmPass (x / 64)).next ≠ x % 64)) ∧
    (∃ (x : Nat) (s : State), s.clocked = true ∧ x < 512 ∧ active s (x / 64) = true ∧ (s.hbmPass (x / 64)).next = x % 64 ∧ x % 64 < 63 ∧ s.hbmState x = 1 ∧ s.segTested (ctlSeg x) = false) ∧
    (∃ (x : Nat) (s : State), s.clocked = true ∧ x < 512 ∧ active s (x / 64) = true ∧ (s.hbmPass (x / 64)).next = x % 64 ∧ s.hbmState x = 1 ∧ s.segTested (ctlSeg x) = false) ∧
    (∃ (x : Nat) (s : State), s.clocked = true ∧ x < 512 ∧ s.hbmState x = 2) ∧
    (∃ (x : Nat) (s : State), s.clocked = true ∧ x < 512 ∧ (s.hbmState x = 1 ∨ s.hbmState x = 2)) ∧
    (∃ (x : Nat) (tag : Nat) (w : HbmWait) (s : State), s.clocked = true ∧ x < 512 ∧ s.hbmState x = 1 ∧ (s.ctl x).queue.find? (fun w => w.r.tag == tag) = some w) ∧
    (∃ (h : FcpHdr) (y : Session) (x : Nat) (s : State), s.clocked = true ∧ x < 512 ∧ Granted s h y 0x10 privWrite ∧ s.readBar (Reg.hbmSyndrome x) = 0) ∧
    (∃ (x : Nat) (s : State), s.clocked = true ∧ x < 512) ∧
    (∃ (x : Nat) (s : State), s.clocked = true ∧ x < 512 ∧ s.hbmState x = 3) ∧
    (∃ (x : Nat) (s : State), s.hbmState x ≠ 4) ∧
    (∃ (x : Nat) (s : State), s.clocked = true ∧ x < 512 ∧ s.hbmState x = 4) ∧
    (∃ (x : Nat) (s : State), s.clocked = true ∧ x < 512 ∧ s.hbmState x = 4) :=
  ⟨⟨7, W.run, by decide +kernel, by decide +kernel, by decide +kernel⟩,
    ⟨7, W.run, by decide +kernel, by decide +kernel⟩,
    ⟨7, W.pass 500 1, by decide +kernel, by decide +kernel⟩,
    ⟨501, W.pass 500 1, by decide +kernel⟩,
    ⟨500, W.pass 500 1, by decide +kernel, by decide +kernel, by decide +kernel, by decide +kernel, by decide +kernel, by decide +kernel, by decide +kernel⟩,
    ⟨511, W.pass 511 1, by decide +kernel, by decide +kernel, by decide +kernel, by decide +kernel, by decide +kernel, by decide +kernel⟩,
    ⟨511, W.ctl 511 2, by decide +kernel, by decide +kernel, by decide +kernel⟩,
    ⟨127, W.queued true 0, by decide +kernel, by decide +kernel, by decide +kernel⟩,
    ⟨127, 7, W.wait true, W.queued true 0, by decide +kernel, by decide +kernel, by decide +kernel, by decide +kernel⟩,
    ⟨W.hdr, W.session, 511, W.f (W.fcp.setReg (Reg.hbmSyndrome 511) 12345) (Reg.hbmStatus 511) Fld.hbmStatus_state 3, by decide +kernel, by decide +kernel, ⟨⟨by decide +kernel, by decide +kernel, by decide +kernel, by decide +kernel, by decide +kernel⟩, by decide +kernel⟩, by decide +kernel⟩,
    ⟨511, W.f (W.ctl 511 3) (Reg.hbmCtrl 511) Fld.hbmCtrl_freezeHold 1, by decide +kernel, by decide +kernel⟩,
    ⟨511, W.ctl 511 3, by decide +kernel, by decide +kernel, by decide +kernel⟩,
    ⟨511, W.ctl 511 3, by decide +kernel⟩,
    ⟨511, W.ctl 511 4, by decide +kernel, by decide +kernel, by decide +kernel⟩,
    ⟨511, (W.ctl 511 4).setCtl 511 { HbmCtl.idle with fails := 2 }, by decide +kernel, by decide +kernel, by decide +kernel⟩⟩

end HbmControllersFreezeAndReturn

end Sys2Proof.Tests.Q11

namespace Sys2Proof.Tests.Q12

def W.desc : Desc := { Desc.none with stamp := { Stamp.none with tc := 7 }, bytes := List.replicate 64 65, port := 95, slice := 11 }
def W.rec (n : Nat) : Rec := { d := { W.desc with bytes := List.replicate n 65 }, size := 96, ctx := none, bufs := [67108864], start := (67108864, 0) }
/-- Node 480 is valid; group 5 belongs to it and has queue 800 alone, of kind 2 and weight 1,023; group and queue are weighted. -/
def W.node (recs : List Rec) : State :=
  let s := (W.run.tblPut 0x000150006410 (2 * 2 ^ 34)).tblPut 0x000150006418 (1023 * 16)
  let s := s.tblPut 0x0001510000A0 (2 ^ 63 + 2 ^ 44 * 800 + 2 ^ 29 * 480 + 2 ^ 17 * 1)
  let s := W.f (W.f s (Reg.trafficSchedPort 480) Fld.trafficSchedPort_valid 1) (Reg.trafficSchedPort 480) Fld.trafficSchedPort_window 8
  s.setQueue 800 { Queue.empty with recs := recs }
def W.hi : Word := 0x5F5E1000_5F5E1000
def W.lo : Word := BitVec.ofNat 64 (2 ^ 41 * 4194304 + 2 ^ 18 * 4194304)
def W.prof (s : State) : State := (s.setReg (Reg.trafficShaperProfileHi 4095) W.hi).setReg (Reg.trafficShaperProfileLo 4095) W.lo
def W.late (s : State) (n : Nat) : State := { s with time := { s.time with stepFree := n } }
def W.shp (v : Int) : Shaper := { cb := v, pb := v, last := 5, profile := 4095, deficit := 3 }
def W.shaped (v : Int) (recs : List Rec) : State := (W.prof (W.node recs)).setShaper 2 480 (W.shp v)
def W.sweep (s : State) (w : Sweep) : State := { s with traffic := { s.traffic with sweep := some w } }
def W.kids (a b : Bool) : List Child := [{ id := 3, rank := 3, weight := 0, elig := a, com := false, lim := false, deficit := 0 }, { id := 4, rank := 0, weight := 1023, elig := b, com := true, lim := true, deficit := -16127 }]
/-- Port 95 is gated; bank 0 has base 5, cycle 10,000 and two entries. -/
def W.gates : State :=
  let s := W.f (W.f W.run (Reg.hatbandCfg 95) Fld.hatbandCfg_enable 1) (Reg.hatbandList 95 0) Fld.hatbandList_len 2
  let s := W.f (W.f (W.f s (Reg.hatbandListW1 95 0) Fld.hatbandListW1_nanoseconds 5) (Reg.hatbandListW1 95 0) Fld.hatbandListW1_cycle 10000) (Reg.linePortCfg 95) Fld.linePortCfg_mode 1
  s.setReg (Reg.hatbandEntryWord 95 0 0) (BitVec.ofNat 64 (2 ^ 56 * 0x80 + 2 ^ 32 * 2000 + 2 ^ 24 * 0x7F + 8000))
def W.tx : TxPkt := { bytes := W.desc.bytes, tc := 0, epoch := 0, counted := false, node := 95, win := 64, twoStep := false, tag := 7, stomp := false, stream := 0 }
/-- Bank 1, with base 5, cycle `c` and one entry of interval `v`, is to take over at `t`. -/
def W.commit (c v t : Nat) : State :=
  let s := W.f (W.f W.gates (Reg.hatbandList 95 1) Fld.hatbandList_len 1) (Reg.hatbandListW1 95 1) Fld.hatbandListW1_cycle c
  let s := (W.f s (Reg.hatbandListW1 95 1) Fld.hatbandListW1_nanoseconds 5).setReg (Reg.hatbandEntryWord 95 1 0) (BitVec.ofNat 64 (2 ^ 56 * 0x80 + 2 ^ 32 * v))
  W.f s (Reg.hatbandTakeoverNs 95) Fld.hatbandTakeoverNs_nanoseconds t
def W.pends (at_ : Nat) : State := let s := W.f (W.commit 1000 1 5000) (Reg.hatbandCfg 95) Fld.hatbandCfg_pending 1; { s with traffic := { s.traffic with takeAt := [(95, at_)] } }
/-- Context 7 walks; its next element, 9, is the last, for port 95, with bits `w` beside. -/
def W.walk (w seen rem : Nat) : State :=
  let s := (W.node []).tblPut (0x000151500000 + 72) (2 ^ 63 + 2 ^ 49 * 95 + w)
  let s := W.f (W.f (W.f s (Reg.trafficSchedPort 95) Fld.trafficSchedPort_valid 1) (Reg.trafficSchedPort 95) Fld.trafficSchedPort_qbase 793) (Reg.linePortCfg 95) Fld.linePortCfg_mode 1
  s.setRepl 7 { d := { W.desc with stamp := { W.desc.stamp with dkind := 1, dest := 65535 } }, size := 96, req := 11, chain := [67108865], remaining := rem, walking := true, stage := 0, onPorts := true, next := 9, seen := seen }
def W.room (s : State) : State :=
  let s := (s.setReg (Reg.trafficAdmitProfileHi 0) (BitVec.allOnes 64)).setQueue 800 { Queue.empty with open_ := some (67108864, 1984) }
  W.f s (Reg.trafficPortTcLimit 95 7) Fld.trafficPortTcLimit_egrLimit 10
def W.stuck (n : Nat) : State :=
  let s := W.f (W.late (W.node [W.rec 64]) 600000000) Reg.trafficStuckCfg Fld.trafficStuckCfg_stuckTimeout 500
  { s with traffic := { s.traffic with flush := List.replicate n { q := 1, port := none, recs := [], bufs := [] } } }



namespace QueuesAreServedAndShaped
abbrev ready (s : State) (n : Nat) : State := (s.refillNode n).cleanNode n
abbrev chosen (r : State) (n g q : Nat) (com : Bool) (qd : List (Nat × Int)) : Prop := r.nodeOk n = true ∧ (pick (r.gChildren n) (r.ptrOf n)).map (fun x => x.2.1) = some g ∧ pick (r.qChildren n g) (r.ptrOf (512 + g)) = some (com, q, qd)
abbrev inRange (v : Nat) : Prop := 64 ≤ v ∧ v ≤ 1600000000
abbrev legal (h l : Word) : Prop := inRange (bits h.toNat 31 0) ∧ (bits h.toNat 63 32 = 0 ∨ inRange (bits h.toNat 63 32)) ∧ bits h.toNat 63 32 ≤ bits h.toNat 31 0 ∧ 2048 ≤ bits l.toNat 63 41 ∧ bits l.toNat 63 41 ≤ 4194304 ∧ 2048 ≤ bits l.toNat 40 18 ∧ bits l.toNat 40 18 ≤ 4194304
abbrev idle (s : State) : Prop := s.clocked = true ∧ s.flag Reg.trafficShaperSweep Fld.trafficShaperSweep_busy = false
abbrev elapsed (s : State) (x : Shaper) : Nat := (s.shaperNow + 2 ^ 20 - x.last) % 2 ^ 20

/-- States and operands that meet the hypotheses of each clause of QueuesAreServedAndShaped. -/
theorem test_QueuesAreServedAndShaped :
    (∃ (cs : List Child) (ptr : Nat) (i : Nat) (com : Bool) (ds : List (Nat × Int)), (∀ c ∈ cs, c.rank < 4) ∧ pick cs ptr = some (com, i, ds)) ∧
    (∃ (cs : List Child), (∀ c ∈ cs, c.rank < 4)) ∧
    (∃ (n : Nat) (s : State), s.clocked = true ∧ (ready s n).nodeOk n = false) ∧
    (∃ (n : Nat) (s : State), s.clocked = true ∧ pick ((ready s n).gChildren n) ((ready s n).ptrOf n) = none) ∧
    (∃ (n : Nat) (g : Nat) (q : Nat) (com : Bool) (qd : List (Nat × Int)) (s : State), s.clocked = true ∧ chosen (ready s n) n g q com qd) ∧
    (∃ (n : Nat) (g : Nat) (q : Nat) (com : Bool) (qd : List (Nat × Int)) (s : State), s.clocked = true ∧ n < 512 ∧ chosen (ready s n) n g q com qd ∧ ((ready s n).shaper 2 n).profile ≠ 0 ∧ (profOf ((ready s n).profileWords ((ready s n).shaper 2 n).profile).1 ((ready s n).profileWords ((ready s n).shaper 2 n).profile).2).clamp = 0) ∧
    (∃ (n : Nat) (g : Nat) (q : Nat) (v : Int) (com : Bool) (qd : List (Nat × Int)) (s : State), s.clocked = true ∧ n < 512 ∧ chosen (ready s n) n g q com qd ∧ (q, v) ∈ qd) ∧
    (∃ (k : Nat) (i : Nat) (s : State), s.clocked = true ∧ (s.shaper k i).profile ≠ 0 ∧ s.traffic.sweep = none ∧ elapsed s (s.shaper k i) ≠ 0) ∧
    (∃ (i : Nat) (h : Word) (l : Word) (s : State), idle s ∧ 0 < i ∧ i < 4096 ∧ legal h l) ∧
    (∃ (i : Nat) (h : Word) (l : Word) (s : State), (i = 0 ∨ s.flag Reg.trafficShaperSweep Fld.trafficShaperSweep_busy = true ∨ bits h.toNat 31 0 < bits h.toNat 63 32 ∨ 4194304 < bits l.toNat 63 41)) ∧
    (∃ (k : Nat) (i : Nat) (p : Nat) (s : State), idle s ∧ k < 3 ∧ i < (if k = 0 then 16384 else if k = 1 then 65536 else 512) ∧ p < 4096) ∧
    (∃ (s : State), s.flag Reg.trafficShaperSweep Fld.trafficShaperSweep_busy = true) ∧
    (∃ (k : Nat) (i : Nat) (p : Nat) (h : Word) (l : Word) (s : State), s.clocked = true ∧ s.canonical ∧ p ≠ 0 ∧ i < 2 ^ 20 ∧ s.traffic.sweep = some (.profile p h l) ∧ (s.shaper k i).profile = p) ∧
    (∃ (k : Nat) (i : Nat) (p : Nat) (s : State), s.clocked = true ∧ s.traffic.sweep = some (.assign k i p)) :=
  ⟨⟨W.kids true true, 4, 4, true, [(4, 114817)], by decide +kernel, by decide +kernel⟩,
    ⟨W.kids false false, by decide +kernel⟩,
    ⟨480, W.run, by decide +kernel, by decide +kernel⟩,
    ⟨480, W.node [], by decide +kernel, by decide +kernel⟩,
    ⟨480, 5, 800, true, [(800, 130944)], W.node [W.rec 1024, W.rec 1024, W.rec 64], by decide +kernel, ⟨by decide +kernel, by decide +kernel, by decide +kernel⟩⟩,
    ⟨480, 5, 800, true, [(800, 130944)], W.late (W.shaped 4096 [W.rec 64]) 5120, by decide +kernel, by decide +kernel, ⟨by decide +kernel, by decide +kernel, by decide +kernel⟩, by decide +kernel, by decide +kernel⟩,
    ⟨480, 5, 800, 130944, true, [(800, 130944)], W.node [W.rec 64, W.rec 64], by decide +kernel, by decide +kernel, ⟨by decide +kernel, by decide +kernel, by decide +kernel⟩, by decide +kernel⟩,
    ⟨2, 480, W.shaped 4096 [], by decide +kernel, by decide +kernel, by decide +kernel, by decide +kernel⟩,
    ⟨4095, W.hi, W.lo, W.run, ⟨by decide +kernel, by decide +kernel⟩, by decide +kernel, by decide +kernel, ⟨⟨by decide +kernel, by decide +kernel⟩, by decide +kernel, by decide +kernel, by decide +kernel, by decide +kernel, by decide +kernel, by decide +kernel⟩⟩,
    ⟨4095, 0x0000004100000040, W.lo, W.run, by decide +kernel⟩,
    ⟨2, 511, 4095, W.run, ⟨by decide +kernel, by decide +kernel⟩, by decide +kernel, by decide +kernel, by decide +kernel⟩,
    ⟨W.f W.run Reg.trafficShaperSweep Fld.trafficShaperSweep_busy 1, by decide +kernel⟩,
    ⟨2, 480, 4095, 0x0000004000000040, W.lo, W.canon (W.sweep (W.shaped 0 []) (.profile 4095 0x0000004000000040 W.lo)), by decide +kernel, by decide +kernel, by decide +kernel, by decide +kernel, by decide +kernel, by decide +kernel⟩,
    ⟨2, 480, 4, W.canon (W.sweep (W.shaped 0 []) (.assign 2 480 4)), by decide +kernel, by decide +kernel⟩⟩

end QueuesAreServedAndShaped

namespace GatesReplicationAndStuckQueues
abbrev active (s : State) (p : Nat) : Nat := s.fld (Reg.hatbandCfg p) Fld.hatbandCfg_activeBank
abbrev pendingTake (s : State) (p : Nat) : Bool := s.flag (Reg.hatbandCfg p) Fld.hatbandCfg_pending
abbrev other (s : State) (p : Nat) : Nat := 1 - active s p
abbrev listBad (s : State) (p : Nat) : Prop := s.fld (Reg.hatbandList p (other s p)) Fld.hatbandList_len = 0 ∨ 1024 < s.fld (Reg.hatbandList p (other s p)) Fld.hatbandList_len ∨ ∃ e ∈ s.bankEntries p (other s p), e.2 = 0
abbrev cycleBad (s : State) (p : Nat) : Prop := s.bankCycle p (other s p) < 1000 ∨ 1000000000 < s.bankCycle p (other s p)
abbrev asked (s : State) (p : Nat) : Nat := 1000000000 * s.fld (Reg.hatbandTakeover p) Fld.hatbandTakeover_seconds + s.fld (Reg.hatbandTakeoverNs p) Fld.hatbandTakeoverNs_nanoseconds
abbrev late (s : State) (p : Nat) : Prop := s.takeInstant p (other s p) (asked s p) < s.tod + 1000
abbrev takeAt (s : State) (p : Nat) : Nat := mget (fun _ => 0) s.traffic.takeAt p
abbrev enabled (s : State) (p : Nat) : Bool := s.flag (Reg.hatbandCfg p) Fld.hatbandCfg_enable
abbrev spent (l : List (Nat × Nat)) : Nat := (l.map (fun e => e.2)).sum
abbrev refusal (s : State) (p c : Nat) : Prop := (c = 1 ∧ listBad s p) ∨ (c = 2 ∧ ¬ listBad s p ∧ cycleBad s p) ∨ (c = 3 ∧ ¬ listBad s p ∧ ¬ cycleBad s p ∧ late s p) ∨ (c = 4 ∧ ¬ listBad s p ∧ ¬ cycleBad s p ∧ ¬ late s p ∧ enabled s p = false) ∨ (c = 5 ∧ ¬ listBad s p ∧ ¬ cycleBad s p ∧ ¬ late s p ∧ enabled s p = true ∧ pendingTake s p = true)
abbrev walks (s : State) (c : Nat) : Prop := s.clocked = true ∧ (s.repl c).walking = true
abbrev lastPort (s : State) (c : Nat) : Prop := walks s c ∧ (s.repl c).onPorts = true ∧ (s.repl c).seen < 4096 ∧ (s.repl c).next ≠ 0 ∧ bit (s.replElem (s.repl c).next) 63 = true ∧ bit (s.replElem (s.repl c).next) 62 = false ∧ bits (s.replElem (s.repl c).next) 21 2 = 0
abbrev port (s : State) (c : Nat) : Nat := bits (s.replElem (s.repl c).next) 55 49
abbrev pruned (s : State) (c : Nat) : Prop := bit (s.replElem (s.repl c).next) 61 = true ∧ (s.repl c).d.slice < 12 ∧ port s c = (s.repl c).d.port
abbrev copy (s : State) (c : Nat) : Desc := { (s.repl c).d with replica := true, stream := 0, stamp := { (s.repl c).d.stamp with dkind := 0, dest := 128 * s.self + port s c, encap := if bits (s.replElem (s.repl c).next) 48 30 = 0 then (s.repl c).d.stamp.encap else bits (s.replElem (s.repl c).next) 48 30, gen := if bits (s.replElem (s.repl c).next) 48 30 = 0 then (s.repl c).d.stamp.gen else bits (s.replElem (s.repl c).next) 29 22 } }
abbrev stuck (s : State) (q : Nat) : Prop := s.clocked = true ∧ (s.queue q).recs ≠ [] ∧ (s.queue q).wait = none ∧ s.fld Reg.trafficStuckCfg Fld.trafficStuckCfg_stuckTimeout ≤ (s.todMs + 1024 - (s.queue q).headMs) % 1024

/-- States and operands that meet the hypotheses of each clause of GatesReplicationAndStuckQueues. -/
theorem test_GatesReplicationAndStuckQueues :
    (∃ (p : Nat) (u : Nat) (g : Nat) (v : Nat) (l : List (Nat × Nat)) (m : List (Nat × Nat)) (s : State), enabled s p = true ∧ pendingTake s p = false ∧ s.bankBase p (active s p) ≤ u ∧ s.bankCycle p (active s p) ≠ 0 ∧ s.bankEntries p (active s p) = l ++ (g, v) :: m ∧ spent l ≤ (u - s.bankBase p (active s p)) % s.bankCycle p (active s p) ∧ (m = [] ∨ (u - s.bankBase p (active s p)) % s.bankCycle p (active s p) < spent l + v)) ∧
    (∃ (p : Nat) (u : Nat) (s : State), (enabled s p = false ∨ (pendingTake s p = false ∧ u < s.bankBase p (active s p)))) ∧
    (∃ (p : Nat) (s : State), s.gated p = false) ∧
    (∃ (p : Nat) (s : State), s.clocked = true ∧ s.gated p = true ∧ (s.port p).txQ = []) ∧
    (∃ (p : Nat) (f : TxPkt) (rest : List TxPkt) (s : State), s.clocked = true ∧ p < 96 ∧ s.gated p = true ∧ (s.port p).txQ = f :: rest ∧ s.gateOpen p f.tc s.tod = false ∧ s.gateOpen p f.tc (s.tod - 1) = true) ∧
    (∃ (p : Nat) (c : Nat) (s : State), s.clocked = true ∧ p < 96 ∧ refusal s p c) ∧
    (∃ (p : Nat) (s : State), s.clocked = true ∧ ¬ listBad s p ∧ ¬ cycleBad s p ∧ ¬ late s p ∧ enabled s p = true ∧ pendingTake s p = false) ∧
    (∃ (p : Nat) (s : State), s.clocked = true ∧ pendingTake s p = true ∧ s.tod + 1000 < takeAt s p) ∧
    (∃ (p : Nat) (s : State), (pendingTake s p = false ∨ takeAt s p ≤ s.tod + 1000)) ∧
    (∃ (p : Nat) (s : State), s.clocked = true ∧ p < 96 ∧ pendingTake s p = true) ∧
    (∃ (p : Nat) (s : State), pendingTake s p = false) ∧
    (∃ (c : Nat) (s : State), (s.repl c).walking = false) ∧
    (∃ (c : Nat) (s : State), lastPort s c ∧ pruned s c) ∧
    (∃ (c : Nat) (q : Nat) (k : Ctr) (s : State), lastPort s c ∧ ¬ pruned s c ∧ s.target (copy s c) = .queue q ∧ s.admitCheck (copy s c) q (s.repl c).size true true = some k) ∧
    (∃ (c : Nat) (q : Nat) (u : State) (l : List Nat) (b : Nat × Nat) (o : Option (Nat × Nat)) (s : State), lastPort s c ∧ ¬ pruned s c ∧ s.target (copy s c) = .queue q ∧ s.admitCheck (copy s c) q (s.repl c).size true true = none ∧ s.reserve q (s.repl c).req (s.poolOf (s.qProfile q)) 32 = (u, some (l, b, o))) ∧
    (∃ (c : Nat) (s : State), walks s c ∧ (s.repl c).next ≠ 0 ∧ bit (s.replElem (s.repl c).next) 63 = true ∧ 4096 ≤ (s.repl c).seen) ∧
    (∃ (c : Nat) (s : State), walks s c ∧ (s.repl c).remaining ≠ 0) ∧
    (∃ (q : Nat) (s : State), ((s.queue q).recs = [] ∨ (s.todMs + 1024 - (s.queue q).headMs) % 1024 < s.fld Reg.trafficStuckCfg Fld.trafficStuckCfg_stuckTimeout)) ∧
    (∃ (q : Nat) (s : State), stuck s q ∧ s.traffic.flush.length < 4096) ∧
    (∃ (q : Nat) (s : State), stuck s q ∧ 4096 ≤ s.traffic.flush.length) :=
  ⟨⟨95, 12004, 0x80, 2000, [], [(0x7F, 8000)], W.gates, by decide +kernel, by decide +kernel, by decide +kernel, by decide +kernel, by decide +kernel, by decide +kernel, by decide +kernel⟩,
    ⟨95, 4, W.gates, by decide +kernel⟩,
    ⟨95, W.run, by decide +kernel⟩,
    ⟨95, W.late W.gates 2005, by decide +kernel, by decide +kernel, by decide +kernel⟩,
    ⟨95, W.tx, [], (W.late W.gates 10005).setPort 95 { LinePort.idle with txQ := [W.tx] }, by decide +kernel, by decide +kernel, by decide +kernel, by decide +kernel, by decide +kernel, by decide +kernel⟩,
    ⟨95, 1, W.commit 1000 0 5000, by decide +kernel, by decide +kernel, by decide +kernel⟩,
    ⟨95, W.late (W.commit 1000 1 5000) 4005, by decide +kernel, by decide +kernel, by decide +kernel, by decide +kernel, by decide +kernel, by decide +kernel⟩,
    ⟨95, W.pends 1001, by decide +kernel, by decide +kernel, by decide +kernel⟩,
    ⟨95, W.pends 1000, by decide +kernel⟩,
    ⟨95, W.pends 1001, by decide +kernel, by decide +kernel, by decide +kernel⟩,
    ⟨95, W.gates, by decide +kernel⟩,
    ⟨7, W.run, by decide +kernel⟩,
    ⟨7, W.walk (2 ^ 61) 4095 1, ⟨⟨by decide +kernel, by decide +kernel⟩, by decide +kernel, by decide +kernel, by decide +kernel, by decide +kernel, by decide +kernel, by decide +kernel⟩, ⟨by decide +kernel, by decide +kernel, by decide +kernel⟩⟩,
    ⟨7, 800, .trafficAdmitQueueLimit, W.walk 0 0 1, ⟨⟨by decide +kernel, by decide +kernel⟩, by decide +kernel, by decide +kernel, by decide +kernel, by decide +kernel, by decide +kernel, by decide +kernel⟩, by decide +kernel, by decide +kernel, by decide +kernel⟩,
    ⟨7, 800, W.room (W.walk (2 ^ 30 * 3) 4095 0), [67108864], (67108864, 1984), some (67108864, 2016), W.room (W.walk (2 ^ 30 * 3) 4095 0), ⟨⟨by decide +kernel, by decide +kernel⟩, by decide +kernel, by decide +kernel, by decide +kernel, by decide +kernel, by decide +kernel, by decide +kernel⟩, by decide +kernel, by decide +kernel, by decide +kernel, by decide +kernel⟩,
    ⟨7, W.walk 0 4096 1, ⟨by decide +kernel, by decide +kernel⟩, by decide +kernel, by decide +kernel, by decide +kernel⟩,
    ⟨7, W.walk 0 5 1, ⟨by decide +kernel, by decide +kernel⟩, by decide +kernel⟩,
    ⟨800, W.late (W.stuck 0) 499999999, by decide +kernel⟩,
    ⟨800, W.stuck 4095, ⟨by decide +kernel, by decide +kernel, by decide +kernel, by decide +kernel⟩, by decide +kernel⟩,
    ⟨800, W.stuck 4096, ⟨by decide +kernel, by decide +kernel, by decide +kernel, by decide +kernel⟩, by decide +kernel⟩⟩

end GatesReplicationAndStuckQueues

end Sys2Proof.Tests.Q12

namespace Sys2Proof.Tests.Q13

/-- Group 0 has lane 119, version limits 1 and 2, N = 3 and M = 6. -/
def W.grp : State :=
  let s := W.f (W.f (W.f W.run (Reg.fabricGroupCfg 0) Fld.fabricGroupCfg_enable 1) (Reg.fabricGroupCfg 0) Fld.fabricGroupCfg_firstLane 119) (Reg.fabricGroupCfg 0) Fld.fabricGroupCfg_versionMax 2
  W.f (W.f (W.f s (Reg.fabricGroupCfg 0) Fld.fabricGroupCfg_versionMin 1) (Reg.fabricGroupCfg 0) Fld.fabricGroupCfg_confirmN 3) (Reg.fabricGroupCfg 0) Fld.fabricGroupCfg_loseM 6
def W.lane (n : Nat) (f : Field) (v : Nat) : State := W.f (W.f (W.grp.setFabLane 119 { FabLane.idle with cnt := 65535, sel := 2, partnerAligned := true }) (Reg.fabricLaneStatus 119) Fld.fabricLaneStatus_state n) (Reg.fabricLaneStatus 119) f v
def W.ovh (n : Nat) : Overhead := { alignOk := true, crcOk := true, fecOk := true, versionMax := 2, versionSel := 0, ready := true, laneAligned := true, ident := 9, frameCnt := n, creditRet := 0, buffer := 512, arrivalNs := 5, linkDelay := 7 }
def W.fab : FabDesc := { v1 := false, len := 64, epoch := 0, rate := 100, dkind := 2, dest := 95, encap := 0, gen := 0, labelOp := 0, newLabel := 0, ttlDec := false, tc := 7, colour := 0, vrf := 0, nh := 0, spread := 0 }
def W.bytes : Bytes := List.replicate 60 65
def W.cell (y seq : Nat) : Cell := { type := y, quarters := 2, badTail := true, v2 := true, destDev := 0, destPort := 95, tc := 7, srcDev := 4095, seq := seq, rstart := 0, payload := [.desc W.fab 0 32, .data W.bytes], crcOk := true }
def W.key : Nat := streamKey 4095 1 95 7
def W.strm (x : Reasm) : State := let s := W.lane 2 Fld.fabricLaneStatus_errRun 0; { s.setReasm W.key x with fabric := { (s.setReasm W.key x).fabric with store := 1 } }
def W.next : Reasm := { expected := 65535, held := [], cur := none, skip := false }
def W.desc : Desc := { Desc.none with stamp := { Stamp.none with tc := 7, dest := 128 * 4095 + 94 }, bytes := List.replicate 64 65, port := 95, slice := 11 }
def W.rec : Rec := { d := W.desc, size := 96, ctx := none, bufs := [67108864], start := (67108864, 0) }
/-- The group is ready; device 4095 has queue 1,000 + 8 x port + class, up to port 94, and is of version 2 and alive; queue 1,759 is port 94, class 7. -/
def W.ready : State :=
  let s := W.f (W.f ((W.lane 2 Fld.fabricLaneStatus_active 1).setFabLane 119 { FabLane.idle with partnerAligned := true, partnerReady := true, buffer := 512 }) (Reg.fabricGroupStatus 0) Fld.fabricGroupStatus_ready 1) (Reg.fabricGroupStatus 0) Fld.fabricGroupStatus_version 2
  let s := W.f (W.f (W.f s (Reg.trafficVoqMap 4095) Fld.trafficVoqMap_valid 1) (Reg.trafficVoqMap 4095) Fld.trafficVoqMap_voqBase 1000) (Reg.trafficVoqMap 4095) Fld.trafficVoqMap_ports 95
  let s := W.f (W.f (W.f s (Reg.fabricDeviceStatus 4095) Fld.fabricDeviceStatus_v2 1) (Reg.fabricDeviceStatus 4095) Fld.fabricDeviceStatus_alive 1) Reg.fabricCtrl Fld.fabricCtrl_quantum 1
  let s := W.f (s.tblPut (0x000150000000 + 0x20 * 1759 + 16) (2 ^ 34)) Reg.fabricCtrl Fld.fabricCtrl_target 1
  { s with fabric := { s.fabric with quietDone := true } }
def W.turn (s : State) : State := { s with fabric := { s.fabric with rot := 119 } }
def W.voq (cr : Int) (recs : List Rec) : State := W.ready.setQueue 1759 { Queue.empty with recs := recs, credit := cr, surrender := 70000 }
def W.want : CreditWant := { dev := 5, voq := 9, wanted := 4 }
def W.wants (n : Int) : State := (W.ready.setWants 94 7 [{ W.want with wanted := n.toNat }, W.want]).addOwed 94 7 (n - 5)
def W.ref (s : State) : State := W.f s Reg.timeSrcCfg Fld.timeSrcCfg_role 1
def W.due (s : State) : State := { s with line := { s.line with noticeDue := [(95, true), (94, true), (95, false)] } }
def W.out (l : Bool) (w : List Nat) : State := W.ready.setNotice 95 { up := false, seq := 255, wait := w, since := 0, late := l }
def W.late (s : State) (n : Nat) : State := { s with time := { s.time with stepFree := n } }
def W.ntc (h u : Bool) (n : Nat) : Notice := { heartbeat := h, origin := 4095, port := 94, up := u, seq := n }
def W.last (n : Nat) : State := { W.ready with fabric := { W.ready.fabric with applied := [(128 * 4095 + 94, n)], closeVoq := [(4095, 94), (4095, 93)] }, lookup := { W.ready.lookup with remoteDown := [(128 * 4095 + 94, 1)] } }
def W.gone : State := { W.last 3 with fabric := { (W.last 3).fabric with dead := [4095] } }



namespace LanesAlignAndCellsAreReassembled
abbrev st (l : Nat) : Nat := Reg.fabricLaneStatus l
abbrev inGroup (s : State) (l g n : Nat) : Prop := s.clocked = true ∧ l < 120 ∧ s.laneGroup l = some g ∧ s.laneState l = n
abbrev tested (s : State) (l g n : Nat) : Prop := inGroup s l g n ∧ s.pins.linkIdle = false
abbrev good (s : State) (l : Nat) (o : Overhead) : Prop := o.alignOk = true ∧ o.crcOk = true ∧ o.fecOk = true ∧ o.frameCnt = ((s.fabLane l).cnt + 1) % 65536
abbrev run (s : State) (l : Nat) (f : Field) : Nat := s.fld (st l) f + 1
abbrev key (c : Cell) : Nat := streamKey c.srcDev c.type c.destPort c.tc
abbrev ctx (s : State) (c : Cell) : Reasm := s.reasm (key c)
abbrev on (s : State) (l g : Nat) (c : Cell) : Prop := s.clocked = true ∧ s.laneGroup l = some g ∧ s.laneState l = 2 ∧ (s.fabLane l).held = 0 ∧ c.type ≠ 0
abbrev data (s : State) (l g : Nat) (c : Cell) : Prop := on s l g c ∧ c.crcOk = true ∧ c.type ≤ 2 ∧ c.srcDev < 4096
abbrev one (c : Cell) (f : FabDesc) (b : Bytes) : Prop := c.rstart = 0 ∧ c.payload = [.desc f 0 32, .data b] ∧ f.len = b.length + 4
abbrev ahead (s : State) (c : Cell) : Nat := (c.seq + 65536 - (ctx s c).expected) % 65536

/-- States and operands that meet the hypotheses of each clause of LanesAlignAndCellsAreReassembled. -/
theorem test_LanesAlignAndCellsAreReassembled :
    (∃ (l : Nat) (s : State), s.laneGroup l = none) ∧
    (∃ (l : Nat) (g : Nat) (s : State), inGroup s l g 2) ∧
    (∃ (l : Nat) (g : Nat) (s : State), inGroup s l g 1) ∧
    (∃ (s : State), s.pins.linkIdle = true) ∧
    (∃ (l : Nat) (g : Nat) (o : Overhead) (s : State), tested s l g 0 ∧ (o.alignOk = false ∨ o.crcOk = false)) ∧
    (∃ (l : Nat) (g : Nat) (o : Overhead) (s : State), tested s l g 0 ∧ o.alignOk = true ∧ o.crcOk = true) ∧
    (∃ (l : Nat) (g : Nat) (o : Overhead) (s : State), tested s l g 1 ∧ ¬ good s l o) ∧
    (∃ (l : Nat) (g : Nat) (o : Overhead) (s : State), tested s l g 1 ∧ good s l o ∧ run s l Fld.fabricLaneStatus_goodRun < s.fld (Reg.fabricGroupCfg g) Fld.fabricGroupCfg_confirmN) ∧
    (∃ (l : Nat) (g : Nat) (o : Overhead) (s : State), tested s l g 1 ∧ good s l o ∧ s.fld (Reg.fabricGroupCfg g) Fld.fabricGroupCfg_confirmN ≤ run s l Fld.fabricLaneStatus_goodRun) ∧
    (∃ (l : Nat) (g : Nat) (o : Overhead) (s : State), tested s l g 2 ∧ good s l o) ∧
    (∃ (l : Nat) (g : Nat) (o : Overhead) (s : State), tested s l g 2 ∧ ¬ good s l o ∧ run s l Fld.fabricLaneStatus_errRun < s.fld (Reg.fabricGroupCfg g) Fld.fabricGroupCfg_loseM) ∧
    (∃ (l : Nat) (g : Nat) (o : Overhead) (s : State), tested s l g 2 ∧ ¬ good s l o ∧ s.fld (Reg.fabricGroupCfg g) Fld.fabricGroupCfg_loseM ≤ run s l Fld.fabricLaneStatus_errRun) ∧
    (∃ (l : Nat) (c : Cell) (s : State), (s.laneGroup l = none ∨ s.laneState l ≠ 2 ∨ (s.fabLane l).held ≠ 0 ∨ c.type = 0)) ∧
    (∃ (l : Nat) (g : Nat) (c : Cell) (s : State), on s l g c) ∧
    (∃ (l : Nat) (g : Nat) (c : Cell) (s : State), on s l g c ∧ c.crcOk = false) ∧
    (∃ (l : Nat) (g : Nat) (c : Cell) (s : State), on s l g c ∧ c.crcOk = true ∧ 7 ≤ c.type) ∧
    (∃ (l : Nat) (g : Nat) (c : Cell) (s : State), on s l g c ∧ c.crcOk = true ∧ 3 ≤ c.type ∧ c.type < 7) ∧
    (∃ (l : Nat) (g : Nat) (c : Cell) (f : FabDesc) (b : Bytes) (s : State), data s l g c ∧ one c f b ∧ ctx s c = Reasm.none ∧ s.fabric.ctxs.length < 65536) ∧
    (∃ (l : Nat) (g : Nat) (c : Cell) (f : FabDesc) (b : Bytes) (s : State), data s l g c ∧ one c f b ∧ ctx s c = { expected := c.seq, held := [], cur := none, skip := false }) ∧
    (∃ (l : Nat) (g : Nat) (c : Cell) (s : State), data s l g c ∧ ctx s c = Reasm.none ∧ 65536 ≤ s.fabric.ctxs.length) ∧
    (∃ (l : Nat) (g : Nat) (c : Cell) (s : State), data s l g c ∧ ctx s c ≠ Reasm.none ∧ c.seq ≠ (ctx s c).expected ∧ (32768 ≤ ahead s c ∨ (∃ h ∈ (ctx s c).held, h.1 = c.seq))) ∧
    (∃ (l : Nat) (g : Nat) (c : Cell) (s : State), data s l g c ∧ ctx s c ≠ Reasm.none ∧ c.seq ≠ (ctx s c).expected ∧ ahead s c < 32768 ∧ (∀ h ∈ (ctx s c).held, h.1 ≠ c.seq) ∧ s.fabric.store < 57344) ∧
    (∃ (d : Nat) (y : Nat) (p : Nat) (k : Nat) (s : State), (s.reasm (streamKey d y p k)).held = []) ∧
    (∃ (d : Nat) (y : Nat) (p : Nat) (k : Nat) (q : Nat) (c : Cell) (f : FabDesc) (b : Bytes) (s : State), s.clocked = true ∧ (s.reasm (streamKey d y p k)).held = [(q, c)] ∧ (s.reasm (streamKey d y p k)).cur = none ∧ one c f b) ∧
    (∃ (d : Nat) (y : Nat) (p : Nat) (k : Nat) (h : Nat) (f : FabDesc) (b : Bytes) (s : State), s.clocked = true ∧ (s.reasm (streamKey d y p k)).held ≠ [] ∧ (s.reasm (streamKey d y p k)).cur = some (f, h, b)) ∧
    (∃ (d : Nat) (y : Nat) (p : Nat) (k : Nat) (s : State), s.clocked = true ∧ (s.reasm (streamKey d y p k)).held = [] ∧ (s.reasm (streamKey d y p k)).cur = none) ∧
    (∃ (d : Nat) (y : Nat) (p : Nat) (k : Nat) (s : State), ((s.reasm (streamKey d y p k)).held ≠ [] ∨ (s.reasm (streamKey d y p k)).cur ≠ none)) :=
  ⟨⟨119, W.run, by decide +kernel⟩,
    ⟨119, 0, W.lane 2 Fld.fabricLaneStatus_errRun 5, ⟨by decide +kernel, by decide +kernel, by decide +kernel, by decide +kernel⟩⟩,
    ⟨119, 0, W.lane 1 Fld.fabricLaneStatus_goodRun 2, ⟨by decide +kernel, by decide +kernel, by decide +kernel, by decide +kernel⟩⟩,
    ⟨State.reset, by decide +kernel⟩,
    ⟨119, 0, { W.ovh 0 with crcOk := false }, W.grp, ⟨⟨by decide +kernel, by decide +kernel, by decide +kernel, by decide +kernel⟩, by decide +kernel⟩, by decide +kernel⟩,
    ⟨119, 0, { W.ovh 0 with fecOk := false }, W.grp, ⟨⟨by decide +kernel, by decide +kernel, by decide +kernel, by decide +kernel⟩, by decide +kernel⟩, by decide +kernel, by decide +kernel⟩,
    ⟨119, 0, W.ovh 65535, W.lane 1 Fld.fabricLaneStatus_goodRun 2, ⟨⟨by decide +kernel, by decide +kernel, by decide +kernel, by decide +kernel⟩, by decide +kernel⟩, by decide +kernel⟩,
    ⟨119, 0, W.ovh 0, W.lane 1 Fld.fabricLaneStatus_goodRun 1, ⟨⟨by decide +kernel, by decide +kernel, by decide +kernel, by decide +kernel⟩, by decide +kernel⟩, ⟨by decide +kernel, by decide +kernel, by decide +kernel, by decide +kernel⟩, by decide +kernel⟩,
    ⟨119, 0, W.ovh 0, W.lane 1 Fld.fabricLaneStatus_goodRun 2, ⟨⟨by decide +kernel, by decide +kernel, by decide +kernel, by decide +kernel⟩, by decide +kernel⟩, ⟨by decide +kernel, by decide +kernel, by decide +kernel, by decide +kernel⟩, by decide +kernel⟩,
    ⟨119, 0, W.ovh 0, W.lane 2 Fld.fabricLaneStatus_errRun 5, ⟨⟨by decide +kernel, by decide +kernel, by decide +kernel, by decide +kernel⟩, by decide +kernel⟩, ⟨by decide +kernel, by decide +kernel, by decide +kernel, by decide +kernel⟩⟩,
    ⟨119, 0, W.ovh 1, W.lane 2 Fld.fabricLaneStatus_errRun 4, ⟨⟨by decide +kernel, by decide +kernel, by decide +kernel, by decide +kernel⟩, by decide +kernel⟩, by decide +kernel, by decide +kernel⟩,
    ⟨119, 0, { W.ovh 0 with fecOk := false }, W.lane 2 Fld.fabricLaneStatus_errRun 5, ⟨⟨by decide +kernel, by decide +kernel, by decide +kernel, by decide +kernel⟩, by decide +kernel⟩, by decide +kernel, by decide +kernel⟩,
    ⟨119, W.cell 1 0, W.grp, by decide +kernel⟩,
    ⟨119, 0, W.cell 1 0, W.ready, ⟨by decide +kernel, by decide +kernel, by decide +kernel, by decide +kernel, by decide +kernel⟩⟩,
    ⟨119, 0, { W.cell 1 0 with crcOk := false }, W.ready, ⟨by decide +kernel, by decide +kernel, by decide +kernel, by decide +kernel, by decide +kernel⟩, by decide +kernel⟩,
    ⟨119, 0, W.cell 7 0, W.ready, ⟨by decide +kernel, by decide +kernel, by decide +kernel, by decide +kernel, by decide +kernel⟩, by decide +kernel, by decide +kernel⟩,
    ⟨119, 0, W.cell 6 0, W.ready, ⟨by decide +kernel, by decide +kernel, by decide +kernel, by decide +kernel, by decide +kernel⟩, by decide +kernel, by decide +kernel, by decide +kernel⟩,
    ⟨119, 0, W.cell 1 65535, W.fab, W.bytes, W.ready, ⟨⟨by decide +kernel, by decide +kernel, by decide +kernel, by decide +kernel, by decide +kernel⟩, by decide +kernel, by decide +kernel, by decide +kernel⟩, ⟨by decide +kernel, by decide +kernel, by decide +kernel⟩, by decide +kernel, by decide +kernel⟩,
    ⟨119, 0, W.cell 1 65535, W.fab, W.bytes, W.strm W.next, ⟨⟨by decide +kernel, by decide +kernel, by decide +kernel, by decide +kernel, by decide +kernel⟩, by decide +kernel, by decide +kernel, by decide +kernel⟩, ⟨by decide +kernel, by decide +kernel, by decide +kernel⟩, by decide +kernel⟩,
    ⟨119, 0, W.cell 1 0, { W.ready with fabric := { W.ready.fabric with ctxs := (streamKey 4095 1 95 7, Reasm.none) :: List.replicate 65535 (1, W.next) } }, ⟨⟨by decide +kernel, by decide +kernel, by decide +kernel, by decide +kernel, by decide +kernel⟩, by decide +kernel, by decide +kernel, by decide +kernel⟩, by decide +kernel, by decide +kernel⟩,
    ⟨119, 0, W.cell 1 32767, W.strm W.next, ⟨⟨by decide +kernel, by decide +kernel, by decide +kernel, by decide +kernel, by decide +kernel⟩, by decide +kernel, by decide +kernel, by decide +kernel⟩, by decide +kernel, by decide +kernel, by decide +kernel⟩,
    ⟨119, 0, W.cell 1 32766, W.strm { W.next with held := [(3, W.cell 1 3)] }, ⟨⟨by decide +kernel, by decide +kernel, by decide +kernel, by decide +kernel, by decide +kernel⟩, by decide +kernel, by decide +kernel, by decide +kernel⟩, by decide +kernel, by decide +kernel, by decide +kernel, by decide +kernel, by decide +kernel⟩,
    ⟨4095, 1, 95, 7, W.run, by decide +kernel⟩,
    ⟨4095, 1, 95, 7, 3, W.cell 1 3, W.fab, W.bytes, W.strm { W.next with held := [(3, W.cell 1 3)] }, by decide +kernel, by decide +kernel, by decide +kernel, ⟨by decide +kernel, by decide +kernel, by decide +kernel⟩⟩,
    ⟨4095, 1, 95, 7, 32, { W.fab with len := 300 }, List.replicate 256 9, W.strm { W.next with held := [(3, W.cell 1 3)], cur := some ({ W.fab with len := 300 }, 32, List.replicate 256 9) }, by decide +kernel, by decide +kernel, by decide +kernel⟩,
    ⟨4095, 1, 95, 7, W.strm W.next, by decide +kernel, by decide +kernel, by decide +kernel⟩,
    ⟨4095, 1, 95, 7, W.strm { W.next with held := [(3, W.cell 1 3)] }, by decide +kernel⟩⟩

end LanesAlignAndCellsAreReassembled

namespace CellsGoOutOnCredit
abbrev v1 (s : State) (d : Nat) : Bool := !s.flag (Reg.fabricDeviceStatus d) Fld.fabricDeviceStatus_v2
abbrev cap (s : State) (d : Nat) : Nat := if v1 s d = true then 114 else 242
abbrev outQ (s : State) (q d p : Nat) : Prop := s.clocked = true ∧ s.voqOf q = some (d, some p) ∧ s.qKind q = 1
abbrev sends (s : State) (q d p : Nat) : Prop := outQ s q d p ∧ s.fabric.quietDone = true ∧ s.qClosed q = false ∧ (s.segOf q).cur = none
abbrev single (s : State) (q d : Nat) (r : Rec) : Prop := (s.queue q).recs = [r] ∧ s.unreadable (s.recReads r) = false ∧ s.epochLive r.d.epoch = true ∧ r.d.stream = 0 ∧ 4 ≤ r.d.bytes.length ∧ r.d.bytes.length + 28 ≤ cap s d
abbrev quarters (r : Rec) : Nat := (r.d.bytes.length + 42 + 63) / 64
abbrev target (s : State) : Nat := 1024 * s.fld Reg.fabricCtrl Fld.fabricCtrl_target

/-- States and operands that meet the hypotheses of each clause of CellsGoOutOnCredit. -/
theorem test_CellsGoOutOnCredit :
    (∃ (q : Nat) (s : State), (s.voqOf q = none ∨ s.fabric.quietDone = false)) ∧
    (∃ (q : Nat) (d : Nat) (p : Nat) (l : Nat) (r : Rec) (s : State), sends s q d p ∧ single s q d r ∧ 0 < (s.queue q).credit ∧ s.pickLane (quarters r) (decide (2 < quarters r)) = some l) ∧
    (∃ (q : Nat) (d : Nat) (p : Nat) (r : Rec) (s : State), sends s q d p ∧ single s q d r ∧ 0 < (s.queue q).credit ∧ s.pickLane (quarters r) (decide (2 < quarters r)) = none) ∧
    (∃ (q : Nat) (d : Nat) (p : Nat) (r : Rec) (s : State), sends s q d p ∧ (s.queue q).recs.head? = some r ∧ s.unreadable (s.recReads r) = false ∧ (s.queue q).credit ≤ 0) ∧
    (∃ (q : Nat) (d : Nat) (p : Nat) (s : State), outQ s q d p ∧ s.maySend = true) ∧
    (∃ (q : Nat) (d : Nat) (p : Nat) (tc : Nat) (b : Nat) (n : Nat) (s : State), outQ s q d p ∧ s.maySend = true ∧ s.voqMaps.find? (fun m => decide (m.2.1 ≤ q) && decide (q < m.2.1 + 8 * m.2.2)) = some (d, b, n) ∧ q = b + 8 * p + tc ∧ tc < 8) ∧
    (∃ (q : Nat) (s : State), (s.voqOf q = none ∨ s.maySend = false)) ∧
    (∃ (s : State), s.clocked = true) ∧
    (∃ (p : Nat) (c : Nat) (s : State), (s.wants p c = [] ∨ s.maySend = false ∨ s.gov.levelT = 4 ∨ (target s : Int) ≤ s.owed p c + (s.egrCount p c : Int))) ∧
    (∃ (p : Nat) (c : Nat) (w : CreditWant) (rest : List CreditWant) (s : State), s.clocked = true ∧ s.wants p c = w :: rest ∧ s.maySend = true ∧ s.gov.levelT ≠ 4 ∧ s.owed p c + (s.egrCount p c : Int) < (target s : Int)) ∧
    (∃ (q : Nat) (s : State), s.qKind q ≠ 1) ∧
    (∃ (q : Nat) (s : State), s.clocked = true ∧ s.qKind q = 1 ∧ (s.qClosed q = true ∨ (s.queue q).flushed = true)) ∧
    (∃ (q : Nat) (s : State), s.clocked = true ∧ s.qKind q = 1 ∧ s.qClosed q = false ∧ (s.queue q).flushed = false) ∧
    (∃ (q : Nat) (s : State), s.clocked = true ∧ s.qKind q = 1 ∧ (s.queue q).recs = [] ∧ 0 < (s.queue q).credit) ∧
    (∃ (q : Nat) (s : State), (s.queue q).recs ≠ []) ∧
    (∃ (q : Nat) (d : Nat) (p : Nat) (s : State), outQ s q d p ∧ d < 4096 ∧ (s.queue q).recs ≠ [] ∧ (s.queue q).credit ≤ 0) ∧
    (∃ (q : Nat) (s : State), ((s.queue q).recs = [] ∨ 0 < (s.queue q).credit)) ∧
    (∃ (s : State), (s.fld Reg.timeSrcCfg Fld.timeSrcCfg_role ≠ 1 ∨ s.maySend = false)) ∧
    (∃ (d : Nat) (l : Nat) (s : State), s.clocked = true ∧ s.fld Reg.timeSrcCfg Fld.timeSrcCfg_role = 1 ∧ s.maySend = true ∧ s.liveV2 = [d] ∧ s.pickLane 1 true = some l) :=
  ⟨⟨1759, W.run, by decide +kernel⟩,
    ⟨1759, 4095, 94, 119, W.rec, W.turn (W.voq 1 [W.rec]), ⟨⟨by decide +kernel, by decide +kernel, by decide +kernel⟩, by decide +kernel, by decide +kernel, by decide +kernel⟩, ⟨by decide +kernel, by decide +kernel, by decide +kernel, by decide +kernel, by decide +kernel, by decide +kernel⟩, by decide +kernel, by decide +kernel⟩,
    ⟨1759, 4095, 94, W.rec, (W.voq 5000 [W.rec]).setFabLane 119 { FabLane.idle with partnerAligned := true, partnerReady := true, buffer := 1 }, ⟨⟨by decide +kernel, by decide +kernel, by decide +kernel⟩, by decide +kernel, by decide +kernel, by decide +kernel⟩, ⟨by decide +kernel, by decide +kernel, by decide +kernel, by decide +kernel, by decide +kernel, by decide +kernel⟩, by decide +kernel, by decide +kernel⟩,
    ⟨1759, 4095, 94, W.rec, W.voq 0 [W.rec, W.rec], ⟨⟨by decide +kernel, by decide +kernel, by decide +kernel⟩, by decide +kernel, by decide +kernel, by decide +kernel⟩, by decide +kernel, by decide +kernel, by decide +kernel⟩,
    ⟨1759, 4095, 94, W.voq (-7) [W.rec, W.rec], ⟨by decide +kernel, by decide +kernel, by decide +kernel⟩, by decide +kernel⟩,
    ⟨1759, 4095, 94, 7, 1000, 95, W.voq 0 [W.rec], ⟨by decide +kernel, by decide +kernel, by decide +kernel⟩, by decide +kernel, by decide +kernel, by decide +kernel, by decide +kernel⟩,
    ⟨1759, W.run, by decide +kernel⟩,
    ⟨W.wants 9, by decide +kernel⟩,
    ⟨94, 7, W.wants 1029, by decide +kernel⟩,
    ⟨94, 7, { W.want with wanted := 1028 }, [W.want], W.wants 1028, by decide +kernel, by decide +kernel, by decide +kernel, by decide +kernel, by decide +kernel⟩,
    ⟨1758, W.voq 0 [], by decide +kernel⟩,
    ⟨1759, W.ready.setQueue 1759 { Queue.empty with flushed := true }, by decide +kernel, by decide +kernel, by decide +kernel⟩,
    ⟨1759, W.voq (-7) [], by decide +kernel, by decide +kernel, by decide +kernel, by decide +kernel⟩,
    ⟨1759, W.voq 513 [], by decide +kernel, by decide +kernel, by decide +kernel, by decide +kernel⟩,
    ⟨1759, W.voq 513 [W.rec], by decide +kernel⟩,
    ⟨1759, 4095, 94, W.voq 0 [W.rec], ⟨by decide +kernel, by decide +kernel, by decide +kernel⟩, by decide +kernel, by decide +kernel, by decide +kernel⟩,
    ⟨1759, W.voq 1 [W.rec], by decide +kernel⟩,
    ⟨W.ready, by decide +kernel⟩,
    ⟨4095, 119, W.turn (W.canon (W.ref W.ready)), by decide +kernel, by decide +kernel, by decide +kernel, by decide +kernel, by decide +kernel⟩⟩

end CellsGoOutOnCredit

namespace NoticesAndHeartbeats
abbrev dueOf (s : State) (p : Nat) : List (Nat × Bool) := s.line.noticeDue.filter (fun x => x.1 == p)
abbrev waits (s : State) (p : Nat) : List Nat := (s.noticeOf p).wait.filter (fun d => s.liveV2.contains d)
abbrev late (s : State) (p : Nat) : Prop := (s.noticeOf p).late = false ∧ (s.noticeOf p).since + 1000000 ≤ s.time.stepFree
abbrev other (s : State) (n : Notice) : Prop := s.clocked = true ∧ n.origin ≠ s.self
abbrev lastSeq (s : State) (n : Notice) : Nat := mget (fun _ => 0) s.fabric.applied (128 * n.origin + n.port)
abbrev gap (s : State) (n : Notice) : Nat := (n.seq + 256 - (lastSeq s n - 1) % 256) % 256
abbrev newer (s : State) (n : Notice) : Prop := lastSeq s n = 0 ∨ (1 ≤ gap s n ∧ gap s n ≤ 127)

/-- States and operands that meet the hypotheses of each clause of NoticesAndHeartbeats. -/
theorem test_NoticesAndHeartbeats :
    (∃ (p : Nat) (s : State), (dueOf s p = [] ∨ s.maySend = false)) ∧
    (∃ (p : Nat) (up : Bool) (s : State), s.clocked = true ∧ (dueOf s p).getLast? = some (p, up) ∧ s.maySend = true) ∧
    (∃ (p : Nat) (s : State), (s.noticeOf p).wait = []) ∧
    (∃ (p : Nat) (s : State), s.clocked = true ∧ (s.noticeOf p).wait ≠ [] ∧ waits s p = []) ∧
    (∃ (p : Nat) (s : State), s.clocked = true ∧ waits s p ≠ [] ∧ ¬ late s p ∧ s.maySend = true) ∧
    (∃ (p : Nat) (s : State), s.clocked = true ∧ p < 96 ∧ waits s p ≠ [] ∧ late s p ∧ s.maySend = true) ∧
    (∃ (p : Nat) (q : Nat) (s : State), (s.noticeOf p).seq ≠ q) ∧
    (∃ (s : State), s.clocked = true) ∧
    (∃ (n : Notice) (s : State), n.origin = s.self) ∧
    (∃ (n : Notice) (s : State), other s n ∧ n.heartbeat = true ∧ s.fabric.dead.contains n.origin = false) ∧
    (∃ (n : Notice) (s : State), other s n ∧ n.heartbeat = true ∧ n.origin < 4096 ∧ s.fabric.dead.contains n.origin = true) ∧
    (∃ (n : Notice) (s : State), other s n ∧ n.heartbeat = false ∧ newer s n) ∧
    (∃ (n : Notice) (s : State), other s n ∧ n.heartbeat = false ∧ ¬ newer s n) ∧
    (∃ (s : State), s.maySend = false) ∧
    (∃ (s : State), s.clocked = true ∧ s.maySend = true) ∧
    (∃ (d : Nat) (s : State), (s.flag (Reg.fabricDeviceStatus d) Fld.fabricDeviceStatus_v2 = false ∨ s.fabric.dead.contains d = true)) ∧
    (∃ (d : Nat) (s : State), s.clocked = true ∧ d < 4096 ∧ s.flag (Reg.fabricDeviceStatus d) Fld.fabricDeviceStatus_v2 = true ∧ s.fabric.dead.contains d = false) ∧
    (∃ (s : State), (s.fabric.quietDone = true ∨ s.boot.stage = .coldReset)) ∧
    (∃ (s : State), s.clocked = true ∧ s.fabric.quietDone = false ∧ s.boot.stage ≠ .coldReset) :=
  ⟨⟨95, W.due W.run, by decide +kernel⟩,
    ⟨95, false, W.due (W.out true []), by decide +kernel, by decide +kernel, by decide +kernel⟩,
    ⟨95, W.out true [], by decide +kernel⟩,
    ⟨95, W.out false [4094], by decide +kernel, by decide +kernel, by decide +kernel⟩,
    ⟨95, W.late (W.out false [4095]) 999999, by decide +kernel, by decide +kernel, by decide +kernel, by decide +kernel⟩,
    ⟨95, W.late (W.out false [4094, 4095]) 1000000, by decide +kernel, by decide +kernel, by decide +kernel, ⟨by decide +kernel, by decide +kernel⟩, by decide +kernel⟩,
    ⟨95, 0, W.out false [4095], by decide +kernel⟩,
    ⟨W.out false [4095], by decide +kernel⟩,
    ⟨W.ntc true true 4, W.f W.run Reg.trafficDevice Fld.trafficDevice_self 4095, by decide +kernel⟩,
    ⟨W.ntc true true 4, W.last 3, ⟨by decide +kernel, by decide +kernel⟩, by decide +kernel, by decide +kernel⟩,
    ⟨W.ntc true true 4, W.gone, ⟨by decide +kernel, by decide +kernel⟩, by decide +kernel, by decide +kernel, by decide +kernel⟩,
    ⟨W.ntc false true 129, W.last 3, ⟨by decide +kernel, by decide +kernel⟩, by decide +kernel, by decide +kernel⟩,
    ⟨W.ntc false true 130, W.last 3, ⟨by decide +kernel, by decide +kernel⟩, by decide +kernel, by decide +kernel⟩,
    ⟨W.run, by decide +kernel⟩,
    ⟨W.ready, by decide +kernel, by decide +kernel⟩,
    ⟨4095, W.gone, by decide +kernel⟩,
    ⟨4095, W.last 3, by decide +kernel, by decide +kernel, by decide +kernel, by decide +kernel⟩,
    ⟨W.ready, by decide +kernel⟩,
    ⟨W.f W.run (Reg.linePortCfg 95) Fld.linePortCfg_mode 1, by decide +kernel, by decide +kernel, by decide +kernel⟩⟩

end NoticesAndHeartbeats

end Sys2Proof.Tests.Q13

namespace Sys2Proof.Tests.Q14

def W.session : Session := Session.mk 1 0 3 0 0 true 1 0 0 [] 0 0 false 0 0
def W.hdr : FcpHdr := { session := 1, request := 9, seq := 1, tagOk := true }
def W.ep (ph cur nC nO : Nat) : State :=
  let s := W.f (W.f (W.f (W.f W.run Reg.epochState Fld.epochState_phase ph) Reg.epochState Fld.epochState_current cur) Reg.epochState Fld.epochState_other ((cur + 1) % 65536)) Reg.epochInflight Fld.epochInflight_current nC
  let s := (W.f s Reg.epochInflight Fld.epochInflight_other nO).setReg (Reg.classStageCfg 11 7) 99
  { s with fcp := { s.fcp with sessions := [W.session] }, bankOdd := [(Reg.epochBankSel, 5)], time := { s.time with stepFree := 5000000000 } }
def W.stage : Staged := { hdr := List.replicate 64 1, tbl := [], keyHash := 0, seconds := 0, ns := 0, switchNow := false, checked := true, switched := true, firmware := none }



namespace EpochsOpenSwitchAndRetire
abbrev up (s : State) (h : FcpHdr) (x : Session) (p : Nat) : Prop := s.clocked = true ∧ Granted s h x 0x30 privWrite ∧ s.epochPhase = p
abbrev timeOf (sec ns : Nat) : Nat := 1000000000 * sec + ns

/-- States and operands that meet the hypotheses of each clause of EpochsOpenSwitchAndRetire. -/
theorem test_EpochsOpenSwitchAndRetire :
    (∃ (h : FcpHdr) (x : Session) (s : State), up s h x 0) ∧
    (∃ (p : Nat) (h : FcpHdr) (x : Session) (s : State), up s h x p ∧ p ≠ 0) ∧
    (∃ (sec : Nat) (ns : Nat) (h : FcpHdr) (x : Session) (s : State), up s h x 1 ∧ sec < 2 ^ 48 ∧ ns < 1000000000 ∧ s.tod + 10000 ≤ timeOf sec ns) ∧
    (∃ (sec : Nat) (ns : Nat) (h : FcpHdr) (x : Session) (s : State), up s h x 1 ∧ sec < 2 ^ 48 ∧ ns < 1000000000 ∧ timeOf sec ns < s.tod + 10000) ∧
    (∃ (p : Nat) (sec : Nat) (ns : Nat) (h : FcpHdr) (x : Session) (s : State), up s h x p ∧ p ≠ 1 ∧ sec < 2 ^ 48 ∧ ns < 1000000000) ∧
    (∃ (sec : Nat) (ns : Nat) (p : Nat) (h : FcpHdr) (x : Session) (s : State), up s h x p ∧ (2 ^ 48 ≤ sec ∨ 1000000000 ≤ ns)) ∧
    (∃ (p : Nat) (h : FcpHdr) (x : Session) (s : State), up s h x p ∧ (p = 1 ∨ p = 2)) ∧
    (∃ (p : Nat) (h : FcpHdr) (x : Session) (s : State), up s h x p ∧ p ≠ 1 ∧ p ≠ 2) ∧
    (∃ (p : Nat) (h : FcpHdr) (x : Session) (s : State), up s h x p ∧ (p = 1 ∨ p = 2)) ∧
    (∃ (p : Nat) (h : FcpHdr) (x : Session) (s : State), up s h x p ∧ p ≠ 1 ∧ p ≠ 2) ∧
    (∃ (s : State), s.clocked = true ∧ s.epochPhase = 2) ∧
    (∃ (s : State), s.epochPhase ≠ 2) ∧
    (∃ (s : State), s.clocked = true ∧ s.epochPhase = 3) ∧
    (∃ (s : State), s.epochPhase ≠ 3) ∧
    (∃ (s : State), s.clocked = true ∧ s.epochPhase = 4 ∧ s.boot.staged = none) ∧
    (∃ (g : Staged) (s : State), s.clocked = true ∧ s.epochPhase = 4 ∧ s.boot.staged = some g ∧ g.switched = true ∧ g.firmware = none) ∧
    (∃ (s : State), s.epochPhase ≠ 4) :=
  ⟨⟨W.hdr, W.session, W.ep 0 65535 7 3, ⟨by decide +kernel, ⟨⟨by decide +kernel, by decide +kernel, by decide +kernel, by decide +kernel, by decide +kernel⟩, by decide +kernel⟩, by decide +kernel⟩⟩,
    ⟨4, W.hdr, W.session, W.ep 4 65535 7 3, ⟨by decide +kernel, ⟨⟨by decide +kernel, by decide +kernel, by decide +kernel, by decide +kernel, by decide +kernel⟩, by decide +kernel⟩, by decide +kernel⟩, by decide +kernel⟩,
    ⟨5, 10000, W.hdr, W.session, W.ep 1 65535 7 3, ⟨by decide +kernel, ⟨⟨by decide +kernel, by decide +kernel, by decide +kernel, by decide +kernel, by decide +kernel⟩, by decide +kernel⟩, by decide +kernel⟩, by decide +kernel, by decide +kernel, by decide +kernel⟩,
    ⟨5, 9999, W.hdr, W.session, W.ep 1 65535 7 3, ⟨by decide +kernel, ⟨⟨by decide +kernel, by decide +kernel, by decide +kernel, by decide +kernel, by decide +kernel⟩, by decide +kernel⟩, by decide +kernel⟩, by decide +kernel, by decide +kernel, by decide +kernel⟩,
    ⟨2, 5, 9999, W.hdr, W.session, W.ep 2 65535 7 3, ⟨by decide +kernel, ⟨⟨by decide +kernel, by decide +kernel, by decide +kernel, by decide +kernel, by decide +kernel⟩, by decide +kernel⟩, by decide +kernel⟩, by decide +kernel, by decide +kernel, by decide +kernel⟩,
    ⟨5, 1000000000, 1, W.hdr, W.session, W.ep 1 65535 7 3, ⟨by decide +kernel, ⟨⟨by decide +kernel, by decide +kernel, by decide +kernel, by decide +kernel, by decide +kernel⟩, by decide +kernel⟩, by decide +kernel⟩, by decide +kernel⟩,
    ⟨1, W.hdr, W.session, W.ep 1 65535 7 3, ⟨by decide +kernel, ⟨⟨by decide +kernel, by decide +kernel, by decide +kernel, by decide +kernel, by decide +kernel⟩, by decide +kernel⟩, by decide +kernel⟩, by decide +kernel⟩,
    ⟨3, W.hdr, W.session, W.ep 3 65535 7 3, ⟨by decide +kernel, ⟨⟨by decide +kernel, by decide +kernel, by decide +kernel, by decide +kernel, by decide +kernel⟩, by decide +kernel⟩, by decide +kernel⟩, by decide +kernel, by decide +kernel⟩,
    ⟨2, W.hdr, W.session, W.ep 2 65535 7 3, ⟨by decide +kernel, ⟨⟨by decide +kernel, by decide +kernel, by decide +kernel, by decide +kernel, by decide +kernel⟩, by decide +kernel⟩, by decide +kernel⟩, by decide +kernel⟩,
    ⟨0, W.hdr, W.session, W.ep 0 65535 7 3, ⟨by decide +kernel, ⟨⟨by decide +kernel, by decide +kernel, by decide +kernel, by decide +kernel, by decide +kernel⟩, by decide +kernel⟩, by decide +kernel⟩, by decide +kernel, by decide +kernel⟩,
    ⟨W.ep 2 65535 7 3, by decide +kernel, by decide +kernel⟩,
    ⟨W.ep 1 65535 7 3, by decide +kernel⟩,
    ⟨W.ep 3 65535 7 3, by decide +kernel, by decide +kernel⟩,
    ⟨W.ep 2 65535 7 3, by decide +kernel⟩,
    ⟨W.ep 4 65535 7 3, by decide +kernel, by decide +kernel, by decide +kernel⟩,
    ⟨W.stage, { W.ep 4 65535 7 3 with boot := { (W.ep 4 65535 7 3).boot with staged := some W.stage } }, by decide +kernel, by decide +kernel, by decide +kernel, by decide +kernel, by decide +kernel⟩,
    ⟨W.ep 3 65535 7 3, by decide +kernel⟩⟩

end EpochsOpenSwitchAndRetire

end Sys2Proof.Tests.Q14

namespace Sys2Proof.Tests.Q15

/-- Sources 1 and 3 are listed; the time unit is in state `st` with source `src`. -/
def W.tm (st src : Nat) : State :=
  let s := W.f (W.f (W.f (W.f W.run Reg.timeSrcCfg Fld.timeSrcCfg_src0 1) Reg.timeSrcCfg Fld.timeSrcCfg_src1 3) Reg.timeStatus Fld.timeStatus_state st) Reg.timeStatus Fld.timeStatus_source src
  let s := W.f (W.f (W.f s Reg.timeServo Fld.timeServo_lockThresh 50) Reg.timeServo Fld.timeServo_stepThresh 1000) Reg.bootStatus Fld.bootStatus_step 3
  { s with time := { s.time with stepFree := 5000000005, qualified := [1] } }
def W.t (s : State) (f : TimeSt → TimeSt) : State := { s with time := f s.time }
def W.cell (n : Nat) : TimeCell := { originDev := 9, originNs := 5000000000, correction := 3, seq := n, quality := 7 }
def W.follow (s : State) : State := W.f (W.f s Reg.timeSrcCfg Fld.timeSrcCfg_role 2) Reg.timeSrcCfg Fld.timeSrcCfg_followDev 9
def W.session : Session := Session.mk 1 0 3 0 0 true 1 0 0 [] 0 0 false 0 0
def W.hdr : FcpHdr := { session := 1, request := 9, seq := 1, tagOk := true }
def W.fcp : State := { W.tm 1 1 with fcp := { (W.tm 1 1).fcp with sessions := [W.session] } }



namespace TimeFollowsItsSources
abbrev inUse (s : State) (n : Nat) : Prop := s.clocked = true ∧ (s.timeState = 1 ∨ s.timeState = 2) ∧ s.timeSource = n
abbrev idle (s : State) : Prop := s.timeState ≠ 1 ∧ s.timeState ≠ 2
abbrev still (s : State) : Prop := s.epochPhase ≠ 2 ∧ ∀ p, p < 96 → s.flag (Reg.hatbandCfg p) Fld.hatbandCfg_pending = false
abbrev held (d : Int) : Prop := d.natAbs ≤ 200000
abbrev valid (s : State) : Bool := s.flag Reg.timeStatus Fld.timeStatus_todValid
abbrev slewing (s : State) : Bool := s.flag Reg.timeStatus Fld.timeStatus_slewing
abbrev apart (s : State) (m : TodMsg) : Prop := s.clocked = true ∧ m.crcOk = true ∧ s.timeState = 2 ∧ (s.timeSource = 1 ∨ s.timeSource = 2) ∧ m.seconds ≠ s.tod / 1000000000
abbrev left (s : State) (n : Nat) : State := { s with time := { s.time with qualified := s.time.qualified.filter (fun x => x != n) } }
abbrev follows (s : State) (c : TimeCell) : Prop := s.clocked = true ∧ s.fld Reg.timeSrcCfg Fld.timeSrcCfg_role = 2 ∧ c.originDev = s.fld Reg.timeSrcCfg Fld.timeSrcCfg_followDev
abbrev newer (s : State) (c : TimeCell) : Prop := ∀ q, s.time.lastSeq = some q → 1 ≤ (c.seq + 65536 - q) % 65536 ∧ (c.seq + 65536 - q) % 65536 ≤ 32767

/-- States and operands that meet the hypotheses of each clause of TimeFollowsItsSources. -/
theorem test_TimeFollowsItsSources :
    (∃ (s : State), (idle s ∨ (s.timeSource ≠ 1 ∧ s.timeSource ≠ 2))) ∧
    (∃ (n : Nat) (s : State), inUse s n ∧ (n = 1 ∨ n = 2) ∧ s.time.stepped = true) ∧
    (∃ (d : Int) (n : Nat) (s : State), inUse s n ∧ (n = 1 ∨ n = 2) ∧ s.time.stepped = false ∧ s.time.acq = 0 ∧ held d) ∧
    (∃ (d : Int) (n : Nat) (s : State), inUse s n ∧ (n = 1 ∨ n = 2) ∧ s.time.stepped = false ∧ s.time.acq = 1 ∧ s.flag Reg.timeServo Fld.timeServo_noStep = false ∧ still s ∧ held d) ∧
    (∃ (o : Int) (d : Int) (n : Nat) (s : State), inUse s n ∧ (n = 1 ∨ n = 2) ∧ s.time.stepped = false ∧ s.time.acq = 2 ∧ valid s = true ∧ o.natAbs ≤ 256 * s.fld Reg.timeServo Fld.timeServo_stepThresh ∧ o / 256 ≠ 0 ∧ held d) ∧
    (∃ (d : Int) (n : Nat) (s : State), inUse s n ∧ (n = 1 ∨ n = 2) ∧ s.timeState = 2 ∧ s.time.stepped = false ∧ s.time.acq = 0 ∧ ¬ held d ∧ s.time.limited = false) ∧
    (∃ (m : TodMsg) (s : State), s.clocked = true ∧ m.crcOk = false) ∧
    (∃ (m : TodMsg) (s : State), apart s m ∧ s.time.todRun < 2) ∧
    (∃ (m : TodMsg) (s : State), s.clocked = true ∧ m.crcOk = true ∧ m.seconds = s.tod / 1000000000) ∧
    (∃ (m : TodMsg) (s : State), apart s m ∧ 2 ≤ s.time.todRun ∧ still s) ∧
    (∃ (x : TimeSource) (s : State), s.timeList.contains (srcNum x) = false) ∧
    (∃ (x : TimeSource) (s : State), s.clocked = true ∧ s.timeList.head? = some (srcNum x) ∧ ¬ inUse s (srcNum x) ∧ still s) ∧
    (∃ (n : Nat) (x : TimeSource) (s : State), inUse s n ∧ s.timeList.head? = some n ∧ s.time.qualified.contains n = true ∧ s.timeList.contains (srcNum x) = true ∧ srcNum x ≠ n) ∧
    (∃ (x : TimeSource) (s : State), s.clocked = true ∧ ¬ inUse s (srcNum x)) ∧
    (∃ (b : Nat) (x : TimeSource) (s : State), inUse s (srcNum x) ∧ (left s (srcNum x)).timeBest = some b) ∧
    (∃ (x : TimeSource) (s : State), inUse s (srcNum x) ∧ (left s (srcNum x)).timeBest = none) ∧
    (∃ (s : State), s.clocked = true ∧ s.timeState = 3) ∧
    (∃ (s : State), s.timeState ≠ 3) ∧
    (∃ (s : State), s.clocked = true ∧ slewing s = true) ∧
    (∃ (s : State), slewing s = false) ∧
    (∃ (n : Nat) (s : State), inUse s n ∧ n ≠ 4) ∧
    (∃ (p : Int) (s : State), s.clocked = true ∧ idle s ∧ p ≠ 0) ∧
    (∃ (s : State), s.clocked = true ∧ idle s ∧ still s) ∧
    (∃ (d : Int), 51200000 < d.natAbs) ∧
    (∃ (d : Int) (n : Nat) (s : State), inUse s n ∧ n ≠ 4 ∧ s.timeList.contains 4 = false ∧ d.natAbs ≤ 51200000) ∧
    (∃ (d : Int) (s : State), s.clocked = true ∧ idle s ∧ s.timeList.contains 4 = false ∧ d.natAbs ≤ 51200000) ∧
    (∃ (d : Int) (n : Nat) (s : State), inUse s n ∧ n ≠ 4 ∧ s.timeList.head? = some n ∧ s.time.qualified.contains n = true ∧ s.timeList.contains 4 = true ∧ d.natAbs ≤ 51200000) ∧
    (∃ (s : State), s.fld Reg.timeSrcCfg Fld.timeSrcCfg_role ≠ 2) ∧
    (∃ (c : TimeCell) (s : State), s.clocked = true ∧ s.fld Reg.timeSrcCfg Fld.timeSrcCfg_role = 2 ∧ c.originDev ≠ s.fld Reg.timeSrcCfg Fld.timeSrcCfg_followDev) ∧
    (∃ (c : TimeCell) (q : Nat) (s : State), follows s c ∧ s.time.lastSeq = some q ∧ (c.seq = q ∨ 32767 < (c.seq + 65536 - q) % 65536) ∧ c.seq < 65536 ∧ q < 65536) ∧
    (∃ (c : TimeCell) (d : Int) (s : State), follows s c ∧ newer s c ∧ inUse s 3 ∧ s.time.stepped = false ∧ s.time.acq = 0 ∧ held d) :=
  ⟨⟨W.tm 1 3, by decide +kernel⟩,
    ⟨2, W.t (W.tm 1 2) (fun x => { x with stepped := true }), ⟨by decide +kernel, by decide +kernel, by decide +kernel⟩, by decide +kernel, by decide +kernel⟩,
    ⟨200000, 1, W.t (W.tm 1 1) (fun x => { x with lockRun := 15 }), ⟨by decide +kernel, by decide +kernel, by decide +kernel⟩, by decide +kernel, by decide +kernel, by decide +kernel, by decide +kernel⟩,
    ⟨0, 1, W.t (W.tm 1 1) (fun x => { x with acq := 1 }), ⟨by decide +kernel, by decide +kernel, by decide +kernel⟩, by decide +kernel, by decide +kernel, by decide +kernel, by decide +kernel, by decide +kernel, by decide +kernel⟩,
    ⟨256000, 0, 1, W.f (W.t (W.tm 1 1) (fun x => { x with acq := 2 })) Reg.timeStatus Fld.timeStatus_todValid 1, ⟨by decide +kernel, by decide +kernel, by decide +kernel⟩, by decide +kernel, by decide +kernel, by decide +kernel, by decide +kernel, by decide +kernel, by decide +kernel, by decide +kernel⟩,
    ⟨-200001, 1, W.tm 2 1, ⟨by decide +kernel, by decide +kernel, by decide +kernel⟩, by decide +kernel, by decide +kernel, by decide +kernel, by decide +kernel, by decide +kernel, by decide +kernel⟩,
    ⟨{ seconds := 5, quality := 0, crcOk := false }, W.tm 2 1, by decide +kernel, by decide +kernel⟩,
    ⟨{ seconds := 6, quality := 0, crcOk := true }, W.t (W.tm 2 1) (fun x => { x with todRun := 1 }), ⟨by decide +kernel, by decide +kernel, by decide +kernel, by decide +kernel, by decide +kernel⟩, by decide +kernel⟩,
    ⟨{ seconds := 5, quality := 0, crcOk := true }, W.t (W.tm 2 1) (fun x => { x with todRun := 1 }), by decide +kernel, by decide +kernel, by decide +kernel⟩,
    ⟨{ seconds := 4, quality := 0, crcOk := true }, W.t (W.tm 2 2) (fun x => { x with todRun := 2 }), ⟨by decide +kernel, by decide +kernel, by decide +kernel, by decide +kernel, by decide +kernel⟩, by decide +kernel, by decide +kernel⟩,
    ⟨.pps, W.tm 1 1, by decide +kernel⟩,
    ⟨.ext, W.tm 0 0, by decide +kernel, by decide +kernel, by decide +kernel, by decide +kernel⟩,
    ⟨1, .fabric, W.tm 2 1, ⟨by decide +kernel, by decide +kernel, by decide +kernel⟩, by decide +kernel, by decide +kernel, by decide +kernel, by decide +kernel⟩,
    ⟨.fabric, W.tm 2 1, by decide +kernel, by decide +kernel⟩,
    ⟨3, .ext, W.t (W.tm 2 1) (fun x => { x with qualified := [3, 1] }), ⟨by decide +kernel, by decide +kernel, by decide +kernel⟩, by decide +kernel⟩,
    ⟨.ext, W.tm 1 1, ⟨by decide +kernel, by decide +kernel, by decide +kernel⟩, by decide +kernel⟩,
    ⟨W.tm 3 1, by decide +kernel, by decide +kernel⟩,
    ⟨W.tm 2 1, by decide +kernel⟩,
    ⟨W.f (W.t (W.tm 1 1) (fun x => { x with slewLeft := -7 })) Reg.timeStatus Fld.timeStatus_slewing 1, by decide +kernel, by decide +kernel⟩,
    ⟨W.tm 2 1, by decide +kernel⟩,
    ⟨3, W.tm 2 3, ⟨by decide +kernel, by decide +kernel, by decide +kernel⟩, by decide +kernel⟩,
    ⟨-5, W.tm 3 3, by decide +kernel, ⟨by decide +kernel, by decide +kernel⟩, by decide +kernel⟩,
    ⟨W.tm 0 0, by decide +kernel, ⟨by decide +kernel, by decide +kernel⟩, by decide +kernel⟩,
    ⟨-51200001, by decide +kernel⟩,
    ⟨-51200000, 1, W.tm 2 1, ⟨by decide +kernel, by decide +kernel, by decide +kernel⟩, by decide +kernel, by decide +kernel, by decide +kernel⟩,
    ⟨-51200000, W.tm 3 1, by decide +kernel, ⟨by decide +kernel, by decide +kernel⟩, by decide +kernel, by decide +kernel⟩,
    ⟨-51200000, 1, W.f (W.tm 2 1) Reg.timeSrcCfg Fld.timeSrcCfg_src2 4, ⟨by decide +kernel, by decide +kernel, by decide +kernel⟩, by decide +kernel, by decide +kernel, by decide +kernel, by decide +kernel, by decide +kernel⟩,
    ⟨W.tm 2 3, by decide +kernel⟩,
    ⟨{ W.cell 5 with originDev := 8 }, W.follow (W.tm 2 3), by decide +kernel, by decide +kernel, by decide +kernel⟩,
    ⟨W.cell 5, 5, W.t (W.follow (W.tm 2 3)) (fun x => { x with lastSeq := some 5 }), ⟨by decide +kernel, by decide +kernel, by decide +kernel⟩, by decide +kernel, by decide +kernel, by decide +kernel, by decide +kernel⟩,
    ⟨W.cell 32766, 0, W.t (W.follow (W.tm 2 3)) (fun x => { x with lastSeq := some 65535 }), ⟨by decide +kernel, by decide +kernel, by decide +kernel⟩, by decide +kernel, ⟨by decide +kernel, by decide +kernel, by decide +kernel⟩, by decide +kernel, by decide +kernel, by decide +kernel⟩⟩

end TimeFollowsItsSources

namespace TimeIsShownOutside
abbrev runs (s : State) : Prop := 3 ≤ s.fld Reg.bootStatus Fld.bootStatus_step ∧ (s.fld Reg.timeOutCfg Fld.timeOutCfg_outSquelch = 0 ∨ (s.fld Reg.timeOutCfg Fld.timeOutCfg_outSquelch = 1 ∧ s.timeState ≠ 0) ∨ s.timeState = 2)

/-- States and operands that meet the hypotheses of each clause of TimeIsShownOutside. -/
theorem test_TimeIsShownOutside :
    (∃ (h : FcpHdr) (x : Session) (s : State), s.clocked = true ∧ Granted s h x 0x10 privWrite ∧ s.tod / 1000000000 < 2 ^ 48) ∧
    (∃ (s : State), s.clocked = true ∧ runs s) ∧
    (∃ (s : State), ¬ runs s) ∧
    (∃ (s : State), s.clocked = true) ∧
    (∃ (s : State), s.clocked = true ∧ runs s ∧ s.flag Reg.timeOutCfg Fld.timeOutCfg_todOutEn = true) ∧
    (∃ (s : State), s.flag Reg.timeOutCfg Fld.timeOutCfg_todOutEn = false) :=
  ⟨⟨W.hdr, W.session, W.fcp, by decide +kernel, ⟨⟨by decide +kernel, by decide +kernel, by decide +kernel, by decide +kernel, by decide +kernel⟩, by decide +kernel⟩, by decide +kernel⟩,
    ⟨W.tm 1 1, by decide +kernel, ⟨by decide +kernel, by decide +kernel⟩⟩,
    ⟨W.f (W.tm 1 1) Reg.timeOutCfg Fld.timeOutCfg_outSquelch 2, by decide +kernel⟩,
    ⟨W.tm 1 1, by decide +kernel⟩,
    ⟨W.f (W.f (W.tm 0 0) Reg.timeOutCfg Fld.timeOutCfg_todOutEn 1) Reg.timeOutCfg Fld.timeOutCfg_outSquelch 0, by decide +kernel, ⟨by decide +kernel, by decide +kernel⟩, by decide +kernel⟩,
    ⟨W.f (W.tm 1 1) Reg.timeOutCfg Fld.timeOutCfg_todOutEn 0, by decide +kernel⟩⟩

end TimeIsShownOutside

end Sys2Proof.Tests.Q15

namespace Sys2Proof.Tests.Q16

def W.meas : EpochMeas := { currentF := 100, currentT := 80, demandF := 200, demandT := 160, want1 := 1510200, want2 := 1600000, want3 := 300000, spent0 := 6237999, inputQueuesEmpty := false }
def W.gov : State :=
  let s := W.f (W.f (W.f W.run Reg.govBudget Fld.govBudget_budget 330) Reg.govBudget Fld.govBudget_base 247) Reg.govBudget Fld.govBudget_starveTime 100
  let s := W.f (W.f (W.f s Reg.govClass Fld.govClass_floor1 256) Reg.govClass Fld.govClass_floor3 16) Reg.govRail Fld.govRail_slew 20
  let s := W.f (W.f (W.f s Reg.govRail Fld.govRail_reserveF 8) Reg.govRail Fld.govRail_reserveT 4) Reg.govBudget Fld.govBudget_overTime 1
  { s with gov := { s.gov with envF := 1080, envT := 840, aside := 6237000, purse1 := 4500000, starved3 := 99900 } }
def W.g (s : State) (f : Gov → Gov) : State := { s with gov := f s.gov }
def W.hot (i : Nat) (v : Int) (s : State) : State := W.g (W.f (W.f s (Reg.govSensor i) Fld.govSensor_temp (ofSigned 8 v)) (Reg.govSensor i) Fld.govSensor_peak 20) (fun g => { g with seen := g.seen ++ [i] })
def W.therm (s : State) : State := W.f (W.f (W.f (W.f (W.f s Reg.govThermCfg Fld.govThermCfg_t0 90) Reg.govThermCfg Fld.govThermCfg_t1 95) Reg.govThermCfg Fld.govThermCfg_t2 100) Reg.govThermCfg Fld.govThermCfg_t3 105) Reg.govThermCfg Fld.govThermCfg_hyst 5
def W.bad (l : List Nat) (s : State) : State := l.foldl (fun s i => W.f s (Reg.govSensor i) Fld.govSensor_fault 1) s
def W.after (o : Host.Outcome State Fault Refusal) : State := match o with | .next t => t | _ => State.reset
def W.keyed (s : State) : State := s.setSa 95 15 3 { MacsecSa.erased MacsecSa.idle with key := 5 }



namespace CreditEpochsGrantEnergy
abbrev mid (s : State) (m : EpochMeas) : State := (s.twiApply.effUpdate 1).epochRails m
abbrev slew (s : State) : Nat := s.fld Reg.govRail Fld.govRail_slew
abbrev fits (s : State) (m : EpochMeas) : Prop := s.gov.envT ≤ 5 * m.demandT + 600 ∧ 10 * s.fld Reg.govRail Fld.govRail_reserveT ≤ 600
abbrev normal (s : State) : Prop := s.clocked = true ∧ s.shed = false ∧ 10 * s.fld Reg.govRail Fld.govRail_reserveF ≤ 1000
abbrev overTime (s : State) : Nat := 10000 * s.fld Reg.govBudget Fld.govBudget_overTime

/-- States and operands that meet the hypotheses of each clause of CreditEpochsGrantEnergy. -/
theorem test_CreditEpochsGrantEnergy :
    (∃ (v : Nat) (f1 : Nat) (f2 : Nat) (f3 : Nat), f1 + f2 + f3 ≤ v) ∧
    (∃ (s : State), (s.shed = true ∨ 3 ≤ s.tier)) ∧
    (∃ (s : State), s.shed = true) ∧
    (∃ (m : EpochMeas) (g : Nat) (s : State), 0 < m.want1 ∧ g ≤ s.gov.debt + s.gov.aside ∧ 1000 * s.fld Reg.govBudget Fld.govBudget_starveTime ≤ s.gov.starved1 + 100) ∧
    (∃ (m : EpochMeas) (g : Nat) (s : State), 0 < m.want1 ∧ g ≤ s.gov.debt + s.gov.aside ∧ s.gov.starved1 + 100 < 1000 * s.fld Reg.govBudget Fld.govBudget_starveTime) ∧
    (∃ (s : State), s.clocked = true) ∧
    (∃ (m : EpochMeas) (s : State), normal s ∧ s.gov.envF ≤ 5 * m.demandF + 1000) ∧
    (∃ (m : EpochMeas) (s : State), normal s ∧ fits s m ∧ 5 * m.demandF + 1000 + slew s < s.gov.envF) ∧
    (∃ (m : EpochMeas) (s : State), s.clocked = true ∧ (mid s m).grossPool m < s.gov.aside ∧ s.fld Reg.govBudget Fld.govBudget_paceEn = 1 ∧ s.gov.paced = false ∧ overTime s ≤ s.gov.overNs + 100) ∧
    (∃ (m : EpochMeas) (s : State), s.clocked = true ∧ (mid s m).grossPool m < s.gov.aside ∧ s.fld Reg.govBudget Fld.govBudget_paceEn = 0 ∧ s.tier ≠ 4) ∧
    (∃ (m : EpochMeas) (s : State), s.clocked = true ∧ s.gov.paced = true ∧ m.inputQueuesEmpty = true ∧ overTime s ≤ s.gov.emptyNs + 100) :=
  ⟨⟨31, 10, 0, 21, by decide +kernel⟩,
    ⟨W.f W.gov Reg.govStatus Fld.govStatus_tier 3, by decide +kernel⟩,
    ⟨W.f W.gov Reg.govStatus Fld.govStatus_pfw 1, by decide +kernel⟩,
    ⟨W.meas, 6237000, W.g W.gov (fun g => { g with starved1 := 99900 }), by decide +kernel, by decide +kernel, by decide +kernel⟩,
    ⟨W.meas, 6237000, W.g W.gov (fun g => { g with starved1 := 99800 }), by decide +kernel, by decide +kernel, by decide +kernel⟩,
    ⟨W.gov, by decide +kernel⟩,
    ⟨W.meas, W.gov, ⟨by decide +kernel, by decide +kernel, by decide +kernel⟩, by decide +kernel⟩,
    ⟨W.meas, W.g W.gov (fun g => { g with envF := 2021 }), ⟨by decide +kernel, by decide +kernel, by decide +kernel⟩, ⟨by decide +kernel, by decide +kernel⟩, by decide +kernel⟩,
    ⟨W.meas, W.f (W.g W.gov (fun g => { g with aside := 8000000, overNs := 9900 })) Reg.govBudget Fld.govBudget_paceEn 1, by decide +kernel, by decide +kernel, by decide +kernel, by decide +kernel, by decide +kernel⟩,
    ⟨W.meas, W.f (W.g W.gov (fun g => { g with aside := 8000000, overNs := 9900 })) Reg.govBudget Fld.govBudget_paceEn 0, by decide +kernel, by decide +kernel, by decide +kernel, by decide +kernel⟩,
    ⟨{ W.meas with inputQueuesEmpty := true }, W.g W.gov (fun g => { g with paced := true, emptyNs := 9900 }), by decide +kernel, by decide +kernel, by decide +kernel, by decide +kernel⟩⟩

end CreditEpochsGrantEnergy

namespace PowerWarningsAndHeat
abbrev on (s : State) (f : Bool) : List Nat := if f = true then s.gov.regionsF else s.gov.regionsT
abbrev due (s : State) (f : Bool) : Nat := if f = true then s.gov.nextF else s.gov.nextT
abbrev room (s : State) (f : Bool) : Nat := if f = true then s.fld Reg.govRailStatus Fld.govRailStatus_balF else s.fld Reg.govRailStatus Fld.govRailStatus_balT
abbrev ok (s : State) (i : Nat) : Prop := s.clocked = true ∧ i < 24 ∧ s.flag (Reg.govSensor i) Fld.govSensor_fault = false

/-- States and operands that meet the hypotheses of each clause of PowerWarningsAndHeat. -/
theorem test_PowerWarningsAndHeat :
    (∃ (f : Bool) (r : Nat) (i : Nat) (s : State), s.clocked = true ∧ 3 ≤ s.fld Reg.bootStatus Fld.bootStatus_step ∧ (on s f).contains r = false ∧ due s f ≤ s.time.stepFree ∧ i ≤ room s f) ∧
    (∃ (f : Bool) (r : Nat) (i : Nat) (s : State), (s.fld Reg.bootStatus Fld.bootStatus_step < 3 ∨ (on s f).contains r = true ∨ s.time.stepFree < due s f ∨ room s f < i)) ∧
    (∃ (s : State), s.boot.stage = .running ∧ s.shed = false ∧ s.bist.running = []) ∧
    (∃ (s : State), s.boot.stage ≠ .running ∧ s.boot.stage ≠ .coldReset ∧ (∀ r ∈ s.bist.running, r.seg < 180)) ∧
    (∃ (s : State), s.shed = true ∧ s.boot.stopped = false) ∧
    (∃ (s : State), (s.shed = false ∨ s.boot.stopped = true)) ∧
    (∃ (s : State), s.clocked = true ∧ s.gov.releasing = true) ∧
    (∃ (s : State), s.gov.releasing = false) ∧
    (∃ (i : Nat), 24 ≤ i) ∧
    (∃ (i : Nat) (s : State), s.clocked = true ∧ i < 24) ∧
    (∃ (i : Nat) (v : Int) (s : State), ok s i ∧ (v < -40 ∨ 130 < v)) ∧
    (∃ (i : Nat) (v : Int) (s : State), ok s i ∧ 112 ≤ v ∧ v ≤ 130 ∧ mget (fun _ => 0) s.gov.badRuns i < 9) ∧
    (∃ (i : Nat) (j : Nat) (v : Int) (h : Int) (s : State) (t : State), ok s i ∧ exec (.sensorReading i v) s = .next t ∧ t.hottest = some (j, h) ∧ t.tierForced = false) ∧
    (∃ (i : Nat) (s : State), s.clocked = true ∧ i < 24 ∧ s.flag (Reg.govSensor i) Fld.govSensor_fault = true) ∧
    (∃ (j : Nat) (h : Int) (s : State), s.clocked = true ∧ s.hottest = some (j, h) ∧ s.tierForced = false) ∧
    (∃ (s : State), (s.hottest = none ∨ s.tierForced = true)) ∧
    (∃ (i : Nat) (s : State), s.clocked = true ∧ i < 24) :=
  ⟨⟨true, 3, 7, W.f (W.f W.run Reg.bootStatus Fld.bootStatus_step 3) Reg.govRailStatus Fld.govRailStatus_balF 7, by decide +kernel, by decide +kernel, by decide +kernel, by decide +kernel, by decide +kernel⟩,
    ⟨true, 3, 8, W.f (W.f W.run Reg.bootStatus Fld.bootStatus_step 3) Reg.govRailStatus Fld.govRailStatus_balF 7, by decide +kernel⟩,
    ⟨W.gov, by decide +kernel, by decide +kernel, by decide +kernel⟩,
    ⟨W.at .fabric, by decide +kernel, by decide +kernel, by decide +kernel⟩,
    ⟨W.f W.gov Reg.govStatus Fld.govStatus_pfw 1, by decide +kernel, by decide +kernel⟩,
    ⟨W.gov, by decide +kernel⟩,
    ⟨W.g (W.f (W.f W.gov Reg.govStatus Fld.govStatus_pfw 1) Reg.govStatus Fld.govStatus_pacing 3) (fun g => { g with releasing := true }), by decide +kernel, by decide +kernel⟩,
    ⟨W.gov, by decide +kernel⟩,
    ⟨24, by decide +kernel⟩,
    ⟨23, W.hot 23 40 W.run, by decide +kernel, by decide +kernel⟩,
    ⟨23, -41, W.bad [0, 1, 2, 3] (W.therm W.run), ⟨by decide +kernel, by decide +kernel, by decide +kernel⟩, by decide +kernel⟩,
    ⟨23, 112, W.keyed (W.hot 22 40 (W.therm W.run)), ⟨by decide +kernel, by decide +kernel, by decide +kernel⟩, by decide +kernel, by decide +kernel, by decide +kernel⟩,
    ⟨23, 23, 105, 105, W.therm W.run, W.after (exec (.sensorReading 23 105) (W.therm W.run)), ⟨by decide +kernel, by decide +kernel, by decide +kernel⟩, rfl, by decide +kernel, by decide +kernel⟩,
    ⟨23, W.bad [23] (W.therm W.run), by decide +kernel, by decide +kernel, by decide +kernel⟩,
    ⟨7, 89, W.f (W.hot 7 89 (W.therm W.run)) Reg.govStatus Fld.govStatus_tier 2, by decide +kernel, by decide +kernel, by decide +kernel⟩,
    ⟨W.run, by decide +kernel⟩,
    ⟨23, W.hot 23 40 W.run, by decide +kernel, by decide +kernel⟩⟩

end PowerWarningsAndHeat

end Sys2Proof.Tests.Q16

namespace Sys2Proof.Tests.Q17

def W.session : Session := Session.mk 8 1 3 77 0 true 1 0 4 [] 2 5 false 9 0
def W.hdr : FcpHdr := { session := 8, request := 9, seq := 1, tagOk := true }
def W.rec (n : Nat) : EventRec := { code := 0x0120, held := 0, seq := n, time := List.replicate 12 1, data := [7] }
/-- Session 8 and others 1 to `n` are held; the ring holds records 4, 5 and 6. -/
def W.fcp (x : Session) (n : Nat) : State :=
  { W.run with fcp := { W.run.fcp with sessions := (List.range n).map (fun i => { W.session with id := i + 1 }) ++ [x] }, ev := { W.run.ev with ring := [W.rec 4, W.rec 5, W.rec 6], windows := [{ code := 0x0603, key := 5, held := 0, data := [] }, { code := 0x0603, key := 6, held := 3, data := [1] }] } }
def W.new : Session := { W.session with auth := false }
/-- Peer 15 has key hash 77 and privilege 1. -/
def W.peer (s : State) : State := (s.setReg (Reg.fcpPeerWord 15 5) 77).setReg (Reg.fcpPeerWord 15 6) (BitVec.ofNat 64 (2 ^ 63 + 1))
def W.rcv (s : State) : State := { s with boot := { s.boot with stage := .recovery } }
def W.log (r w : Nat) : State := let s := W.f (W.f (W.fcp W.session 0) Reg.learnLogPtr Fld.learnLogPtr_rd r) Reg.learnLogPtr Fld.learnLogPtr_wr w; s
/-- Table 255 is stale; bucket 0 holds an entry of it that the shadow lacks. -/
def W.stale : State := W.f ((W.log 0 0).tblPut 0x000100000000 (2 ^ 63 + 255 * 2 ^ 48 + 5)) (Reg.tableAgeCfg 255) Fld.tableAgeCfg_stale 1
def W.fuse (f : Fuses) : State := let s := W.fcp W.session 0; { s with fuses := f, boot := { s.boot with hdr := List.replicate 0x18 0 ++ [0, 5] ++ List.replicate 200 0, flashMiB := 16, resetDue := true } }
def W.after (o : Host.Outcome State Fault Refusal) : State := match o with | .next t => t | _ => State.reset
def W.blank : Fuses := State.reset.fuses
def W.due (n : Nat) : State := { W.run with time := { W.run.time with stepFree := n } }



namespace SessionsOpenAndClose
abbrev common (hi : Nat) : Nat := min hi 3
abbrev free (s : State) (i : Nat) : Prop := 1 ≤ i ∧ i ≤ 8 ∧ s.session i = none ∧ ∀ j, j < 9 → 1 ≤ j → j < i → s.session j ≠ none
abbrev came (s : State) (h : FcpHdr) (x : Session) : Prop := s.clocked = true ∧ Accepted s h x

/-- States and operands that meet the hypotheses of each clause of SessionsOpenAndClose. -/
theorem test_SessionsOpenAndClose :
    (∃ (s : State), s.fcpUp = false) ∧
    (∃ (lo : Nat) (hi : Nat) (s : State), s.clocked = true ∧ s.fcpUp = true ∧ common hi < max lo 1) ∧
    (∃ (lo : Nat) (hi : Nat) (s : State), s.clocked = true ∧ s.fcpUp = true ∧ max lo 1 ≤ common hi ∧ 8 ≤ s.fcp.sessions.length) ∧
    (∃ (lo : Nat) (hi : Nat) (i : Nat) (s : State), s.clocked = true ∧ s.fcpUp = true ∧ max lo 1 ≤ common hi ∧ s.fcp.sessions.length < 8 ∧ free s i) ∧
    (∃ (h : FcpHdr) (x : Session) (i : Nat) (p : Nat) (s : State), came s h x ∧ x.auth = false ∧ s.peerOf x.keyHash = some (i, p)) ∧
    (∃ (h : FcpHdr) (x : Session) (b : Bool) (s : State), came s h x ∧ x.auth = false ∧ (b = false ∨ s.peerOf x.keyHash = none)) ∧
    (∃ (h : FcpHdr) (x : Session) (s : State), came s h x ∧ x.auth = true) ∧
    (∃ (h : FcpHdr) (x : Session) (s : State), came s h x) ∧
    (∃ (h : FcpHdr) (x : Session) (s : State), s.clocked = true ∧ s.session h.session = some x ∧ s.fcpUp = true ∧ h.tagOk = false) ∧
    (∃ (h : FcpHdr) (x : Session) (s : State), s.clocked = true ∧ s.session h.session = some x ∧ s.fcpUp = true ∧ h.tagOk = true ∧ h.seq ≤ x.rxSeq) ∧
    (∃ (h : FcpHdr) (s : State), (s.session h.session = none ∨ s.fcpUp = false)) ∧
    (∃ (h : FcpHdr) (x : Session) (s : State), came s h x) ∧
    (∃ (i : Nat) (x : Session) (s : State), s.clocked = true ∧ s.session i = some x ∧ s.fcpUp = true) ∧
    (∃ (i : Nat) (s : State), (s.session i = none ∨ s.fcpUp = false)) ∧
    (∃ (i : Nat) (x : Session) (s : State), s.clocked = true ∧ s.session i = some x ∧ s.fcpUp = true) ∧
    (∃ (m : Nat) (s : State), s.clocked = true ∧ m < 2) ∧
    (∃ (m : Nat), 2 ≤ m) :=
  ⟨⟨State.reset, by decide +kernel⟩,
    ⟨4, 9, W.run, by decide +kernel, by decide +kernel, by decide +kernel⟩,
    ⟨3, 9, W.fcp W.new 7, by decide +kernel, by decide +kernel, by decide +kernel, by decide +kernel⟩,
    ⟨0, 1, 7, W.fcp W.new 6, by decide +kernel, by decide +kernel, by decide +kernel, by decide +kernel, by decide +kernel⟩,
    ⟨W.hdr, W.new, 15, 1, W.peer (W.fcp W.new 7), ⟨by decide +kernel, ⟨by decide +kernel, by decide +kernel, by decide +kernel, by decide +kernel, by decide +kernel⟩⟩, by decide +kernel, by decide +kernel⟩,
    ⟨W.hdr, W.new, false, W.peer (W.fcp W.new 7), ⟨by decide +kernel, ⟨by decide +kernel, by decide +kernel, by decide +kernel, by decide +kernel, by decide +kernel⟩⟩, by decide +kernel, by decide +kernel⟩,
    ⟨W.hdr, W.session, W.fcp W.session 7, ⟨by decide +kernel, ⟨by decide +kernel, by decide +kernel, by decide +kernel, by decide +kernel, by decide +kernel⟩⟩, by decide +kernel⟩,
    ⟨W.hdr, W.session, W.fcp W.session 7, ⟨by decide +kernel, ⟨by decide +kernel, by decide +kernel, by decide +kernel, by decide +kernel, by decide +kernel⟩⟩⟩,
    ⟨{ W.hdr with tagOk := false }, W.session, W.fcp W.session 7, by decide +kernel, by decide +kernel, by decide +kernel, by decide +kernel⟩,
    ⟨{ W.hdr with seq := 0 }, W.session, W.fcp W.session 7, by decide +kernel, by decide +kernel, by decide +kernel, by decide +kernel, by decide +kernel⟩,
    ⟨W.hdr, W.run, by decide +kernel⟩,
    ⟨W.hdr, W.session, W.fcp W.session 7, ⟨by decide +kernel, ⟨by decide +kernel, by decide +kernel, by decide +kernel, by decide +kernel, by decide +kernel⟩⟩⟩,
    ⟨8, W.session, W.fcp W.session 7, by decide +kernel, by decide +kernel, by decide +kernel⟩,
    ⟨8, W.run, by decide +kernel⟩,
    ⟨8, W.session, W.fcp W.session 7, by decide +kernel, by decide +kernel, by decide +kernel⟩,
    ⟨1, W.run, by decide +kernel, by decide +kernel⟩,
    ⟨2, by decide +kernel⟩⟩

end SessionsOpenAndClose

namespace EventsAndLearnRecordsAreDelivered
abbrev came (s : State) (h : FcpHdr) (x : Session) : Prop := s.clocked = true ∧ Accepted s h x
abbrev after (s : State) (n : Nat) : List EventRec := s.ev.ring.filter (fun r => decide (n < r.seq))
abbrev unacked (s : State) (x : Session) : List EventRec := s.ev.ring.filter (fun r => decide (x.ackSeq < r.seq) && decide (r.seq ≤ x.sentSeq))
abbrev few (l : List EventRec) : Prop := l ≠ [] ∧ l.length ≤ 32
abbrev windowOf (s : State) (c k : Nat) : Option RateWindow := s.ev.windows.find? (fun w => w.code == c && w.key == k)
abbrev rd (s : State) : Nat := s.fld Reg.learnLogPtr Fld.learnLogPtr_rd
abbrev held (s : State) : Nat := (s.fld Reg.learnLogPtr Fld.learnLogPtr_wr + 65536 - rd s) % 65536

/-- States and operands that meet the hypotheses of each clause of EventsAndLearnRecordsAreDelivered. -/
theorem test_EventsAndLearnRecordsAreDelivered :
    (∃ (h : FcpHdr) (x : Session) (s : State), came s h x ∧ x.auth = true) ∧
    (∃ (h : FcpHdr) (x : Session) (q : Nat) (s : State), came s h x ∧ x.auth = true ∧ few (after s q)) ∧
    (∃ (h : FcpHdr) (x : Session) (q : Nat) (s : State), came s h x ∧ x.auth = true ∧ after s q = []) ∧
    (∃ (i : Nat) (x : Session) (s : State), s.clocked = true ∧ s.session i = some x ∧ x.auth = true ∧ s.fcpUp = true ∧ few (unacked s x)) ∧
    (∃ (i : Nat) (x : Session) (s : State), s.session i = some x ∧ (unacked s x = [] ∨ x.auth = false ∨ s.fcpUp = false)) ∧
    (∃ (c : Nat) (k : Nat) (s : State), windowOf s c k = none) ∧
    (∃ (c : Nat) (k : Nat) (w : RateWindow) (s : State), s.clocked = true ∧ windowOf s c k = some w ∧ w.held = 0) ∧
    (∃ (c : Nat) (k : Nat) (w : RateWindow) (s : State), s.clocked = true ∧ windowOf s c k = some w ∧ w.held ≠ 0) ∧
    (∃ (h : FcpHdr) (x : Session) (s : State), came s h x ∧ x.auth = true ∧ s.boot.stage ≠ .recovery) ∧
    (∃ (h : FcpHdr) (x : Session) (s : State), came s h x ∧ s.boot.stage = .recovery) ∧
    (∃ (n : Nat) (s : State), (s.boot.fwRunning = false ∨ n = 0 ∨ held s = 0)) ∧
    (∃ (n : Nat) (s : State), s.clocked = true ∧ s.boot.fwRunning = true ∧ 0 < n ∧ 0 < held s) ∧
    (∃ (n : Nat) (x : Session) (s : State), s.clocked = true ∧ s.boot.fwRunning = true ∧ 0 < n ∧ 0 < held s ∧ min n (held s) ≤ 256 ∧ s.fcp.sessions = [x] ∧ x.auth = true ∧ x.priv = 1) ∧
    (∃ (b : Nat) (s : State), (s.boot.fwRunning = false ∨ s.flag (Reg.tableAgeCfg b) Fld.tableAgeCfg_stale = false)) ∧
    (∃ (b : Nat) (s : State), s.clocked = true ∧ b < 256 ∧ s.boot.fwRunning = true ∧ s.flag (Reg.tableAgeCfg b) Fld.tableAgeCfg_stale = true) :=
  ⟨⟨W.hdr, W.session, W.fcp W.session 7, ⟨by decide +kernel, ⟨by decide +kernel, by decide +kernel, by decide +kernel, by decide +kernel, by decide +kernel⟩⟩, by decide +kernel⟩,
    ⟨W.hdr, W.session, 3, W.fcp W.session 7, ⟨by decide +kernel, ⟨by decide +kernel, by decide +kernel, by decide +kernel, by decide +kernel, by decide +kernel⟩⟩, by decide +kernel, ⟨by decide +kernel, by decide +kernel⟩⟩,
    ⟨W.hdr, W.session, 6, W.fcp W.session 7, ⟨by decide +kernel, ⟨by decide +kernel, by decide +kernel, by decide +kernel, by decide +kernel, by decide +kernel⟩⟩, by decide +kernel, by decide +kernel⟩,
    ⟨8, W.session, W.fcp W.session 7, by decide +kernel, by decide +kernel, by decide +kernel, by decide +kernel, ⟨by decide +kernel, by decide +kernel⟩⟩,
    ⟨8, { W.session with ackSeq := 6 }, W.fcp { W.session with ackSeq := 6 } 7, by decide +kernel, by decide +kernel⟩,
    ⟨0x0603, 7, W.fcp W.session 7, by decide +kernel⟩,
    ⟨0x0603, 5, { code := 0x0603, key := 5, held := 0, data := [] }, W.fcp W.session 7, by decide +kernel, by decide +kernel, by decide +kernel⟩,
    ⟨0x0603, 6, { code := 0x0603, key := 6, held := 3, data := [1] }, W.fcp W.session 7, by decide +kernel, by decide +kernel, by decide +kernel⟩,
    ⟨W.hdr, W.session, W.fcp W.session 7, ⟨by decide +kernel, ⟨by decide +kernel, by decide +kernel, by decide +kernel, by decide +kernel, by decide +kernel⟩⟩, by decide +kernel, by decide +kernel⟩,
    ⟨W.hdr, W.session, W.rcv (W.fcp W.session 7), ⟨by decide +kernel, ⟨by decide +kernel, by decide +kernel, by decide +kernel, by decide +kernel, by decide +kernel⟩⟩, by decide +kernel⟩,
    ⟨5, W.log 4 4, by decide +kernel⟩,
    ⟨5, W.log 65535 3, by decide +kernel, by decide +kernel, by decide +kernel, by decide +kernel⟩,
    ⟨2, W.session, W.log 65535 3, by decide +kernel, by decide +kernel, by decide +kernel, by decide +kernel, by decide +kernel, by decide +kernel, by decide +kernel, by decide +kernel⟩,
    ⟨255, W.run, by decide +kernel⟩,
    ⟨255, W.stale, by decide +kernel, by decide +kernel, by decide +kernel, by decide +kernel⟩⟩

end EventsAndLearnRecordsAreDelivered

namespace FuseBitsAreOnlyEverSet
abbrev asks (s : State) (h : FcpHdr) (x : Session) (p : Nat) : Prop := s.clocked = true ∧ Granted s h x 0x42 p
abbrev live (s : State) : List Nat := (List.range 4).filter (fun k => s.fuses.programmed k && !bit s.fuses.ownerRevoked k)

/-- States and operands that meet the hypotheses of each clause of FuseBitsAreOnlyEverSet. -/
theorem test_FuseBitsAreOnlyEverSet :
    (∃ (c : Instr) (s : State) (t : State), exec c s = .next t) ∧
    (∃ (k : Nat) (h : FcpHdr) (x : Session) (s : State), asks s h x privOwner ∧ k < 4 ∧ s.fuses.programmed k = false) ∧
    (∃ (k : Nat) (h : FcpHdr) (x : Session) (s : State), asks s h x privOwner ∧ k < 4 ∧ s.fuses.programmed k = true) ∧
    (∃ (k : Nat) (h : FcpHdr) (x : Session) (s : State), asks s h x privOwner ∧ 4 ≤ k) ∧
    (∃ (k : Nat) (h : FcpHdr) (x : Session) (s : State), asks s h x privOwner ∧ k < 4 ∧ s.fuses.programmed k = false) ∧
    (∃ (k : Nat) (h : FcpHdr) (x : Session) (s : State), asks s h x privOwner ∧ k < 4 ∧ bit s.fuses.ownerRevoked k = false ∧ live s ≠ [k]) ∧
    (∃ (k : Nat) (h : FcpHdr) (x : Session) (s : State), asks s h x privOwner ∧ k < 4 ∧ bit s.fuses.ownerRevoked k = true) ∧
    (∃ (k : Nat) (h : FcpHdr) (x : Session) (s : State), asks s h x privOwner ∧ live s = [k]) ∧
    (∃ (k : Nat) (h : FcpHdr) (x : Session) (s : State), asks s h x privOwner ∧ k < 4 ∧ bit s.fuses.ownerRevoked k = false ∧ live s ≠ [k]) ∧
    (∃ (k : Nat) (h : FcpHdr) (x : Session) (s : State), asks s h x privWrite ∧ k < 2 ∧ bit s.fuses.provRevoked k = false) ∧
    (∃ (k : Nat) (h : FcpHdr) (x : Session) (s : State), asks s h x privWrite ∧ k < 2 ∧ bit s.fuses.provRevoked k = true) ∧
    (∃ (v : Nat) (h : FcpHdr) (x : Session) (s : State), asks s h x privWrite ∧ s.fuses.jtag < v ∧ v < 4 ∧ v &&& s.fuses.jtag = s.fuses.jtag) ∧
    (∃ (v : Nat) (h : FcpHdr) (x : Session) (s : State), asks s h x privWrite ∧ (v = 0 ∨ 4 ≤ v)) ∧
    (∃ (v : Nat) (h : FcpHdr) (x : Session) (s : State), asks s h x privWrite ∧ 0 < v ∧ v < 4 ∧ (v ≤ s.fuses.jtag ∨ v &&& s.fuses.jtag ≠ s.fuses.jtag)) ∧
    (∃ (h : FcpHdr) (x : Session) (s : State), s.clocked = true ∧ Granted s h x 0x43 privOwner ∧ s.fuses.secFloor < secVersionOf s.boot.hdr) ∧
    (∃ (h : FcpHdr) (x : Session) (s : State), s.clocked = true ∧ Granted s h x 0x43 privOwner ∧ secVersionOf s.boot.hdr ≤ s.fuses.secFloor) :=
  ⟨⟨.gateIntervalEnd 3, W.fuse W.blank, W.after (exec (.gateIntervalEnd 3) (W.fuse W.blank)), rfl⟩,
    ⟨3, W.hdr, W.session, W.fuse W.blank, ⟨by decide +kernel, ⟨⟨by decide +kernel, by decide +kernel, by decide +kernel, by decide +kernel, by decide +kernel⟩, by decide +kernel⟩⟩, by decide +kernel, by decide +kernel⟩,
    ⟨3, W.hdr, W.session, W.fuse { W.blank with ownerHash := [(3, 9)] }, ⟨by decide +kernel, ⟨⟨by decide +kernel, by decide +kernel, by decide +kernel, by decide +kernel, by decide +kernel⟩, by decide +kernel⟩⟩, by decide +kernel, by decide +kernel⟩,
    ⟨4, W.hdr, W.session, W.fuse W.blank, ⟨by decide +kernel, ⟨⟨by decide +kernel, by decide +kernel, by decide +kernel, by decide +kernel, by decide +kernel⟩, by decide +kernel⟩⟩, by decide +kernel⟩,
    ⟨3, W.hdr, W.session, W.fuse W.blank, ⟨by decide +kernel, ⟨⟨by decide +kernel, by decide +kernel, by decide +kernel, by decide +kernel, by decide +kernel⟩, by decide +kernel⟩⟩, by decide +kernel, by decide +kernel⟩,
    ⟨3, W.hdr, W.session, W.fuse { W.blank with ownerHash := [(0, 9)] }, ⟨by decide +kernel, ⟨⟨by decide +kernel, by decide +kernel, by decide +kernel, by decide +kernel, by decide +kernel⟩, by decide +kernel⟩⟩, by decide +kernel, by decide +kernel, by decide +kernel⟩,
    ⟨3, W.hdr, W.session, W.fuse { W.blank with ownerRevoked := 8 }, ⟨by decide +kernel, ⟨⟨by decide +kernel, by decide +kernel, by decide +kernel, by decide +kernel, by decide +kernel⟩, by decide +kernel⟩⟩, by decide +kernel, by decide +kernel⟩,
    ⟨3, W.hdr, W.session, W.fuse { W.blank with ownerHash := [(0, 9), (3, 9)], ownerRevoked := 1 }, ⟨by decide +kernel, ⟨⟨by decide +kernel, by decide +kernel, by decide +kernel, by decide +kernel, by decide +kernel⟩, by decide +kernel⟩⟩, by decide +kernel⟩,
    ⟨3, W.hdr, W.session, W.fuse W.blank, ⟨by decide +kernel, ⟨⟨by decide +kernel, by decide +kernel, by decide +kernel, by decide +kernel, by decide +kernel⟩, by decide +kernel⟩⟩, by decide +kernel, by decide +kernel, by decide +kernel⟩,
    ⟨1, W.hdr, W.session, W.fuse { W.blank with provRevoked := 1 }, ⟨by decide +kernel, ⟨⟨by decide +kernel, by decide +kernel, by decide +kernel, by decide +kernel, by decide +kernel⟩, by decide +kernel⟩⟩, by decide +kernel, by decide +kernel⟩,
    ⟨1, W.hdr, W.session, W.fuse { W.blank with provRevoked := 2 }, ⟨by decide +kernel, ⟨⟨by decide +kernel, by decide +kernel, by decide +kernel, by decide +kernel, by decide +kernel⟩, by decide +kernel⟩⟩, by decide +kernel, by decide +kernel⟩,
    ⟨3, W.hdr, W.session, W.fuse { W.blank with jtag := 2 }, ⟨by decide +kernel, ⟨⟨by decide +kernel, by decide +kernel, by decide +kernel, by decide +kernel, by decide +kernel⟩, by decide +kernel⟩⟩, by decide +kernel, by decide +kernel, by decide +kernel⟩,
    ⟨4, W.hdr, W.session, W.fuse W.blank, ⟨by decide +kernel, ⟨⟨by decide +kernel, by decide +kernel, by decide +kernel, by decide +kernel, by decide +kernel⟩, by decide +kernel⟩⟩, by decide +kernel⟩,
    ⟨2, W.hdr, W.session, W.fuse { W.blank with jtag := 1 }, ⟨by decide +kernel, ⟨⟨by decide +kernel, by decide +kernel, by decide +kernel, by decide +kernel, by decide +kernel⟩, by decide +kernel⟩⟩, by decide +kernel, by decide +kernel, by decide +kernel⟩,
    ⟨W.hdr, W.session, W.fuse { W.blank with secFloor := 4 }, by decide +kernel, ⟨⟨by decide +kernel, by decide +kernel, by decide +kernel, by decide +kernel, by decide +kernel⟩, by decide +kernel⟩, by decide +kernel⟩,
    ⟨W.hdr, W.session, W.fuse { W.blank with secFloor := 5 }, by decide +kernel, ⟨⟨by decide +kernel, by decide +kernel, by decide +kernel, by decide +kernel, by decide +kernel⟩, by decide +kernel⟩, by decide +kernel⟩⟩

end FuseBitsAreOnlyEverSet

namespace FlashResetAttestationAndWatch
abbrev asks (s : State) (h : FcpHdr) (x : Session) (y p : Nat) : Prop := s.clocked = true ∧ Granted s h x y p
abbrev period (s : State) : Nat := 1000000000 * s.fld Reg.boardCfg Fld.boardCfg_hbTimeout

/-- States and operands that meet the hypotheses of each clause of FlashResetAttestationAndWatch. -/
theorem test_FlashResetAttestationAndWatch :
    (∃ (a : Nat) (d : Bytes) (h : FcpHdr) (x : Session) (s : State), asks s h x 0x33 privWrite ∧ d.length = 4096 ∧ a % 4096 = 0 ∧ a + 4096 ≤ 1048576 * s.boot.flashMiB) ∧
    (∃ (a : Nat) (d : Bytes) (h : FcpHdr) (x : Session) (s : State), asks s h x 0x33 privWrite ∧ (d.length ≠ 4096 ∨ a % 4096 ≠ 0)) ∧
    (∃ (a : Nat) (d : Bytes) (h : FcpHdr) (x : Session) (s : State), asks s h x 0x33 privWrite ∧ d.length = 4096 ∧ a % 4096 = 0 ∧ 1048576 * s.boot.flashMiB < a + 4096) ∧
    (∃ (h : FcpHdr) (x : Session) (s : State), asks s h x 0x35 privWrite) ∧
    (∃ (s : State), s.clocked = true ∧ s.boot.resetDue = true) ∧
    (∃ (s : State), s.boot.resetDue = false) ∧
    (∃ (n : Bytes) (h : FcpHdr) (x : Session) (s : State), asks s h x 0x40 privAll ∧ n.length = 32) ∧
    (∃ (n : Bytes) (h : FcpHdr) (x : Session) (s : State), asks s h x 0x40 privAll ∧ n.length ≠ 32) ∧
    (∃ (h : FcpHdr) (x : Session) (s : State), asks s h x 0x41 privAll) ∧
    (∃ (s : State), s.clocked = true ∧ s.boot.fwRunning = true) ∧
    (∃ (s : State), s.boot.fwRunning = false) ∧
    (∃ (s : State), s.clocked = true ∧ s.boot.fwRunning = true) ∧
    (∃ (s : State), s.clocked = true ∧ s.fwStarted = true ∧ s.pins.faultHeartbeat = false ∧ s.boot.heartAt + period s ≤ s.time.stepFree) ∧
    (∃ (s : State), (s.fwStarted = false ∨ s.pins.faultHeartbeat = true ∨ s.time.stepFree < s.boot.heartAt + period s)) :=
  ⟨⟨16773120, List.replicate 4096 7, W.hdr, W.session, W.fuse W.blank, ⟨by decide +kernel, ⟨⟨by decide +kernel, by decide +kernel, by decide +kernel, by decide +kernel, by decide +kernel⟩, by decide +kernel⟩⟩, by decide +kernel, by decide +kernel, by decide +kernel⟩,
    ⟨16773121, List.replicate 4096 7, W.hdr, W.session, W.fuse W.blank, ⟨by decide +kernel, ⟨⟨by decide +kernel, by decide +kernel, by decide +kernel, by decide +kernel, by decide +kernel⟩, by decide +kernel⟩⟩, by decide +kernel⟩,
    ⟨16777216, List.replicate 4096 7, W.hdr, W.session, W.fuse W.blank, ⟨by decide +kernel, ⟨⟨by decide +kernel, by decide +kernel, by decide +kernel, by decide +kernel, by decide +kernel⟩, by decide +kernel⟩⟩, by decide +kernel, by decide +kernel, by decide +kernel⟩,
    ⟨W.hdr, W.session, W.fuse W.blank, ⟨by decide +kernel, ⟨⟨by decide +kernel, by decide +kernel, by decide +kernel, by decide +kernel, by decide +kernel⟩, by decide +kernel⟩⟩⟩,
    ⟨W.fuse W.blank, by decide +kernel, by decide +kernel⟩,
    ⟨W.run, by decide +kernel⟩,
    ⟨List.replicate 32 9, W.hdr, W.session, W.rcv (W.fuse W.blank), ⟨by decide +kernel, ⟨⟨by decide +kernel, by decide +kernel, by decide +kernel, by decide +kernel, by decide +kernel⟩, by decide +kernel⟩⟩, by decide +kernel⟩,
    ⟨[], W.hdr, W.session, W.fuse W.blank, ⟨by decide +kernel, ⟨⟨by decide +kernel, by decide +kernel, by decide +kernel, by decide +kernel, by decide +kernel⟩, by decide +kernel⟩⟩, by decide +kernel⟩,
    ⟨W.hdr, W.session, W.fuse W.blank, ⟨by decide +kernel, ⟨⟨by decide +kernel, by decide +kernel, by decide +kernel, by decide +kernel, by decide +kernel⟩, by decide +kernel⟩⟩⟩,
    ⟨W.due 5, by decide +kernel, by decide +kernel⟩,
    ⟨State.reset, by decide +kernel⟩,
    ⟨W.due 5, by decide +kernel, by decide +kernel⟩,
    ⟨W.f (W.due 1000000000) Reg.boardCfg Fld.boardCfg_hbTimeout 1, by decide +kernel, by decide +kernel, by decide +kernel, by decide +kernel⟩,
    ⟨W.f (W.due 999999999) Reg.boardCfg Fld.boardCfg_hbTimeout 1, by decide +kernel⟩⟩

end FlashResetAttestationAndWatch

end Sys2Proof.Tests.Q17

namespace Sys2Proof.Tests.Q18

def W.session : Session := Session.mk 8 1 3 77 0 true 1 0 4 [{ request := 5, type := 0x11, status := 0, payload := [] }] 2 5 false 9 0
def W.hdr : FcpHdr := { session := 8, request := 9, seq := 1, tagOk := true }
def W.fcp : State := { W.run with fcp := { W.run.fcp with sessions := [W.session] } }
def W.serve : State := W.f W.fcp (Reg.hbmStatus 0) Fld.hbmStatus_state 1
def W.noField : FieldDesc := Sys2Proof.Machine.fd 63 0 .img false 0 0 0 false .host
def W.gov : RegDesc := (findReg Reg.govBudget).getD { base := 0, dims := [], fields := [] }
def W.old : Session := { W.session with version := 2 }
def W.v2 : State := { W.fcp with fcp := { W.fcp.fcp with sessions := [W.old] } }
def W.op : BatchOp := { opcode := 1, target := 4, table := 0, index := 1048575, static := false, data := natBe 8 (2 ^ 58 - 1) }
def W.bad : BatchOp := { W.op with index := 1048576 }
def W.batch (l : List BatchOp) (n : Nat) (e : Option Nat) : Batch := { session := 8, request := 9, peer := 0, number := 3, kind := 0, count := n, segments := [(0, l)], ended := e }
def W.opened (b : Batch) : State := { W.fcp with fcp := { W.fcp.fcp with open_ := [{ W.batch [] 0 none with session := 7 }, b] } }
def W.queued (b : Batch) (n : Nat) : State := { W.fcp with fcp := { W.fcp.fcp with waiting := List.replicate n b } }
def W.logged : State := { W.fcp with fcp := { W.fcp.fcp with log := [{ peer := 0, number := 3, status := 0, reason := 0, firstBad := 0 }] } }
def W.flip (b : Batch) : State := { W.fcp with fcp := { W.fcp.fcp with flip := some b } }
def W.ok (x : Except (Nat × Nat × Nat) State) : State := match x with | .ok t => t | _ => State.reset



namespace RegistersAreReadAndWritten
abbrev reads (s : State) (h : FcpHdr) (x : Session) : Prop := s.clocked = true ∧ Granted s h x 0x10 privWrite
abbrev writes (s : State) (h : FcpHdr) (x : Session) : Prop := s.clocked = true ∧ Granted s h x 0x11 privWrite
abbrev bars (s : State) (a n : Nat) : Option Nat := ((List.range n).map (fun i => s.readBar (a + 8 * i))).find? (fun st => decide (st ≠ 0))
abbrev plain (a : Nat) : Prop := a ≠ Reg.timeNow ∧ inBufferHbm a = false ∧ syndromeOf a = none
abbrev starts (s : State) (a : Nat) (m : MaskedWord) : Option State := s.writeLine a m <|> s.writeMid a m <|> s.writeTraffic a m <|> s.writeControl a m

/-- States and operands that meet the hypotheses of each clause of RegistersAreReadAndWritten. -/
theorem test_RegistersAreReadAndWritten :
    (∃ (n : Nat) (h : FcpHdr) (x : Session) (s : State), reads s h x ∧ (n = 0 ∨ 64 < n)) ∧
    (∃ (a : Nat) (n : Nat) (st : Nat) (h : FcpHdr) (x : Session) (s : State), reads s h x ∧ 0 < n ∧ n ≤ 64 ∧ bars s a n = some st) ∧
    (∃ (a : Nat) (n : Nat) (h : FcpHdr) (x : Session) (s : State), reads s h x ∧ 0 < n ∧ n ≤ 64 ∧ bars s a n = none ∧ (∀ i, i < n → plain (a + 8 * i))) ∧
    (∃ (h : FcpHdr) (x : Session) (s : State), reads s h x) ∧
    (∃ (a : Nat) (h : FcpHdr) (x : Session) (s : State), reads s h x ∧ inBufferHbm a = true ∧ (∀ c, windowCtl a = some c → s.hbmServes c = true) ∧ s.underTest a = false) ∧
    (∃ (l : List MaskedWord) (h : FcpHdr) (x : Session) (s : State), writes s h x ∧ (l = [] ∨ 64 < l.length)) ∧
    (∃ (a : Nat) (l : List MaskedWord) (h : FcpHdr) (x : Session) (s : State), writes s h x ∧ l ≠ [] ∧ l.length ≤ 64 ∧ s.writesBar a l ≠ 0) ∧
    (∃ (a : Nat) (h : FcpHdr) (x : Session) (s : State), writes s h x ∧ s.regAt a = none) ∧
    (∃ (a : Nat) (m : MaskedWord) (d : RegDesc) (f : FieldDesc) (h : FcpHdr) (x : Session) (s : State), writes s h x ∧ s.regAt a = some d ∧ s.underTest a = false ∧ f ∈ d.fields ∧ getField f.field m.mask ≠ 0 ∧ (f.acc = .img ∨ f.acc = .ro ∨ f.acc = .snap ∨ f.writer ≠ .host)) ∧
    (∃ (v : Nat) (h : FcpHdr) (x : Session) (s : State), writes s h x ∧ (v < 200 ∨ 600 < v) ∧ v < 1024) ∧
    (∃ (v : Nat) (m : MaskedWord) (h : FcpHdr) (x : Session) (s : State), writes s h x ∧ 200 ≤ v ∧ v ≤ 600 ∧ s.writeBar (Reg.govBudget + 8) m ≠ 0) ∧
    (∃ (v : Nat) (h : FcpHdr) (x : Session) (s : State), writes s h x ∧ 200 ≤ v ∧ v ≤ 600) ∧
    (∃ (h : FcpHdr) (x : Session) (s : State), writes s h x) ∧
    (∃ (a : Nat) (m : MaskedWord) (d : RegDesc) (h : FcpHdr) (x : Session) (s : State), writes s h x ∧ s.regAt a = some d ∧ s.writesBar a [m] = 0 ∧ m.mask ≠ 0 ∧ starts s a m = none) ∧
    (∃ (a : Nat) (l : List MaskedWord) (h : FcpHdr) (x : Session) (s : State), writes s h x ∧ l ≠ [] ∧ l.length ≤ 64 ∧ s.writesBar a l = 0) ∧
    (∃ (w : Bool) (h : FcpHdr) (x : Session) (s : State), s.clocked = true ∧ Granted s h x (if w then 0x11 else 0x10) privWrite) ∧
    (∃ (r : Reply) (h : FcpHdr) (x : Session) (s : State), s.clocked = true ∧ s.session h.session = some x ∧ s.fcpUp = true ∧ h.tagOk = true ∧ x.rxSeq < h.seq ∧ x.replies.find? (fun r => r.request == h.request) = some r) :=
  ⟨⟨0, W.hdr, W.session, W.fcp, ⟨by decide +kernel, ⟨⟨by decide +kernel, by decide +kernel, by decide +kernel, by decide +kernel, by decide +kernel⟩, by decide +kernel⟩⟩, by decide +kernel⟩,
    ⟨0x0107FC000000 - 8, 2, 9, W.hdr, W.session, W.serve, ⟨by decide +kernel, ⟨⟨by decide +kernel, by decide +kernel, by decide +kernel, by decide +kernel, by decide +kernel⟩, by decide +kernel⟩⟩, by decide +kernel, by decide +kernel, by decide +kernel⟩,
    ⟨0x4000, 64, W.hdr, W.session, W.fcp, ⟨by decide +kernel, ⟨⟨by decide +kernel, by decide +kernel, by decide +kernel, by decide +kernel, by decide +kernel⟩, by decide +kernel⟩⟩, by decide +kernel, by decide +kernel, by decide +kernel, by decide +kernel⟩,
    ⟨W.hdr, W.session, W.fcp, ⟨by decide +kernel, ⟨⟨by decide +kernel, by decide +kernel, by decide +kernel, by decide +kernel, by decide +kernel⟩, by decide +kernel⟩⟩⟩,
    ⟨0x020000000000, W.hdr, W.session, W.f W.fcp (Reg.hbmStatus 128) Fld.hbmStatus_state 1, ⟨by decide +kernel, ⟨⟨by decide +kernel, by decide +kernel, by decide +kernel, by decide +kernel, by decide +kernel⟩, by decide +kernel⟩⟩, by decide +kernel, by decide +kernel, by decide +kernel⟩,
    ⟨[], W.hdr, W.session, W.fcp, ⟨by decide +kernel, ⟨⟨by decide +kernel, by decide +kernel, by decide +kernel, by decide +kernel, by decide +kernel⟩, by decide +kernel⟩⟩, by decide +kernel⟩,
    ⟨0x4000, [{ value := 0, mask := 0 }, { value := 0, mask := 0 }, { value := 0, mask := 0 }, { value := 0, mask := 0 }, { value := 0, mask := 0 }, { value := 0, mask := 1 }], W.hdr, W.session, W.fcp, ⟨by decide +kernel, ⟨⟨by decide +kernel, by decide +kernel, by decide +kernel, by decide +kernel, by decide +kernel⟩, by decide +kernel⟩⟩, by decide +kernel, by decide +kernel, by decide +kernel⟩,
    ⟨0x4001, W.hdr, W.session, W.fcp, ⟨by decide +kernel, ⟨⟨by decide +kernel, by decide +kernel, by decide +kernel, by decide +kernel, by decide +kernel⟩, by decide +kernel⟩⟩, by decide +kernel⟩,
    ⟨Reg.govBudget, { value := 0, mask := 0x0010000000000000 }, W.gov, W.gov.fields.getD 1 W.noField, W.hdr, W.session, W.fcp, ⟨by decide +kernel, ⟨⟨by decide +kernel, by decide +kernel, by decide +kernel, by decide +kernel, by decide +kernel⟩, by decide +kernel⟩⟩, by decide +kernel, by decide +kernel, by decide +kernel, by decide +kernel, by decide +kernel⟩,
    ⟨199, W.hdr, W.session, W.fcp, ⟨by decide +kernel, ⟨⟨by decide +kernel, by decide +kernel, by decide +kernel, by decide +kernel, by decide +kernel⟩, by decide +kernel⟩⟩, by decide +kernel, by decide +kernel⟩,
    ⟨600, { value := 0, mask := 1 }, W.hdr, W.session, W.fcp, ⟨by decide +kernel, ⟨⟨by decide +kernel, by decide +kernel, by decide +kernel, by decide +kernel, by decide +kernel⟩, by decide +kernel⟩⟩, by decide +kernel, by decide +kernel, by decide +kernel⟩,
    ⟨600, W.hdr, W.session, W.fcp, ⟨by decide +kernel, ⟨⟨by decide +kernel, by decide +kernel, by decide +kernel, by decide +kernel, by decide +kernel⟩, by decide +kernel⟩⟩, by decide +kernel, by decide +kernel⟩,
    ⟨W.hdr, W.session, W.f W.fcp Reg.compareStatus ⟨0, 0⟩ 1, ⟨by decide +kernel, ⟨⟨by decide +kernel, by decide +kernel, by decide +kernel, by decide +kernel, by decide +kernel⟩, by decide +kernel⟩⟩⟩,
    ⟨Reg.govBudget, { value := BitVec.ofNat 64 (2 ^ 54 * 300), mask := BitVec.ofNat 64 (2 ^ 54 * 1023) }, W.gov, W.hdr, W.session, W.fcp, ⟨by decide +kernel, ⟨⟨by decide +kernel, by decide +kernel, by decide +kernel, by decide +kernel, by decide +kernel⟩, by decide +kernel⟩⟩, by decide +kernel, by decide +kernel, by decide +kernel, by decide +kernel⟩,
    ⟨Reg.govBudget, [{ value := BitVec.ofNat 64 (2 ^ 54 * 300), mask := BitVec.ofNat 64 (2 ^ 54 * 1023) }, { value := 0, mask := 0 }], W.hdr, W.session, W.fcp, ⟨by decide +kernel, ⟨⟨by decide +kernel, by decide +kernel, by decide +kernel, by decide +kernel, by decide +kernel⟩, by decide +kernel⟩⟩, by decide +kernel, by decide +kernel, by decide +kernel⟩,
    ⟨true, W.hdr, W.session, W.fcp, by decide +kernel, ⟨⟨by decide +kernel, by decide +kernel, by decide +kernel, by decide +kernel, by decide +kernel⟩, by decide +kernel⟩⟩,
    ⟨{ request := 5, type := 0x11, status := 0, payload := [] }, { W.hdr with request := 5 }, W.session, W.fcp, by decide +kernel, by decide +kernel, by decide +kernel, by decide +kernel, by decide +kernel, by decide +kernel⟩⟩

end RegistersAreReadAndWritten

namespace BatchesApplyWhole
abbrev came (s : State) (h : FcpHdr) (x : Session) (y : Nat) : Prop := s.clocked = true ∧ Granted s h x y privWrite
abbrev logged (s : State) (x : Session) (n : Nat) : Option BatchLog := s.fcp.log.find? (fun l => l.peer == x.peer && l.number == n)
abbrev most (x : Session) : Nat := if x.version < 3 then 1024 else 4096
abbrev waits (s : State) (i : Nat) : Nat := (s.fcp.waiting.filter (fun b => b.session == i)).length
abbrev fewer (b : Batch) : Prop := ∀ n, b.ended = some n → b.segments.length < n
abbrev done (b : Batch) : Prop := ∀ n ∈ b.ended.toList, n ≤ b.segments.length
abbrev due (s : State) : Prop := (s.fcp.lastFlip.map (fun t => decide (t + 100 * s.fld Reg.epochCtrl Fld.epochCtrl_batchGap ≤ s.time.stepFree))).getD true = true
abbrev ended (s : State) : Prop := s.lookup.flowWait = [] ∧ s.lookup.assocWait = [] ∧ s.lookup.lookQ.all (fun p => p.2.isEmpty) = true
abbrev atFlip (s : State) : State := { s with fcp := { s.fcp with flip := none, lastFlip := some s.time.stepFree } }

/-- States and operands that meet the hypotheses of each clause of BatchesApplyWhole. -/
theorem test_BatchesApplyWhole :
    (∃ (n : Nat) (l : BatchLog) (h : FcpHdr) (x : Session) (s : State), came s h x 0x20 ∧ logged s x n = some l) ∧
    (∃ (n : Nat) (k : Nat) (c : Nat) (h : FcpHdr) (x : Session) (s : State), came s h x 0x20 ∧ logged s x n = none ∧ (1 < k ∨ c = 0 ∨ most x < c)) ∧
    (∃ (n : Nat) (k : Nat) (c : Nat) (h : FcpHdr) (x : Session) (s : State), came s h x 0x20 ∧ logged s x n = none ∧ k ≤ 1 ∧ 0 < c ∧ c ≤ most x ∧ 8 ≤ waits s x.id) ∧
    (∃ (n : Nat) (k : Nat) (c : Nat) (h : FcpHdr) (x : Session) (s : State), came s h x 0x20 ∧ logged s x n = none ∧ k ≤ 1 ∧ 0 < c ∧ c ≤ most x ∧ waits s x.id < 8) ∧
    (∃ (n : Nat) (h : FcpHdr) (x : Session) (s : State), came s h x 0x21 ∧ s.openBatch x.id n = none) ∧
    (∃ (n : Nat) (g : Nat) (l : List BatchOp) (b : Batch) (c : Batch) (h : FcpHdr) (x : Session) (s : State), came s h x 0x21 ∧ s.openBatch x.id n = some b ∧ c = { b with segments := minsert g l (mdrop g b.segments) } ∧ fewer c) ∧
    (∃ (n : Nat) (g : Nat) (l : List BatchOp) (b : Batch) (c : Batch) (h : FcpHdr) (x : Session) (s : State), came s h x 0x21 ∧ s.openBatch x.id n = some b ∧ c = { b with segments := minsert g l (mdrop g b.segments) } ∧ c.ended ≠ none ∧ done c ∧ c.ops.length = c.count ∧ waits s x.id < 8) ∧
    (∃ (n : Nat) (h : FcpHdr) (x : Session) (s : State), came s h x 0x22 ∧ s.openBatch x.id n = none) ∧
    (∃ (n : Nat) (g : Nat) (b : Batch) (h : FcpHdr) (x : Session) (s : State), came s h x 0x22 ∧ s.openBatch x.id n = some b ∧ b.segments.length < g) ∧
    (∃ (n : Nat) (g : Nat) (b : Batch) (h : FcpHdr) (x : Session) (s : State), came s h x 0x22 ∧ s.openBatch x.id n = some b ∧ g ≤ b.segments.length ∧ b.ops.length = b.count ∧ waits s x.id < 8) ∧
    (∃ (n : Nat) (g : Nat) (b : Batch) (h : FcpHdr) (x : Session) (s : State), came s h x 0x22 ∧ s.openBatch x.id n = some b ∧ g ≤ b.segments.length ∧ b.ops.length ≠ b.count) ∧
    (∃ (i : Nat) (n : Nat) (b : Batch) (x : Session) (s : State), s.clocked = true ∧ s.session i = some x ∧ s.openBatch i n = some b) ∧
    (∃ (i : Nat) (n : Nat) (s : State), s.openBatch i n = none) ∧
    (∃ (s : State), (s.fcp.flip ≠ none ∨ s.boot.fwRunning = false ∨ s.fcp.waiting = [])) ∧
    (∃ (b : Batch) (l : List Batch) (e : Nat × Nat × Nat) (x : Session) (s : State), s.clocked = true ∧ s.fcp.flip = none ∧ s.boot.fwRunning = true ∧ s.fcp.waiting = b :: l ∧ s.session b.session = some x ∧ State.batchRun { s with fcp := { s.fcp with waiting := l } } b = .error e) ∧
    (∃ (b : Batch) (l : List Batch) (f : State) (s : State), s.clocked = true ∧ s.fcp.flip = none ∧ s.boot.fwRunning = true ∧ s.fcp.waiting = b :: l ∧ State.batchRun { s with fcp := { s.fcp with waiting := l } } b = .ok f) ∧
    (∃ (s : State), (s.fcp.flip = none ∨ ¬ due s ∨ ¬ ended s)) ∧
    (∃ (b : Batch) (f : State) (x : Session) (s : State), s.clocked = true ∧ s.fcp.flip = some b ∧ due s ∧ ended s ∧ s.session b.session = some x ∧ (atFlip s).batchRun b = .ok f) ∧
    (∃ (b : Batch) (e : Nat × Nat × Nat) (x : Session) (s : State), s.clocked = true ∧ s.fcp.flip = some b ∧ due s ∧ ended s ∧ s.session b.session = some x ∧ (atFlip s).batchRun b = .error e) ∧
    (∃ (b : Batch) (i : Nat) (v : Nat) (x : Session) (s : State), s.clocked = true ∧ s.fcp.flip = some b ∧ due s ∧ ended s ∧ s.session b.session = some x ∧ b.kind = 0 ∧ b.ops = [{ opcode := 1, target := 4, table := 0, index := i, static := false, data := natBe 8 v }] ∧ i < 1048576 ∧ v < 2 ^ 58 ∧ bit (tblWord s.mem (labelAddr i)) 62 = bit (tblWord s.mem (labelAddr i)) 61) :=
  ⟨⟨3, { peer := 0, number := 3, status := 0, reason := 0, firstBad := 0 }, W.hdr, W.session, W.logged, ⟨by decide +kernel, ⟨⟨by decide +kernel, by decide +kernel, by decide +kernel, by decide +kernel, by decide +kernel⟩, by decide +kernel⟩⟩, by decide +kernel⟩,
    ⟨4, 2, 1, W.hdr, W.session, W.logged, ⟨by decide +kernel, ⟨⟨by decide +kernel, by decide +kernel, by decide +kernel, by decide +kernel, by decide +kernel⟩, by decide +kernel⟩⟩, by decide +kernel, by decide +kernel⟩,
    ⟨4, 1, 4096, W.hdr, W.session, W.queued (W.batch [W.op] 1 (some 1)) 8, ⟨by decide +kernel, ⟨⟨by decide +kernel, by decide +kernel, by decide +kernel, by decide +kernel, by decide +kernel⟩, by decide +kernel⟩⟩, by decide +kernel, by decide +kernel, by decide +kernel, by decide +kernel, by decide +kernel⟩,
    ⟨3, 1, 4096, W.hdr, W.session, W.queued (W.batch [W.op] 1 (some 1)) 7, ⟨by decide +kernel, ⟨⟨by decide +kernel, by decide +kernel, by decide +kernel, by decide +kernel, by decide +kernel⟩, by decide +kernel⟩⟩, by decide +kernel, by decide +kernel, by decide +kernel, by decide +kernel, by decide +kernel⟩,
    ⟨4, W.hdr, W.session, W.opened (W.batch [W.op] 1 none), ⟨by decide +kernel, ⟨⟨by decide +kernel, by decide +kernel, by decide +kernel, by decide +kernel, by decide +kernel⟩, by decide +kernel⟩⟩, by decide +kernel⟩,
    ⟨3, 0, [W.bad], W.batch [W.op] 1 none, W.batch [W.bad] 1 none, W.hdr, W.session, W.opened (W.batch [W.op] 1 none), ⟨by decide +kernel, ⟨⟨by decide +kernel, by decide +kernel, by decide +kernel, by decide +kernel, by decide +kernel⟩, by decide +kernel⟩⟩, by decide +kernel, by decide +kernel, by decide +kernel⟩,
    ⟨3, 0, [W.op], W.batch [] 1 (some 1), W.batch [W.op] 1 (some 1), W.hdr, W.session, W.opened (W.batch [] 1 (some 1)), ⟨by decide +kernel, ⟨⟨by decide +kernel, by decide +kernel, by decide +kernel, by decide +kernel, by decide +kernel⟩, by decide +kernel⟩⟩, by decide +kernel, by decide +kernel, by decide +kernel, by decide +kernel, by decide +kernel, by decide +kernel⟩,
    ⟨4, W.hdr, W.session, W.opened (W.batch [W.op] 1 none), ⟨by decide +kernel, ⟨⟨by decide +kernel, by decide +kernel, by decide +kernel, by decide +kernel, by decide +kernel⟩, by decide +kernel⟩⟩, by decide +kernel⟩,
    ⟨3, 2, W.batch [W.op] 1 none, W.hdr, W.session, W.opened (W.batch [W.op] 1 none), ⟨by decide +kernel, ⟨⟨by decide +kernel, by decide +kernel, by decide +kernel, by decide +kernel, by decide +kernel⟩, by decide +kernel⟩⟩, by decide +kernel, by decide +kernel⟩,
    ⟨3, 1, W.batch [W.op] 1 none, W.hdr, W.session, W.opened (W.batch [W.op] 1 none), ⟨by decide +kernel, ⟨⟨by decide +kernel, by decide +kernel, by decide +kernel, by decide +kernel, by decide +kernel⟩, by decide +kernel⟩⟩, by decide +kernel, by decide +kernel, by decide +kernel, by decide +kernel⟩,
    ⟨3, 1, W.batch [W.op] 2 none, W.hdr, W.session, W.opened (W.batch [W.op] 2 none), ⟨by decide +kernel, ⟨⟨by decide +kernel, by decide +kernel, by decide +kernel, by decide +kernel, by decide +kernel⟩, by decide +kernel⟩⟩, by decide +kernel, by decide +kernel, by decide +kernel⟩,
    ⟨8, 3, W.batch [W.op] 2 none, W.session, W.opened (W.batch [W.op] 2 none), by decide +kernel, by decide +kernel, by decide +kernel⟩,
    ⟨8, 4, W.opened (W.batch [W.op] 2 none), by decide +kernel⟩,
    ⟨W.fcp, by decide +kernel⟩,
    ⟨W.batch [W.op, W.bad] 2 (some 1), [W.batch [W.op] 1 (some 1)], (1, 9, 0x0B), W.session, { W.fcp with fcp := { W.fcp.fcp with waiting := [W.batch [W.op, W.bad] 2 (some 1), W.batch [W.op] 1 (some 1)] } }, by decide +kernel, by decide +kernel, by decide +kernel, by decide +kernel, by decide +kernel, rfl⟩,
    ⟨W.batch [W.op] 1 (some 1), [], W.ok (State.batchRun W.fcp (W.batch [W.op] 1 (some 1))), W.queued (W.batch [W.op] 1 (some 1)) 1, by decide +kernel, by decide +kernel, by decide +kernel, by decide +kernel, rfl⟩,
    ⟨W.fcp, by decide +kernel⟩,
    ⟨W.batch [W.op] 1 (some 1), W.ok (State.batchRun { (W.flip (W.batch [W.op] 1 (some 1))) with fcp := { W.fcp.fcp with flip := none, lastFlip := some 0 } } (W.batch [W.op] 1 (some 1))), W.session, W.flip (W.batch [W.op] 1 (some 1)), by decide +kernel, by decide +kernel, by decide +kernel, ⟨by decide +kernel, by decide +kernel, by decide +kernel⟩, by decide +kernel, rfl⟩,
    ⟨W.batch [W.bad] 1 (some 1), (0, 9, 0x0B), W.session, W.flip (W.batch [W.bad] 1 (some 1)), by decide +kernel, by decide +kernel, by decide +kernel, ⟨by decide +kernel, by decide +kernel, by decide +kernel⟩, by decide +kernel, rfl⟩,
    ⟨W.batch [W.op] 1 (some 1), 1048575, 2 ^ 58 - 1, W.session, W.flip (W.batch [W.op] 1 (some 1)), by decide +kernel, by decide +kernel, by decide +kernel, ⟨by decide +kernel, by decide +kernel, by decide +kernel⟩, by decide +kernel, by decide +kernel, by decide +kernel, by decide +kernel, by decide +kernel, by decide +kernel⟩⟩

end BatchesApplyWhole

end Sys2Proof.Tests.Q18

namespace Sys2Proof.Tests.Q19

def W.session : Session := Session.mk 8 1 3 77 0 true 1 0 4 [] 2 5 false 9 0
def W.hdr : FcpHdr := { session := 8, request := 9, seq := 1, tagOk := true }
def W.header (n : Nat) (v : Nat) : Bytes :=
  natBe 4 0x534B5A46 ++ [2, 0] ++ natBe 2 (512 + 32 * n) ++ natBe 4 1024 ++ natBe 2 0xF096 ++ natBe 2 0x00C1 ++ natBe 8 77 ++ natBe 2 v ++ natBe 2 n ++ [0, 60, 0, 1] ++ List.replicate 480 0
def W.entry (ty o l : Nat) : Bytes := natBe 2 ty ++ natBe 2 0 ++ natBe 4 o ++ natBe 4 l ++ List.replicate 20 0
/-- Firmware at 640, a map at 704, records at 768. -/
def W.table : Bytes := W.entry 1 640 64 ++ W.entry 0x20 704 32 ++ W.entry 4 768 24
def W.body (kind slice addr : Nat) (base : Nat) (w : Nat) : Bytes :=
  List.replicate 96 7 ++ natBe 8 base ++ natBe 2 1 ++ List.replicate 6 0 ++ natBe 1 kind ++ natBe 1 slice ++ natBe 6 addr ++ natBe 4 1 ++ natBe 4 0 ++ List.replicate 32 0
    ++ natBe 2 0 ++ natBe 6 addr ++ natBe 4 1 ++ natBe 4 0 ++ natBe 8 w ++ List.replicate 232 0
def W.staged (b : Bool) : Staged := { switchNow := b, seconds := 1, ns := 0, checked := false, switched := false, hdr := [], tbl := [], keyHash := 0, firmware := none }
def W.fcp : State := { W.run with fcp := { W.run.fcp with sessions := [W.session] }, fuses := { Fuses.blank with ownerHash := [(0, 5)] }, boot := { W.run.boot with flashMiB := 64, hdr := W.header 3 1, reloading := [3, 11], staged := some (W.staged true) } }
def W.with (g : Option Staged) : State := { W.fcp with boot := { W.fcp.boot with staged := g } }
def W.busy (s : State) : State := W.f s Reg.epochInflight Fld.epochInflight_current 1
def W.seg (s : State) (g : Nat) : State := W.f s (Reg.bistSegStatus g) Fld.bistSegStatus_state 3
def W.image (a w : Nat) : State := { W.with none with boot := { W.fcp.boot with staged := none, records := [{ addr := a, words := [BitVec.ofNat 64 w] }] } }



namespace ImagesAndSlicesChangeInService
abbrev stages (s : State) (h : FcpHdr) (x : Session) : Prop := s.clocked = true ∧ Granted s h x 0x31 privWrite
abbrev reloads (s : State) (h : FcpHdr) (x : Session) : Prop := s.clocked = true ∧ Granted s h x 0x32 privWrite
abbrev holds (s : State) (g : Staged) : Prop := s.clocked = true ∧ s.boot.staged = some g ∧ g.checked = false
abbrev good (s : State) (hd : Bytes) (k : BitVec 384) (sg : Bool) : Prop := hdrCheck true 0 s.boot.flashMiB hd = 0 ∧ s.keyOkay (keySlot hd) k = true ∧ sg = true ∧ s.fuses.secFloor ≤ secVersionOf hd
abbrev wellFormed (hd tb bo : Bytes) : Prop := sectionsOk hd tb = true ∧ (imageRecords hd tb bo).all (fun x => x.2.2) = true
abbrev free (s : State) (l : List Diff) : Prop := l.all (fun d => !s.underTest d.addr && !s.returnsFailed d.addr d.word) = true
abbrev diffs (s : State) (hd tb bo : Bytes) : List Diff := s.imageDiffs hd tb bo (((imageMap hd tb bo).map (fun x => x.2)).getD [])
abbrev fw (hd tb bo : Bytes) : Bool := (((imageMap hd tb bo).map (fun x => x.2)).getD []).any (fun e => e.kind == 5)
abbrev quiet (s : State) (k : Nat) : Prop := (s.portList.filter (fun p => p / 8 == k)).all (fun p => !s.flag (Reg.linePortCtrl p) Fld.linePortCtrl_adminUp) = true

/-- States and operands that meet the hypotheses of each clause of ImagesAndSlicesChangeInService. -/
theorem test_ImagesAndSlicesChangeInService :
    (∃ (c : Nat) (n : Nat) (h : FcpHdr) (x : Session) (s : State), stages s h x ∧ s.boot.staged = none ∧ c < 2 ^ 48 ∧ n < 1000000000 ∧ s.epochPhase = 0) ∧
    (∃ (h : FcpHdr) (x : Session) (s : State), stages s h x ∧ s.boot.staged ≠ none) ∧
    (∃ (c : Nat) (n : Nat) (h : FcpHdr) (x : Session) (s : State), stages s h x ∧ s.boot.staged = none ∧ (2 ^ 48 ≤ c ∨ 1000000000 ≤ n)) ∧
    (∃ (c : Nat) (n : Nat) (h : FcpHdr) (x : Session) (s : State), stages s h x ∧ s.boot.staged = none ∧ c < 2 ^ 48 ∧ n < 1000000000 ∧ s.epochPhase ≠ 0) ∧
    (∃ (s : State), (s.boot.staged = none ∨ (s.boot.staged.map (fun g => g.checked)) = some true)) ∧
    (∃ (f : Bool) (sg : Bool) (d : Bool) (hd : Bytes) (tb : Bytes) (bo : Bytes) (k : BitVec 384) (g : Staged) (s : State), holds s g ∧ s.stagedReason f hd tb k sg d bo ≠ 0) ∧
    (∃ (g : Staged) (s : State), holds s g) ∧
    (∃ (sg : Bool) (hd : Bytes) (k : BitVec 384) (g : Staged) (s : State), holds s g ∧ good s hd k sg) ∧
    (∃ (sg : Bool) (hd : Bytes) (tb : Bytes) (bo : Bytes) (k : BitVec 384) (g : Staged) (s : State), holds s g ∧ good s hd k sg ∧ wellFormed hd tb bo ∧ imageMap hd tb bo = none) ∧
    (∃ (sg : Bool) (hd : Bytes) (tb : Bytes) (bo : Bytes) (k : BitVec 384) (g : Staged) (s : State), holds s g ∧ good s hd k sg ∧ wellFormed hd tb bo ∧ (imageMap hd tb bo).map (fun x => x.1) ≠ some (beAt s.boot.hdr 0x10 8) ∧ free s (diffs s hd tb bo)) ∧
    (∃ (sg : Bool) (hd : Bytes) (tb : Bytes) (bo : Bytes) (k : BitVec 384) (g : Staged) (s : State), holds s g ∧ good s hd k sg ∧ wellFormed hd tb bo ∧ imageMap hd tb bo ≠ none ∧ ¬ free s (diffs s hd tb bo)) ∧
    (∃ (f : Bool) (sg : Bool) (d : Bool) (hd : Bytes) (tb : Bytes) (bo : Bytes) (k : BitVec 384) (g : Staged) (s : State), holds s g ∧ s.stagedReason f hd tb k sg d bo = 0 ∧ (diffs s hd tb bo).all (fun d => d.kind == 4) = true ∧ fw hd tb bo = false) ∧
    (∃ (f : Bool) (sg : Bool) (d : Bool) (hd : Bytes) (tb : Bytes) (bo : Bytes) (k : BitVec 384) (g : Staged) (s : State), holds s g ∧ s.stagedReason f hd tb k sg d bo = 0 ∧ (diffs s hd tb bo).all (fun d => d.kind == 4) = false ∧ s.epochPhase = 0 ∧ s.fld Reg.epochInflight Fld.epochInflight_current ≠ 0 ∧ g.switchNow = true) ∧
    (∃ (f : Bool) (sg : Bool) (d : Bool) (hd : Bytes) (tb : Bytes) (bo : Bytes) (k : BitVec 384) (g : Staged) (s : State), holds s g ∧ s.stagedReason f hd tb k sg d bo = 0 ∧ (diffs s hd tb bo).all (fun d => d.kind == 4) = false ∧ s.epochPhase = 0 ∧ g.switchNow = false ∧ g.seconds < 2 ^ 48 ∧ g.ns < 1000000000 ∧ s.tod + 10000 ≤ 1000000000 * g.seconds + g.ns) ∧
    (∃ (a : Nat) (w : Word) (f : Bool) (sg : Bool) (d : Bool) (hd : Bytes) (tb : Bytes) (bo : Bytes) (k : BitVec 384) (g : Staged) (s : State), holds s g ∧ s.stagedReason f hd tb k sg d bo = 0 ∧ (diffs s hd tb bo).map (fun d => (d.kind, d.addr, d.word)) = [(2, a, w)] ∧ s.epochPhase = 0 ∧ bankedLow a ≠ none) ∧
    (∃ (i : Nat) (j : Nat) (n : Nat) (w : Word) (f : Bool) (sg : Bool) (d : Bool) (hd : Bytes) (tb : Bytes) (bo : Bytes) (k : BitVec 384) (g : Staged) (s : State), holds s g ∧ s.stagedReason f hd tb k sg d bo = 0 ∧ i < 12 ∧ j < 255 ∧ n < 16 ∧ (diffs s hd tb bo).map (fun d => (d.kind, d.addr, d.word)) = [(3, Reg.parserFormWord i j n, w)] ∧ s.epochPhase = 0) ∧
    (∃ (k : Nat) (h : FcpHdr) (x : Session) (s : State), reloads s h x ∧ 12 ≤ k) ∧
    (∃ (k : Nat) (h : FcpHdr) (x : Session) (s : State), reloads s h x ∧ k < 12 ∧ ¬ quiet s k) ∧
    (∃ (k : Nat) (h : FcpHdr) (x : Session) (s : State), reloads s h x ∧ k < 12 ∧ quiet s k) ∧
    (∃ (k : Nat) (j : Nat) (n : Nat) (w : Word) (h : FcpHdr) (x : Session) (s : State), reloads s h x ∧ k < 12 ∧ quiet s k ∧ j < 255 ∧ n < 16 ∧ s.sliceWords k = [(Reg.parserFormWord k j n, w)]) ∧
    (∃ (k : Nat) (s : State), s.boot.reloading.contains k = false) ∧
    (∃ (k : Nat) (s : State), s.clocked = true ∧ s.boot.reloading.contains k = true) :=
  ⟨⟨2 ^ 48 - 1, 999999999, W.hdr, W.session, W.with none, ⟨by decide +kernel, ⟨⟨by decide +kernel, by decide +kernel, by decide +kernel, by decide +kernel, by decide +kernel⟩, by decide +kernel⟩⟩, by decide +kernel, by decide +kernel, by decide +kernel, by decide +kernel⟩,
    ⟨W.hdr, W.session, W.fcp, ⟨by decide +kernel, ⟨⟨by decide +kernel, by decide +kernel, by decide +kernel, by decide +kernel, by decide +kernel⟩, by decide +kernel⟩⟩, by decide +kernel⟩,
    ⟨2 ^ 48, 0, W.hdr, W.session, W.with none, ⟨by decide +kernel, ⟨⟨by decide +kernel, by decide +kernel, by decide +kernel, by decide +kernel, by decide +kernel⟩, by decide +kernel⟩⟩, by decide +kernel, by decide +kernel⟩,
    ⟨0, 0, W.hdr, W.session, W.f (W.with none) Reg.epochState Fld.epochState_phase 1, ⟨by decide +kernel, ⟨⟨by decide +kernel, by decide +kernel, by decide +kernel, by decide +kernel, by decide +kernel⟩, by decide +kernel⟩⟩, by decide +kernel, by decide +kernel, by decide +kernel, by decide +kernel⟩,
    ⟨W.with none, by decide +kernel⟩,
    ⟨true, false, true, W.header 3 2, W.table, [], 5, W.staged true, W.fcp, ⟨by decide +kernel, by decide +kernel, by decide +kernel⟩, by decide +kernel⟩,
    ⟨W.staged true, W.fcp, ⟨by decide +kernel, by decide +kernel, by decide +kernel⟩⟩,
    ⟨true, W.header 3 2, 5, W.staged true, W.fcp, ⟨by decide +kernel, by decide +kernel, by decide +kernel⟩, ⟨by decide +kernel, by decide +kernel, by decide +kernel, by decide +kernel⟩⟩,
    ⟨true, W.header 1 2, W.entry 1 640 64, W.body 2 0 0 77 0, 5, W.staged true, W.fcp, ⟨by decide +kernel, by decide +kernel, by decide +kernel⟩, ⟨by decide +kernel, by decide +kernel, by decide +kernel, by decide +kernel⟩, ⟨by decide +kernel, by decide +kernel⟩, by decide +kernel⟩,
    ⟨true, W.header 3 2, W.table, W.body 2 0 0x20040000 78 5, 5, W.staged true, W.fcp, ⟨by decide +kernel, by decide +kernel, by decide +kernel⟩, ⟨by decide +kernel, by decide +kernel, by decide +kernel, by decide +kernel⟩, ⟨by decide +kernel, by decide +kernel⟩, by decide +kernel, by decide +kernel⟩,
    ⟨true, W.header 3 2, W.table, W.body 3 0 0x41000000 77 5, 5, W.staged true, W.seg W.fcp 52, ⟨by decide +kernel, by decide +kernel, by decide +kernel⟩, ⟨by decide +kernel, by decide +kernel, by decide +kernel, by decide +kernel⟩, ⟨by decide +kernel, by decide +kernel⟩, by decide +kernel, by decide +kernel⟩,
    ⟨true, true, true, W.header 3 2, W.table, W.body 4 11 (Reg.parserFormWord 11 254 15) 77 5, 5, W.staged true, W.fcp, ⟨by decide +kernel, by decide +kernel, by decide +kernel⟩, by decide +kernel, by decide +kernel, by decide +kernel⟩,
    ⟨true, true, true, W.header 3 2, W.table, W.body 2 0 Reg.epochBankSel 77 5, 5, W.staged true, W.busy W.fcp, ⟨by decide +kernel, by decide +kernel, by decide +kernel⟩, by decide +kernel, by decide +kernel, by decide +kernel, by decide +kernel, by decide +kernel⟩,
    ⟨true, true, true, W.header 3 2, W.table, W.body 2 0 Reg.epochBankSel 77 5, 5, W.staged false, W.busy (W.with (some (W.staged false))), ⟨by decide +kernel, by decide +kernel, by decide +kernel⟩, by decide +kernel, by decide +kernel, by decide +kernel, by decide +kernel, by decide +kernel, by decide +kernel, by decide +kernel⟩,
    ⟨Reg.epochBankSel, 5, true, true, true, W.header 3 2, W.table, W.body 2 0 Reg.epochBankSel 77 5, 5, W.staged true, W.busy W.fcp, ⟨by decide +kernel, by decide +kernel, by decide +kernel⟩, by decide +kernel, by decide +kernel, by decide +kernel, by decide +kernel⟩,
    ⟨11, 254, 15, 5, true, true, true, W.header 3 2, W.table, W.body 3 0 (Reg.parserFormWord 11 254 15) 77 5, 5, W.staged true, W.fcp, ⟨by decide +kernel, by decide +kernel, by decide +kernel⟩, by decide +kernel, by decide +kernel, by decide +kernel, by decide +kernel, by decide +kernel, by decide +kernel⟩,
    ⟨12, W.hdr, W.session, W.fcp, ⟨by decide +kernel, ⟨⟨by decide +kernel, by decide +kernel, by decide +kernel, by decide +kernel, by decide +kernel⟩, by decide +kernel⟩⟩, by decide +kernel⟩,
    ⟨11, W.hdr, W.session, W.f (W.f W.fcp (Reg.linePortCfg 88) Fld.linePortCfg_mode 1) (Reg.linePortCtrl 88) Fld.linePortCtrl_adminUp 1, ⟨by decide +kernel, ⟨⟨by decide +kernel, by decide +kernel, by decide +kernel, by decide +kernel, by decide +kernel⟩, by decide +kernel⟩⟩, by decide +kernel, by decide +kernel⟩,
    ⟨11, W.hdr, W.session, W.fcp, ⟨by decide +kernel, ⟨⟨by decide +kernel, by decide +kernel, by decide +kernel, by decide +kernel, by decide +kernel⟩, by decide +kernel⟩⟩, by decide +kernel, by decide +kernel⟩,
    ⟨11, 254, 15, 5, W.hdr, W.session, W.image (Reg.parserFormWord 11 254 15) 5, ⟨by decide +kernel, ⟨⟨by decide +kernel, by decide +kernel, by decide +kernel, by decide +kernel, by decide +kernel⟩, by decide +kernel⟩⟩, by decide +kernel, by decide +kernel, by decide +kernel, by decide +kernel, by decide +kernel⟩,
    ⟨4, W.fcp, by decide +kernel⟩,
    ⟨11, W.fcp, by decide +kernel, by decide +kernel⟩⟩

end ImagesAndSlicesChangeInService

end Sys2Proof.Tests.Q19

namespace Sys2Proof.Tests.Q20

def W.session : Session := Session.mk 8 1 3 77 0 true 1 0 4 [] 2 5 false 9 0
def W.hdr : FcpHdr := { session := 8, request := 9, seq := 1, tagOk := true }
def W.b : State := { W.at .bist with boot := { (W.at .bist).boot with fwRunning := true } }
def W.gold (s : State) (g : Nat) (v : Nat) : State := (List.range 4).foldl (fun s l => s.setReg (Reg.bistGolden g l) (BitVec.ofNat 64 v)) s
/-- Level 3 set, and of all goldens only that of segment 179 not zero. -/
def W.golden (s : State) : State := { s with regs := [(Reg.bistCtrl, putField Fld.bistCtrl_startLevel 3 0), (Reg.bistGolden 179 3, 5)] }
def W.soft (s : State) : State := W.f s Reg.bootPolicy Fld.bootPolicy_bistMode 1
def W.fcp : State := { W.run with fcp := { W.run.fcp with sessions := [W.session] } }
def W.r (g : Nat) : BistRun := { seg := g, level := 3 }
def W.q (s : State) (l : List BistRun) : State := { s with bist := { s.bist with queue := l } }
def W.st (s : State) (g v : Nat) : State := W.f s (Reg.bistSegStatus g) Fld.bistSegStatus_state v
def W.drained (s : State) (c : Nat) : State := W.f s (Reg.engineClusterStatus c) Fld.engineClusterStatus_drained 1
def W.go (s : State) (l : List BistRun) : State := { s with bist := { s.bist with running := l } }
def W.e (g m : Nat) (a : Bool) : BistEnd := { run := W.r g, mask := m, sig := 9, ms := 45, aborted := a }
def W.re (s : State) (e : BistEnd) : State := { s with bist := { s.bist with restoring := [e], barred := [0, 3, 507, 1400] } }
def W.held (s : State) : State := { s with traffic := { s.traffic with bufs := (pcBase 7 + 131071, { ownerKind := 0, owner := 0, req := 0, replicas := 1 }) :: s.traffic.bufs } }
def W.rich (s : State) : State := { s with gov := { s.gov with purse3 := 1000000000 } }



namespace SelfTestsRunAndReport
abbrev asks (s : State) (h : FcpHdr) (x : Session) : Prop := s.clocked = true ∧ Granted s h x 0x48 privWrite
abbrev free (s : State) (g : Nat) : Prop := g < 180 → s.segState g = 0
abbrev golden (s : State) (g l : Nat) : Word := s.reg (Reg.bistGolden g l)
abbrev queue (s : State) : List BistRun := s.bist.queue
abbrev arrays (g : Nat) : List Nat := (List.range 8).map (fun j => 8 * (g - 34) + j)
abbrev ready (s : State) (g : Nat) : Prop := s.bist.running.length < 3 ∧ s.fld Reg.govStatus Fld.govStatus_tier ≠ 4 ∧ s.flag Reg.govStatus Fld.govStatus_pfw = false ∧ s.segIdle g = true ∧ s.blockEmpty g = true
abbrev testing (s : State) (r : BistRun) : Prop := s.clocked = true ∧ s.bist.running.find? (fun y => y.seg == r.seg) = some r ∧ s.segState r.seg = 3
abbrev restoring (s : State) (e : BistEnd) : Prop := s.clocked = true ∧ s.bist.restoring.find? (fun y => y.run.seg == e.run.seg) = some e
abbrev strict (s : State) : Bool := !s.flag Reg.bootPolicy Fld.bootPolicy_bistMode
abbrev level (s : State) : Nat := s.fld Reg.bistCtrl Fld.bistCtrl_startLevel
abbrev same (s : State) (m : List (Nat × List Word)) (g : Nat) : Prop := golden s g (level s) ≠ 0 → ∀ i, i < segMisrs g → ((mget (fun _ => []) m g)[i]?).getD (golden s g (level s)) = golden s g (level s)

/-- States and operands that meet the hypotheses of each clause of SelfTestsRunAndReport. -/
theorem test_SelfTestsRunAndReport :
    (∃ (s : State), (s.boot.stage ≠ .bist ∨ s.boot.stopped = true)) ∧
    (∃ (m : List (Nat × List Word)) (s : State), s.clocked = true ∧ s.boot.stage = .bist ∧ s.boot.stopped = false ∧ (∀ g, g < 180 → same s m g) ∧ s.fenceOver = false) ∧
    (∃ (n : Nat) (m : List (Nat × List Word)) (s : State), s.clocked = true ∧ s.boot.stage = .bist ∧ s.boot.stopped = false ∧ n < 180 ∧ golden s n (level s) ≠ 0 ∧ (mget (fun _ => []) m n).headD (golden s n (level s)) ≠ golden s n (level s) ∧ (strict s = true ∨ segUnits n = [])) ∧
    (∃ (g : Nat) (l : Nat) (h : FcpHdr) (x : Session) (s : State), asks s h x ∧ free s g ∧ (queue s).length < 16 ∧ s.bistCode g l = 0) ∧
    (∃ (g : Nat) (h : FcpHdr) (x : Session) (s : State), asks s h x ∧ ((g < 180 ∧ s.segState g ≠ 0) ∨ 16 ≤ (queue s).length)) ∧
    (∃ (g : Nat) (l : Nat) (h : FcpHdr) (x : Session) (s : State), asks s h x ∧ free s g ∧ (queue s).length < 16 ∧ s.bistCode g l ≠ 0) ∧
    (∃ (g : Nat) (l : Nat) (h : FcpHdr) (x : Session) (s : State), asks s h x ∧ free s g ∧ (queue s).length < 16 ∧ (180 ≤ g ∨ 4 ≤ l)) ∧
    (∃ (g : Nat) (l : Nat) (h : FcpHdr) (x : Session) (s : State), asks s h x ∧ free s g ∧ (queue s).length < 16 ∧ 52 ≤ g ∧ g < 60 ∧ l < 4 ∧ s.flag (Reg.engineClusterStatus (g - 52)) Fld.engineClusterStatus_drained = false) ∧
    (∃ (g : Nat) (l : Nat) (h : FcpHdr) (x : Session) (s : State), asks s h x ∧ free s g ∧ (queue s).length < 16 ∧ l < 4 ∧ (g < 34 ∨ (60 ≤ g ∧ g < 76) ∨ (124 ≤ g ∧ g < 180))) ∧
    (∃ (g : Nat) (l : Nat) (h : FcpHdr) (x : Session) (s : State), asks s h x ∧ free s g ∧ (queue s).length < 16 ∧ l < 4 ∧ 34 ≤ g ∧ g < 50 ∧ (∀ a ∈ arrays g, s.arrayEnabled a = false) ∧ golden s g l = 0) ∧
    (∃ (s : State), queue s = []) ∧
    (∃ (r : BistRun) (l : List BistRun) (s : State), queue s = r :: l ∧ (¬ ready s r.seg ∨ s.canSpend 3 (segCost r.seg) = false)) ∧
    (∃ (r : BistRun) (l : List BistRun) (s : State), s.clocked = true ∧ queue s = r :: l ∧ r.seg < 180 ∧ ready s r.seg ∧ s.canSpend 3 (segCost r.seg) = true ∧ (∀ y ∈ l, y.seg ≠ r.seg)) ∧
    (∃ (g : Nat) (s : State), (s.bist.running.find? (fun y => y.seg == g) = none ∨ s.segState g ≠ 3)) ∧
    (∃ (r : BistRun) (s : State), testing s r ∧ r.seg < 180) ∧
    (∃ (g : Nat) (s : State), s.bist.restoring.find? (fun y => y.run.seg == g) = none) ∧
    (∃ (e : BistEnd) (s : State), restoring s e ∧ e.run.seg < 180 ∧ e.aborted = false ∧ e.mask = 0) ∧
    (∃ (e : BistEnd) (s : State), restoring s e ∧ e.run.seg < 180 ∧ e.aborted = false ∧ e.mask ≠ 0 ∧ e.mask < 256) ∧
    (∃ (e : BistEnd) (s : State), restoring s e ∧ e.run.seg < 180 ∧ e.aborted = true) ∧
    (∃ (e : BistEnd) (s : State), restoring s e ∧ 34 ≤ e.run.seg ∧ e.run.seg < 50) ∧
    (∃ (e : BistEnd) (s : State), restoring s e ∧ 52 ≤ e.run.seg ∧ e.run.seg < 60) ∧
    (∃ (r : BistRun) (l : List BistRun) (s : State), queue s = r :: l ∧ (s.segState r.seg ≠ 2 ∨ s.blockEmpty r.seg = true)) ∧
    (∃ (r : BistRun) (l : List BistRun) (s : State), s.clocked = true ∧ queue s = r :: l ∧ r.seg < 180 ∧ s.segState r.seg = 2 ∧ s.blockEmpty r.seg = false ∧ (∀ y ∈ l, y.seg ≠ r.seg)) :=
  ⟨⟨W.fcp, by decide +kernel⟩,
    ⟨[(179, [5])], W.golden W.b, by decide +kernel, by decide +kernel, by decide +kernel, by decide +kernel, by decide +kernel⟩,
    ⟨55, [(55, [6])], W.gold W.b 55 5, by decide +kernel, by decide +kernel, by decide +kernel, by decide +kernel, by decide +kernel, by decide +kernel, by decide +kernel⟩,
    ⟨59, 3, W.hdr, W.session, W.drained (W.gold W.fcp 59 5) 7, ⟨by decide +kernel, ⟨⟨by decide +kernel, by decide +kernel, by decide +kernel, by decide +kernel, by decide +kernel⟩, by decide +kernel⟩⟩, by decide +kernel, by decide +kernel, by decide +kernel⟩,
    ⟨59, W.hdr, W.session, W.q W.fcp (List.replicate 16 (W.r 52)), ⟨by decide +kernel, ⟨⟨by decide +kernel, by decide +kernel, by decide +kernel, by decide +kernel, by decide +kernel⟩, by decide +kernel⟩⟩, by decide +kernel⟩,
    ⟨59, 3, W.hdr, W.session, W.fcp, ⟨by decide +kernel, ⟨⟨by decide +kernel, by decide +kernel, by decide +kernel, by decide +kernel, by decide +kernel⟩, by decide +kernel⟩⟩, by decide +kernel, by decide +kernel, by decide +kernel⟩,
    ⟨180, 3, W.hdr, W.session, W.fcp, ⟨by decide +kernel, ⟨⟨by decide +kernel, by decide +kernel, by decide +kernel, by decide +kernel, by decide +kernel⟩, by decide +kernel⟩⟩, by decide +kernel, by decide +kernel, by decide +kernel⟩,
    ⟨52, 3, W.hdr, W.session, W.fcp, ⟨by decide +kernel, ⟨⟨by decide +kernel, by decide +kernel, by decide +kernel, by decide +kernel, by decide +kernel⟩, by decide +kernel⟩⟩, by decide +kernel, by decide +kernel, by decide +kernel, by decide +kernel, by decide +kernel, by decide +kernel⟩,
    ⟨33, 3, W.hdr, W.session, W.fcp, ⟨by decide +kernel, ⟨⟨by decide +kernel, by decide +kernel, by decide +kernel, by decide +kernel, by decide +kernel⟩, by decide +kernel⟩⟩, by decide +kernel, by decide +kernel, by decide +kernel, by decide +kernel⟩,
    ⟨49, 0, W.hdr, W.session, W.fcp, ⟨by decide +kernel, ⟨⟨by decide +kernel, by decide +kernel, by decide +kernel, by decide +kernel, by decide +kernel⟩, by decide +kernel⟩⟩, by decide +kernel, by decide +kernel, by decide +kernel, by decide +kernel, by decide +kernel, by decide +kernel, by decide +kernel⟩,
    ⟨W.fcp, by decide +kernel⟩,
    ⟨W.r 55, [], W.q W.fcp [W.r 55], by decide +kernel, by decide +kernel⟩,
    ⟨W.r 55, [W.r 123], W.rich (W.drained (W.q W.fcp [W.r 55, W.r 123]) 3), by decide +kernel, by decide +kernel, by decide +kernel, ⟨by decide +kernel, by decide +kernel, by decide +kernel, by decide +kernel, by decide +kernel⟩, by decide +kernel, by decide +kernel⟩,
    ⟨55, W.fcp, by decide +kernel⟩,
    ⟨W.r 49, W.gold (W.st (W.go W.fcp [W.r 49]) 49 3) 49 5, ⟨by decide +kernel, by decide +kernel, by decide +kernel⟩, by decide +kernel⟩,
    ⟨5, W.fcp, by decide +kernel⟩,
    ⟨W.e 34 0 false, W.re W.fcp (W.e 34 0 false), ⟨by decide +kernel, by decide +kernel⟩, by decide +kernel, by decide +kernel, by decide +kernel⟩,
    ⟨W.e 55 1 false, W.re W.fcp (W.e 55 1 false), ⟨by decide +kernel, by decide +kernel⟩, by decide +kernel, by decide +kernel, by decide +kernel, by decide +kernel⟩,
    ⟨W.e 55 0 true, W.re W.fcp (W.e 55 0 true), ⟨by decide +kernel, by decide +kernel⟩, by decide +kernel, by decide +kernel⟩,
    ⟨W.e 49 0 true, (W.re W.fcp (W.e 49 0 true)).tblPut (rowAddr 127 32767 + 0x18) (2 ^ 63), ⟨by decide +kernel, by decide +kernel⟩, by decide +kernel, by decide +kernel⟩,
    ⟨W.e 59 0 true, (W.re W.fcp (W.e 59 0 true)).tblPut 0x0001307FFFF8 (2 ^ 63), ⟨by decide +kernel, by decide +kernel⟩, by decide +kernel, by decide +kernel⟩,
    ⟨W.r 76, [], W.q W.fcp [W.r 76], by decide +kernel, by decide +kernel⟩,
    ⟨W.r 76, [W.r 123], W.held (W.st (W.q W.fcp [W.r 76, W.r 123]) 76 2), by decide +kernel, by decide +kernel, by decide +kernel, by decide +kernel, by decide +kernel, by decide +kernel⟩⟩

end SelfTestsRunAndReport

end Sys2Proof.Tests.Q20

namespace Sys2Proof.Tests.Q21

def W.session : Session := Session.mk 8 1 3 77 0 true 1 0 4 [] 2 5 false 9 0
def W.hdr : FcpHdr := { session := 8, request := 9, seq := 1, tagOk := true }
def W.as (x : Session) : State := { W.run with fcp := { W.run.fcp with sessions := [x] }, ctrs := [(bankKey 0x101 3167, { value := 7, ovf := true, inexact := true })] }
def W.fcp : State := W.as W.session
def W.seen : Session := { W.session with priv := 0 }
def W.c (b i : Nat) : CounterAddr := { bank := b, index := i }
def W.fl (b i : Nat) : Flush := { bank := b, index := i, amount := 2 ^ 40 }
def W.obs : State := let s : State := W.fcp; { s with obs := { s.obs with acc := [(bankKey 0x103 2097151, 5)], stored0 := [(bankKey 0x103 2097151, { value := 9, ovf := false, inexact := false })], flushF := [W.fl 0x103 2097151] } }
def W.serve (s : State) : State := (List.range 128).foldl (fun s x => W.f s (Reg.hbmStatus x) Fld.hbmStatus_state 1) s
def W.serve1 (s : State) : State := (List.range 64).foldl (fun s x => W.f s (Reg.hbmStatus (64 + x)) Fld.hbmStatus_state 1) s
def W.flT : State := let s : State := W.obs; { s with obs := { s.obs with flushF := [], flushT := [W.fl 0x100 0] } }
def W.walk : State := let s : State := W.obs; { s with obs := { s.obs with walking := true, walkSeq := 64, walkInstant := List.replicate 12 3, walkVals := [(bankKey 0x101 0, { value := 7, ovf := true, inexact := true })] } }
def W.pend : State := W.f (W.f W.obs (Reg.cntFilter 63) Fld.cntFilter_pending 1) (Reg.cntFilter 63) Fld.cntFilter_valid 1
def W.rec (i k n : Nat) : TeleRec := { kind := k, dest := i, body := List.replicate n 7 }
def W.tele (l : List TeleRec) : State := let s : State := W.f (W.f W.obs Reg.teleCtrl Fld.teleCtrl_enable 1) Reg.teleCtrl Fld.teleCtrl_mtu 1500; { s with obs := { s.obs with teleQ := l, teleGap := [(3, true)] } }



namespace CountersAreReadAndExported
abbrev asks (s : State) (h : FcpHdr) (x : Session) : Prop := s.clocked = true ∧ Granted s h x 0x50 privAll
abbrev known (l : List CounterAddr) : Prop := l ≠ [] ∧ l.length ≤ 64 ∧ badCounter l = none
abbrev shown (s : State) (x : Session) (l : List CounterAddr) : Prop := x.priv ≠ 0 ∨ (l.all (fun c => (c.bank ≤ 11 || (0x100 ≤ c.bank && c.bank ≤ 0x103) || c.bank == 0x200) && bit (s.fld Reg.cntAccess Fld.cntAccess_obsVis) (visBit c.bank)) = true)
abbrev stored0 (s : State) (k : Nat) : CtrVal := mget (fun _ => CtrVal.zero) s.obs.stored0 k
abbrev exporting (s : State) (i : Nat) : Prop := s.clocked = true ∧ i < 4 ∧ s.boot.fwRunning = true ∧ s.flag Reg.teleCtrl Fld.teleCtrl_enable = true
abbrev drained (s : State) : Prop := (∀ k, k < 12 → mget (fun _ => ([] : List Bytes)) s.lookup.traceRing k = []) ∧ (∀ c, c < 8 → s.fld (Reg.engineSamplePtr c) Fld.engineSamplePtr_rd = s.fld (Reg.engineSamplePtr c) Fld.engineSamplePtr_wr)
abbrev room (s : State) (i : Nat) : Nat := s.fld Reg.teleCtrl Fld.teleCtrl_mtu - (if s.flag (Reg.teleCollector i) Fld.teleCollector_ipv6 then 48 else 28) - 32
abbrev own (k : Nat) : Prop := k ∈ [1, 2, 3, 4, 5]

/-- States and operands that meet the hypotheses of each clause of CountersAreReadAndExported. -/
theorem test_CountersAreReadAndExported :
    (∃ (l : List CounterAddr) (h : FcpHdr) (x : Session) (s : State), asks s h x ∧ (l = [] ∨ 64 < l.length)) ∧
    (∃ (l : List CounterAddr) (h : FcpHdr) (x : Session) (s : State), asks s h x ∧ l ≠ [] ∧ l.length ≤ 64 ∧ ¬ shown s x l) ∧
    (∃ (l : List CounterAddr) (h : FcpHdr) (x : Session) (s : State), asks s h x ∧ l ≠ [] ∧ l.length ≤ 64 ∧ x.priv = 0) ∧
    (∃ (l : List CounterAddr) (i : Nat) (h : FcpHdr) (x : Session) (s : State), asks s h x ∧ l.length ≤ 64 ∧ shown s x l ∧ badCounter l = some i) ∧
    (∃ (l : List CounterAddr) (h : FcpHdr) (x : Session) (s : State), asks s h x ∧ known l ∧ shown s x l) ∧
    (∃ (c : CounterAddr) (k : Nat) (h : FcpHdr) (x : Session) (s : State), asks s h x ∧ x.priv ≠ 0 ∧ counterKey c.bank c.index = some k ∧ bankStored c.bank = false ∧ c.bank ≠ 0x200) ∧
    (∃ (c : CounterAddr) (h : FcpHdr) (x : Session) (s : State), asks s h x ∧ x.priv ≠ 0 ∧ bankStored c.bank = true ∧ c.index < bankLimit c.bank ∧ s.copyGood (s.recordPc c.bank c.index) = true ∧ (stored0 s (bankKey c.bank c.index)).ovf = false ∧ (stored0 s (bankKey c.bank c.index)).value + flushing s.obs.flushF c.bank c.index + flushing s.obs.flushT c.bank c.index + mget (fun _ => 0) s.obs.acc (bankKey c.bank c.index) < 2 ^ 64 ∧ (stored0 s (bankKey c.bank c.index)).inexact = false) ∧
    (∃ (c : CounterAddr) (k : Nat) (h : FcpHdr) (x : Session) (s : State), asks s h x ∧ x.priv ≠ 0 ∧ counterKey c.bank c.index = some k) ∧
    (∃ (c : CounterAddr) (h : FcpHdr) (x : Session) (s : State), asks s h x ∧ x.priv ≠ 0 ∧ 1 ≤ c.bank ∧ c.bank ≤ 11 ∧ c.bank ≠ 7 ∧ ordinalRow (bankRows c.bank) (c.index / 256) ≠ none) ∧
    (∃ (c : CounterAddr) (h : FcpHdr) (x : Session) (s : State), asks s h x ∧ x.priv ≠ 0 ∧ (c.bank = 0 ∨ (11 < c.bank ∧ c.bank < 0x100) ∨ (0x100 ≤ c.bank ∧ bankLimit c.bank ≤ c.index))) ∧
    (∃ (s : State), s.obs.flushF = [] ∧ s.obs.flushT = []) ∧
    (∃ (f : Flush) (l : List Flush) (s : State), s.clocked = true ∧ (s.obs.flushF = f :: l ∨ (s.obs.flushF = [] ∧ s.obs.flushT = f :: l)) ∧ s.hbmServes (s.recordPc f.bank f.index) = true ∧ s.hbmServes (64 + s.recordPc f.bank f.index) = true) ∧
    (∃ (f : Flush) (l : List Flush) (s : State), s.clocked = true ∧ s.obs.flushF = f :: l ∧ s.hbmServes (s.recordPc f.bank f.index) = false ∧ s.hbmServes (64 + s.recordPc f.bank f.index) = true) ∧
    (∃ (f : Flush) (l : List Flush) (s : State), s.obs.flushF = f :: l ∧ s.hbmServes (s.recordPc f.bank f.index) = false ∧ s.hbmServes (64 + s.recordPc f.bank f.index) = false) ∧
    (∃ (f : Nat) (w : Nat), (64 ≤ f ∨ 3 ≤ w)) ∧
    (∃ (f : Nat) (w : Nat) (s : State), s.clocked = true ∧ f < 64 ∧ (w = 1 ∨ w = 2)) ∧
    (∃ (f : Nat) (v : Word) (s : State), s.clocked = true ∧ f < 64 ∧ getField Fld.cntFilter_kind v ≤ 5 ∧ getField Fld.cntFilter_priv v < 16 ∧ getField Fld.cntFilter_tc v < 256) ∧
    (∃ (s : State), s.clocked = true ∧ s.obs.walking = true ∧ s.noWindow 0x0140 0) ∧
    (∃ (s : State), s.clocked = true ∧ s.obs.walking = false) ∧
    (∃ (s : State), s.obs.walking = false) ∧
    (∃ (s : State), s.clocked = true ∧ s.obs.walking = true ∧ s.obs.walkInstant.length = 12) ∧
    (∃ (i : Nat) (s : State), (4 ≤ i ∨ s.boot.fwRunning = false ∨ s.flag Reg.teleCtrl Fld.teleCtrl_enable = false)) ∧
    (∃ (i : Nat) (s : State), exporting s i) ∧
    (∃ (i : Nat) (r : TeleRec) (l : List TeleRec) (s : State), exporting s i ∧ drained s ∧ s.obs.teleQ = r :: l ∧ r.dest = i ∧ own r.kind ∧ (l.all (fun y => y.dest != i) = true) ∧ r.body.length ≤ room s i ∧ r.body.length < 65536) ∧
    (∃ (i : Nat) (r : TeleRec) (s : State), exporting s i ∧ drained s ∧ s.obs.teleQ = [r] ∧ r.dest = i ∧ own r.kind ∧ room s i < r.body.length) :=
  ⟨⟨[], W.hdr, W.session, W.fcp, ⟨by decide +kernel, ⟨⟨by decide +kernel, by decide +kernel, by decide +kernel, by decide +kernel, by decide +kernel⟩, by decide +kernel⟩⟩, by decide +kernel⟩,
    ⟨[W.c 12 0], W.hdr, W.seen, W.as W.seen, ⟨by decide +kernel, ⟨⟨by decide +kernel, by decide +kernel, by decide +kernel, by decide +kernel, by decide +kernel⟩, by decide +kernel⟩⟩, by decide +kernel, by decide +kernel, by decide +kernel⟩,
    ⟨[W.c 1 0], W.hdr, W.seen, W.as W.seen, ⟨by decide +kernel, ⟨⟨by decide +kernel, by decide +kernel, by decide +kernel, by decide +kernel, by decide +kernel⟩, by decide +kernel⟩⟩, by decide +kernel, by decide +kernel, by decide +kernel⟩,
    ⟨[W.c 0x101 3167, W.c 0x101 3168], 1, W.hdr, W.session, W.fcp, ⟨by decide +kernel, ⟨⟨by decide +kernel, by decide +kernel, by decide +kernel, by decide +kernel, by decide +kernel⟩, by decide +kernel⟩⟩, by decide +kernel, by decide +kernel, by decide +kernel⟩,
    ⟨[W.c 0x101 3167, W.c 1 0, W.c 0x103 2097151], W.hdr, W.session, W.obs, ⟨by decide +kernel, ⟨⟨by decide +kernel, by decide +kernel, by decide +kernel, by decide +kernel, by decide +kernel⟩, by decide +kernel⟩⟩, ⟨by decide +kernel, by decide +kernel, by decide +kernel⟩, by decide +kernel⟩,
    ⟨W.c 0x101 3167, bankKey 0x101 3167, W.hdr, W.session, W.fcp, ⟨by decide +kernel, ⟨⟨by decide +kernel, by decide +kernel, by decide +kernel, by decide +kernel, by decide +kernel⟩, by decide +kernel⟩⟩, by decide +kernel, by decide +kernel, by decide +kernel, by decide +kernel⟩,
    ⟨W.c 0x103 2097151, W.hdr, W.session, W.serve W.obs, ⟨by decide +kernel, ⟨⟨by decide +kernel, by decide +kernel, by decide +kernel, by decide +kernel, by decide +kernel⟩, by decide +kernel⟩⟩, by decide +kernel, by decide +kernel, by decide +kernel, by decide +kernel, by decide +kernel, by decide +kernel, by decide +kernel⟩,
    ⟨W.c 0x103 2097151, bankKey 0x103 2097151, W.hdr, W.session, W.serve W.obs, ⟨by decide +kernel, ⟨⟨by decide +kernel, by decide +kernel, by decide +kernel, by decide +kernel, by decide +kernel⟩, by decide +kernel⟩⟩, by decide +kernel, by decide +kernel⟩,
    ⟨W.c 2 0, W.hdr, W.session, W.fcp, ⟨by decide +kernel, ⟨⟨by decide +kernel, by decide +kernel, by decide +kernel, by decide +kernel, by decide +kernel⟩, by decide +kernel⟩⟩, by decide +kernel, by decide +kernel, by decide +kernel, by decide +kernel, by decide +kernel⟩,
    ⟨W.c 0 0, W.hdr, W.session, W.fcp, ⟨by decide +kernel, ⟨⟨by decide +kernel, by decide +kernel, by decide +kernel, by decide +kernel, by decide +kernel⟩, by decide +kernel⟩⟩, by decide +kernel, by decide +kernel⟩,
    ⟨W.fcp, by decide +kernel, by decide +kernel⟩,
    ⟨W.fl 0x103 2097151, [], W.serve W.obs, by decide +kernel, by decide +kernel, by decide +kernel, by decide +kernel⟩,
    ⟨W.fl 0x103 2097151, [], W.serve1 W.obs, by decide +kernel, by decide +kernel, by decide +kernel, by decide +kernel⟩,
    ⟨W.fl 0x103 2097151, [], W.obs, by decide +kernel, by decide +kernel, by decide +kernel⟩,
    ⟨64, 0, by decide +kernel⟩,
    ⟨63, 2, W.fcp, by decide +kernel, by decide +kernel, by decide +kernel⟩,
    ⟨63, 0xD000000000000000, W.fcp, by decide +kernel, by decide +kernel, by decide +kernel, by decide +kernel, by decide +kernel⟩,
    ⟨W.walk, by decide +kernel, by decide +kernel, show List.all _ _ = true by decide +kernel⟩,
    ⟨W.pend, by decide +kernel, by decide +kernel⟩,
    ⟨W.fcp, by decide +kernel⟩,
    ⟨W.walk, by decide +kernel, by decide +kernel, by decide +kernel⟩,
    ⟨4, W.tele [W.rec 3 2 8], by decide +kernel⟩,
    ⟨3, W.tele [W.rec 3 2 8], ⟨by decide +kernel, by decide +kernel, by decide +kernel, by decide +kernel⟩⟩,
    ⟨3, W.rec 3 2 1440, [W.rec 0 3 9], W.tele [W.rec 3 2 1440, W.rec 0 3 9], ⟨by decide +kernel, by decide +kernel, by decide +kernel, by decide +kernel⟩, ⟨by decide +kernel, by decide +kernel⟩, by decide +kernel, by decide +kernel, by decide +kernel, by decide +kernel, by decide +kernel, by decide +kernel⟩,
    ⟨3, W.rec 3 5 1441, W.tele [W.rec 3 5 1441], ⟨by decide +kernel, by decide +kernel, by decide +kernel, by decide +kernel⟩, ⟨by decide +kernel, by decide +kernel⟩, by decide +kernel, by decide +kernel, by decide +kernel, by decide +kernel⟩⟩

end CountersAreReadAndExported

end Sys2Proof.Tests.Q21

namespace Sys2Proof.Tests.Q22

def W.jtag (n : Nat) : State := { W.run with fuses := { W.run.fuses with jtag := n } }
def W.r (g : Nat) : BistRun := { seg := g, level := 3 }
def W.test (n : Nat) : State := let s : State := W.jtag n; { s with bist := { s.bist with running := [W.r 179] } }
def W.two (n : Nat) : State := let s : State := W.jtag n; { s with bist := { s.bist with running := [W.r 55, W.r 179] } }
def W.in (n : Nat) : State := let s : State := W.jtag n; { s with pins := { s.pins with scanMode := true } }



namespace ScanAndTwoWirePorts
abbrev live (s : State) : Prop := s.fuses.jtag ≤ 1 ∧ s.pins.scanMode = false ∧ s.pins.clocksStopped = false ∧ s.boot.stage ≠ .coldReset
abbrev up (s : State) : Prop := s.clocked = true ∧ s.boot.stage ≠ .released

/-- States and operands that meet the hypotheses of each clause of ScanAndTwoWirePorts. -/
theorem test_ScanAndTwoWirePorts :
    (∃ (s : State), s.fuses.jtag < 4) ∧
    (∃ (s : State), 2 < s.fuses.jtag) ∧
    (∃ (s : State), s.fuses.jtag ≤ 2 ∧ s.pins.scanMode = false) ∧
    (∃ (s : State), s.fuses.jtag ≤ 2 ∧ s.pins.scanMode = false) ∧
    (∃ (s : State), s.fuses.jtag ≤ 2 ∧ s.pins.scanMode = false) ∧
    (∃ (r : BistRun) (s : State), s.fuses.jtag ≤ 2 ∧ s.pins.scanMode = false ∧ s.bist.running = [r] ∧ r.seg < 180) ∧
    (∃ (s : State), s.fuses.jtag ≤ 2 ∧ s.pins.scanMode = true) ∧
    (∃ (s : State), 1 < s.fuses.jtag) ∧
    (∃ (b : Bool) (s : State), s.fuses.jtag ≤ 1 ∧ (s.pins.scanMode = true ∨ s.pins.clocksStopped = true ∨ s.boot.stage = .coldReset ∨ (b = true ∧ s.fuses.jtag = 1))) ∧
    (∃ (a : Nat) (s : State), live s ∧ s.readBar a = 0 ∧ a ≠ Reg.timeNow ∧ inBufferHbm a = false) ∧
    (∃ (a : Nat) (s : State), live s ∧ s.readBar a ≠ 0) ∧
    (∃ (a : Nat) (s : State), live s ∧ s.fuses.jtag = 0 ∧ s.regAt a = none) ∧
    (∃ (v : Word) (s : State), live s ∧ s.fuses.jtag = 0 ∧ 200 ≤ getField Fld.govBudget_budget v ∧ getField Fld.govBudget_budget v ≤ 600 ∧ 10 ≤ getField Fld.govBudget_starveTime v ∧ getField Fld.govBudget_starveTime v ≤ 4000 ∧ 1 ≤ getField Fld.govBudget_overTime v ∧ getField Fld.govBudget_overTime v ≤ 1000) ∧
    (∃ (s : State), (s.boot.stage = .released ∨ s.clocked = false)) ∧
    (∃ (p : Nat) (n : Nat) (s : State), up s ∧ p = 0x42 ∧ n = 2) ∧
    (∃ (p : Nat) (n : Nat) (s : State), up s ∧ p % 65536 = 0x14 ∧ n = 8) ∧
    (∃ (i : Nat) (p : Nat) (n : Nat) (s : State), up s ∧ i < 24 ∧ p = 0x20 + i ∧ n = 1) ∧
    (∃ (s : State), up s) ∧
    (∃ (v : Nat) (s : State), up s ∧ 200 ≤ v ∧ v ≤ 600) ∧
    (∃ (v : Nat) (s : State), up s ∧ (v < 200 ∨ 600 < v) ∧ v < 65536) ∧
    (∃ (p : Nat) (s : State), up s ∧ p % 65536 ≠ 0x42 ∧ p % 65536 ≠ 0x43) :=
  ⟨⟨W.jtag 3, by decide +kernel⟩,
    ⟨W.jtag 3, by decide +kernel⟩,
    ⟨W.two 2, by decide +kernel, by decide +kernel⟩,
    ⟨W.jtag 0, by decide +kernel, by decide +kernel⟩,
    ⟨W.jtag 0, by decide +kernel, by decide +kernel⟩,
    ⟨W.r 179, W.test 2, by decide +kernel, by decide +kernel, by decide +kernel, by decide +kernel⟩,
    ⟨W.in 2, by decide +kernel, by decide +kernel⟩,
    ⟨W.jtag 2, by decide +kernel⟩,
    ⟨true, W.jtag 1, by decide +kernel, by decide +kernel⟩,
    ⟨0x4000, W.jtag 1, ⟨by decide +kernel, by decide +kernel, by decide +kernel, by decide +kernel⟩, by decide +kernel, by decide +kernel, by decide +kernel⟩,
    ⟨0x0107FC000000, W.jtag 1, ⟨by decide +kernel, by decide +kernel, by decide +kernel, by decide +kernel⟩, by decide +kernel⟩,
    ⟨0x0107FC000000, W.jtag 0, ⟨by decide +kernel, by decide +kernel, by decide +kernel, by decide +kernel⟩, by decide +kernel, by decide +kernel⟩,
    ⟨BitVec.ofNat 64 (600 * 2 ^ 54 + 3 * 2 ^ 44 + 10 * 2 ^ 32 + 1000 * 2 ^ 22), W.jtag 0, ⟨by decide +kernel, by decide +kernel, by decide +kernel, by decide +kernel⟩, by decide +kernel, by decide +kernel, by decide +kernel, by decide +kernel, by decide +kernel, by decide +kernel, by decide +kernel⟩,
    ⟨State.reset, by decide +kernel⟩,
    ⟨0x42, 2, W.run, ⟨by decide +kernel, by decide +kernel⟩, by decide +kernel, by decide +kernel⟩,
    ⟨0x10014, 8, W.run, ⟨by decide +kernel, by decide +kernel⟩, by decide +kernel, by decide +kernel⟩,
    ⟨23, 0x37, 1, W.run, ⟨by decide +kernel, by decide +kernel⟩, by decide +kernel, by decide +kernel, by decide +kernel⟩,
    ⟨W.run, ⟨by decide +kernel, by decide +kernel⟩⟩,
    ⟨600, W.run, ⟨by decide +kernel, by decide +kernel⟩, by decide +kernel, by decide +kernel⟩,
    ⟨199, W.run, ⟨by decide +kernel, by decide +kernel⟩, by decide +kernel, by decide +kernel⟩,
    ⟨0x41, W.run, ⟨by decide +kernel, by decide +kernel⟩, by decide +kernel, by decide +kernel⟩⟩

end ScanAndTwoWirePorts

end Sys2Proof.Tests.Q22

namespace Sys2Proof.Tests

/-- States that meet the hypotheses of each clause of StepRunsTheFrontCommand. -/
theorem test_StepRunsTheFrontCommand :
    (∃ (s : State), s.pending = [] ∧ s.clocked = true ∧ s.boot.stage ≠ .released) ∧
    (∃ (s : State), s.pending = [] ∧ (s.clocked = false ∨ s.boot.stage = .released)) :=
  ⟨⟨W.run, by decide, by decide, by decide⟩, ⟨W.at .released, by decide, by decide⟩⟩

/-- A state that meets the premises of EveryStepAnswersAndKeepsTheForms, and one that is not in cold reset and keeps them. -/
theorem test_EveryStepAnswersAndKeepsTheForms : State.reset.canonical = true ∧ State.reset.boot.stage = .coldReset ∧ State.reset.pins.ready = false ∧ State.reset.pins.linkIdle = true
    ∧ W.run.canonical = true ∧ W.run.boot.stage ≠ .coldReset := by decide

end Sys2Proof.Tests

end
end

/-! PROOFS. The reset values of State.reset, and what a register write does to reserved bits (R10, R394, R398, R403). -/

namespace Sys2Proof.Machine

/-! ### What is read where nothing was written -/

theorem tblWord_nil (a : Nat) : tblWord [] a = 0 := by
  have zeros : beNat ((List.range 8).map (fun _ => (0 : Byte))) = 0 := by decide
  exact zeros

theorem keyless_of_noSas {s : State} (h : s.line.sas = []) : s.keyless := by
  intro p c a
  simp only [State.sa, h, mget, MacsecSa.idle, and_self]

theorem resetOf_govBudget : resetOf Reg.govBudget = 0x8c00006419200000 := by decide +kernel

/-- Settles O59: nothing is listed in State.reset, so that registers, counters and table memory read what an unlisted key reads as. -/
theorem resetStateHoldsTheResetValues : Obligations.ResetStateHoldsTheResetValues := by
  have canonical : State.reset.canonical = true := rfl
  have budget : State.reset.reg Reg.govBudget = 0x8c00006419200000 := resetOf_govBudget
  refine ⟨rfl, rfl, rfl, rfl, rfl, canonical, keyless_of_noSas rfl, rfl, rfl, rfl, fun _ => rfl, fun _ => rfl, tblWord_nil, ?_, ?_, ?_, ?_⟩
  all_goals
    simp only [State.flag, State.fld, budget]
    decide

/-! ### Requests that are granted -/

theorem act_of_clocked {s : State} (h : s.clocked = true) (t : State) : s.act t = .next t := by rw [State.act, if_pos h]

/-- A granted request is answered with the status and payload of its meaning, which runs with the session's SEQ moved (R394, R398). -/
theorem fcpServe_granted {s : State} {h : FcpHdr} {x : Session} {t priv : Nat} (g : Granted s h x t priv) (act : State → State × Nat × Bytes) :
    s.fcpServe h t priv act =
      let r := act (s.setSession { x with rxSeq := h.seq })
      r.1.answer h t r.2.1 r.2.2 := by
  obtain ⟨⟨known, up, tag, seq, new⟩, allowed⟩ := g
  have gate : s.fcpGate h = (s.setSession { x with rxSeq := h.seq }, .take { x with rxSeq := h.seq }) := by
    simp only [State.fcpGate, known, up, tag, Nat.not_le.2 seq, new]
    rfl
  have deny : (s.setSession { x with rxSeq := h.seq }).fcpDeny { x with rxSeq := h.seq } t priv = none := allowed
  simp only [State.fcpServe, gate, deny]

theorem answer_regs (s : State) (h : FcpHdr) (t st : Nat) (p : Bytes) : (s.answer h t st p).regs = s.regs :=
  (answer_tame s h t st p).only.same .regs (by decide)

/-! ### Reserved bits -/

/-- Bit `j` lies in none of a register's fields, each of which lies in the word. -/
def RegDesc.reservedBit (d : RegDesc) (j : Nat) : Prop := ∀ f ∈ d.fields, f.lo ≤ f.hi ∧ f.hi < 64 ∧ ¬ (f.lo ≤ j ∧ j ≤ f.hi)

theorem testBit_putField_apart (f : Field) (v : Nat) (w : Word) {j : Nat} (h : f.lo ≤ f.hi ∧ f.hi < 64) (hj : ¬ (f.lo ≤ j ∧ j ≤ f.hi)) :
    (putField f v w).toNat.testBit j = w.toNat.testBit j := by
  rw [toNat_putField f v w h, testBit_setBits, if_neg (by simp only [Field.width]; omega)]

theorem testBit_putFields_reserved {d : RegDesc} {j : Nat} (hj : d.reservedBit j) (g : FieldDesc → Nat) (l : List FieldDesc) (hl : ∀ f ∈ l, f ∈ d.fields) :
    ∀ w : Word, (l.foldl (fun acc f => putField f.field (g f) acc) w).toNat.testBit j = w.toNat.testBit j := by
  induction l with
  | nil => intro w; rfl
  | cons f l ih =>
    intro w
    obtain ⟨ordered, inside, apart⟩ := hj f (hl f List.mem_cons_self)
    rw [List.foldl_cons, ih (fun f hf => hl f (List.mem_cons_of_mem _ hf)), testBit_putField_apart f.field (g f) w ⟨ordered, inside⟩ apart]

/-- A masked write leaves every reserved bit zero, whatever the register held there (R10): it puts the fields into a word of zeros. -/
theorem testBit_maskedWrite_reserved {d : RegDesc} {j : Nat} (hj : d.reservedBit j) (old v mask : Word) :
    (d.maskedWrite old v mask).toNat.testBit j = false := by
  unfold RegDesc.maskedWrite
  rw [testBit_putFields_reserved hj _ d.fields (fun _ hf => hf)]
  exact Nat.zero_testBit j

/-! ### A write of GOV_BUDGET.BUDGET -/

/-- The masked word that writes `v` to GOV_BUDGET.BUDGET and no other field. -/
abbrev budgetWord (v : Nat) : MaskedWord := { value := BitVec.ofNat 64 (2 ^ 54 * v), mask := BitVec.ofNat 64 (2 ^ 54 * 1023) }

/-- The block of GOV_BUDGET. -/
def budgetDesc : RegDesc := (findReg Reg.govBudget).getD { base := 0, dims := [], fields := [] }

theorem regAt_govBudget (s : State) : s.regAt Reg.govBudget = some budgetDesc := by
  have found : findReg Reg.govBudget = some budgetDesc := by decide +kernel
  exact found

theorem budgetDesc_reserved : budgetDesc.reservedBit 0 := by
  have fields : ∀ f ∈ budgetDesc.fields, f.lo ≤ f.hi ∧ f.hi < 64 ∧ ¬ (f.lo ≤ 0 ∧ 0 ≤ f.hi) := by decide +kernel
  exact fields

/-- A write of GOV_BUDGET starts nothing beyond its word. -/
theorem writeWord_govBudget (s : State) (m : MaskedWord) (hm : m.mask ≠ 0) : s.writeWord Reg.govBudget m = s.storeReg Reg.govBudget m := by
  have line : s.writeLine Reg.govBudget m = none := rfl
  have mid : s.writeMid Reg.govBudget m = none := rfl
  have traffic : s.writeTraffic Reg.govBudget m = none := rfl
  have control : s.writeControl Reg.govBudget m = none := rfl
  simp only [State.writeWord, if_neg hm, line, mid, traffic, control]
  rfl

theorem testBit_storeReg_govBudget (s : State) (m : MaskedWord) : ((s.storeReg Reg.govBudget m).reg Reg.govBudget).toNat.testBit 0 = false := by
  simp only [State.storeReg, regAt_govBudget, reg_setReg_self, testBit_maskedWrite_reserved budgetDesc_reserved]

/-- A granted write of GOV_BUDGET that no check refuses leaves its reserved bit 0 zero, whatever it held. -/
theorem regWrite_govBudget_clears_reserved {s : State} {h : FcpHdr} {x : Session} {m : MaskedWord} (g : Granted s h x 0x11 privWrite) (hm : m.mask ≠ 0)
    (ok : (s.setSession { x with rxSeq := h.seq }).writesBar Reg.govBudget [m] = 0) :
    ((regWrite h Reg.govBudget [m] s).reg Reg.govBudget).toNat.testBit 0 = false := by
  rw [regWrite, fcpServe_granted g]
  simp only [List.length_singleton, ok, State.writeWords, writeWord_govBudget _ m hm, reg_congr (answer_regs ..)]
  exact testBit_storeReg_govBudget ..

/-! ### A device whose GOV_BUDGET holds a reserved bit -/

namespace StrayBudget

/-- An operator's session, and its first request. -/
def session : Session :=
  { id := 1, port := 0, version := 3, keyHash := 1, peer := 0, auth := true, priv := 1, rxSeq := 0, txSeq := 0, replies := [], ackSeq := 0, sentSeq := 0,
    lost := false, learnSent := 0, learnAcked := 0 }
def request : FcpHdr := { session := 1, request := 1, seq := 1, tagOk := true }

/-- The device in service, every register at its reset value but for the reserved bit 0 of GOV_BUDGET, which is set. -/
def state : State :=
  { State.reset with
    boot := { Boot.cold with stage := .running, fwRunning := true }
    fcp := { Fcp.cold with sessions := [session] }
    regs := [(Reg.govBudget, resetOf Reg.govBudget ||| 1)] }

theorem granted : Granted state request session 0x11 privWrite := ⟨⟨rfl, rfl, rfl, by decide, rfl⟩, rfl⟩

theorem bit_set : (state.reg Reg.govBudget).toNat.testBit 0 = true := by
  have word : state.reg Reg.govBudget = resetOf Reg.govBudget ||| 1 := rfl
  rw [word, resetOf_govBudget]; decide

/-- A BUDGET of 300 W passes every check. -/
theorem allowed : (state.setSession { session with rxSeq := request.seq }).writesBar Reg.govBudget [budgetWord 300] = 0 := by decide +kernel

end StrayBudget

/-- Refutes O52: its clause on a BUDGET in range says that the lower 54 bits of GOV_BUDGET stay as they are, in every state. They hold the reserved bits 20:0
too, which a write leaves zero (R10); in a state whose reserved bit 0 is set, a write of 300 W clears it. -/
theorem not_registersAreReadAndWritten : ¬ Obligations.RegistersAreReadAndWritten := by
  unfold Obligations.RegistersAreReadAndWritten
  intro h
  obtain ⟨-, -, -, -, -, -, -, -, -, -, -, -, budget, -⟩ := h
  obtain ⟨t, ran, -, low, -⟩ := budget 300 StrayBudget.request StrayBudget.session StrayBudget.state ⟨rfl, StrayBudget.granted⟩ (by decide) (by decide)
  have answer : exec (.regWrite StrayBudget.request Reg.govBudget [budgetWord 300]) StrayBudget.state
      = .next (regWrite StrayBudget.request Reg.govBudget [budgetWord 300] StrayBudget.state) := act_of_clocked rfl _
  rw [answer] at ran
  injection ran with ran
  have cleared : (t.reg Reg.govBudget).toNat.testBit 0 = false := by
    rw [← ran]; exact regWrite_govBudget_clears_reserved StrayBudget.granted (by decide) StrayBudget.allowed
  have kept : (t.reg Reg.govBudget).toNat.testBit 0 = (StrayBudget.state.reg Reg.govBudget).toNat.testBit 0 := by
    have low0 := congrArg (fun n => n.testBit 0) low
    simpa only [Nat.testBit_mod_two_pow, Nat.zero_lt_succ, decide_true, Bool.true_and] using low0
  rw [cleared, StrayBudget.bit_set] at kept
  exact Bool.noConfusion kept

end Sys2Proof.Machine

/-! PROOFS. The header slot, and a pass whose form no slice holds (R19, R109, R110, R111, R117, R120). -/

namespace Sys2Proof.Machine

/-! ### The header slot: recirculated packets -/

/-- With no line frame the oldest recirculated packet leaves its queue and is parsed again, if its epoch is live (R109, R120). -/
theorem headerParse_of_recirculated {s : State} {k : Nat} {x : Pass} {rest : List Pass} (due : s.boundaryDue = false) (line : s.hdrOf k = [])
    (queue : s.recOf k = x :: rest) (live : (s.setRec k rest).epochLive x.epoch = true) :
    headerParse k s = (s.setRec k rest).afterParse ((s.setRec k rest).parsePass x).1 ((s.setRec k rest).parsePass x).2 := by
  simp only [headerParse, due, line, queue, live, Bool.false_eq_true, if_false, if_true]

theorem ctr_toLook (s : State) (x : Pass) (k : Nat) : (s.toLook x).ctr k = s.ctr k := rfl

theorem ctr_draw (s : State) (k : Nat) : s.draw.2.ctr k = s.ctr k := rfl

theorem ctrKey_parserDrop_ne (e i : Nat) : ctrKey (parseErrCtr e) i ≠ ctrKey .lookupParserDrop i := by
  have other : (parseErrCtr e).ctorIdx ≠ Ctr.lookupParserDrop.ctorIdx := by
    unfold parseErrCtr
    split <;> decide
  simp only [ctrKey]
  omega

/-- A parse error of a later pass is counted in its own counter, whatever the port does with the packet (R117, Table 5.7). -/
theorem afterParse_counts_error {s : State} {x : Pass} {w : Walk} (later : x.passNo ≠ 1) (err : w.err ≠ 0) :
    Counted s (s.afterParse x w) (parseErrCtr w.err) x.slice 1 := by
  have counted : Counted s (s.count (parseErrCtr w.err) x.slice) (parseErrCtr w.err) x.slice 1 := (ctr_count ..).trans (if_pos rfl)
  unfold State.afterParse
  simp only [later, err, false_and, if_false, Counted, apply_ite (fun u : State => u.ctr (ctrKey (parseErrCtr w.err) x.slice)), ctr_toLook, ctr_draw,
    ctr_count _ .lookupParserDrop, ctrKey_parserDrop_ne, ite_self]
  exact counted

/-! ### A recirculated packet whose next form is out of range -/

namespace StrayForm

/-- A packet of slice 0 in its second pass, to be parsed from form 7,680. -/
def packet : Pass :=
  { State.reset.firstPass 0 { bytes := List.replicate 64 1, port := 0, bad := false, ts := 0, tsValid := false, msec := 0, msecSc := 0 } with
    passNo := 2, form := 7680 }

/-- Word 0 of form 7,680: valid, one byte long, then form 255. -/
def formWord : Word := BitVec.ofNat 64 (2 ^ 63 + 2 ^ 56 + 2 ^ 29 * 255)

/-- PARSER_SLICE_STATUS of slice 1 with RECIRC_USED 1, its reserved bits such that, read as word 1 of a form, it skips the low bit of the form's first
byte (R111); bit 0 of RECIRC_USED then is bit 6 of SKIP_MAX. -/
def statusWord : Word := BitVec.ofNat 64 (2 ^ 63 + 2 ^ 49 + 2 ^ 42 + 2 ^ 32)

/-- The device in service with that packet alone in the recirculation queue of slice 1. Word 1 of form 7,680 of slice 0 and PARSER_SLICE_STATUS of slice 1
are one register, at 0x20100008 (R110). -/
def state : State :=
  { State.reset with
    boot := { Boot.cold with stage := .running, fwRunning := true }
    regs := [(Reg.parserFormWord 0 7680 0, formWord), (Reg.parserSliceStatus 1, statusWord)]
    lookup := { State.reset.lookup with recQ := [(1, [packet])] } }

/-- The device once the packet has left its queue: RECIRC_USED is 0. -/
def taken : State := state.setRec 1 []

/-- With RECIRC_USED 1 the parse skips one byte, which SKIP_MAX = 64 allows. -/
theorem parses : (state.parsePass packet).2.err = 0 := by decide +kernel

/-- With RECIRC_USED 0 SKIP_MAX is 0, and the same skip is parse error 5. -/
theorem errs_when_taken : (taken.parsePass packet).2.err = 5 := by decide +kernel

/-- HEADER_PARSE counts that error. -/
theorem headerParse_counts_error : (headerParse 1 state).ctr (ctrKey .lookupParserErrSkip 0) = CtrVal.zero.bump 1 := by
  have slot : headerParse 1 state = taken.afterParse (taken.parsePass packet).1 (taken.parsePass packet).2 :=
    headerParse_of_recirculated rfl rfl rfl (by decide +kernel)
  have error : (taken.parsePass packet).2.err ≠ 0 := by rw [errs_when_taken]; decide
  have counted := afterParse_counts_error (s := taken) (show (taken.parsePass packet).1.passNo ≠ 1 by decide) error
  rw [slot]
  rw [errs_when_taken] at counted
  exact counted

end StrayForm

theorem act_next_inj {s t u : State} (h : s.clocked = true) (e : s.act t = .next u) : t = u := by
  rw [act_of_clocked h] at e; injection e

/-- Refutes O18: its clause on a recirculated packet takes the parse as it is before the packet leaves its queue, in every state and for every form. A pass
may carry a form beyond the 8 bits of the spec's, which no recirculation gives it; word 1 of form 7,680 of a slice is PARSER_SLICE_STATUS of the next, whose
RECIRC_USED falls as the packet leaves. `StrayForm.packet` so parses without error before, and after with error 5, which is counted. -/
theorem not_headersAreParsedInTheirSlots : ¬ Obligations.HeadersAreParsedInTheirSlots := by
  unfold Obligations.HeadersAreParsedInTheirSlots
  intro h
  obtain ⟨-, -, -, -, -, -, recirculated, -⟩ := h
  obtain ⟨t, ran, -, -, -, frame⟩ :=
    recirculated 1 StrayForm.packet [] StrayForm.state rfl rfl rfl rfl (by decide +kernel) (by decide) StrayForm.parses
  have answer : headerParse 1 StrayForm.state = t := act_next_inj (s := StrayForm.state) rfl ran
  have uncounted : t.ctr (ctrKey .lookupParserErrSkip 0) = CtrVal.zero := ctr_congr (frame.same .counters (by decide)) _
  rw [← answer, StrayForm.headerParse_counts_error] at uncounted
  exact absurd uncounted (by decide)

end Sys2Proof.Machine

/-! PROOFS. What taking ports anew can record and leaves alone, and the Zynval bridge (R22, R23, R58, R71, R72, R82). -/

namespace Sys2Proof.Machine

/-! ### The boot log -/

/-- From `s` to `t` the start-up state is kept and at most `n` records have entered the boot log of 64 (R58), where events go to it. -/
structure Logged (n : Nat) (s t : State) : Prop where
  boot : t.boot = s.boot
  keep : s.ringing = false → ∀ r m, InLast m r s.ev.bootLog → m + n < 64 → InLast (m + n) r t.ev.bootLog

theorem Logged.of_same {s t : State} (hb : t.boot = s.boot) (he : t.ev = s.ev) : Logged 0 s t := ⟨hb, fun _ r m hm _ => by rw [he]; exact hm⟩

theorem Logged.trans {m n : Nat} {s t u : State} (h1 : Logged m s t) (h2 : Logged n t u) : Logged (m + n) s u :=
  ⟨h2.boot.trans h1.boot, fun hs r i hi hb => by
    rw [← Nat.add_assoc]
    exact h2.keep ((ringing_congr h1.boot).trans hs) r (i + m) (h1.keep hs r i hi (by omega)) (by omega)⟩

theorem Logged.mono {m n : Nat} {s t : State} (h : Logged m s t) (hn : m ≤ n) : Logged n s t :=
  ⟨h.boot, fun hs r i hi hb => (h.keep hs r i hi (by omega)).mono (by omega)⟩

/-- Where events go to the boot log, an event recorded is its last record, and the first record leaves a full log. -/
theorem raise_bootLog {s : State} (h : s.ringing = false) (code : Nat) (data : Bytes) :
    ∃ r : EventRec, (r.code = code ∧ r.data = data ∧ r.time = todBytes s.tod)
      ∧ (s.raise code data).ev.bootLog = s.ev.bootLog.drop (if s.ev.bootLog.length < 64 then 0 else 1) ++ [r] := by
  have away : ¬ ((s.filterCount 5 0 (code / 256) (some code) none).boot.fwRunning || (s.filterCount 5 0 (code / 256) (some code) none).boot.stage == .recovery) = true := by
    rw [filterCount_boot]; simpa [State.ringing] using h
  refine ⟨{ code := code, held := 0, seq := 0, time := todBytes s.tod, data := data }, ⟨rfl, rfl, rfl⟩, ?_⟩
  simp only [State.raise, State.record, State.recordCore, if_neg away, filterCount_ev]
  by_cases room : s.ev.bootLog.length < 64
  · simp only [room, if_true, List.foldl_nil, List.drop_zero]
  · simp only [room, if_false, List.foldl_nil, count_ev]

theorem raise_logged (s : State) (code : Nat) (data : Bytes) : Logged 1 s (s.raise code data) := by
  refine ⟨raise_boot .., fun hs r m hm hb => ?_⟩
  obtain ⟨e, -, log⟩ := raise_bootLog hs code data
  obtain ⟨a, b, split, short⟩ := hm
  rw [log, split]
  by_cases room : (a ++ r :: b).length < 64
  · exact ⟨a, b ++ [e], by rw [if_pos room]; simp, by simp; omega⟩
  · cases a with
    | nil => simp only [List.nil_append, List.length_cons] at room; omega
    | cons x a => exact ⟨a, b ++ [e], by rw [if_neg room]; simp, by simp; omega⟩

theorem raise_inLast_bootLog {s : State} (h : s.ringing = false) (code : Nat) (data : Bytes) :
    ∃ r : EventRec, (r.code = code ∧ r.data = data ∧ r.time = todBytes s.tod) ∧ InLast 0 r (s.raise code data).ev.bootLog := by
  obtain ⟨r, made, log⟩ := raise_bootLog h code data
  exact ⟨r, made, _, [], log, Nat.le_refl 0⟩

/-- An event stays recorded while, where events go to the ring, fewer than 65,000 records follow it, and, where they go to the boot log, fewer than 64. -/
theorem raise_recorded_later {s u : State} {code : Nat} {data : Bytes} {m n : Nat} (ring : Later m (s.raise code data) u) (hm : m < 65000)
    (log : Logged n (s.raise code data) u) (hn : n < 64) : Recorded s u code data := by
  have same : u.ringing = s.ringing := ringing_congr (log.boot.trans (raise_boot ..))
  cases away : s.ringing with
  | true => exact Recorded.later away rfl ring hm (same.trans away)
  | false =>
    obtain ⟨r, made, last⟩ := raise_inLast_bootLog away code data
    have kept := log.keep ((ringing_congr (raise_boot ..)).trans away) r 0 last (by omega)
    exact ⟨r, by rw [State.eventLog, same, away]; exact kept.mem, made⟩

/-! ### The conditions of ports -/

/-- The fields of LINE_PORT_STATUS that conditions read, and those that show the port's state. -/
abbrev faultFields : List Field :=
  [Fld.linePortStatus_blockLock, Fld.linePortStatus_amLock, Fld.linePortStatus_localFault, Fld.linePortStatus_remoteFault, Fld.linePortStatus_fecDegrade]
abbrev stateFields : List Field := [Fld.linePortStatus_up, Fld.linePortStatus_downCause, Fld.linePortStatus_hold]

/-- The fields of LINE_FLEXE_STATUS that the conditions of a group read. -/
abbrev lockFields : List Field := [Fld.lineFlexeStatus_ohLock, Fld.lineFlexeStatus_mfLock, Fld.lineFlexeStatus_skew]

/-- From `s` to `t` everything stays that the conditions of ports and FlexE groups read (R71, R82), but for whether a group is up. -/
structure SameConds (s t : State) : Prop where
  pins : t.pins = s.pins
  lanes : t.line.lanes = s.line.lanes
  phys : t.line.phys = s.line.phys
  bridge : t.reg Reg.bridgeCtrl = s.reg Reg.bridgeCtrl
  cfg : ∀ p < 96, t.reg (Reg.linePortCfg p) = s.reg (Reg.linePortCfg p)
  ctrl : ∀ p < 96, t.reg (Reg.linePortCtrl p) = s.reg (Reg.linePortCtrl p)
  group : ∀ k < 12, t.reg (Reg.lineFlexeCfg k) = s.reg (Reg.lineFlexeCfg k)
  status : ∀ p < 96, ∀ f ∈ faultFields,
    t.fld (Reg.linePortStatus p) f = s.fld (Reg.linePortStatus p) f
  locks : ∀ k < 12, ∀ f ∈ lockFields,
    t.fld (Reg.lineFlexeStatus k) f = s.fld (Reg.lineFlexeStatus k) f

theorem SameConds.trans {s t u : State} (h1 : SameConds s t) (h2 : SameConds t u) : SameConds s u where
  pins := h2.pins.trans h1.pins
  lanes := h2.lanes.trans h1.lanes
  phys := h2.phys.trans h1.phys
  bridge := h2.bridge.trans h1.bridge
  cfg p hp := (h2.cfg p hp).trans (h1.cfg p hp)
  ctrl p hp := (h2.ctrl p hp).trans (h1.ctrl p hp)
  group k hk := (h2.group k hk).trans (h1.group k hk)
  status p hp f hf := (h2.status p hp f hf).trans (h1.status p hp f hf)
  locks k hk f hf := (h2.locks k hk f hf).trans (h1.locks k hk f hf)

theorem SameConds.of_same {s t : State} (hr : t.regs = s.regs) (hp : t.pins = s.pins) (hl : t.line.lanes = s.line.lanes) (hy : t.line.phys = s.line.phys) :
    SameConds s t :=
  ⟨hp, hl, hy, reg_congr hr _, fun _ _ => reg_congr hr _, fun _ _ => reg_congr hr _, fun _ _ => reg_congr hr _, fun _ _ f _ => fld_congr hr _ f,
    fun _ _ f _ => fld_congr hr _ f⟩

/-- The fields that taking a port's conditions anew writes, and no condition reads but for UP of a group. -/
inductive Shown : Nat → Field → Prop where
  | port (p : Nat) (f : Field) : p < 96 → f ∈ stateFields → Shown (Reg.linePortStatus p) f
  | group (k : Nat) : k < 12 → Shown (Reg.lineFlexeStatus k) Fld.lineFlexeStatus_up
  | closed (p : Nat) : p < 96 → Shown (Reg.trafficPortCfg p) Fld.trafficPortCfg_closed
  | inflight (f : Field) : Shown Reg.epochInflight f
  | epoch (f : Field) : Shown Reg.epochState f

theorem SameConds.setFld (s : State) {a : Nat} {f : Field} (v : Nat) (h : Shown a f) : SameConds s (s.setFld a f v) := by
  have reg : ∀ b, b ≠ a → (s.setFld a f v).reg b = s.reg b := fun b hb => reg_setFld_ne s f v hb
  have fld : ∀ b g, b ≠ a → (s.setFld a f v).fld b g = s.fld b g := fun b g hb => fld_setFld_ne s g f v hb
  have status : ∀ p < 96, ∀ g ∈ faultFields,
      (s.setFld a f v).fld (Reg.linePortStatus p) g = s.fld (Reg.linePortStatus p) g := by
    intro p hp g hg
    cases h with
    | port q f hq hf =>
      by_cases e : p = q
      · subst e
        have apart : ∀ g ∈ faultFields,
            ∀ f ∈ stateFields, g.apart f := by decide
        exact fld_setFld_apart s _ v (apart g hg f hf)
      · exact fld _ _ (by simp only [Reg.linePortStatus]; omega)
    | group k hk => exact fld _ _ (by simp only [Reg.linePortStatus, Reg.lineFlexeStatus]; omega)
    | closed q hq => exact fld _ _ (by simp only [Reg.linePortStatus, Reg.trafficPortCfg]; omega)
    | inflight | epoch => exact fld _ _ (by simp only [Reg.linePortStatus, Reg.epochInflight, Reg.epochState]; omega)
  have locks : ∀ k < 12, ∀ g ∈ lockFields,
      (s.setFld a f v).fld (Reg.lineFlexeStatus k) g = s.fld (Reg.lineFlexeStatus k) g := by
    intro k hk g hg
    cases h with
    | port q f hq hf => exact fld _ _ (by simp only [Reg.linePortStatus, Reg.lineFlexeStatus]; omega)
    | group i hi =>
      by_cases e : k = i
      · subst e
        have apart : ∀ g ∈ lockFields, g.apart Fld.lineFlexeStatus_up := by decide
        exact fld_setFld_apart s _ v (apart g hg)
      · exact fld _ _ (by simp only [Reg.lineFlexeStatus]; omega)
    | closed q hq => exact fld _ _ (by simp only [Reg.lineFlexeStatus, Reg.trafficPortCfg]; omega)
    | inflight | epoch => exact fld _ _ (by simp only [Reg.lineFlexeStatus, Reg.epochInflight, Reg.epochState]; omega)
  refine ⟨rfl, rfl, rfl, reg _ ?_, fun p hp => reg _ ?_, fun p hp => reg _ ?_, fun k hk => reg _ ?_, status, locks⟩ <;>
    cases h <;> simp only [Reg.bridgeCtrl, Reg.linePortCfg, Reg.linePortCtrl, Reg.lineFlexeCfg, Reg.linePortStatus, Reg.lineFlexeStatus, Reg.trafficPortCfg,
      Reg.epochInflight, Reg.epochState] <;> omega

theorem SameConds.portFaults {s t : State} (h : SameConds s t) {p : Nat} (hp : p < 96) : t.portFaults p = s.portFaults p := by
  have cfg : ∀ f, t.fld (Reg.linePortCfg p) f = s.fld (Reg.linePortCfg p) f := fun f => by rw [State.fld, h.cfg p hp]; rfl
  have ctrl : ∀ f, t.fld (Reg.linePortCtrl p) f = s.fld (Reg.linePortCtrl p) f := fun f => by rw [State.fld, h.ctrl p hp]; rfl
  have bridge : ∀ f, t.fld Reg.bridgeCtrl f = s.fld Reg.bridgeCtrl f := fun f => by rw [State.fld, h.bridge]; rfl
  have lane : ∀ l, t.lane l = s.lane l := fun l => by rw [State.lane, h.lanes]; rfl
  have lanes : t.portLanes p = s.portLanes p := by rw [State.portLanes, State.portMode, cfg]; rfl
  have status : ∀ f, f ∈ _ → _ := h.status p hp
  simp only [State.portFaults, State.flag, cfg, ctrl, bridge, lane, lanes, h.pins, status Fld.linePortStatus_blockLock (by decide), status Fld.linePortStatus_amLock (by decide),
    status Fld.linePortStatus_localFault (by decide), status Fld.linePortStatus_remoteFault (by decide), status Fld.linePortStatus_fecDegrade (by decide)]
  rfl

theorem SameConds.flexePort {s t : State} (h : SameConds s t) {p : Nat} (hp : p < 96) : t.flexePort p = s.flexePort p := by
  rw [State.flexePort, State.flag, State.fld, h.cfg p hp]; rfl

theorem SameConds.phyLanes {s t : State} (h : SameConds s t) {k : Nat} (hk : k < 12) : t.phyLanes k = s.phyLanes k := by
  rw [State.phyLanes, State.fld, h.group k hk]; rfl

theorem SameConds.groupUp {s t : State} (h : SameConds s t) {k : Nat} (hk : k < 12) : t.groupUp k = s.groupUp k := by
  have locks : ∀ f, f ∈ _ → _ := h.locks k hk
  have phy : ∀ j, t.phy k j = s.phy k j := fun j => by rw [State.phy, h.phys]; rfl
  have each : ∀ j ∈ s.phyLanes k, t.portFaults (8 * k + j) = s.portFaults (8 * k + j) := fun j hj => h.portFaults (by have := phyLanes_lt hj; omega)
  simp only [State.groupUp, h.phyLanes hk, phy, locks Fld.lineFlexeStatus_ohLock (by decide), locks Fld.lineFlexeStatus_mfLock (by decide),
    locks Fld.lineFlexeStatus_skew (by decide)]
  congr 2
  rw [Bool.eq_iff_iff, List.all_eq_true, List.all_eq_true]
  exact forall₂_congr fun j hj => by rw [each j hj]

theorem SameConds.portCause {s t : State} (h : SameConds s t) {p : Nat} (hp : p < 96)
    (group : t.flag (Reg.lineFlexeStatus (p / 8)) Fld.lineFlexeStatus_up = s.flag (Reg.lineFlexeStatus (p / 8)) Fld.lineFlexeStatus_up) :
    t.portCause p = s.portCause p := by
  simp only [State.portCause, h.portFaults hp, h.flexePort hp, group]

/-! ### How many events taking ports anew records -/

/-- One while an epoch may still be retired (R344). -/
def State.retiring (s : State) : Nat := if s.epochPhase = 3 then 1 else 0

/-- From `s` to `t` the conditions of ports and groups stay, which ports and groups are up too, and at most `n` events are recorded beside the
retiring of an epoch. -/
structure PortsKept (n : Nat) (s t : State) : Prop where
  conds : SameConds s t
  up : ∀ p < 96, t.portUp p = s.portUp p
  group : ∀ k < 12, t.flag (Reg.lineFlexeStatus k) Fld.lineFlexeStatus_up = s.flag (Reg.lineFlexeStatus k) Fld.lineFlexeStatus_up
  cost : ∃ m, Logged m s t ∧ m + t.retiring ≤ n + s.retiring

theorem PortsKept.trans {m n : Nat} {s t u : State} (h1 : PortsKept m s t) (h2 : PortsKept n t u) : PortsKept (m + n) s u := by
  obtain ⟨a, log1, cost1⟩ := h1.cost
  obtain ⟨b, log2, cost2⟩ := h2.cost
  exact ⟨h1.conds.trans h2.conds, fun p hp => (h2.up p hp).trans (h1.up p hp), fun k hk => (h2.group k hk).trans (h1.group k hk),
    a + b, log1.trans log2, by omega⟩

theorem retiring_congr {s t : State} (h : t.reg Reg.epochState = s.reg Reg.epochState) : t.retiring = s.retiring := by
  rw [State.retiring, State.epochPhase, State.fld, h]; rfl

theorem PortsKept.of_same {s t : State} (hr : t.regs = s.regs) (hp : t.pins = s.pins) (hl : t.line.lanes = s.line.lanes) (hy : t.line.phys = s.line.phys)
    (hb : t.boot = s.boot) (he : t.ev = s.ev) : PortsKept 0 s t :=
  ⟨SameConds.of_same hr hp hl hy, fun _ _ => flag_congr hr .., fun _ _ => flag_congr hr .., 0, Logged.of_same hb he, Nat.le_of_eq (by rw [retiring_congr (reg_congr hr _)])⟩

theorem PortsKept.refl (s : State) : PortsKept 0 s s := PortsKept.of_same rfl rfl rfl rfl rfl rfl

theorem PortsKept.raise (s : State) (code : Nat) (data : Bytes) : PortsKept 1 s (s.raise code data) :=
  ⟨SameConds.of_same (raise_regs ..) (raise_pins ..) (by rw [raise_line]) (by rw [raise_line]), fun _ _ => flag_raise .., fun _ _ => flag_raise ..,
    1, raise_logged .., Nat.le_of_eq (by rw [retiring_congr (reg_raise ..)])⟩

theorem PortsKept.count (s : State) (c : Ctr) (i : Nat) : PortsKept 0 s (s.count c i) := PortsKept.of_same rfl rfl rfl rfl rfl rfl

theorem PortsKept.setPort (s : State) (p : Nat) (x : LinePort) : PortsKept 0 s (s.setPort p x) := PortsKept.of_same rfl rfl rfl rfl rfl rfl

theorem PortsKept.setLine (s : State) (l : Line) (lanes : l.lanes = s.line.lanes) (phys : l.phys = s.line.phys) : PortsKept 0 s { s with line := l } :=
  PortsKept.of_same rfl rfl lanes phys rfl rfl

/-- A field that is written but for UP of a port or group keeps which are up. -/
theorem PortsKept.setFld (s : State) {a : Nat} {f : Field} (v : Nat) (h : Shown a f)
    (port : ∀ p < 96, a = Reg.linePortStatus p → Fld.linePortStatus_up.apart f) (group : ∀ k < 12, a ≠ Reg.lineFlexeStatus k)
    (phase : a = Reg.epochState → v = 4 ∧ f = Fld.epochState_phase) : PortsKept 0 s (s.setFld a f v) := by
  refine ⟨SameConds.setFld s v h, fun p hp => ?_, fun k hk => ?_, 0, Logged.of_same rfl rfl, ?_⟩
  · by_cases e : Reg.linePortStatus p = a
    · simp only [State.portUp, State.flag, e, fld_setFld_apart s a v (port p hp e.symm)]
    · simp only [State.portUp, State.flag, fld_setFld_ne s _ f v e]
  · simp only [State.flag, fld_setFld_ne s _ f v (group k hk).symm]
  · by_cases e : a = Reg.epochState
    · obtain ⟨rfl, rfl⟩ := phase e
      have four : (s.setFld a Fld.epochState_phase 4).epochPhase = 4 := by
        rw [State.epochPhase, ← e, fld_setFld_self _ _ _ _ (by decide)]; decide
      simp [State.retiring, four]
    · exact Nat.le_of_eq (by rw [retiring_congr (reg_setFld_ne s f v (Ne.symm e))])

theorem PortsKept.setStatus (s : State) {p : Nat} (hp : p < 96) {f : Field} (hf : f ∈ [Fld.linePortStatus_downCause, Fld.linePortStatus_hold]) (v : Nat) :
    PortsKept 0 s (s.setFld (Reg.linePortStatus p) f v) := by
  have apart : ∀ f ∈ [Fld.linePortStatus_downCause, Fld.linePortStatus_hold], Fld.linePortStatus_up.apart f := by decide
  exact PortsKept.setFld s v (.port p f hp (List.mem_cons_of_mem _ hf)) (fun _ _ _ => apart f hf)
    (fun k _ => by simp only [Reg.linePortStatus, Reg.lineFlexeStatus]; omega) (fun e => by simp only [Reg.linePortStatus, Reg.epochState] at e; omega)

theorem PortsKept.setClosed (s : State) {p : Nat} (hp : p < 96) (v : Nat) : PortsKept 0 s (s.setFld (Reg.trafficPortCfg p) Fld.trafficPortCfg_closed v) :=
  PortsKept.setFld s v (.closed p hp) (fun q _ e => by simp only [Reg.linePortStatus, Reg.trafficPortCfg] at e; omega)
    (fun k _ => by simp only [Reg.trafficPortCfg, Reg.lineFlexeStatus]; omega) (fun e => by simp only [Reg.trafficPortCfg, Reg.epochState] at e; omega)

theorem PortsKept.setInflight (s : State) (f : Field) (v : Nat) : PortsKept 0 s (s.setFld Reg.epochInflight f v) :=
  PortsKept.setFld s v (.inflight f) (fun q _ e => by simp only [Reg.linePortStatus, Reg.epochInflight] at e; omega)
    (fun k _ => by simp only [Reg.epochInflight, Reg.lineFlexeStatus]; omega) (fun e => by simp only [Reg.epochInflight, Reg.epochState] at e; omega)

/-- An epoch is retired once: its event is paid for by the phase it leaves. -/
theorem epochRetire_portsKept {s : State} (h : s.epochPhase = 3) : PortsKept 0 s s.epochRetire := by
  have phase : PortsKept 0 s (s.setFld Reg.epochState Fld.epochState_phase 4) :=
    PortsKept.setFld s 4 (.epoch _) (fun q _ e => by simp only [Reg.linePortStatus, Reg.epochState] at e; omega)
      (fun k _ => by simp only [Reg.epochState, Reg.lineFlexeStatus]; omega) (fun _ => ⟨rfl, rfl⟩)
  have event := PortsKept.raise (s.setFld Reg.epochState Fld.epochState_phase 4) 0x0122 (natBe 2 s.epochOther)
  have four : (s.epochRetire).epochPhase = 4 := by
    rw [State.epochPhase, State.epochRetire, fld_raise, fld_setFld_self _ _ _ _ (by decide)]; decide
  have both := phase.trans event
  refine ⟨both.conds, both.up, both.group, 1, ?_, by simp [State.retiring, four, h]⟩
  exact (Logged.of_same (s := s) (t := s.setFld Reg.epochState Fld.epochState_phase 4) rfl rfl).trans (raise_logged ..)

theorem epochLeave_portsKept (s : State) (e : Nat) : PortsKept 0 s (s.epochLeave e) := by
  unfold State.epochLeave
  dsimp only
  split
  · exact PortsKept.setInflight ..
  · split
    · split
      · next last =>
        refine (PortsKept.setInflight ..).trans (epochRetire_portsKept ?_)
        rw [State.epochPhase, fld_setFld_ne _ _ _ _ (by decide)]
        exact last.1
      · exact PortsKept.setInflight ..
    · exact PortsKept.refl s

theorem txLeave_portsKept (s : State) (f : TxPkt) : PortsKept 0 s (s.txLeave f) := by
  have window : PortsKept 0 s { s with traffic := { s.traffic with inflight := mput (fun _ => 0) s.traffic.inflight f.node (mget (fun _ => 0) s.traffic.inflight f.node - f.win) } } :=
    PortsKept.of_same rfl rfl rfl rfl rfl rfl
  unfold State.txLeave
  dsimp only
  split
  · exact window.trans (epochLeave_portsKept _ _)
  · exact window

/-- A port that goes down: once UP is cleared, nothing else that conditions read changes, and 0x0202 is recorded. -/
theorem portDown_portsKept (s : State) {p : Nat} (cause : Nat) (hp : p < 96) :
    PortsKept 1 (s.setFld (Reg.linePortStatus p) Fld.linePortStatus_up 0) (s.portDown p cause) := by
  have status := (PortsKept.setStatus (s.setFld (Reg.linePortStatus p) Fld.linePortStatus_up 0) hp (f := Fld.linePortStatus_downCause) (by decide) cause).trans
    (PortsKept.setStatus _ hp (f := Fld.linePortStatus_hold) (by decide) 0)
  have told : ∀ (t : State) (due : List Nat) (notices : List (Nat × Bool)) (flush : List Nat),
      PortsKept 1 t ((State.count { t with line := { t.line with closeDue := due, noticeDue := notices, pouncerDue := flush } } .lineMacLinkDown p).raise
        0x0202 (natBe 1 p ++ natBe 1 cause)) := fun t due notices flush =>
    ((PortsKept.setLine t { t.line with closeDue := due, noticeDue := notices, pouncerDue := flush } rfl rfl).trans (PortsKept.count ..)).trans (PortsKept.raise ..)
  unfold State.portDown
  dsimp only
  cases (s.port p).txQ with
  | nil => exact (status.trans (PortsKept.setPort _ p _)).trans (told _ _ _ _)
  | cons f q =>
    exact (((status.trans (PortsKept.count _ .lineMacTxAbandoned p)).trans (txLeave_portsKept _ f)).trans (PortsKept.setPort _ p _)).trans (told _ _ _ _)

/-- A port that comes up: once UP is set, nothing else that conditions read changes, and 0x0201 is recorded. -/
theorem portComesUp_portsKept (s : State) {p : Nat} (hp : p < 96) :
    PortsKept 1 (s.setFld (Reg.linePortStatus p) Fld.linePortStatus_up 1) (s.portComesUp p) := by
  have status := (PortsKept.setStatus (s.setFld (Reg.linePortStatus p) Fld.linePortStatus_up 1) hp (f := Fld.linePortStatus_downCause) (by decide) 0).trans
    (PortsKept.setStatus _ hp (f := Fld.linePortStatus_hold) (by decide) 0)
  have told : ∀ (t : State) (due : List Nat) (notices : List (Nat × Bool)),
      PortsKept 1 t (State.raise { t with line := { t.line with closeDue := due, noticeDue := notices } } 0x0201 (natBe 1 p)) := fun t due notices =>
    (PortsKept.setLine t { t.line with closeDue := due, noticeDue := notices } rfl rfl).trans (PortsKept.raise ..)
  exact ((status.trans (PortsKept.setPort _ p _)).trans (PortsKept.setClosed _ hp 0)).trans (told _ _ _)

/-- Whether the state of port `p` does not show its conditions: it is up although one fails, or down although all hold. -/
def State.portUnsettled (s : State) (p : Nat) : Bool := s.portUp p != (s.portCause p == 0)

/-- The unsettled ports of slice `k`. -/
def State.unsettled (s : State) (k : Nat) : List Nat := (List.range 8).filter (fun j => s.portUnsettled (8 * k + j))

/-- A bound on the events that taking the ports of slice `k` anew can still record: one for each unsettled port, and, where its group does not show its
conditions either, one for the group and one for each port that its change may unsettle. -/
def State.portBudget (s : State) (k : Nat) : Nat :=
  (s.unsettled k).length + (if s.flag (Reg.lineFlexeStatus k) Fld.lineFlexeStatus_up = s.groupUp k then 0 else 9) + s.retiring

theorem unsettled_length_le (s : State) (k : Nat) : (s.unsettled k).length ≤ 8 := List.length_filter_le _ (List.range 8)

theorem portBudget_le (s : State) (k : Nat) : s.portBudget k ≤ 18 := by
  have ports := unsettled_length_le s k
  simp only [State.portBudget, State.retiring]
  split <;> split <;> omega

/-- Every event recorded from `s` to `t` is paid for by the budget of slice `k`. -/
def PortsSpent (k : Nat) (s t : State) : Prop := ∃ m, Logged m s t ∧ m + t.portBudget k ≤ s.portBudget k

theorem PortsSpent.refl (k : Nat) (s : State) : PortsSpent k s s := ⟨0, Logged.of_same rfl rfl, by omega⟩

theorem PortsSpent.trans {k : Nat} {s t u : State} (h1 : PortsSpent k s t) (h2 : PortsSpent k t u) : PortsSpent k s u := by
  obtain ⟨a, log1, cost1⟩ := h1
  obtain ⟨b, log2, cost2⟩ := h2
  exact ⟨a + b, log1.trans log2, by omega⟩

theorem PortsSpent.foldl {k : Nat} {g : State → Nat → State} (l : List Nat) (h : ∀ x ∈ l, ∀ s, PortsSpent k s (g s x)) : ∀ s, PortsSpent k s (l.foldl g s) := by
  induction l with
  | nil => exact PortsSpent.refl k
  | cons x l ih => exact fun s => (h x List.mem_cons_self s).trans (ih (fun y hy => h y (List.mem_cons_of_mem _ hy)) _)

theorem PortsKept.portUnsettled {n p : Nat} {s t : State} (h : PortsKept n s t) (hp : p < 96) : t.portUnsettled p = s.portUnsettled p := by
  rw [State.portUnsettled, h.up p hp, h.conds.portCause hp (h.group (p / 8) (by omega))]; rfl

theorem PortsKept.unsettled {n k : Nat} {s t : State} (h : PortsKept n s t) (hk : k < 12) : t.unsettled k = s.unsettled k :=
  List.filter_congr fun j hj => h.portUnsettled (by have := List.mem_range.1 hj; omega)

/-- Where no port of the slice becomes unsettled and port `j` no longer is, fewer are. -/
theorem unsettled_length_lt {s u : State} {k j : Nat} (hj : j < 8) (kept : ∀ i < 8, u.portUnsettled (8 * k + i) = true → s.portUnsettled (8 * k + i) = true)
    (before : s.portUnsettled (8 * k + j) = true) (after : u.portUnsettled (8 * k + j) = false) : (u.unsettled k).length < (s.unsettled k).length := by
  have part : u.unsettled k = (s.unsettled k).filter (fun i => u.portUnsettled (8 * k + i)) := by
    rw [State.unsettled, State.unsettled, List.filter_filter]
    refine List.filter_congr fun i hi => ?_
    have kept_i := kept i (List.mem_range.1 hi)
    cases hu : u.portUnsettled (8 * k + i) with
    | true => rw [kept_i hu]; rfl
    | false => rfl
  rw [part]
  exact List.length_filter_lt_length_iff_exists.2 ⟨j, List.mem_filter.2 ⟨List.mem_range.2 hj, before⟩, Bool.eq_false_iff.1 after⟩

/-- An event paid for by a change from `s` to `u` that records nothing. -/
theorem PortsSpent.of_kept {n k : Nat} {s u t : State} (hk : k < 12) (log : Logged 0 s u) (paid : u.portBudget k + n ≤ s.portBudget k) (kept : PortsKept n u t) :
    PortsSpent k s t := by
  obtain ⟨m, log2, cost⟩ := kept.cost
  refine ⟨0 + m, log.trans log2, ?_⟩
  simp only [State.portBudget, kept.unsettled hk, kept.group k hk, kept.conds.groupUp hk] at paid ⊢
  omega

theorem PortsKept.spent {k : Nat} {s t : State} (h : PortsKept 0 s t) (hk : k < 12) : PortsSpent k s t :=
  PortsSpent.of_kept hk (Logged.of_same rfl rfl) (Nat.le_refl _) h

theorem Logged.setFld (s : State) (a : Nat) (f : Field) (v : Nat) : Logged 0 s (s.setFld a f v) := Logged.of_same rfl rfl

theorem flag_setFld_b2n (s : State) (a : Nat) (f : Field) (b : Bool) (h : f.lo ≤ f.hi ∧ f.hi < 64) : (s.setFld a f (b2n b)).flag a f = b :=
  flag_setFlag_self s a f b h

/-- A port whose UP follows its conditions is settled, the others as before. -/
theorem portBudget_setUp {s : State} {k j : Nat} (hk : k < 12) (hj : j < 8) (h : s.portUp (8 * k + j) ≠ (s.portCause (8 * k + j) == 0)) :
    (s.setFld (Reg.linePortStatus (8 * k + j)) Fld.linePortStatus_up (b2n (s.portCause (8 * k + j) == 0))).portBudget k + 1 ≤ s.portBudget k := by
  generalize hu : s.setFld (Reg.linePortStatus (8 * k + j)) Fld.linePortStatus_up (b2n (s.portCause (8 * k + j) == 0)) = u
  have conds : SameConds s u := hu ▸ SameConds.setFld s _ (.port _ _ (by omega) (by decide))
  have group : u.flag (Reg.lineFlexeStatus k) Fld.lineFlexeStatus_up = s.flag (Reg.lineFlexeStatus k) Fld.lineFlexeStatus_up := by
    rw [← hu, State.flag, fld_setFld_ne _ _ _ _ (by simp only [Reg.linePortStatus, Reg.lineFlexeStatus]; omega)]; rfl
  have phase : u.retiring = s.retiring := by
    rw [← hu, retiring_congr (reg_setFld_ne _ _ _ (by simp only [Reg.linePortStatus, Reg.epochState]; omega))]
  have cause : ∀ i, i < 8 → u.portCause (8 * k + i) = s.portCause (8 * k + i) := fun i hi => by
    have slice : (8 * k + i) / 8 = k := by omega
    exact conds.portCause (by omega) (by rw [slice]; exact group)
  have shown : u.portUp (8 * k + j) = (s.portCause (8 * k + j) == 0) := by rw [← hu]; exact flag_setFld_b2n _ _ _ _ (by decide)
  have others : ∀ i, i ≠ j → u.portUp (8 * k + i) = s.portUp (8 * k + i) := fun i hi => by
    rw [← hu, State.portUp, State.flag, fld_setFld_ne _ _ _ _ (by simp only [Reg.linePortStatus]; omega)]; rfl
  have less : (u.unsettled k).length < (s.unsettled k).length := by
    refine unsettled_length_lt hj (fun i hi hu => ?_) (bne_iff_ne.2 h) ?_
    · by_cases e : i = j
      · rw [e]; exact bne_iff_ne.2 h
      · rwa [State.portUnsettled, others i e, cause i hi] at hu
    · rw [State.portUnsettled, shown, cause j hj, bne_self_eq_false]
  simp only [State.portBudget, group, conds.groupUp hk, phase]
  omega

/-- Taking a port anew records an event only where the port was unsettled, and settles it (R71, R72, R74). -/
theorem portEval_spent {k j : Nat} (hk : k < 12) (hj : j < 8) (s : State) : PortsSpent k s (s.portEval (8 * k + j)) := by
  have hp : 8 * k + j < 96 := by omega
  have held : ∀ (x : LinePort) (v : Nat), PortsKept 0 s ((s.setPort (8 * k + j) x).setFld (Reg.linePortStatus (8 * k + j)) Fld.linePortStatus_hold v) := fun x v =>
    (PortsKept.setPort s _ x).trans (PortsKept.setStatus _ hp (by decide) v)
  have settle := portBudget_setUp (s := s) hk hj
  unfold State.portEval
  dsimp only
  split
  next up =>
    split
    next => split <;> first | exact ((held _ _).trans (PortsKept.count ..)).spent hk | exact PortsSpent.refl k s
    next fails =>
      split
      · rw [up, beq_false_of_ne fails] at settle
        exact PortsSpent.of_kept hk (Logged.setFld ..) (settle (by decide)) (portDown_portsKept s _ hp)
      · exact (held _ _).spent hk
  next down =>
    split
    next holds =>
      split
      · rw [Bool.eq_false_iff.2 down, holds] at settle
        exact PortsSpent.of_kept hk (Logged.setFld ..) (settle (by decide)) (portComesUp_portsKept s hp)
      · exact (held _ _).spent hk
    next => exact ((held _ _).trans (PortsKept.setStatus _ hp (by decide) _)).spent hk

/-- A group whose UP follows its conditions is settled; its change may unsettle each of its ports. -/
theorem portBudget_setGroup {s : State} {k : Nat} (hk : k < 12) (h : s.flag (Reg.lineFlexeStatus k) Fld.lineFlexeStatus_up ≠ s.groupUp k) :
    (s.setFld (Reg.lineFlexeStatus k) Fld.lineFlexeStatus_up (b2n (s.groupUp k))).portBudget k + 1 ≤ s.portBudget k := by
  have conds := SameConds.setFld s (b2n (s.groupUp k)) (.group k hk)
  have phase : (s.setFld (Reg.lineFlexeStatus k) Fld.lineFlexeStatus_up (b2n (s.groupUp k))).retiring = s.retiring :=
    retiring_congr (reg_setFld_ne _ _ _ (by simp only [Reg.lineFlexeStatus, Reg.epochState]; omega))
  have ports := unsettled_length_le (s.setFld (Reg.lineFlexeStatus k) Fld.lineFlexeStatus_up (b2n (s.groupUp k))) k
  simp only [State.portBudget, conds.groupUp hk, flag_setFld_b2n s _ Fld.lineFlexeStatus_up _ (by decide), phase, if_neg h, if_true]
  omega

/-- Taking a group anew records an event only where it was unsettled, and settles it (R82). -/
theorem groupEval_spent {k : Nat} (hk : k < 12) (s : State) : PortsSpent k s (s.groupEval k) := by
  have settle := portBudget_setGroup (s := s) hk
  unfold State.groupEval
  dsimp only
  split
  next => exact PortsSpent.refl k s
  next differs =>
    have paid := settle (fun e => differs (by rw [e]; exact beq_self_eq_true _))
    split
    next up => rw [up] at paid; exact PortsSpent.of_kept hk (Logged.setFld ..) paid (PortsKept.raise ..)
    next down => rw [Bool.eq_false_iff.2 down] at paid; exact PortsSpent.of_kept hk (Logged.setFld ..) paid (PortsKept.raise ..)

theorem portChange_spent {p : Nat} (hp : p < 96) (s : State) : PortsSpent (p / 8) s (s.portChange p) := by
  have hk : p / 8 < 12 := by omega
  unfold State.portChange
  split
  · exact (groupEval_spent hk s).trans (PortsSpent.foldl _ (fun j hj => portEval_spent hk (phyLanes_lt hj)) _)
  · have place : 8 * (p / 8) + p % 8 = p := Nat.div_add_mod p 8
    have eval := portEval_spent hk (j := p % 8) (by omega) s
    rwa [place] at eval

/-- Taking the ports of a slice anew records at most 18 events where events go to the boot log. -/
theorem slicePortsEval_logged (s : State) (k : Nat) : Logged 18 s (s.slicePortsEval k) := by
  have spent : PortsSpent k s (s.slicePortsEval k) := PortsSpent.foldl _ (fun p hp => by
    obtain ⟨listed, slice⟩ := List.mem_filter.1 hp
    rw [← beq_iff_eq.1 slice]
    exact portChange_spent (portList_lt listed)) s
  obtain ⟨m, log, cost⟩ := spent
  exact log.mono (by have := portBudget_le s k; omega)

/-! ### Bridge channels -/

theorem chan_setChan (s : State) (k : Nat) (d : Bool) (c : BridgeChan) (j : Nat) (e : Bool) :
    (s.setChan k d c).chan j e = if j = k ∧ e = d then c else s.chan j e := by
  have key : 2 * j + b2n (!e) = 2 * k + b2n (!d) ↔ j = k ∧ e = d := by cases d <;> cases e <;> simp [b2n] <;> omega
  simp only [State.chan, State.setChan, mget_mput, key]

@[simp] theorem chan_setChan_self (s : State) (k : Nat) (d : Bool) (c : BridgeChan) : (s.setChan k d c).chan k d = c := by simp [chan_setChan]

theorem chan_congr {s t : State} (h : t.bridge = s.bridge) (k : Nat) (d : Bool) : t.chan k d = s.chan k d := by rw [State.chan, h]; rfl

theorem bridgeCarries_iff (s : State) (k : Nat) (d : Bool) : s.bridgeCarries k d = true ↔ (s.chan k d).retrain = false ∧ (s.chan k d).fenced = false := by
  simp [State.bridgeCarries]

/-- What a replay does to a channel that carries (R22). -/
theorem bridgeBeatError_of_carries {s : State} {k : Nat} {d : Bool} (h : s.bridgeCarries k d = true) (ok : Bool) :
    bridgeBeatError k d ok s = s.setChan k d (if ok then { s.chan k d with failed := 0 }
      else if s.fld Reg.bridgeCtrl Fld.bridgeCtrl_retryLimit ≤ (s.chan k d).failed + 1 then { s.chan k d with failed := 0, retrain := true }
      else { s.chan k d with failed := (s.chan k d).failed + 1 }) := by
  obtain ⟨training, fenced⟩ := (bridgeCarries_iff ..).1 h
  simp only [bridgeBeatError, training, fenced, Bool.or_self, Bool.false_eq_true, if_false]
  cases ok with
  | true => simp only [if_true]
  | false =>
    simp only [Bool.false_eq_true, if_false]
    split <;> rfl

/-! ### Retraining -/

theorem bit_eq_testBit (v i : Nat) : bit v i = v.testBit i := by rw [Nat.testBit_eq_decide_div_mod_eq]; rfl

theorem bit_setBits_self (v k : Nat) (b : Bool) : bit (setBits v k 1 (b2n b)) k = b := by
  rw [bit_eq_testBit, testBit_setBits, if_pos (by omega), Nat.sub_self]
  cases b <;> rfl

/-- FENCED of a slice shows a fenced direction (R22). -/
theorem bit_fenced_bridgeBits {s : State} {k : Nat} {d : Bool} (hk : k < 12) (h : (s.chan k d).fenced = true) :
    bit ((s.bridgeBits k).fld Reg.bridgeCtrl Fld.bridgeCtrl_fenced) k = true := by
  have either : ((s.chan k true).fenced || (s.chan k false).fenced) = true := by cases d <;> simp [h]
  have shown : ∀ v, bit v k = true → bit (v % 2 ^ Fld.bridgeCtrl_fenced.width) k = true := fun v hv => by
    have inside : k < Fld.bridgeCtrl_fenced.width := hk
    rw [bit_eq_testBit] at hv
    rw [bit_eq_testBit, Nat.testBit_mod_two_pow, hv, decide_eq_true inside, Bool.and_self]
  unfold State.bridgeBits
  rw [either]
  dsimp only
  split
  · rw [fld_setFld_self _ _ _ _ (by decide)]; exact shown _ (bit_setBits_self _ k true)
  · rw [fld_setFld_apart _ _ _ (by decide), fld_setFld_self _ _ _ _ (by decide)]; exact shown _ (bit_setBits_self _ k true)

/-- The channel that has done retraining, before its event and the ports of its slice. -/
def State.retrained (s : State) (k : Nat) (d ok : Bool) : State := (s.setChan k d { s.chan k d with retrain := false, fenced := !ok }).bridgeBits k

/-- The event of a retraining's end, by direction and outcome (R22). -/
abbrev retrainCode (d ok : Bool) : Nat := (if d then 0x03F0 else 0x06F0) + b2n (!ok)

theorem bridgeRetrainDone_of_retraining {s : State} {k : Nat} {d : Bool} (h : (s.chan k d).retrain = true) (ok : Bool) :
    bridgeRetrainDone k d ok s = ((s.retrained k d ok).raise (retrainCode d ok)).slicePortsEval k := by
  simp only [bridgeRetrainDone, h, Bool.not_true, Bool.false_eq_true, if_false]
  rfl

theorem slicePortsEval_step (s : State) (k : Nat) : PortStep 8160 s (s.slicePortsEval k) := by
  have few : (s.portList.filter (fun p => p / 8 == k)).length ≤ 96 :=
    Nat.le_trans (List.length_filter_le ..) (List.length_filter_le _ (List.range 96))
  exact (portChanges_step _ (fun p hp => portList_lt (List.mem_filter.1 hp).1) s).mono (by omega)

theorem chan_retrained (s : State) (k : Nat) (d ok : Bool) : (s.retrained k d ok).chan k d = { s.chan k d with retrain := false, fenced := !ok } := by
  rw [State.retrained, chan_congr ((bridgeBits_tame _ k).only.same .bridge (by decide)), chan_setChan_self]

/-- What taking the slice's ports anew leaves of a retraining's end: the channel, FENCED, and the event. -/
theorem bridgeRetrainDone_spec {s : State} {k : Nat} {d : Bool} (h : (s.chan k d).retrain = true) (ok : Bool) :
    (bridgeRetrainDone k d ok s).chan k d = { s.chan k d with retrain := false, fenced := !ok }
    ∧ (bridgeRetrainDone k d ok s).reg Reg.bridgeCtrl = (s.retrained k d ok).reg Reg.bridgeCtrl
    ∧ Recorded s (bridgeRetrainDone k d ok s) (retrainCode d ok) [] := by
  rw [bridgeRetrainDone_of_retraining h]
  have ports := slicePortsEval_step ((s.retrained k d ok).raise (retrainCode d ok)) k
  refine ⟨?_, ?_, ?_⟩
  · rw [chan_congr (ports.only.same .bridge (by decide)), chan_congr (raise_bridge ..), chan_retrained]
  · rw [ports.regs _ (by simp only [portReg, Reg.bridgeCtrl, Reg.epochInflight, Reg.epochState]; omega), reg_raise]
  · have event := raise_recorded_later ports.later (by omega) (slicePortsEval_logged _ k) (by omega)
    exact event.of_tod ((bridgeBits_tame _ k).only.same .time (by decide))

/-! ### RETRAIN -/

/-- A slice whose RETRAIN bit is written. -/
def State.retrainSlice (s : State) (k : Nat) : State :=
  let s := s.setFld Reg.bridgeCtrl Fld.bridgeCtrl_retrain (setBits (s.fld Reg.bridgeCtrl Fld.bridgeCtrl_retrain) k 1 1)
  (s.setChan k true { s.chan k true with failed := 0, retrain := true }).setChan k false { s.chan k false with failed := 0, retrain := true }

theorem bridgeRetrainWrite_eq (m : Nat) (s : State) : bridgeRetrainWrite m s = (List.range 12).foldl (fun s k => if bit m k then s.retrainSlice k else s) s := rfl

theorem retrain_retrainSlice (s : State) (j k : Nat) (d : Bool) : ((s.retrainSlice j).chan k d).retrain = (decide (k = j) || (s.chan k d).retrain) := by
  have keep : ∀ (f : Field) (v : Nat), (s.setFld Reg.bridgeCtrl f v).chan k d = s.chan k d := fun _ _ => rfl
  cases d <;> by_cases e : k = j <;> simp [State.retrainSlice, chan_setChan, keep, e]

theorem retrain_foldl_retrainSlice (m k : Nat) (d : Bool) (l : List Nat) : ∀ s : State,
    ((l.foldl (fun s k => if bit m k then s.retrainSlice k else s) s).chan k d).retrain = true ↔ (bit m k = true ∧ k ∈ l) ∨ (s.chan k d).retrain = true := by
  induction l with
  | nil => simp
  | cons j l ih =>
    intro s
    rw [List.foldl_cons, ih, List.mem_cons]
    by_cases named : bit m j = true
    · rw [if_pos named, retrain_retrainSlice, Bool.or_eq_true, decide_eq_true_iff]
      constructor
      · rintro (⟨hm, hl⟩ | rfl | hs)
        · exact .inl ⟨hm, .inr hl⟩
        · exact .inl ⟨named, .inl rfl⟩
        · exact .inr hs
      · rintro (⟨hm, rfl | hl⟩ | hs)
        · exact .inr (.inl rfl)
        · exact .inl ⟨hm, hl⟩
        · exact .inr (.inr hs)
    · rw [if_neg named]
      refine or_congr_left (and_congr_right fun hm => ⟨.inr, fun hl => hl.resolve_left fun e => named (e ▸ hm)⟩)

theorem RegsOnly.trans_same {l : List Nat} {s t u : State} (h1 : RegsOnly l s t) (h2 : RegsOnly l t u) : RegsOnly l s u :=
  (h1.trans h2).mono (by simp)

theorem RegsOnly.foldl {α : Type} {l : List Nat} {g : State → α → State} (h : ∀ s x, RegsOnly l s (g s x)) (xs : List α) : ∀ s, RegsOnly l s (xs.foldl g s) := by
  induction xs with
  | nil => exact RegsOnly.refl l
  | cons x xs ih => exact fun s => (h s x).trans_same (ih _)

theorem retrainSlice_regs (s : State) (k : Nat) : RegsOnly [Reg.bridgeCtrl] s (s.retrainSlice k) := ⟨fun _ ha => reg_setFld_ne s _ _ (by simpa using ha)⟩

theorem bridgeRetrainWrite_regs (m : Nat) (s : State) : RegsOnly [Reg.bridgeCtrl] s (bridgeRetrainWrite m s) := by
  rw [bridgeRetrainWrite_eq]
  refine RegsOnly.foldl (fun s k => ?_) _ s
  split
  · exact retrainSlice_regs s k
  · exact RegsOnly.refl ..

/-! ### Replies -/

theorem find_putSession {l : List Session} {x y : Session} {id : Nat} (h : l.find? (fun z => z.id == id) = some x) (hy : y.id = id) :
    (putSession l y).find? (fun z => z.id == id) = some y := by
  induction l with
  | nil => simp at h
  | cons z l ih =>
    by_cases e : z.id = id
    · simp [putSession, e, hy]
    · have tail : l.find? (fun z => z.id == id) = some x := by simpa [e] using h
      have kept : putSession (z :: l) y = z :: putSession l y := by simp [putSession, hy, e]
      simpa [kept, e] using ih tail

theorem session_setSession {s : State} {x y : Session} {id : Nat} (h : s.session id = some x) (hy : y.id = id) : (s.setSession y).session id = some y :=
  find_putSession h hy

theorem session_id {s : State} {x : Session} {id : Nat} (h : s.session id = some x) : x.id = id := by
  simpa using List.find?_some h

/-- A reply on a known session is the last message sent. -/
theorem answer_replied {s : State} {h : FcpHdr} {x : Session} (known : s.session h.session = some x) (t st : Nat) (p : Bytes) : Replied (s.answer h t st p) h t st p := by
  have name : x.id = h.session := session_id known
  have kept : ∀ l : List Reply, (s.setSession { x with replies := l }).session h.session = some { x with replies := l } := fun _ => session_setSession known name
  simp only [Replied, State.answer, known, State.send, kept]
  exact ⟨_, List.getLast?_concat, rfl, rfl, rfl, rfl, rfl, rfl⟩

theorem bridgeReqTimeout_of_granted {s : State} {h : FcpHdr} {x : Session} {w : Bool} (g : Granted s h x (if w then 0x11 else 0x10) privWrite) :
    bridgeReqTimeout h w s = ((s.setSession { x with rxSeq := h.seq }).count .controlAgentBridgeTimeout).answer h (if w then 0x11 else 0x10) 8 [] := by
  rw [bridgeReqTimeout, fcpServe_granted g]

theorem bridgeReqTimeout_spec {s : State} {h : FcpHdr} {x : Session} {w : Bool} (g : Granted s h x (if w then 0x11 else 0x10) privWrite) :
    Replied (bridgeReqTimeout h w s) h (if w then 0x11 else 0x10) 8 [] ∧ Counted s (bridgeReqTimeout h w s) .controlAgentBridgeTimeout 0 1 := by
  rw [bridgeReqTimeout_of_granted g]
  have known := g.accepted.known
  have name : x.id = h.session := session_id known
  have counted : ((s.setSession { x with rxSeq := h.seq }).count .controlAgentBridgeTimeout).session h.session = some { x with rxSeq := h.seq } :=
    session_setSession known name
  refine ⟨answer_replied counted .., ?_⟩
  rw [Counted, ctr_congr ((answer_tame ..).only.same .counters (by decide)), ctr_count, if_pos rfl]
  rfl

/-- Settles O16, by what each bridge command makes of its channel; that the event of a retraining's end stays recorded, in a boot log of 64 too, rests on
`slicePortsEval_logged`. The bridge events carry no data (log 47), and the bridge timeout counts for agent 0 (log 116). -/
theorem bridgeReplaysRetrainsAndFences : Obligations.BridgeReplaysRetrainsAndFences := by
  unfold Obligations.BridgeReplaysRetrainsAndFences
  refine ⟨fun k d s hs carries => ?_, fun k d s hs carries limit => ?_, fun k d s hs carries limit => ?_, fun k d s hs training => ?_,
    fun k d s hs hk training => ?_, fun m k d s hs hk => ?_, fun h x w s hs granted => ?_⟩
  · refine ⟨_, act_of_clocked hs _, ?_, (bridgeBeatError_tame ..).only⟩
    rw [bridgeBeatError_of_carries carries, chan_setChan_self, if_pos rfl]
  · refine ⟨_, act_of_clocked hs _, ?_, ?_, (bridgeBeatError_tame ..).only⟩ <;>
      simp [bridgeBeatError_of_carries carries, State.bridgeCarries, limit]
  · obtain ⟨training, fenced⟩ := (bridgeCarries_iff ..).1 carries
    refine ⟨_, act_of_clocked hs _, ?_, ?_, (bridgeBeatError_tame ..).only⟩ <;>
      simp [bridgeBeatError_of_carries carries, State.bridgeCarries, Nat.not_le.2 limit, training, fenced]
  · obtain ⟨chan, -, event⟩ := bridgeRetrainDone_spec training true
    exact ⟨_, act_of_clocked hs _, by simp [State.bridgeCarries, chan], event, (bridgeRetrainDone_tame ..).only⟩
  · obtain ⟨chan, reg, event⟩ := bridgeRetrainDone_spec training false
    refine ⟨_, act_of_clocked hs _, by rw [chan]; rfl, by simp [State.bridgeCarries, chan], ?_, ?_, (bridgeRetrainDone_tame ..).only⟩
    · rw [State.fld, reg]
      exact bit_fenced_bridgeBits (d := d) hk (by rw [chan_setChan_self]; rfl)
    · cases d <;> exact event
  · refine ⟨_, act_of_clocked hs _, ?_, bridgeRetrainWrite_regs m s, (bridgeRetrainWrite_tame ..).only⟩
    rw [bridgeRetrainWrite_eq, retrain_foldl_retrainSlice, List.mem_range, and_iff_left hk]
  · obtain ⟨reply, counted⟩ := bridgeReqTimeout_spec granted
    exact ⟨_, act_of_clocked hs _, reply, counted, (bridgeReqTimeout_tame ..).only⟩

end Sys2Proof.Machine

/-! PROOFS. The form walk's bounds (R111, R115, R117). -/

namespace Sys2Proof.Machine

/-! ### The batt keeps its 128 bytes -/

@[simp] theorem length_battPut (xs : Bytes) : ∀ (b : Bytes) (d : Nat), (battPut b d xs).length = b.length := by
  induction xs with
  | nil => intro b d; rfl
  | cons x xs ih => intro b d; rw [battPut, ih, List.length_set]

@[simp] theorem length_extract (fr : Bytes) (start occ cmd : Nat) (b : Bytes) : (extract fr start occ cmd b).length = b.length := by
  simp only [extract, apply_ite List.length, length_battPut, ite_self]

@[simp] theorem length_extractAll (fs : FormStore) (f : Nat) (fr : Bytes) (start occ : Nat) (b : Bytes) : (extractAll fs f fr start occ b).length = b.length := by
  unfold extractAll
  induction List.range 8 generalizing b with
  | nil => rfl
  | cons i l ih => rw [List.foldl_cons, ih, length_extract]

/-! ### The tests of a form -/

theorem formError_le (fs : FormStore) (f : Nat) (fr : Bytes) (w : Walk) : formError fs f fr w ≤ 9 := by
  unfold formError
  extract_lets
  repeat' split
  all_goals decide

/-- A test with an error number that does not fail. -/
theorem passed_of_ite_eq_zero {c : Prop} [Decidable c] {e a : Nat} (h : (if c then e + 1 else a) = 0) : ¬c ∧ a = 0 := by
  split at h
  · exact absurd h (Nat.succ_ne_zero e)
  next hc => exact ⟨hc, h⟩

/-- The bytes that a form and its skip take of the frame (R111). -/
def formSpan (fs : FormStore) (f : Nat) (fr : Bytes) (start : Nat) : Nat := bits (fs f 0) 62 56 + (skipOf fs f fr start).toNat

/-- What the tests leave of a form that meets no error: fewer than 32 forms before it, fewer of its class than the class's bound, and room in the frame and
the header window. -/
theorem of_formError_eq_zero {fs : FormStore} {f : Nat} {fr : Bytes} {w : Walk} (h : formError fs f fr w = 0) :
    w.visits < 32 ∧ (bits (fs f 0) 55 53 ≠ 0 → w.count (bits (fs f 0) 55 53) < repBound (bits (fs f 0) 55 53))
      ∧ w.pos + formSpan fs f fr w.pos ≤ fr.length ∧ w.pos + formSpan fs f fr w.pos ≤ 256 := by
  unfold formError at h
  extract_lets d len cls sk tot at h
  obtain ⟨-, h⟩ := passed_of_ite_eq_zero h
  obtain ⟨visits, h⟩ := passed_of_ite_eq_zero h
  obtain ⟨depth, h⟩ := passed_of_ite_eq_zero h
  obtain ⟨-, h⟩ := passed_of_ite_eq_zero h
  obtain ⟨-, h⟩ := passed_of_ite_eq_zero h
  obtain ⟨-, h⟩ := passed_of_ite_eq_zero h
  obtain ⟨ends, h⟩ := passed_of_ite_eq_zero h
  obtain ⟨window, -⟩ := passed_of_ite_eq_zero h
  exact ⟨Nat.not_le.1 visits, fun named => Nat.not_le.1 fun full => depth ⟨named, full⟩, Nat.not_lt.1 ends, Nat.not_lt.1 window⟩

/-! ### The invariant of the walk -/

/-- A walk over frame `fr` within the bounds of R111, R115 and R117. -/
structure Walk.Bounded (fr : Bytes) (w : Walk) : Prop where
  visits : w.visits ≤ 32
  vlan : w.vlan ≤ 4
  mpls : w.mpls ≤ 12
  ext : w.ext ≤ 6
  tunnel : w.tunnel ≤ 3
  window : w.pos ≤ 256
  frame : w.pos ≤ fr.length
  batt : w.batt.length = 128
  err : w.err ≤ 9

theorem Walk.start_bounded (fr : Bytes) : Walk.start.Bounded fr := by constructor <;> simp [Walk.start]

theorem Walk.Bounded.fail {fr : Bytes} {w : Walk} (h : w.Bounded fr) {e : Nat} (he : e ≤ 9) : Walk.Bounded fr { w with err := e } := { h with err := he }

/-- A class's count, one more after a form of the class, stays within the class's bound `n` (R115). -/
theorem count_step_le {cls c m n : Nat} (bound : m ≤ n) (room : cls = c → m < n) : m + b2n (cls == c) ≤ n := by
  by_cases e : cls = c
  · have := room e
    simp only [e, beq_self_eq_true, b2n, if_true]; omega
  · simpa [e, b2n] using bound

theorem visit_bounded {fs : FormStore} {f : Nat} {fr : Bytes} {w : Walk} (h : w.Bounded fr) (ok : formError fs f fr w = 0) : (visit fs f fr w).Bounded fr := by
  obtain ⟨visits, depth, frame, window⟩ := of_formError_eq_zero ok
  exact
    { visits := visits
      vlan := count_step_le h.vlan fun e => by simpa [e, Walk.count, repBound] using depth
      mpls := count_step_le h.mpls fun e => by simpa [e, Walk.count, repBound] using depth
      ext := count_step_le h.ext fun e => by simpa [e, Walk.count, repBound] using depth
      tunnel := count_step_le h.tunnel fun e => by simpa [e, Walk.count, repBound] using depth
      window := window
      frame := frame
      batt := (length_extractAll ..).trans h.batt
      err := h.err }

theorem walk_bounded (fs : FormStore) (fr : Bytes) (n : Nat) : ∀ (f : Nat) (w : Walk), w.Bounded fr → (walk fs fr n f w).Bounded fr := by
  induction n with
  | zero => exact fun f w h => h
  | succ n ih =>
    intro f w h
    unfold walk
    by_cases last : f = 255
    · rwa [if_pos last]
    rw [if_neg last]
    by_cases ok : formError fs f fr w = 0
    · have next := visit_bounded h ok
      simp only [ok, ne_eq, not_true_eq_false, if_false]
      by_cases later : (visit fs f fr w).frag = 2
      · rwa [if_pos later]
      rw [if_neg later]
      split
      · exact ih _ _ next
      · split
        · exact h.fail (by decide)
        · exact ih _ _ next
    · simp only [ne_eq, ok, not_false_eq_true, if_true]
      exact h.fail (formError_le ..)

/-- Settles O17, by the invariant `Walk.Bounded` of the walk, which every form that passes its tests keeps. -/
theorem parsesStayInTheirBounds : Obligations.ParsesStayInTheirBounds := by
  unfold Obligations.ParsesStayInTheirBounds
  intro fs f fr
  obtain ⟨visits, vlan, mpls, ext, tunnel, window, frame, batt, err⟩ := walk_bounded fs fr 34 f _ (Walk.start_bounded fr)
  exact ⟨visits, vlan, mpls, ext, tunnel, window, frame, batt, err⟩

end Sys2Proof.Machine

/-! PROOFS. INGRESS_LOOKUP of a pass at a flow stage, and the counters of corrected errors (R133, R134, R416). -/

namespace Sys2Proof.Machine

/-- The state from which the pass taken off slice `k`'s queue goes down its chain: the errors corrected in its reads are counted. -/
def State.lookTaken (s : State) (k : Nat) (rest : List Pass) (errs : EccErrs) : State :=
  (State.countN { s with lookup := { s.lookup with lookQ := mput (fun _ => []) s.lookup.lookQ k rest } } .lookupEmhashEccCorr 0 errs.hashCorr).countN
    .lookupDitEccCorr 0 errs.ditCorr

theorem lookTaken_only (s : State) (k : Nat) (rest : List Pass) (errs : EccErrs) : Only [.counters, .lookup] s (s.lookTaken k rest errs) := by
  have popped : Only [.lookup] s { s with lookup := { s.lookup with lookQ := mput (fun _ => []) s.lookup.lookQ k rest } } :=
    ⟨fun p hp => by cases p <;> first | rfl | simp at hp⟩
  have counted := (countN_tame { s with lookup := { s.lookup with lookQ := mput (fun _ => []) s.lookup.lookQ k rest } } .lookupEmhashEccCorr 0 errs.hashCorr).only.trans
    (countN_tame _ .lookupDitEccCorr 0 errs.ditCorr).only
  exact (popped.trans counted).mono (by decide)

/-- A banked field reads one register and its odd copy. -/
theorem fldEp_congr {s t : State} {a : Nat} (reg : t.reg a = s.reg a) (odd : t.bankOdd = s.bankOdd) (e : Nat) (f : Field) : t.fldEp e a f = s.fldEp e a f := by
  simp only [State.fldEp, State.regPar, State.oddCopy, reg, odd]

theorem chain_of_flow {s : State} {x : Pass} (stage : x.stage < 8) (flow : s.fldEp x.epoch (Reg.classStageCfg x.slice x.stage) Fld.classStageCfg_type = 2) (n : Nat) :
    s.chain x (n + 1) = (s, x, true) := by
  simp only [State.chain, Nat.not_le.2 stage, flow, if_false, if_true, Nat.reduceEqDiff]

/-- A pass at a flow stage waits for the flow lookup (R134). -/
theorem ingressLookup_of_flow {s : State} {k : Nat} {x : Pass} {rest : List Pass} (errs : EccErrs) (queue : s.lookOf k = x :: rest) (undecided : x.follow = none)
    (stage : x.stage < 8) (flow : s.fldEp x.epoch (Reg.classStageCfg x.slice x.stage) Fld.classStageCfg_type = 2) :
    ingressLookup k errs s = { s.lookTaken k rest errs with
      lookup := { (s.lookTaken k rest errs).lookup with flowWait := (s.lookTaken k rest errs).lookup.flowWait ++ [{ x with errs := errs }] } } := by
  have parked : (s.lookTaken k rest errs).chain { x with errs := errs } 8 = (s.lookTaken k rest errs, { x with errs := errs }, true) := by
    have only := lookTaken_only s k rest errs
    refine chain_of_flow (x := { x with errs := errs }) stage ?_ 7
    rw [fldEp_congr (reg_congr (only.same .regs (by decide)) _) (only.same .banks (by decide))]
    exact flow
  have onward : ingressLookup k errs s = (s.lookTaken k rest errs).runChain { x with errs := errs } := by
    simp only [ingressLookup, queue, undecided]
    rfl
  rw [onward, State.runChain, parked]

/-- What INGRESS_LOOKUP of no corrected error makes of their counter in the hash memories: it is bumped by 0. -/
theorem ctr_lookTaken_hashCorr (s : State) (k : Nat) (rest : List Pass) (errs : EccErrs) :
    (s.lookTaken k rest errs).ctr (ctrKey .lookupEmhashEccCorr 0) = (s.ctr (ctrKey .lookupEmhashEccCorr 0)).bump errs.hashCorr := by
  have other : ctrKey .lookupEmhashEccCorr 0 ≠ ctrKey .lookupDitEccCorr 0 := by decide
  rw [State.lookTaken, State.countN, ctr_bumpKey, if_neg other, State.countN, ctr_bumpKey, if_pos rfl]
  rfl

/-! ### A counter beyond its 64 bits -/

namespace WideCounter

/-- A packet of slice 0 that stands at stage 0. -/
def packet : Pass :=
  { State.reset.firstPass 0 { bytes := List.replicate 64 1, port := 0, bad := false, ts := 0, tsValid := false, msec := 0, msecSc := 0 } with stage := 0 }

/-- The device in service with that packet alone to look up, stage 0 of slice 0 a flow stage, and in the counter of the hash memories' corrected errors 2^64,
which its 64 bits cannot hold (R416). -/
def state : State :=
  { State.reset with
    boot := { Boot.cold with stage := .running, fwRunning := true }
    regs := [(Reg.classStageCfg 0 0, putField Fld.classStageCfg_type 2 0)]
    ctrs := [(ctrKey .lookupEmhashEccCorr 0, { CtrVal.zero with value := 2 ^ 64 })]
    lookup := { State.reset.lookup with lookQ := [(0, [packet])] } }

def noEcc : EccErrs := { hash := [], hashCorr := 0, dit := [], ditCorr := 0 }

theorem at_flow : state.fldEp packet.epoch (Reg.classStageCfg packet.slice packet.stage) Fld.classStageCfg_type = 2 := by decide +kernel

theorem canonical : state.canonical = true := by decide +kernel

/-- Adding nothing to the counter carries out of its 64 bits. -/
theorem ctr_ingressLookup : (ingressLookup 0 noEcc state).ctr (ctrKey .lookupEmhashEccCorr 0) = { CtrVal.zero with ovf := true } := by
  have taken : (ingressLookup 0 noEcc state).ctr (ctrKey .lookupEmhashEccCorr 0) = (state.lookTaken 0 [] noEcc).ctr (ctrKey .lookupEmhashEccCorr 0) := by
    rw [ingressLookup_of_flow (x := packet) noEcc rfl rfl (by decide) at_flow]
    rfl
  rw [taken, ctr_lookTaken_hashCorr]
  decide

end WideCounter

/-- Refutes O20: its clause on a pass at a flow stage says that INGRESS_LOOKUP with no memory error leaves every counter as it is, in every state. It adds 0 to
the counters of corrected errors all the same, and an addition keeps a counter modulo 2^64; in `WideCounter.state` such a counter holds 2^64, which the addition
of 0 turns into 0 with the overflow flag. -/
theorem not_passesEndWithAStampedResult : ¬ Obligations.PassesEndWithAStampedResult := by
  unfold Obligations.PassesEndWithAStampedResult
  intro h
  obtain ⟨-, -, -, -, -, -, flow, -⟩ := h
  obtain ⟨t, ran, -, -, frame⟩ := flow 0 WideCounter.packet [] WideCounter.state rfl rfl rfl (by decide) WideCounter.at_flow
  have answer : ingressLookup 0 WideCounter.noEcc WideCounter.state = t := act_next_inj (s := WideCounter.state) rfl ran
  have uncounted := ctr_congr (frame.same .counters (by decide)) (ctrKey .lookupEmhashEccCorr 0)
  rw [← answer, WideCounter.ctr_ingressLookup] at uncounted
  exact absurd uncounted (by decide)

end Sys2Proof.Machine

/-! PROOFS. Fragments (R123 to R130). -/

namespace Sys2Proof.Machine

/-! ### The registers that fragments change -/

/-- The registers that a fragment of slice `k` may change on its way into the device. -/
abbrev fragRegs (k : Nat) : List Nat := [Reg.epochInflight, Reg.fragStatus, Reg.parserSliceStatus k]

theorem parserPortCfg_notMem_fragRegs (k j : Nat) {p : Nat} (h : p < 8) : Reg.parserPortCfg j p ∉ fragRegs k := by
  simp only [List.mem_cons, List.not_mem_nil, or_false, Reg.parserPortCfg, Reg.epochInflight, Reg.fragStatus, Reg.parserSliceStatus]
  omega

theorem epochState_notMem_fragRegs (k : Nat) : Reg.epochState ∉ fragRegs k := by
  simp only [List.mem_cons, List.not_mem_nil, or_false, Reg.epochState, Reg.epochInflight, Reg.fragStatus, Reg.parserSliceStatus]
  omega

section
variable {s t : State} {k : Nat} (regs : RegsOnly (fragRegs k) s t)
include regs

theorem fldEp_portCfg_of_fragRegs (odd : t.bankOdd = s.bankOdd) (e j p : Nat) (f : Field) :
    t.fldEp e (Reg.parserPortCfg j (p % 8)) f = s.fldEp e (Reg.parserPortCfg j (p % 8)) f :=
  fldEp_congr (regs.same _ (parserPortCfg_notMem_fragRegs k j (Nat.mod_lt p (by decide)))) odd e f

theorem epochLive_of_fragRegs (e : Nat) : t.epochLive e = s.epochLive e := by
  have state : t.reg Reg.epochState = s.reg Reg.epochState := regs.same _ (epochState_notMem_fragRegs k)
  have current : t.epoch = s.epoch := congrArg (getField _) state
  have other : t.epochOther = s.epochOther := congrArg (getField _) state
  have phase : t.epochPhase = s.epochPhase := congrArg (getField _) state
  rw [State.epochLive, State.otherLive, current, other, phase]
  rfl

end

/-! ### The queue of parsed passes -/

@[simp] theorem lookOf_toLook_self (s : State) (x : Pass) : (s.toLook x).lookOf x.slice = s.lookOf x.slice ++ [x] := mget_mput_self ..

/-- A pass joins the queue of its slice, under whatever name the slice stands. -/
theorem lookOf_toLook {s : State} {x : Pass} {k : Nat} (h : x.slice = k) : (s.toLook x).lookOf k = s.lookOf k ++ [x] := h ▸ lookOf_toLook_self s x

theorem lookOf_congr {s t : State} (h : t.lookup = s.lookup) (k : Nat) : t.lookOf k = s.lookOf k := by simp only [State.lookOf, h]

theorem RegsOnly.toLook {l : List Nat} {s t : State} (h : RegsOnly l s t) (x : Pass) : RegsOnly l s (t.toLook x) := ⟨h.same⟩

@[simp] theorem frag_toLook (s : State) (x : Pass) (sh : Bool) (k i : Nat) : (s.toLook x).frag sh k i = s.frag sh k i := by cases sh <;> rfl

/-! ### Held fragments and entries -/

@[simp] theorem holdOf_setHold_self (s : State) (k : Nat) (l : List Held) : (s.setHold k l).holdOf k = l := mget_mput_self ..

@[simp] theorem lookQ_setHold (s : State) (k : Nat) (l : List Held) : (s.setHold k l).lookup.lookQ = s.lookup.lookQ := rfl

@[simp] theorem frag_setHold (s : State) (k : Nat) (l : List Held) (sh : Bool) (j i : Nat) : (s.setHold k l).frag sh j i = s.frag sh j i := by cases sh <;> rfl

theorem setHold_regs (s : State) (k : Nat) (l : List Held) : RegsOnly [Reg.parserSliceStatus k] s (s.setHold k l) :=
  ⟨fun _ ha => reg_setFld_ne _ _ _ (by simpa using ha)⟩

@[simp] theorem lookup_fragUsedAdd (s : State) (sh : Bool) (k : Nat) (d : Int) : (s.fragUsedAdd sh k d).lookup = s.lookup := by cases sh <;> rfl

/-- What of the lookup state an entry's write leaves: all but the two tables. -/
theorem lookup_setFrag (s : State) (sh : Bool) (k i : Nat) (e : FragEntry) :
    (s.setFrag sh k i e).lookup = if sh then { s.lookup with fragShared := mput (fun _ => FragEntry.free) s.lookup.fragShared i e }
      else { s.lookup with fragPriv := mput (fun _ => FragEntry.free) s.lookup.fragPriv (1024 * k + i) e } := by
  cases sh <;> simp only [State.setFrag, if_true, Bool.false_eq_true, if_false, apply_ite State.lookup, lookup_fragUsedAdd, ite_self]

@[simp] theorem frag_setFrag_self (s : State) (sh : Bool) (k i : Nat) (e : FragEntry) : (s.setFrag sh k i e).frag sh k i = e := by
  cases sh <;> simp [State.frag, lookup_setFrag]

@[simp] theorem lookOf_setFrag (s : State) (sh : Bool) (k i : Nat) (e : FragEntry) (j : Nat) : (s.setFrag sh k i e).lookOf j = s.lookOf j := by
  cases sh <;> simp [State.lookOf, lookup_setFrag]

@[simp] theorem holdOf_setFrag (s : State) (sh : Bool) (k i : Nat) (e : FragEntry) (j : Nat) : (s.setFrag sh k i e).holdOf j = s.holdOf j := by
  cases sh <;> simp [State.holdOf, lookup_setFrag]

theorem setFrag_regs (s : State) (sh : Bool) (k i : Nat) (e : FragEntry) : RegsOnly [Reg.fragStatus, Reg.parserSliceStatus k] s (s.setFrag sh k i e) := by
  have used : ∀ d : Int, RegsOnly [Reg.fragStatus, Reg.parserSliceStatus k] s (s.fragUsedAdd sh k d) := fun d => by
    cases sh
    · exact (RegsOnly.setFld s _ _ _).mono (by simp)
    · exact (RegsOnly.setFld s _ _ _).mono (by simp)
  refine ⟨fun a ha => ?_⟩
  have kept := (used ((b2n e.used : Int) - b2n (s.frag sh k i).used)).same a ha
  simp only [State.setFrag]
  split <;> split
  · rfl
  · exact kept
  · rfl
  · exact kept

/-! ### The no-entry path (R130) -/

/-- The counter of a FRAG_POLICY. -/
def policyCtr (p : Nat) : Ctr := if p = 0 then .lookupFragPolicyDrop else if p = 2 then .lookupFragPolicyPunt else .lookupFragPolicyL3

/-- A later fragment without an entry as a FRAG_POLICY leaves it; `reason` is that of a drop or punt. -/
def Pass.byPolicy (x : Pass) (p reason : Nat) : Pass :=
  if p = 0 then (x.setFrag 2).decided 3 reason else if p = 2 then (x.setFrag 2).decided 2 reason else x.setFrag 2

theorem byPolicy_slice (x : Pass) (p reason : Nat) : (x.byPolicy p reason).slice = x.slice := by
  unfold Pass.byPolicy
  split
  · rfl
  · split <;> rfl

theorem fragNoEntry_eq (s : State) (x : Pass) {p : Nat} (policy : s.fldEp x.epoch (Reg.parserPortCfg x.slice (x.port % 8)) Fld.parserPortCfg_fragPolicy = p) :
    s.fragNoEntry x = (((s.count .lookupFragNoEntry).draw.2).count (policyCtr p)).toLook (x.byPolicy p (Config.freeNat s.freeCtr % 65536)) := by
  simp only [State.fragNoEntry, policy, policyCtr, Pass.byPolicy]
  split
  · rfl
  · split <;> rfl

theorem ctrKey_ne_policyCtr {j : Nat} (drop : j ≠ ctrKey .lookupFragPolicyDrop 0) (punt : j ≠ ctrKey .lookupFragPolicyPunt 0)
    (l3 : j ≠ ctrKey .lookupFragPolicyL3 0) (p : Nat) : j ≠ ctrKey (policyCtr p) 0 := by
  unfold policyCtr
  split
  · exact drop
  · split
    · exact punt
    · exact l3

theorem noEntry_ne_policyCtr (p : Nat) : ctrKey .lookupFragNoEntry 0 ≠ ctrKey (policyCtr p) 0 := ctrKey_ne_policyCtr (by decide) (by decide) (by decide) p

theorem ctr_fragNoEntry_of_ne {s : State} {x : Pass} {j : Nat} (noEntry : j ≠ ctrKey .lookupFragNoEntry 0) (policy : ∀ p, j ≠ ctrKey (policyCtr p) 0) :
    (s.fragNoEntry x).ctr j = s.ctr j := by
  rw [fragNoEntry_eq s x rfl, ctr_toLook, ctr_count, if_neg (policy _), ctr_draw, ctr_count, if_neg noEntry]

/-- The no-entry path of R130: both counters, and the pass as the policy leaves it; the lookup state is the same but for its queue. -/
theorem fragNoEntry_spec (s : State) (x : Pass) {p : Nat} (policy : s.fldEp x.epoch (Reg.parserPortCfg x.slice (x.port % 8)) Fld.parserPortCfg_fragPolicy = p) :
    Counted s (s.fragNoEntry x) .lookupFragNoEntry 0 1 ∧ Counted s (s.fragNoEntry x) (policyCtr p) 0 1
      ∧ (s.fragNoEntry x).lookOf x.slice = s.lookOf x.slice ++ [x.byPolicy p (Config.freeNat s.freeCtr % 65536)]
      ∧ (∀ k, (s.fragNoEntry x).holdOf k = s.holdOf k) ∧ (∀ sh k i, (s.fragNoEntry x).frag sh k i = s.frag sh k i)
      ∧ Only [.counters, .lookup, .free] s (s.fragNoEntry x) := by
  rw [fragNoEntry_eq s x policy]
  refine ⟨?_, ?_, lookOf_toLook (byPolicy_slice ..), fun k => rfl, fun sh k i => frag_toLook .., ?_⟩
  · rw [Counted, ctr_toLook, ctr_count, if_neg (noEntry_ne_policyCtr p), ctr_draw, ctr_count, if_pos rfl]
  · rw [Counted, ctr_toLook, ctr_count, if_pos rfl, ctr_draw, ctr_count, if_neg (noEntry_ne_policyCtr p).symm]
  · have counted := (count_only s .lookupFragNoEntry 0).trans (draw_tame (s.count .lookupFragNoEntry)).only
    exact ((counted.trans (count_only _ (policyCtr p) 0)).trans (toLook_tame ..).only).mono (by decide)

/-! ### A line frame in the header slot -/

theorem hdrOf_congr {s t : State} (h : t.hdrQ = s.hdrQ) (k : Nat) : t.hdrOf k = s.hdrOf k := by simp only [State.hdrOf, h]

/-- The pass and the walk that a line frame begins with (R118). -/
abbrev State.lineParse (s : State) (r : RxPkt) : Pass × Walk := s.parsePass (s.firstPass s.lookup.nextPid r)

/-- The state in which a line frame that has left the header queue of slice `k` goes on: its pass is numbered, and counted in the current epoch. -/
def State.lineTaken (s : State) (k : Nat) (rest : List RxPkt) : State :=
  State.setFld { s with hdrQ := mput (fun _ => []) s.hdrQ k rest, lookup := { s.lookup with nextPid := s.lookup.nextPid + 1 } }
    Reg.epochInflight Fld.epochInflight_current (min (s.fld Reg.epochInflight Fld.epochInflight_current + 1) 4294967295)

theorem headerParse_of_line {s : State} {k : Nat} {r : RxPkt} {rest : List RxPkt} (due : s.boundaryDue = false) (line : s.hdrOf k = r :: rest) :
    headerParse k s = (s.lineTaken k rest).afterParse (s.lineParse r).1 (s.lineParse r).2 := by
  have entered : ∀ t : State, t.epochEnter t.epoch
      = t.setFld Reg.epochInflight Fld.epochInflight_current (min (t.fld Reg.epochInflight Fld.epochInflight_current + 1) 4294967295) := fun t => if_pos rfl
  simp only [headerParse, due, line, Bool.false_eq_true, if_false]
  exact congrArg (fun t : State => t.afterParse _ _) (entered _)

section
variable (s : State) (k : Nat) (rest : List RxPkt)

@[simp] theorem hdrOf_lineTaken : (s.lineTaken k rest).hdrOf k = rest := mget_mput_self ..
theorem lineTaken_regs : RegsOnly [Reg.epochInflight] s (s.lineTaken k rest) := ⟨fun _ ha => reg_setFld_ne _ _ _ (by simpa using ha)⟩

theorem lineTaken_only : Only [.regs, .headers, .lookup] s (s.lineTaken k rest) := ⟨fun p hp => by cases p <;> first | rfl | simp at hp⟩

@[simp] theorem epochLive_lineTaken (e : Nat) : (s.lineTaken k rest).epochLive e = s.epochLive e :=
  epochLive_of_fragRegs ((lineTaken_regs s k rest).mono (m := fragRegs k) (by simp)) e

@[simp] theorem fldEp_lineTaken (e j p : Nat) (f : Field) :
    (s.lineTaken k rest).fldEp e (Reg.parserPortCfg j (p % 8)) f = s.fldEp e (Reg.parserPortCfg j (p % 8)) f :=
  fldEp_portCfg_of_fragRegs ((lineTaken_regs s k rest).mono (m := fragRegs k) (by simp)) rfl e j p f

end

/-! ### Where a fragment goes after its parse -/

/-- The FRAG_SCOPE that a pass's fragments are looked up under (R125). -/
abbrev State.fragScope (s : State) (x : Pass) : Nat := s.fldEp x.epoch (Reg.parserPortCfg x.slice (x.port % 8)) Fld.parserPortCfg_fragScope

/-- A first fragment reserves an entry and goes on (R126). -/
theorem afterParse_first {s : State} {x : Pass} {w : Walk} (err : w.err = 0) (pass : x.passNo = 1) (frag : w.frag = 1) :
    s.afterParse x w = (s.fragReserve (s.fragScope x) x.slice x.epoch (w.fragKey ++ [x.vrfTag])).1.toLook
      { x with fragSlot := (s.fragReserve (s.fragScope x) x.slice x.epoch (w.fragKey ++ [x.vrfTag])).2 } := by
  simp [State.afterParse, err, pass, frag]

/-- A later fragment consults the tables (R128). -/
theorem afterParse_later {s : State} {x : Pass} {w : Walk} (err : w.err = 0) (pass : x.passNo = 1) (frag : w.frag = 2) :
    s.afterParse x w = s.fragLater x (s.fragScope x) (w.fragKey ++ [x.vrfTag]) := by
  simp [State.afterParse, err, pass, frag]

/-- A pending entry of a key (R126). -/
abbrev FragEntry.reserved (key : List Nat) (epoch : Nat) : FragEntry := { FragEntry.free with key := key, used := true, pending := true, epoch := epoch }

theorem fragReserve_of_free {s : State} {scope k : Nat} {key : List Nat} {sh : Bool} {i : Nat} (absent : s.fragFind scope k key = none)
    (free : s.fragFree scope k key = some (sh, i)) (epoch : Nat) :
    s.fragReserve scope k epoch key = (s.setFrag sh k i (.reserved key epoch), some (sh, i)) := by
  simp only [State.fragReserve, absent, free]

theorem fragReserve_of_full {s : State} {scope k : Nat} {key : List Nat} (absent : s.fragFind scope k key = none) (full : s.fragFree scope k key = none)
    (epoch : Nat) : s.fragReserve scope k epoch key = ((s.count .lookupFragOverflow).raiseLimited 0x0301 k (natBe 1 k), none) := by
  simp only [State.fragReserve, absent, full]

theorem fragLater_of_absent {s : State} {x : Pass} {scope : Nat} {key : List Nat} (absent : s.fragFind scope x.slice key = none) :
    s.fragLater x scope key = s.fragNoEntry x := by
  simp only [State.fragLater, absent]

section
variable {s : State} {x : Pass} {scope i : Nat} {key : List Nat} {sh : Bool} (found : s.fragFind scope x.slice key = some (sh, i))
  (live : s.epochLive (s.frag sh x.slice i).epoch = true)
include found live

theorem fragLater_of_complete (complete : (s.frag sh x.slice i).pending = false) :
    s.fragLater x scope key = (s.count .lookupFragFollow).toLook (x.following (s.frag sh x.slice i)) := by
  simp only [State.fragLater, found, live, complete, Bool.not_true, Bool.false_eq_true, if_false]

theorem fragLater_of_pending (pending : (s.frag sh x.slice i).pending = true) (room : (s.holdOf x.slice).length < 32) :
    s.fragLater x scope key = s.setHold x.slice (s.holdOf x.slice ++ [{ pass := x, shared := sh, slot := i }]) := by
  simp only [State.fragLater, found, live, pending, room, Bool.not_true, Bool.false_eq_true, if_false, if_true]

end

/-! ### Fragments of a line frame -/

section
variable {s : State} {k : Nat} {r : RxPkt} {rest : List RxPkt} (due : s.boundaryDue = false) (line : s.hdrOf k = r :: rest) (err : (s.lineParse r).2.err = 0)

/-- The fragment key of a line frame (R124): its form's, and the VRF tag. -/
abbrev State.lineKey (s : State) (r : RxPkt) : List Nat := (s.lineParse r).2.fragKey ++ [(s.lineParse r).1.vrfTag]

include due line err

theorem headerParse_of_first (frag : (s.lineParse r).2.frag = 1) {t : State} {slot : Option (Bool × Nat)}
    (reserve : (s.lineTaken k rest).fragReserve (s.fragScope (s.lineParse r).1) (r.port / 8) s.epoch (s.lineKey r) = (t, slot)) :
    headerParse k s = t.toLook { (s.lineParse r).1 with fragSlot := slot } := by
  rw [headerParse_of_line due line, afterParse_first err rfl frag, State.fragScope, fldEp_lineTaken]
  exact congrArg (fun p : State × Option (Bool × Nat) => p.1.toLook { (s.lineParse r).1 with fragSlot := p.2 }) reserve

theorem headerParse_of_later (frag : (s.lineParse r).2.frag = 2) :
    headerParse k s = (s.lineTaken k rest).fragLater (s.lineParse r).1 (s.fragScope (s.lineParse r).1) (s.lineKey r) := by
  rw [headerParse_of_line due line, afterParse_later err rfl frag, State.fragScope, fldEp_lineTaken]

/-- A first fragment with a free way reserves it (R126). -/
theorem headerParse_reserves (frag : (s.lineParse r).2.frag = 1) {sh : Bool} {i : Nat}
    (absent : s.fragFind (s.fragScope (s.lineParse r).1) (r.port / 8) (s.lineKey r) = none)
    (free : s.fragFree (s.fragScope (s.lineParse r).1) (r.port / 8) (s.lineKey r) = some (sh, i)) :
    (headerParse k s).hdrOf k = rest ∧ (headerParse k s).frag sh (r.port / 8) i = .reserved (s.lineKey r) s.epoch
      ∧ (headerParse k s).lookOf (r.port / 8) = s.lookOf (r.port / 8) ++ [{ (s.lineParse r).1 with fragSlot := some (sh, i) }]
      ∧ RegsOnly [Reg.epochInflight, Reg.fragStatus, Reg.parserSliceStatus (r.port / 8)] s (headerParse k s)
      ∧ Only [.regs, .headers, .lookup] s (headerParse k s) := by
  rw [headerParse_of_first due line err frag (fragReserve_of_free (s := s.lineTaken k rest) absent free s.epoch)]
  have entry := setFrag_tame (s.lineTaken k rest) sh (r.port / 8) i (.reserved (s.lineKey r) s.epoch)
  refine ⟨?_, ?_, ?_, ?_, ?_⟩
  · exact (hdrOf_congr (entry.only.same .headers (by decide)) k).trans (hdrOf_lineTaken ..)
  · rw [frag_toLook, frag_setFrag_self]
  · exact (lookOf_toLook rfl).trans (congrArg (· ++ [_]) (lookOf_setFrag ..))
  · exact ((lineTaken_regs s k rest).trans (setFrag_regs ..)).toLook _
  · exact (((lineTaken_only s k rest).trans entry.only).trans (toLook_tame ..).only).mono (by decide)

/-- A first fragment without a free way is counted and reported, and goes on (R126). -/
theorem headerParse_overflows (frag : (s.lineParse r).2.frag = 1) (absent : s.fragFind (s.fragScope (s.lineParse r).1) (r.port / 8) (s.lineKey r) = none)
    (full : s.fragFree (s.fragScope (s.lineParse r).1) (r.port / 8) (s.lineKey r) = none) :
    (headerParse k s).hdrOf k = rest ∧ Counted s (headerParse k s) .lookupFragOverflow 0 1
      ∧ (headerParse k s).lookOf (r.port / 8) = s.lookOf (r.port / 8) ++ [{ (s.lineParse r).1 with fragSlot := none }]
      ∧ (s.noWindow 0x0301 (r.port / 8) → Recorded s (headerParse k s) 0x0301 (natBe 1 (r.port / 8)))
      ∧ Only [.regs, .counters, .events, .fcp, .obs, .headers, .lookup] s (headerParse k s) := by
  rw [headerParse_of_first due line err frag (fragReserve_of_full (s := s.lineTaken k rest) absent full s.epoch)]
  have reported := raiseLimited_only ((s.lineTaken k rest).count .lookupFragOverflow) 0x0301 (r.port / 8) (natBe 1 (r.port / 8))
  have quiet : Quiet (ctrKey .lookupFragOverflow 0) := ⟨by decide, by decide, by decide, by decide⟩
  refine ⟨?_, ?_, ?_, fun unlimited => ?_, ?_⟩
  · exact (hdrOf_congr (reported.same .headers (by decide)) k).trans (hdrOf_lineTaken ..)
  · rw [Counted, ctr_toLook, raiseLimited_ctr _ _ _ _ quiet, ctr_count, if_pos rfl]
    rfl
  · exact (lookOf_toLook rfl).trans (congrArg (· ++ [_]) (lookOf_congr (reported.same .lookup (by decide)) (r.port / 8)))
  · have event := raiseLimited_recorded (s := (s.lineTaken k rest).count .lookupFragOverflow) unlimited (natBe 1 (r.port / 8))
    exact (event.keep rfl rfl rfl).of_tod rfl
  · have counted := count_only (s.lineTaken k rest) .lookupFragOverflow 0
    exact ((((lineTaken_only s k rest).trans counted).trans reported).trans (toLook_tame ..).only).mono (by decide)

section
variable (frag : (s.lineParse r).2.frag = 2)
include frag

/-- A later fragment without an entry takes the no-entry path (R130). -/
theorem headerParse_noEntry (absent : s.fragFind (s.fragScope (s.lineParse r).1) (r.port / 8) (s.lineKey r) = none) {p : Nat}
    (policy : s.fldEp (s.lineParse r).1.epoch (Reg.parserPortCfg (s.lineParse r).1.slice ((s.lineParse r).1.port % 8)) Fld.parserPortCfg_fragPolicy = p) :
    (headerParse k s).hdrOf k = rest ∧ Counted s (headerParse k s) .lookupFragNoEntry 0 1 ∧ Counted s (headerParse k s) (policyCtr p) 0 1
      ∧ (headerParse k s).lookOf (r.port / 8) = s.lookOf (r.port / 8) ++ [(s.lineParse r).1.byPolicy p (Config.freeNat s.freeCtr % 65536)]
      ∧ Only [.regs, .counters, .headers, .lookup, .free] s (headerParse k s) := by
  rw [headerParse_of_later due line err frag, fragLater_of_absent (s := s.lineTaken k rest) (x := (s.lineParse r).1) absent]
  obtain ⟨counted, byPolicy, queue, -, -, only⟩ := fragNoEntry_spec (s.lineTaken k rest) (s.lineParse r).1 ((fldEp_lineTaken ..).trans policy)
  exact ⟨(hdrOf_congr (only.same .headers (by decide)) k).trans (hdrOf_lineTaken ..), counted, byPolicy, queue,
    ((lineTaken_only s k rest).trans only).mono (by decide)⟩

section
variable {sh : Bool} {i : Nat} (found : s.fragFind (s.fragScope (s.lineParse r).1) (r.port / 8) (s.lineKey r) = some (sh, i))
  (live : s.epochLive (s.frag sh (r.port / 8) i).epoch = true)
include found live

/-- A later fragment takes the result of a complete entry (R128). -/
theorem headerParse_follows (complete : (s.frag sh (r.port / 8) i).pending = false) :
    (headerParse k s).hdrOf k = rest ∧ Counted s (headerParse k s) .lookupFragFollow 0 1
      ∧ (headerParse k s).lookOf (r.port / 8) = s.lookOf (r.port / 8) ++ [(s.lineParse r).1.following (s.frag sh (r.port / 8) i)]
      ∧ Only [.regs, .counters, .headers, .lookup] s (headerParse k s) := by
  rw [headerParse_of_later due line err frag,
    fragLater_of_complete (s := s.lineTaken k rest) (x := (s.lineParse r).1) found ((epochLive_lineTaken ..).trans live) complete]
  refine ⟨hdrOf_lineTaken .., ?_, lookOf_toLook rfl, ?_⟩
  · rw [Counted, ctr_toLook, ctr_count, if_pos rfl]
    rfl
  · have counted := count_only (s.lineTaken k rest) .lookupFragFollow 0
    exact (((lineTaken_only s k rest).trans counted).trans (toLook_tame ..).only).mono (by decide)

/-- A later fragment waits on a pending entry while its slice has room (R128). -/
theorem headerParse_holds (pending : (s.frag sh (r.port / 8) i).pending = true) (room : (s.holdOf (r.port / 8)).length < 32) :
    (headerParse k s).hdrOf k = rest
      ∧ (headerParse k s).holdOf (r.port / 8) = s.holdOf (r.port / 8) ++ [{ pass := (s.lineParse r).1, shared := sh, slot := i }]
      ∧ (headerParse k s).lookup.lookQ = s.lookup.lookQ ∧ RegsOnly [Reg.epochInflight, Reg.parserSliceStatus (r.port / 8)] s (headerParse k s)
      ∧ Only [.regs, .headers, .lookup] s (headerParse k s) := by
  rw [headerParse_of_later due line err frag,
    fragLater_of_pending (s := s.lineTaken k rest) (x := (s.lineParse r).1) found ((epochLive_lineTaken ..).trans live) pending room]
  have hold := (setHold_tame (s.lineTaken k rest) (r.port / 8) (s.holdOf (r.port / 8) ++ [{ pass := (s.lineParse r).1, shared := sh, slot := i }])).only
  exact ⟨(hdrOf_congr (hold.same .headers (by decide)) k).trans (hdrOf_lineTaken ..), holdOf_setHold_self .., lookQ_setHold ..,
    (lineTaken_regs s k rest).trans (setHold_regs ..), ((lineTaken_only s k rest).trans hold).mono (by decide)⟩

end
end
end

/-! ### The ends of a hold and of an entry's life -/

/-- The state in which the oldest fragment of slice `k` has lost its hold: its pending entry is removed and the loss counted (R128). -/
def State.holdLost (s : State) (k : Nat) (h : Held) (rest : List Held) : State :=
  ((s.setHold k rest).setFrag h.shared k h.slot FragEntry.free).count .lookupFragPendingLost

section
variable (s : State) (k : Nat) (h : Held) (rest : List Held)

theorem holdLost_regs : RegsOnly (fragRegs k) s (s.holdLost k h rest) := by
  have counted : RegsOnly [] ((s.setHold k rest).setFrag h.shared k h.slot FragEntry.free) (s.holdLost k h rest) := RegsOnly.of_same (count_regs ..) []
  exact (((setHold_regs s k rest).trans (setFrag_regs ..)).trans counted).mono (by simp)

theorem holdLost_only : Only [.regs, .counters, .lookup] s (s.holdLost k h rest) := by
  have entry := (setFrag_tame (s.setHold k rest) h.shared k h.slot FragEntry.free).only
  exact (((setHold_tame s k rest).only.trans entry).trans (count_only ..)).mono (by decide)

theorem holdOf_holdLost : (s.holdLost k h rest).holdOf k = rest := (holdOf_setFrag ..).trans (holdOf_setHold_self ..)

theorem lookOf_holdLost (j : Nat) : (s.holdLost k h rest).lookOf j = s.lookOf j := lookOf_setFrag ..

theorem frag_holdLost : (s.holdLost k h rest).frag h.shared k h.slot = FragEntry.free := frag_setFrag_self (s.setHold k rest) ..

theorem ctr_holdLost (j : Nat) : (s.holdLost k h rest).ctr j = if j = ctrKey .lookupFragPendingLost 0 then (s.ctr j).bump 1 else s.ctr j := by
  have entry := (setFrag_tame (s.setHold k rest) h.shared k h.slot FragEntry.free).only
  rw [State.holdLost, ctr_count, ctr_congr (entry.same .counters (by decide))]
  rfl

end

section
variable {s : State} {k : Nat} {h : Held} {rest : List Held} (held : s.holdOf k = h :: rest) (used : (s.frag h.shared k h.slot).used = true)
  (pending : (s.frag h.shared k h.slot).pending = true) (live : s.epochLive h.pass.epoch = true)
include held used pending live

/-- The oldest held fragment's time-out while its entry is pending: the fragment of a live epoch takes the no-entry path (R128). -/
theorem fragHoldTimeout_of_pending : fragHoldTimeout k s = (s.holdLost k h rest).fragNoEntry h.pass := by
  have epoch : (s.holdLost k h rest).epochLive h.pass.epoch = true := (epochLive_of_fragRegs (holdLost_regs s k h rest) _).trans live
  simp only [fragHoldTimeout, held, frag_setHold, used, pending, Bool.and_self, if_true]
  exact if_pos epoch

theorem fragHoldTimeout_spec {p : Nat}
    (policy : s.fldEp h.pass.epoch (Reg.parserPortCfg h.pass.slice (h.pass.port % 8)) Fld.parserPortCfg_fragPolicy = p) :
    (fragHoldTimeout k s).holdOf k = rest ∧ (fragHoldTimeout k s).frag h.shared k h.slot = FragEntry.free
      ∧ Counted s (fragHoldTimeout k s) .lookupFragPendingLost 0 1 ∧ Counted s (fragHoldTimeout k s) .lookupFragNoEntry 0 1
      ∧ (fragHoldTimeout k s).lookOf h.pass.slice = s.lookOf h.pass.slice ++ [h.pass.byPolicy p (Config.freeNat s.freeCtr % 65536)]
      ∧ Only [.regs, .counters, .lookup, .free] s (fragHoldTimeout k s) := by
  have only := holdLost_only s k h rest
  have sameFree : (s.holdLost k h rest).freeCtr = s.freeCtr := only.same .free (by decide)
  have samePolicy := (fldEp_portCfg_of_fragRegs (holdLost_regs s k h rest) (only.same .banks (by decide)) ..).trans policy
  obtain ⟨counted, -, queue, hold, entry, frame⟩ := fragNoEntry_spec (s.holdLost k h rest) h.pass samePolicy
  rw [fragHoldTimeout_of_pending held used pending live]
  refine ⟨?_, ?_, ?_, ?_, ?_, ?_⟩
  · rw [hold, holdOf_holdLost]
  · rw [entry, frag_holdLost]
  · rw [Counted, ctr_fragNoEntry_of_ne (by decide) (ctrKey_ne_policyCtr (by decide) (by decide) (by decide)), ctr_holdLost, if_pos rfl]
  · rw [Counted, counted, ctr_holdLost, if_neg (by decide)]
  · rw [queue, lookOf_holdLost, sameFree]
  · exact (only.trans frame).mono (by decide)

end

/-- At the end of its life a complete entry is removed (R129). -/
theorem fragEntryExpiry_of_complete {s : State} {k i : Nat} {sh : Bool} (used : (s.frag sh k i).used = true) (complete : (s.frag sh k i).pending = false) :
    fragEntryExpiry k sh i s = s.setFrag sh k i FragEntry.free := by
  simp only [fragEntryExpiry, used, complete, Bool.not_false, Bool.and_self, if_true]

/-- A free or pending entry has no end of life (R129). -/
theorem fragEntryExpiry_of_other {s : State} {k i : Nat} {sh : Bool} (other : (s.frag sh k i).used = false ∨ (s.frag sh k i).pending = true) :
    fragEntryExpiry k sh i s = s := by
  refine if_neg ?_
  rcases other with unused | pending
  · simp [unused]
  · simp [pending]

theorem act_self (s : State) : s.act s = .next s := congrArg Host.Outcome.next (ite_self s)

/-- Settles O19, outcome by outcome of a fragment's search. The reason of FRAG_POLICY's drop and punt is a free value (log 10). -/
theorem fragmentsFollowTheFirst : Obligations.FragmentsFollowTheFirst := by
  unfold Obligations.FragmentsFollowTheFirst
  refine ⟨?_, ?_, ?_, ?_, ?_, ?_, ?_, ?_, ?_, ?_, ?_⟩
  · rintro k i sh r rest s ⟨clocked, due, line, err, frag⟩ absent free
    exact ⟨_, act_of_clocked clocked _, headerParse_reserves due line err frag absent free⟩
  · rintro k r rest s ⟨clocked, due, line, err, frag⟩ absent full
    exact ⟨_, act_of_clocked clocked _, headerParse_overflows due line err frag absent full⟩
  · rintro k i sh r rest s ⟨clocked, due, line, err, frag⟩ found live complete
    exact ⟨_, act_of_clocked clocked _, headerParse_follows due line err frag found live complete⟩
  · rintro k i sh r rest s ⟨clocked, due, line, err, frag⟩ found live pending room
    exact ⟨_, act_of_clocked clocked _, headerParse_holds due line err frag found live pending room⟩
  · rintro k r rest s ⟨clocked, due, line, err, frag⟩ absent policy
    exact ⟨_, act_of_clocked clocked _, headerParse_noEntry due line err frag absent policy⟩
  · rintro k r rest s ⟨clocked, due, line, err, frag⟩ absent policy
    exact ⟨_, act_of_clocked clocked _, headerParse_noEntry due line err frag absent policy⟩
  · rintro k r rest s ⟨clocked, due, line, err, frag⟩ absent policy
    exact ⟨_, act_of_clocked clocked _, headerParse_noEntry due line err frag absent policy⟩
  · intro k s none
    have idle : fragHoldTimeout k s = s := by simp only [fragHoldTimeout, none]
    exact (congrArg s.act idle).trans (act_self s)
  · intro k h rest s clocked held used pending live policy
    exact ⟨_, act_of_clocked clocked _, fragHoldTimeout_spec held used pending live policy⟩
  · intro k i sh s clocked used complete
    refine ⟨_, act_of_clocked clocked _, ?_⟩
    rw [fragEntryExpiry_of_complete used complete]
    exact ⟨frag_setFrag_self .., setFrag_regs .., (setFrag_tame ..).only⟩
  · intro k i sh s other
    exact (congrArg s.act (fragEntryExpiry_of_other other)).trans (act_self s)

end Sys2Proof.Machine

/-! PROOFS. What decides where a pass goes: the best row, the live LAG member, the final operation, the failed read of resolution
(R133, R147, R168, R191, R192). -/

namespace Sys2Proof.Machine

/-! ### The order of rows (R168) -/

theorem RowHit.before_iff {x y : RowHit} :
    x.before y = true ↔ y.prio < x.prio ∨ x.prio = y.prio ∧ (x.lead < y.lead ∨ x.lead = y.lead ∧ x.lrow ≤ y.lrow) := by
  simp only [RowHit.before, Bool.or_eq_true, Bool.and_eq_true, decide_eq_true_eq, beq_iff_eq]

theorem RowHit.before_refl (x : RowHit) : x.before x = true :=
  before_iff.mpr (.inr ⟨rfl, .inr ⟨rfl, Nat.le_refl _⟩⟩)

theorem RowHit.before_trans {x y z : RowHit} (xy : x.before y = true) (yz : y.before z = true) : x.before z = true := by
  rw [before_iff] at xy yz ⊢
  omega

theorem RowHit.before_of_not_before {x y : RowHit} (h : ¬y.before x = true) : x.before y = true := by
  rw [before_iff] at h ⊢
  omega

/-- What the best of the rows `l` is: none where there is no row, else a row of `l` that goes before or is every other. -/
def IsBest (l : List RowHit) : Option RowHit → Prop
  | none => l = []
  | some h => h ∈ l ∧ ∀ x ∈ l, h.before x = true

theorem isBest_nil : IsBest [] none := rfl

/-- The better of the best row so far and the next one. -/
def better : Option RowHit → RowHit → RowHit
  | none, x => x
  | some y, x => if y.before x then y else x

theorem bestHit_eq_foldl_better (l : List RowHit) : bestHit l = l.foldl (fun b x => some (better b x)) none := by
  unfold bestHit
  congr
  funext b x
  cases b with
  | none => rfl
  | some y => exact (apply_ite some ..).symm

theorem IsBest.concat {l : List RowHit} {b : Option RowHit} (best : IsBest l b) (x : RowHit) : IsBest (l ++ [x]) (some (better b x)) := by
  cases b with
  | none =>
    cases best
    exact ⟨List.mem_concat_self, List.forall_mem_singleton.mpr x.before_refl⟩
  | some y =>
    obtain ⟨mem, first⟩ := best
    rw [better]
    split
    next keeps => exact ⟨List.mem_append_left _ mem, List.forall_mem_append.mpr ⟨first, List.forall_mem_singleton.mpr keeps⟩⟩
    next gives =>
      have ahead : x.before y = true := RowHit.before_of_not_before gives
      exact ⟨List.mem_concat_self, List.forall_mem_append.mpr
        ⟨fun z hz => RowHit.before_trans ahead (first z hz), List.forall_mem_singleton.mpr x.before_refl⟩⟩

/-- The fold goes from the best of the rows seen to the best of those and the rows to come. -/
theorem IsBest.foldl {seen : List RowHit} {b : Option RowHit} (best : IsBest seen b) (l : List RowHit) :
    IsBest (seen ++ l) (l.foldl (fun b x => some (better b x)) b) := by
  induction l generalizing seen b with
  | nil => rwa [List.append_nil]
  | cons x l ih =>
    rw [List.append_cons, List.foldl_cons]
    exact ih (best.concat x)

theorem isBest_bestHit (l : List RowHit) : IsBest l (bestHit l) := by
  rw [bestHit_eq_foldl_better]
  exact isBest_nil.foldl l

/-! ### The live member of a LAG group (R147) -/

/-- A LAG group that answers with a port answers with one that is up: the slot the hash chose, or one counted among the live slots. -/
theorem sysPortUp_of_spreadLag {s : State} {g h v : Nat} (answer : s.spreadLag g h = .slot 2 v) : s.sysPortUp (v % 2 ^ 19) = true := by
  unfold State.spreadLag at answer
  extract_lets d base n live at answer
  split at answer
  · cases answer
  generalize s.member (base + h * n / 2 ^ 32) = chosen at answer
  obtain ⟨kind, port⟩ := chosen
  dsimp only at answer
  split at answer
  · cases answer
  split at answer
  next stands =>
    cases answer
    exact stands.resolve_left (not_not_intro rfl)
  split at answer
  · cases answer
  next i kth =>
    have counted := (List.mem_filter.mp (List.mem_of_getElem? kth)).2
    generalize s.member (base + i) = instead at answer counted
    obtain ⟨_, _⟩ := instead
    cases answer
    exact (Bool.and_eq_true_iff.mp counted).2

/-! ### Final operations (R133) -/

theorem Merged.applyOp_of_final {m : Merged} (final : 7 ≤ m.op ∧ m.op ≤ 9) (op arg : Nat) : m.applyOp op arg = m :=
  if_neg fun replaces => replaces.2 final

@[simp] theorem mergeProfile_op (s : State) (p : Nat) (m : Merged) : (s.mergeProfile p m).op = m.op := by
  unfold State.mergeProfile
  split <;> rfl

@[simp] theorem mergeProfile_arg (s : State) (p : Nat) (m : Merged) : (s.mergeProfile p m).arg = m.arg := by
  unfold State.mergeProfile
  split <;> rfl

theorem mergeShort_of_final {m : Merged} (final : 7 ≤ m.op ∧ m.op ≤ 9) (s : State) (r : Nat) : s.mergeShort r m = s.mergeProfile (bits r 43 32) m := by
  rw [State.mergeShort, m.applyOp_of_final final]

/-! ### Resolution that fails at its first read (R190 to R192)

LABEL_AUTO concerns a merged OP of 0 alone: any other OP is resolved as it stands. -/

/-- What resolution starts from. -/
def Merged.toRes (m : Merged) : Res :=
  { m := m, reads := 0, labelOp := 0, newLabel := 0, encap := 0, gen := 0, route := false, nh := 0, hash := .none }

theorem resolve_of_nh {s : State} {x : Pass} (op : x.m.op = 1) : s.resolve x = s.resNh x x.m.toRes (x.m.arg % 2 ^ 20) := by
  simp only [State.resolve, op, Nat.one_ne_zero, false_and, if_false, Merged.toRes]

theorem resolve_of_lag {s : State} {x : Pass} (op : x.m.op = 3) : s.resolve x = s.resLag x x.m.toRes (x.m.arg % 256) none := by
  simp only [State.resolve, op, Nat.reduceEqDiff, false_and, if_false, Merged.toRes]

theorem resolve_of_bridge {s : State} {x : Pass} (op : x.m.op = 6) : s.resolve x = s.resBridge x x.m.toRes (x.m.arg % 65536) := by
  simp only [State.resolve, op, Nat.reduceEqDiff, false_and, if_false, Merged.toRes]

section
variable {s : State} {x : Pass} (clean : x.errs.dit = [])
include clean

theorem readNh_of_invalid {i : Nat} (invalid : bit (tblWord s.mem (nhAddr i)) 63 = false) (r : Res) :
    s.readNh x r i = (s, { r with reads := r.reads + 1 }, none, false) := by
  simp only [State.readNh, clean, invalid, List.contains_nil, Bool.false_eq_true, if_false, Bool.false_and, Bool.not_false, if_true]

theorem resNh_of_invalid {i : Nat} (invalid : bit (tblWord s.mem (nhAddr i)) 63 = false) (r : Res) :
    s.resNh x r i = (s.count .lookupDitNhMiss, { r with reads := r.reads + 1 }, .stop 3 0xFF03) := by
  simp only [State.resNh, readNh_of_invalid clean invalid]
  rfl

theorem resBridge_of_invalid {bd : Nat} (invalid : bit (tbl128 s.mem (bdAddr bd)) 127 = false) (r : Res) :
    s.resBridge x r bd = (s.count .lookupDitBdMiss, { r with reads := r.reads + 1 }, .stop 3 0xFF04) := by
  simp only [State.resBridge, clean, invalid, List.contains_nil, Bool.false_eq_true, if_false, Bool.false_and, Bool.not_false, if_true]
  rfl

end

theorem spreadLag_of_invalid {s : State} {g : Nat} (invalid : bit (tblWord s.mem (lagAddr g)) 63 = false) (h : Nat) : s.spreadLag g h = .fail 0xFF0C := by
  simp only [State.spreadLag, invalid, Bool.not_false, if_true]

theorem resLag_of_invalid {s : State} {g : Nat} (invalid : bit (tblWord s.mem (lagAddr g)) 63 = false) (x : Pass) (r : Res) (e : Option Nat) :
    s.resLag x r g e = (s.count .lookupSpreadBadGroup, r.spread (s.spreadHash (bits (tblWord s.mem (lagAddr g)) 62 59) x), .stop 3 0xFF0C) := by
  simp only [State.resLag, spreadLag_of_invalid invalid]
  rfl

/-- Settles O22: the best row by the invariant `IsBest` of the fold over the rows, the LAG member by the test each of its two choices passes, and each
failure of resolution by the first read it makes. -/
theorem decisionsFollowTheirOrders : Obligations.DecisionsFollowTheirOrders := by
  unfold Obligations.DecisionsFollowTheirOrders
  refine ⟨?_, ?_, ?_, ?_, ?_, ?_⟩
  · intro l h best
    exact (best ▸ isBest_bestHit l : IsBest l (some h))
  · intro s g h v answer
    exact sysPortUp_of_spreadLag answer
  · intro s m r low high
    rw [mergeShort_of_final ⟨low, high⟩]
    exact ⟨mergeProfile_op .., mergeProfile_arg ..⟩
  · intro s x op invalid clean
    rw [resolve_of_nh op, resNh_of_invalid clean invalid]
    exact ⟨rfl, rfl⟩
  · intro s x op invalid
    rw [resolve_of_lag op, resLag_of_invalid invalid]
    exact ⟨rfl, rfl⟩
  · intro s x op invalid clean
    rw [resolve_of_bridge op, resBridge_of_invalid clean invalid]
    exact ⟨rfl, rfl⟩

end Sys2Proof.Machine

/-! PROOFS. The issue of an engine instruction, what the register instructions write, and the fault counter (R221, R225 to R227, R235, R237). -/

namespace Sys2Proof.Machine

/-! ### Table memory -/

theorem mget_memPut_of_outside (bs : Bytes) : ∀ (m : List Host.Cell) (a j : Nat), j < a ∨ a + bs.length ≤ j →
    mget (fun _ => (0 : Byte)) (memPut m a bs) j = mget (fun _ => (0 : Byte)) m j := by
  induction bs with
  | nil => intro m a j _; rfl
  | cons b bs ih =>
    intro m a j outside
    rw [List.length_cons] at outside
    rw [memPut, ih _ _ _ (by omega), mget_mput_ne _ _ _ (by omega)]

theorem MemOnly.of_same {s t : State} (h : t.mem = s.mem) (l : List (Nat × Nat)) : MemOnly l s t := ⟨fun _ _ => by rw [h]⟩

theorem MemOnly.trans_same {l : List (Nat × Nat)} {s t u : State} (h1 : MemOnly l s t) (h2 : MemOnly l t u) : MemOnly l s u :=
  ⟨fun a ha => (h2.same a ha).trans (h1.same a ha)⟩

theorem MemOnly.setMemWord {b n a : Nat} (inside : b ≤ a ∧ a + 8 ≤ b + n) (s : State) (w : Word) : MemOnly [(b, n)] s (s.setMemWord a w) := by
  refine ⟨fun j apart => mget_memPut_of_outside _ _ _ _ ?_⟩
  have := apart _ (List.mem_singleton_self _)
  have length : (natBe 8 w.toNat).length = 8 := rfl
  omega

/-! ### Engines -/

theorem eng_congr {s t : State} (h : t.engine.engines = s.engine.engines) (e : Nat) : t.eng e = s.eng e := by simp only [State.eng, h]

@[simp] theorem eng_setEng_self (s : State) (e : Nat) (x : Engine) : (s.setEng e x).eng e = x := mget_mput_self ..

theorem eng_setEng_ne (s : State) {e f : Nat} (x : Engine) (h : f ≠ e) : (s.setEng e x).eng f = s.eng f := mget_mput_ne _ _ _ h

/-! ### Sampling (R237, R238) -/

/-- The sampling ring of the cluster of engine `e` in table memory (R238). -/
abbrev sampleRing (e : Nat) : Nat × Nat := (0x0001_3000_0000 + 0x0010_0000 * (e / 32) + 0x000C_0000, 65536)

/-- From `s` to `t` no engine has changed, nor memory outside the sampling ring of the cluster of engine `e`. -/
structure SampleOnly (e : Nat) (s t : State) : Prop where
  engines : t.engine.engines = s.engine.engines
  mem : MemOnly [sampleRing e] s t

theorem SampleOnly.of_same {s t : State} (engines : t.engine.engines = s.engine.engines) (mem : t.mem = s.mem) (e : Nat) : SampleOnly e s t :=
  ⟨engines, MemOnly.of_same mem _⟩

theorem SampleOnly.trans {e : Nat} {s t u : State} (h1 : SampleOnly e s t) (h2 : SampleOnly e t u) : SampleOnly e s u :=
  ⟨h2.engines.trans h1.engines, h1.mem.trans_same h2.mem⟩

/-- A record goes to one of the ring's 4,096 places; a record lost goes to none. -/
theorem engSample_sampleOnly (s : State) (e : Nat) (x : Engine) (op fault addr clocks issue kind : Nat) :
    SampleOnly e s (s.engSample e x op fault addr clocks issue kind) := by
  refine ⟨congrArg EngineSt.engines ((engSample_tame ..).only.same .engine (by decide)), ?_⟩
  unfold State.engSample
  extract_lets c p wr a w0 w1 u
  have place : wr < 4096 := Nat.mod_lt _ (by decide)
  split
  · exact MemOnly.of_same (by rw [raiseLimited_mem, count_mem]) _
  · have first : MemOnly [sampleRing e] s (s.setMemWord a (BitVec.ofNat 64 w0)) := .setMemWord (by omega) ..
    have second : MemOnly [sampleRing e] (s.setMemWord a (BitVec.ofNat 64 w0)) u := .setMemWord (by omega) ..
    have pointer : (u.setFld p Fld.engineSamplePtr_wr ((wr + 1) % 4096)).mem = u.mem := setFld_mem ..
    exact (first.trans_same second).trans_same (.of_same pointer _)

theorem engSampled_sampleOnly (s : State) (e : Nat) (x : Engine) (op addr clocks issue : Nat) : SampleOnly e s (s.engSampled e x op addr clocks issue) := by
  unfold State.engSampled
  extract_lets c r mode left
  split
  · split
    next n u drawn =>
      have counted (l : AMap Nat) : SampleOnly e s { u with engine := { u.engine with sampLeft := l } } := by
        split at drawn <;> cases drawn <;> exact .of_same (by rfl) (by rfl) e
      extract_lets v
      split
      · exact (counted _).trans (engSample_sampleOnly ..)
      · exact counted _
  split
  · exact engSample_sampleOnly ..
  · exact .of_same rfl rfl e

/-! ### An instruction that completes (R221) -/

/-- The state in which the instruction of issue `i` does its work: a corrected read is counted (R236). -/
def State.eccCounted (s : State) (i : Issue) : State := if i.ecc = .corrected then s.count .engineClusterEccCorr (i.e / 32) else s

theorem eccCounted_sampleOnly (s : State) (i : Issue) : SampleOnly i.e s (s.eccCounted i) := by
  unfold State.eccCounted
  split
  · exact .of_same (by simp) (by simp) i.e
  · exact .of_same rfl rfl i.e

/-- What an instruction that completes leaves: its engine with the cycles counted and at the next address, then perhaps a sample. -/
theorem issue_of_completes {s : State} {i : Issue} (h : Completes s i) (op : Nat) (store : State → Engine → Nat × Nat) {f : State → Engine → Eff} {u : State}
    {y : Engine} {n pc : Nat} (go : f (s.eccCounted i) (s.eng i.e) = .go u y n pc) :
    s.issue i op store f
      = (u.setEng i.e { y with cycles := (s.eng i.e).cycles + n, pc := pc }).engSampled i.e (s.eng i.e) op (s.eng i.e).pc n ((s.eng i.e).cycles + 1) := by
  obtain ⟨⟨-, run, free, budget⟩, inside, clean⟩ := h
  have able : ¬ (!(s.eng i.e).run || (s.eng i.e).scan.isSome
      || decide (s.fld (Reg.engineProg (s.eng i.e).program) Fld.engineProg_budget ≤ (s.eng i.e).cycles + 1)) = true := by
    simp [run, free, Nat.not_le.mpr budget]
  have within : ¬ s.fld (Reg.engineProg (s.eng i.e).program) Fld.engineProg_entry + s.fld (Reg.engineProg (s.eng i.e).program) Fld.engineProg_length
      ≤ (s.eng i.e).pc := Nat.not_le.mpr inside
  rw [State.issue, if_neg able, if_neg within]
  unfold State.eccCounted at go
  rcases clean with good | corrected
  · simp only [good] at go ⊢
    simp only [go]
  · simp only [corrected] at go ⊢
    simp only [go]

/-- An instruction that completes and touches no memory changes its engine alone. -/
theorem issue_engine {s : State} {i : Issue} (h : Completes s i) (op : Nat) (store : State → Engine → Nat × Nat) {f : State → Engine → Eff} {y : Engine}
    {n pc : Nat} (go : f (s.eccCounted i) (s.eng i.e) = .go (s.eccCounted i) y n pc) :
    (s.issue i op store f).eng i.e = { y with cycles := (s.eng i.e).cycles + n, pc := pc } ∧ EngineOnly i.e [] s (s.issue i op store f) := by
  rw [issue_of_completes h op store go]
  generalize ({ y with cycles := (s.eng i.e).cycles + n, pc := pc } : Engine) = z
  have counted := eccCounted_sampleOnly s i
  have sampled := engSampled_sampleOnly ((s.eccCounted i).setEng i.e z) i.e (s.eng i.e) op (s.eng i.e).pc n ((s.eng i.e).cycles + 1)
  refine ⟨(eng_congr sampled.engines _).trans (eng_setEng_self ..), ⟨fun e other => ?_, ?_⟩⟩
  · rw [eng_congr sampled.engines, eng_setEng_ne _ _ other, eng_congr counted.engines]
  · have written : ((s.eccCounted i).setEng i.e z).mem = (s.eccCounted i).mem := rfl
    exact (counted.mem.trans_same (.of_same written _)).trans_same sampled.mem

/-- A register instruction that completes writes `v` of its engine to register `rd`, at a cost of `n` cycles, and goes on at the next instruction. -/
theorem exec_of_aluOp {c : Instr} {i : Issue} {s : State} {op n rd : Nat} (v : Engine → Word) (arm : exec c s = s.act (s.aluOp i op n rd v)) (h : Completes s i) :
    ∃ t, exec c s = .next t ∧ t.eng i.e = { (s.eng i.e).setReg rd (v (s.eng i.e)) with cycles := (s.eng i.e).cycles + n, pc := (s.eng i.e).pc + 1 }
      ∧ EngineOnly i.e [] s t ∧ Only [.regs, .mem, .counters, .events, .fcp, .obs, .engine, .free] s t := by
  obtain ⟨eng, others⟩ := issue_engine h op fetchStore (f := fun s x => .go s (x.setReg rd (v x)) n (x.pc + 1)) rfl
  exact ⟨_, arm.trans (act_of_clocked h.issues.clocked _), eng, others, (aluOp_tame ..).only⟩

/-! ### Leading zeros -/

theorem leadingZeros_spec (w : Word) :
    (leadingZeros w = 64 ∧ w = 0) ∨ (leadingZeros w < 64 ∧ w.getLsbD (63 - leadingZeros w) = true ∧ ∀ j < leadingZeros w, w.getLsbD (63 - j) = false) := by
  unfold leadingZeros
  cases found : (List.range 64).find? (fun j => w.getLsbD (63 - j)) with
  | none =>
    have clear := List.find?_range_eq_none.mp found
    refine .inl ⟨rfl, BitVec.eq_of_getLsbD_eq fun j hj => ?_⟩
    have := clear (63 - j) (by omega)
    rw [show 63 - (63 - j) = j by omega] at this
    simpa using this
  | some k =>
    obtain ⟨set, mem, clear⟩ := List.find?_range_eq_some.mp found
    exact .inr ⟨List.mem_range.mp mem, set, fun j hj => by simpa using clear j hj⟩

/-- Settles O29: each instruction is the one operation `exec_of_aluOp` speaks of, here with its function of Table 9.5; CLZ by what its search for the first
bit set finds. -/
theorem registerInstructionsWriteTheirResult : Obligations.RegisterInstructionsWriteTheirResult := by
  unfold Obligations.RegisterInstructionsWriteTheirResult
  refine ⟨?_, ?_, ?_, ?_, ?_, ?_, ?_, ?_, ?_, ?_, ?_, ?_, ?_, ?_, ?_, ?_, ?_, ?_, ?_, ?_⟩
  · exact fun _ _ ra rb _ => exec_of_aluOp (fun x => x.reg ra + x.reg rb) rfl
  · exact fun _ _ ra rb _ => exec_of_aluOp (fun x => x.reg ra - x.reg rb) rfl
  · exact fun _ _ ra rb _ => exec_of_aluOp (fun x => x.reg ra &&& x.reg rb) rfl
  · exact fun _ _ ra rb _ => exec_of_aluOp (fun x => x.reg ra ||| x.reg rb) rfl
  · exact fun _ _ ra rb _ => exec_of_aluOp (fun x => x.reg ra ^^^ x.reg rb) rfl
  · exact fun _ _ ra rb _ => exec_of_aluOp (fun x => x.reg ra <<< ((x.reg rb).toNat % 64)) rfl
  · exact fun _ _ ra rb _ => exec_of_aluOp (fun x => x.reg ra >>> ((x.reg rb).toNat % 64)) rfl
  · exact fun _ _ ra rb _ => exec_of_aluOp (fun x => if (x.reg ra).toNat ≤ (x.reg rb).toNat then x.reg ra else x.reg rb) rfl
  · exact fun _ _ ra rb _ => exec_of_aluOp (fun x => if (x.reg ra).toNat ≤ (x.reg rb).toNat then x.reg rb else x.reg ra) rfl
  · exact fun _ _ ra rb _ => exec_of_aluOp (fun x => BitVec.ofNat 64 (crcMsb poly32C ((x.reg ra).toNat % 2 ^ 32) (natBe 8 (x.reg rb).toNat))) rfl
  · exact fun _ _ ra _ => exec_of_aluOp (fun x => BitVec.ofNat 64 (leadingZeros (x.reg ra))) rfl
  · exact fun _ _ ra imm _ => exec_of_aluOp (fun x => x.reg ra + imm.signExtend 64) rfl
  · exact fun _ _ ra imm _ => exec_of_aluOp (fun x => x.reg ra &&& imm.setWidth 64) rfl
  · exact fun _ _ ra imm _ => exec_of_aluOp (fun x => x.reg ra ||| imm.setWidth 64) rfl
  · exact fun _ _ ra imm _ => exec_of_aluOp (fun x => x.reg ra ^^^ imm.setWidth 64) rfl
  · exact fun _ _ ra imm _ => exec_of_aluOp (fun x => x.reg ra <<< (imm.toNat % 64)) rfl
  · exact fun _ _ ra imm _ => exec_of_aluOp (fun x => x.reg ra >>> (imm.toNat % 64)) rfl
  · exact fun _ _ imm _ => exec_of_aluOp (fun _ => imm.setWidth 64) rfl
  · exact fun _ rd sz imm _ => exec_of_aluOp (fun x => BitVec.ofNat 64 (setBits (x.reg rd).toNat (16 * (sz % 4)) 16 imm.toNat)) rfl
  · intro w
    rcases leadingZeros_spec w with ⟨all, rfl⟩ | ⟨below, set, clear⟩
    · exact ⟨iff_of_true all rfl, fun _ _ => BitVec.getLsbD_zero, fun nonzero => absurd rfl nonzero⟩
    · refine ⟨iff_of_false (Nat.ne_of_lt below) ?_, clear, fun _ => set⟩
      rintro rfl
      simp at set

/-! ### A fault counted in the counter that its own event counts in -/

namespace StrayEngine

/-- The cluster whose fault counter has the key of the counter of boot log records lost: the keys of two counters of one unit number lie a multiple of
1,048,576 apart (`ctrKey`). -/
def cluster : Nat := 1048576 * (Ctr.controlLoaderBootlogLost.ctorIdx - Ctr.engineClusterFault.ctorIdx)

/-- An issue by the first engine of that cluster. -/
def issue : Issue := { e := 32 * cluster, ecc := .good }

/-- Any record. -/
def record : EventRec := { code := 0, held := 0, seq := 0, time := [], data := [] }

/-- A device in start-up, its boot log full. The engine runs program 0, which has a budget of 2 cycles and no instructions. -/
def state : State :=
  { State.reset with
    boot := { Boot.cold with stage := .header }
    ev := { Events.cold with bootLog := List.replicate 64 record }
    regs := [(Reg.engineProg 0, putField Fld.engineProg_budget 2 0)]
    engine := { State.reset.engine with engines := [(issue.e, { Engine.idle with run := true, program := 0 })] } }

theorem issues : Issues state issue.e := ⟨rfl, rfl, rfl, by decide +kernel⟩

theorem beyond_program : state.progEnds issue.e ≤ (state.eng issue.e).pc := by decide +kernel

/-- The fault is counted, and so is the record that its event 0x0502 pushes out of the boot log. -/
theorem ctr_engNop : (engNop issue state).ctr (ctrKey .engineClusterFault (issue.e / 32)) = (CtrVal.zero.bump 1).bump 1 := by decide +kernel

end StrayEngine

/-- Refutes O31: its clauses on faults, here fault 7, bound no engine number. The fault counter of the cluster of `StrayEngine.issue`, whose engine lies far
beyond the device's 256, is the counter of boot log records lost too (`ctrKey`); with the boot log full the fault's event counts in it again, so that the
fault counts two where R235 counts one. -/
theorem not_callsReturnsAndFetchesBeyondTheProgram : ¬ Obligations.CallsReturnsAndFetchesBeyondTheProgram := by
  unfold Obligations.CallsReturnsAndFetchesBeyondTheProgram
  intro h
  obtain ⟨-, -, -, -, fetch⟩ := h
  obtain ⟨t, ran, -, counted, -⟩ := fetch (.nop StrayEngine.issue) StrayEngine.issue StrayEngine.state rfl StrayEngine.issues StrayEngine.beyond_program
  have answer : engNop StrayEngine.issue StrayEngine.state = t := act_next_inj (s := StrayEngine.state) rfl ran
  rw [← answer, Counted, StrayEngine.ctr_engNop] at counted
  exact absurd counted (by decide)

end Sys2Proof.Machine

/-! PROOFS. The HBM controllers: a request counted in the counter of the filter that it matches, and how controllers freeze and return (R271, R279 to R288, R422). -/

namespace Sys2Proof.Machine

/-! ### A refused request counted in the counter of its own filter -/

namespace StrayRequest

/-- The controller number for which the counter of refused requests has the key of filtered counter 0 (`ctrKey`, `bankKey`). -/
def ctl : Nat := bankKey 0x200 0 - ctrKey .hbmctlReqRefused 0

/-- A request with the reserved hint 3. -/
def request : HbmReq := { write := false, hint := 3, cls := 0, len := 0, burst := 0, tag := 0, data := [] }

/-- A filter that every HBM request matches (R422). -/
def filter : Filter := { kind := 4, priv := 0, tc := 0, mval := 0, mmask := 0, lo := 0, hi := 0 }

/-- The device in service, with that filter in filtered counter 0. -/
def state : State :=
  { State.reset with
    boot := { Boot.cold with stage := .running, fwRunning := true }
    obs := { Obs.cold with filters := [(0, filter)] } }

/-- The request is counted by the filter it matches, and as one refused. -/
theorem ctr_hbmRequest : (hbmRequest ctl request state).ctr (ctrKey .hbmctlReqRefused ctl) = (CtrVal.zero.bump 1).bump 1 := by decide +kernel

end StrayRequest

/-- Refutes O36: its clause on requests that R271 refuses bounds no controller number. The counter of refused requests of the controller
`StrayRequest.ctl`, far beyond the device's 512, is filtered counter 0 too; a filter there that the request matches (R422) counts it in that counter first,
so that the refusal counts two where R271 counts one. -/
theorem not_hbmRequestsAreServed : ¬ Obligations.HbmRequestsAreServed := by
  unfold Obligations.HbmRequestsAreServed
  intro h
  obtain ⟨refused, -⟩ := h
  obtain ⟨t, ran, -, counted, -⟩ := refused StrayRequest.ctl StrayRequest.request StrayRequest.state rfl rfl
  have answer : hbmRequest StrayRequest.ctl StrayRequest.request StrayRequest.state = t := act_next_inj (s := StrayRequest.state) rfl ran
  rw [← answer, Counted, StrayRequest.ctr_hbmRequest] at counted
  exact absurd counted (by decide)

/-! ### Controllers and passes -/

theorem ctl_congr {s t : State} (h : t.hbm = s.hbm) (x : Nat) : t.ctl x = s.ctl x := by simp only [State.ctl, h]

@[simp] theorem ctl_setCtl_self (s : State) (x : Nat) (c : HbmCtl) : (s.setCtl x c).ctl x = c := mget_mput_self ..

@[simp] theorem hbmPass_setPass_self (s : State) (n : Nat) (p : HbmPass) : (s.setPass n p).hbmPass n = p := mget_mput_self ..

theorem hbmState_congr {s t : State} (h : t.regs = s.regs) (x : Nat) : t.hbmState x = s.hbmState x := fld_congr h ..

theorem hbmState_setHbmState (s : State) (x v : Nat) : (s.setHbmState x v).hbmState x = v % 8 := fld_setFld_self _ _ _ _ (by decide)

theorem setHbmState_regs (s : State) (x v : Nat) : RegsOnly [Reg.hbmStatus x] s (s.setHbmState x v) := RegsOnly.setFld ..

/-- From `s` to `t` controller `x` keeps its state (Table 11.4) and its HBM_CTRL. -/
structure SameMode (x : Nat) (s t : State) : Prop where
  state : t.hbmState x = s.hbmState x
  ctrl : t.reg (Reg.hbmCtrl x) = s.reg (Reg.hbmCtrl x)

theorem SameMode.trans {x : Nat} {s t u : State} (h1 : SameMode x s t) (h2 : SameMode x t u) : SameMode x s u :=
  ⟨h2.state.trans h1.state, h2.ctrl.trans h1.ctrl⟩

theorem SameMode.of_regs {s t : State} (h : t.regs = s.regs) (x : Nat) : SameMode x s t := ⟨hbmState_congr h x, reg_congr h _⟩

theorem SameMode.setReg (s : State) {x a : Nat} (w : Word) (h : a ≠ Reg.hbmStatus x ∧ a ≠ Reg.hbmCtrl x) : SameMode x s (s.setReg a w) :=
  ⟨congrArg (getField _) (reg_setReg_ne s w h.1.symm), reg_setReg_ne s w h.2.symm⟩

theorem SameMode.setFld (s : State) {x a : Nat} (f : Field) (v : Nat) (h : a ≠ Reg.hbmStatus x ∧ a ≠ Reg.hbmCtrl x) : SameMode x s (s.setFld a f v) :=
  SameMode.setReg s _ h

theorem hbmCtrl_ne_hbmStatus (x : Nat) : Reg.hbmCtrl x ≠ Reg.hbmStatus x := by simp only [Reg.hbmCtrl, Reg.hbmStatus]; omega

/-- A field of HBM_STATUS beside STATE is written. -/
theorem SameMode.setStatus (s : State) (x : Nat) {f : Field} (v : Nat) (h : Fld.hbmStatus_state.apart f) : SameMode x s (s.setFld (Reg.hbmStatus x) f v) :=
  ⟨fld_setFld_apart s _ v h, reg_setFld_ne s f v (hbmCtrl_ne_hbmStatus x)⟩

theorem SameMode.foldl {α : Type} {x : Nat} {g : State → α → State} (l : List α) (h : ∀ a ∈ l, ∀ s, SameMode x s (g s a)) : ∀ s, SameMode x s (l.foldl g s) := by
  induction l with
  | nil => exact fun s => SameMode.of_regs rfl x
  | cons a l ih => exact fun s => (h a List.mem_cons_self s).trans (ih (fun b hb => h b (List.mem_cons_of_mem _ hb)) _)

/-! ### Counters of one unit -/

/-- Of two counters of one unit, one is not the other's. -/
theorem ctrKey_ne {c d : Ctr} (h : c.ctorIdx ≠ d.ctorIdx) (x : Nat) : ctrKey c x ≠ ctrKey d x := by
  simp only [ctrKey]; omega

/-- The counters of HBM controllers that recording an event leaves alone. -/
theorem quiet_ctrKey {c : Ctr} {x : Nat} (hx : x < 512)
    (h : c.ctorIdx < 2 ^ 20 ∧ c.ctorIdx ≠ Ctr.controlTelemetryLost.ctorIdx ∧ c.ctorIdx ≠ Ctr.controlFcpEventLost.ctorIdx
      ∧ c.ctorIdx ≠ Ctr.controlLoaderBootlogLost.ctorIdx) : Quiet (ctrKey c x) := by
  obtain ⟨named, tele, event, log⟩ := h
  refine ⟨?_, ?_, ?_, ?_⟩ <;> simp only [ctrKey] <;> omega

/-! ### What may follow an event that is recorded -/

/-- From `s` to `t` at most `n` events are recorded; no controller of HBM changes but for its registers, and no counter that recording an event
leaves alone. -/
structure Reports (n : Nat) (s t : State) : Prop where
  hbm : t.hbm = s.hbm
  time : t.time = s.time
  ctr : ∀ k, Quiet k → t.ctr k = s.ctr k
  later : Later (5 * n) s t
  log : Logged n s t

theorem Reports.trans {m n : Nat} {s t u : State} (h1 : Reports m s t) (h2 : Reports n t u) : Reports (m + n) s u :=
  ⟨h2.hbm.trans h1.hbm, h2.time.trans h1.time, fun k q => (h2.ctr k q).trans (h1.ctr k q), (h1.later.trans h2.later).mono (by omega), h1.log.trans h2.log⟩

theorem Reports.mono {m n : Nat} {s t : State} (h : Reports m s t) (hn : m ≤ n) : Reports n s t :=
  ⟨h.hbm, h.time, h.ctr, h.later.mono (by omega), h.log.mono hn⟩

theorem Reports.of_only {l : List Part} {s t : State} (h : Only l s t) (hl : [Part.hbm, .time, .counters, .events, .boot].all (fun p => !l.contains p) = true) :
    Reports 0 s t := by
  have apart : ∀ p ∈ [Part.hbm, .time, .counters, .events, .boot], p ∉ l := by simpa using hl
  have events := h.same .events (apart _ (by decide))
  exact ⟨h.same .hbm (apart _ (by decide)), h.same .time (apart _ (by decide)), fun k _ => ctr_congr (h.same .counters (apart _ (by decide))) k,
    Later.of_ev events, Logged.of_same (h.same .boot (apart _ (by decide))) events⟩

theorem Reports.refl (s : State) : Reports 0 s s := Reports.of_only (Only.refl [] s) (by decide)

theorem Reports.setFld (s : State) (a : Nat) (f : Field) (v : Nat) : Reports 0 s (s.setFld a f v) := Reports.of_only (setFld_tame ..).only (by decide)

theorem Reports.raise (s : State) (code : Nat) (data : Bytes) : Reports 1 s (s.raise code data) :=
  ⟨raise_hbm .., raise_time .., fun _ q => raise_ctr s code data q, raise_later .., raise_logged ..⟩

theorem Reports.recorded {n : Nat} {s t : State} {code : Nat} {data : Bytes} (h : Reports n (s.raise code data) t) (hn : n < 64) : Recorded s t code data :=
  raise_recorded_later h.later (by omega) h.log hn

/-! ### The pool fences and takes back a controller -/

theorem poolStatus_apart (x : Nat) : Reg.trafficPoolStatus ≠ Reg.hbmStatus x ∧ Reg.trafficPoolStatus ≠ Reg.hbmCtrl x := by
  simp only [Reg.trafficPoolStatus, Reg.hbmStatus, Reg.hbmCtrl]; omega

theorem poolFence_mode (s : State) (x c : Nat) : SameMode x s (s.poolFence c) :=
  ((SameMode.setFld s _ _ (poolStatus_apart x)).trans (SameMode.setFld _ _ _ (poolStatus_apart x))).trans (SameMode.of_regs (raise_regs ..) x)

theorem poolFence_reports (s : State) (c : Nat) : Reports 1 s (s.poolFence c) := ((Reports.setFld ..).trans (Reports.setFld ..)).trans (Reports.raise ..)

theorem poolRejoin_mode (s : State) (x c : Nat) : SameMode x s (s.poolRejoin c) :=
  ((SameMode.setFld s _ _ (poolStatus_apart x)).trans (SameMode.setFld _ _ _ (poolStatus_apart x))).trans (SameMode.of_regs (raise_regs ..) x)

theorem poolRejoin_reports (s : State) (c : Nat) : Reports 1 s (s.poolRejoin c) := ((Reports.setFld ..).trans (Reports.setFld ..)).trans (Reports.raise ..)

theorem setTaint_mode (s : State) (c : Nat) (l : List Nat) : SameMode (128 + c) s (s.setTaint c l) :=
  (SameMode.of_regs (by rfl) _).trans (SameMode.setStatus _ _ _ (by decide))

theorem setTaint_reports (s : State) (c : Nat) (l : List Nat) : Reports 0 s (s.setTaint c l) := Reports.of_only (setTaint_tame ..).only (by decide)

theorem taintTake_mode (s : State) (c : Nat) : SameMode (128 + c) s (s.taintTake c) := by
  unfold State.taintTake
  extract_lets held
  split
  · exact poolRejoin_mode ..
  · split
    · exact (setTaint_mode ..).trans (poolRejoin_mode ..)
    · exact (SameMode.setStatus _ _ _ (by decide)).trans (SameMode.of_regs (raise_regs ..) _)

theorem taintTake_reports (s : State) (c : Nat) : Reports 1 s (s.taintTake c) := by
  unfold State.taintTake
  extract_lets held
  split
  · exact poolRejoin_reports ..
  · split
    · exact (setTaint_reports ..).trans (poolRejoin_reports ..)
    · exact (Reports.setFld ..).trans (Reports.raise ..)

/-! ### A freeze (R282, R285) -/

theorem freezeRegs_apart (x : Nat) :
    (Reg.hbmSyndrome x ≠ Reg.hbmStatus x ∧ Reg.hbmSyndrome x ≠ Reg.hbmCtrl x)
      ∧ ∀ i < 256, (Reg.hbmCaptureW0 x i ≠ Reg.hbmStatus x ∧ Reg.hbmCaptureW0 x i ≠ Reg.hbmCtrl x)
        ∧ (Reg.hbmCaptureW1 x i ≠ Reg.hbmStatus x ∧ Reg.hbmCaptureW1 x i ≠ Reg.hbmCtrl x) := by
  refine ⟨?_, fun i hi => ?_⟩ <;> simp only [Reg.hbmSyndrome, Reg.hbmStatus, Reg.hbmCtrl, Reg.hbmCaptureW0, Reg.hbmCaptureW1] <;> omega

theorem hbmCapture_mode (s : State) (x : Nat) : SameMode x s (s.hbmCapture x) := by
  obtain ⟨-, capture⟩ := freezeRegs_apart x
  unfold State.hbmCapture
  extract_lets c base
  refine (SameMode.foldl _ (fun p _ s => ?_) s).trans (SameMode.setStatus _ x base (by decide))
  obtain ⟨w0, w1⟩ := capture ((base + p.1) % 256) (Nat.mod_lt _ (by decide))
  exact (SameMode.setReg s _ w0).trans (SameMode.setReg _ _ w1)

/-- The freezes of controller `x` within the last 10 s. -/
def State.recentFreezes (s : State) (x : Nat) : List Nat := (s.ctl x).freezes.filter (fun t => decide (s.time.stepFree < t + 10000000000))

/-- The registers as a freeze leaves them. -/
def State.haltRegs (s : State) (x cause : Nat) (r : Option HbmReq) (burst syn : Nat) : State :=
  ((((s.setHbmState x 3).hbmCapture x).setReg (Reg.hbmSyndrome x) (BitVec.ofNat 64 (synWord cause r burst syn))).setFld (Reg.hbmStatus x)
    Fld.hbmStatus_freezes (min (s.recentFreezes x ++ [s.time.stepFree]).length 15)).setFld (Reg.hbmStatus x) Fld.hbmStatus_waitMap 0

/-- Every queued request answered with status 3, and no row open and nothing owed. -/
def State.haltQueue (s : State) (x : Nat) (queue : List HbmWait) (freezes : List Nat) (lost : Nat) : State :=
  let s := queue.foldl (fun s w => s.hbmAnswer x w.r.tag 3 []) s
  s.setCtl x { s.ctl x with queue := [], open_ := [], owed := [], freezes := freezes, lost := lost, fails := 0, drain := false }

/-- The queued writes of controller `x`. -/
def State.queuedWrites (s : State) (x : Nat) : Nat := ((s.ctl x).queue.filter (fun w => w.r.write)).length

/-- The device when a freeze is to be recorded. -/
def State.halted (s : State) (x cause : Nat) (r : Option HbmReq) (burst syn : Nat) : State :=
  ((((s.count (causeCtr cause) x).haltRegs x cause r burst syn).haltQueue x (s.ctl x).queue (s.recentFreezes x ++ [s.time.stepFree])
    (s.queuedWrites x)).countN .hbmctlWritesLost x (s.queuedWrites x)).count .hbmctlFreeze x

/-- The answers with status 3 to the requests that a freeze finds queued (R282). -/
abbrev lostAnswers (x : Nat) (l : List HbmWait) : List HbmAnswer := l.map (fun w => { x := x, tag := w.r.tag, status := 3, data := [] })

theorem foldl_hbmAnswer (x : Nat) (l : List HbmWait) : ∀ s : State, l.foldl (fun s w => s.hbmAnswer x w.r.tag 3 []) s
    = { s with hbm := { s.hbm with answers := s.hbm.answers ++ lostAnswers x l } } := by
  induction l with
  | nil => intro s; simp
  | cons w l ih => intro s; rw [List.foldl_cons, ih]; simp [State.hbmAnswer]

theorem haltRegs_mode (s : State) (x cause : Nat) (r : Option HbmReq) (burst syn : Nat) : SameMode x (s.setHbmState x 3) (s.haltRegs x cause r burst syn) :=
  (((hbmCapture_mode _ x).trans (SameMode.setReg _ _ (freezeRegs_apart x).1)).trans (SameMode.setStatus _ x _ (by decide))).trans
    (SameMode.setStatus _ x _ (by decide))

theorem haltRegs_only (s : State) (x cause : Nat) (r : Option HbmReq) (burst syn : Nat) : Only [.regs] s (s.haltRegs x cause r burst syn) :=
  (((((setHbmState_tame ..).trans_same (hbmCapture_tame ..)).trans_same (setReg_tame ..)).trans_same (setFld_tame ..)).trans_same (setFld_tame ..)).only

theorem haltQueue_only (s : State) (x : Nat) (l : List HbmWait) (fr : List Nat) (lost : Nat) : Only [.hbm] s (s.haltQueue x l fr lost) :=
  (Only.foldl (fun s w => (hbmAnswer_tame s x w.r.tag 3 []).only) l s).trans_same (setCtl_tame ..).only

theorem haltQueue_answers (s : State) (x : Nat) (l : List HbmWait) (fr : List Nat) (lost : Nat) :
    (s.haltQueue x l fr lost).hbm.answers = s.hbm.answers ++ lostAnswers x l := by
  simp only [State.haltQueue, foldl_hbmAnswer]; rfl

/-- What a freeze has made of the device when it is recorded. -/
structure Halted (s t : State) (x cause : Nat) : Prop where
  state : t.hbmState x = 3
  ctrl : t.reg (Reg.hbmCtrl x) = s.reg (Reg.hbmCtrl x)
  queue : (t.ctl x).queue = []
  answers : t.hbm.answers = s.hbm.answers ++ lostAnswers x (s.ctl x).queue
  frozen : Counted s t .hbmctlFreeze x 1
  counted : Counted s t (causeCtr cause) x 1
  time : t.time = s.time

theorem ctr_countN_ne (s : State) (c : Ctr) (i n : Nat) {k : Nat} (h : k ≠ ctrKey c i) : (s.countN c i n).ctr k = s.ctr k := by
  rw [State.countN, ctr_bumpKey, if_neg h]

theorem ctr_halted (s : State) (x cause : Nat) (r : Option HbmReq) (burst syn : Nat) {k : Nat} (h : k ≠ ctrKey .hbmctlWritesLost x) :
    (s.halted x cause r burst syn).ctr k = ((s.count (causeCtr cause) x).count .hbmctlFreeze x).ctr k := by
  let u := (s.count (causeCtr cause) x).haltRegs x cause r burst syn
  have regs : u.ctrs = _ := (haltRegs_only ..).same .counters (by decide)
  have queue := (haltQueue_only u x (s.ctl x).queue (s.recentFreezes x ++ [s.time.stepFree]) (s.queuedWrites x)).same .counters (by decide)
  rw [State.halted, ctr_count, ctr_countN_ne _ _ _ _ h, ctr_congr (queue.trans regs), ctr_count _ .hbmctlFreeze]

theorem causeCtr_apart (cause : Nat) : (causeCtr cause).ctorIdx ≠ Ctr.hbmctlFreeze.ctorIdx ∧ (causeCtr cause).ctorIdx ≠ Ctr.hbmctlWritesLost.ctorIdx := by
  unfold causeCtr
  split <;> decide

theorem halted_spec (s : State) (x cause : Nat) (r : Option HbmReq) (burst syn : Nat) : Halted s (s.halted x cause r burst syn) x cause := by
  let u := (s.count (causeCtr cause) x).haltRegs x cause r burst syn
  have mode : SameMode x ((s.count (causeCtr cause) x).setHbmState x 3) u := haltRegs_mode ..
  have queued := haltQueue_only u x (s.ctl x).queue (s.recentFreezes x ++ [s.time.stepFree]) (s.queuedWrites x)
  have regs : (s.halted x cause r burst syn).regs = u.regs := queued.same .regs (by decide)
  have kept : u.hbm = s.hbm := (haltRegs_only ..).same .hbm (by decide)
  have time : u.time = s.time := (haltRegs_only ..).same .time (by decide)
  obtain ⟨notFreeze, notLost⟩ := causeCtr_apart cause
  refine ⟨?_, ?_, ?_, ?_, ?_, ?_, ?_⟩
  · rw [hbmState_congr regs, mode.state, hbmState_setHbmState]
  · rw [reg_congr regs, mode.ctrl, State.setHbmState, reg_setFld_ne _ _ _ (hbmCtrl_ne_hbmStatus x), reg_count]
  · exact congrArg HbmCtl.queue (ctl_setCtl_self ..)
  · exact (haltQueue_answers ..).trans (by rw [kept])
  · rw [Counted, ctr_halted _ _ _ _ _ _ (ctrKey_ne (by decide) x), ctr_count, if_pos rfl, ctr_count, if_neg (ctrKey_ne notFreeze.symm x)]
  · rw [Counted, ctr_halted _ _ _ _ _ _ (ctrKey_ne notLost x), ctr_count, if_neg (ctrKey_ne notFreeze x), ctr_count, if_pos rfl]
  · exact (queued.same .time (by decide)).trans time

/-- A running controller that freezes for another cause than an uncorrectable read: the freeze is recorded, the pool fences it where it is a buffer
controller, and it retires beyond FREEZE_LIMIT. -/
theorem hbmFreeze_of_running {s : State} {x cause : Nat} (runs : s.hbmState x = 1 ∨ s.hbmState x = 2) (hc : cause ≠ 1) (r : Option HbmReq) (burst syn : Nat) :
    ∃ u, SameMode x (s.halted x cause r burst syn) u ∧ Reports 2 ((s.halted x cause r burst syn).raise 0x0701 (natBe 2 x ++ natBe 1 cause)) u
      ∧ s.hbmFreeze x cause r burst syn
        = if u.fld (Reg.hbmCtrl x) Fld.hbmCtrl_freezeLimit < (s.recentFreezes x ++ [s.time.stepFree]).length then u.hbmRetire x 2 else u := by
  have stays : ¬ ((s.count (causeCtr cause) x).hbmState x ≠ 1 ∧ (s.count (causeCtr cause) x).hbmState x ≠ 2) := by
    rw [hbmState_congr (count_regs ..)]; omega
  let t := (s.halted x cause r burst syn).raise 0x0701 (natBe 2 x ++ natBe 1 cause)
  have raised : SameMode x (s.halted x cause r burst syn) t := SameMode.of_regs (raise_regs ..) x
  unfold State.hbmFreeze
  simp only [if_neg stays, if_neg hc]
  split
  · exact ⟨_, raised.trans (poolFence_mode t x (x - 128)), (poolFence_reports t (x - 128)).mono (by decide), rfl⟩
  · exact ⟨t, raised, (Reports.refl t).mono (by decide), rfl⟩

/-- From `s` to `t` controller `x` has frozen with `cause` (R282), or retired by its freeze (R285). -/
def Stopped (s t : State) (x cause : Nat) : Prop :=
  t.hbmState x = (if s.fld (Reg.hbmCtrl x) Fld.hbmCtrl_freezeLimit < (s.recentFreezes x).length + 1 then 5 else 3) ∧ Counted s t .hbmctlFreeze x 1
    ∧ Counted s t (causeCtr cause) x 1 ∧ Recorded s t 0x0701 (natBe 2 x ++ natBe 1 cause) ∧ (t.ctl x).queue = []
    ∧ t.hbm.answers = s.hbm.answers ++ lostAnswers x (s.ctl x).queue

theorem hbmRetire_reports (s : State) (x reason : Nat) : Reports 1 s (s.hbmRetire x reason) := (Reports.setFld ..).trans (Reports.raise ..)

theorem hbmState_hbmRetire (s : State) (x reason : Nat) : (s.hbmRetire x reason).hbmState x = 5 := by
  rw [State.hbmRetire, hbmState_congr (raise_regs ..), hbmState_setHbmState]

theorem quiet_causeCtr (cause : Nat) {x : Nat} (hx : x < 512) : Quiet (ctrKey (causeCtr cause) x) := by
  refine quiet_ctrKey hx ?_
  unfold causeCtr
  split <;> decide

/-- What follows a freeze that is recorded leaves what it counted and answered. -/
theorem Halted.stopped {s u t : State} {x cause : Nat} (h : Halted s u x cause) (hx : x < 512)
    (rest : Reports 3 (u.raise 0x0701 (natBe 2 x ++ natBe 1 cause)) t)
    (state : t.hbmState x = if s.fld (Reg.hbmCtrl x) Fld.hbmCtrl_freezeLimit < (s.recentFreezes x).length + 1 then 5 else 3) : Stopped s t x cause := by
  have all := (Reports.raise u 0x0701 (natBe 2 x ++ natBe 1 cause)).trans rest
  exact ⟨state, (all.ctr _ (quiet_ctrKey hx (by decide))).trans h.frozen, (all.ctr _ (quiet_causeCtr cause hx)).trans h.counted,
    (rest.recorded (by decide)).of_tod h.time, by rw [ctl_congr all.hbm, h.queue], by rw [all.hbm, h.answers]⟩

theorem hbmFreeze_stopped {s : State} {x cause : Nat} (hx : x < 512) (runs : s.hbmState x = 1 ∨ s.hbmState x = 2) (hc : cause ≠ 1) (r : Option HbmReq)
    (burst syn : Nat) : Stopped s (s.hbmFreeze x cause r burst syn) x cause := by
  have halted := halted_spec s x cause r burst syn
  obtain ⟨u, mode, reports, freeze⟩ := hbmFreeze_of_running runs hc r burst syn
  have limit : u.fld (Reg.hbmCtrl x) Fld.hbmCtrl_freezeLimit = s.fld (Reg.hbmCtrl x) Fld.hbmCtrl_freezeLimit :=
    congrArg (getField _) (mode.ctrl.trans halted.ctrl)
  rw [freeze, limit, List.length_append, List.length_singleton]
  split
  next beyond => exact halted.stopped hx (reports.trans (hbmRetire_reports u x 2)) (by rw [hbmState_hbmRetire, if_pos beyond])
  next within => exact halted.stopped hx (reports.mono (by decide)) (by rw [mode.state, halted.state, if_neg within])

/-- What leaves the controllers, counters and events alone keeps a freeze. -/
theorem Stopped.keep {s t u : State} {x cause : Nat} (h : Stopped s t x cause) (mode : SameMode x t u) (only : Only [.regs, .hbm] t u)
    (ctl : u.ctl x = t.ctl x) (answers : u.hbm.answers = t.hbm.answers) : Stopped s u x cause := by
  obtain ⟨state, frozen, counted, recorded, queue, answered⟩ := h
  have ctrs : u.ctrs = t.ctrs := only.same .counters (by decide)
  have boot : u.boot = t.boot := only.same .boot (by decide)
  exact ⟨mode.state.trans state, (ctr_congr ctrs _).trans frozen, (ctr_congr ctrs _).trans counted,
    recorded.keep (only.same .events (by decide)) (by rw [boot]) (by rw [boot]), by rw [ctl, queue], answers.trans answered⟩

/-! ### Training passes (R279) -/

theorem stackStatus_apart {x : Nat} (hx : x < 512) (n : Nat) : Reg.hbmStackStatus n ≠ Reg.hbmStatus x ∧ Reg.hbmStackStatus n ≠ Reg.hbmCtrl x := by
  simp only [Reg.hbmStackStatus, Reg.hbmStatus, Reg.hbmCtrl]; omega

/-- A pass that starts while none runs. -/
theorem passStart_of_idle {s : State} {n : Nat} (idle : s.flag (Reg.hbmStackStatus n) Fld.hbmStackStatus_passActive = false) :
    s.passStart n = ((s.setFld (Reg.hbmStackStatus n) Fld.hbmStackStatus_trainTemp (s.fld (Reg.hbmStackStatus n) Fld.hbmStackStatus_temp)).setFld
      (Reg.hbmStackStatus n) Fld.hbmStackStatus_passActive 1).setPass n { next := 0, due := false } := by
  simp only [State.passStart, idle, Bool.false_eq_true, if_false]

theorem passStart_of_active {s : State} {n : Nat} (active : s.flag (Reg.hbmStackStatus n) Fld.hbmStackStatus_passActive = true) :
    s.passStart n = s.setPass n { s.hbmPass n with due := true } := by
  simp only [State.passStart, active, if_true]

/-- What a pass that starts while none runs makes of its stack: it is active at pseudo-channel 0, with the stack's temperature taken (R279). -/
theorem passStart_spec {s : State} {n : Nat} (idle : s.flag (Reg.hbmStackStatus n) Fld.hbmStackStatus_passActive = false) :
    (s.passStart n).flag (Reg.hbmStackStatus n) Fld.hbmStackStatus_passActive = true
      ∧ (s.passStart n).fld (Reg.hbmStackStatus n) Fld.hbmStackStatus_temp = s.fld (Reg.hbmStackStatus n) Fld.hbmStackStatus_temp
      ∧ (s.passStart n).fld (Reg.hbmStackStatus n) Fld.hbmStackStatus_trainTemp = s.fld (Reg.hbmStackStatus n) Fld.hbmStackStatus_temp % 256
      ∧ (s.passStart n).hbmPass n = { next := 0, due := false } ∧ RegsOnly [Reg.hbmStackStatus n] s (s.passStart n) := by
  let u := s.setFld (Reg.hbmStackStatus n) Fld.hbmStackStatus_trainTemp (s.fld (Reg.hbmStackStatus n) Fld.hbmStackStatus_temp)
  let v := u.setFld (Reg.hbmStackStatus n) Fld.hbmStackStatus_passActive 1
  have regs : (s.passStart n).regs = v.regs := by rw [passStart_of_idle idle]; rfl
  have written : RegsOnly [Reg.hbmStackStatus n] s v := (RegsOnly.setFld ..).trans_same (RegsOnly.setFld ..)
  refine ⟨?_, ?_, ?_, ?_, ?_⟩
  · rw [flag_congr regs, State.flag, fld_setFld_self _ _ _ _ (by decide)]; decide
  · rw [fld_congr regs, fld_setFld_apart _ _ _ (by decide), fld_setFld_apart _ _ _ (by decide)]
  · rw [fld_congr regs, fld_setFld_apart _ _ _ (by decide)]; exact fld_setFld_self _ _ _ _ (by decide)
  · rw [passStart_of_idle idle, hbmPass_setPass_self]
  · exact ⟨fun a ha => (reg_congr regs a).trans (written.same a ha)⟩

theorem trainPassStart_spec {s : State} {n : Nat} (c : Int) (idle : s.flag (Reg.hbmStackStatus n) Fld.hbmStackStatus_passActive = false) :
    (trainPassStart n c s).flag (Reg.hbmStackStatus n) Fld.hbmStackStatus_passActive = true
      ∧ (trainPassStart n c s).fld (Reg.hbmStackStatus n) Fld.hbmStackStatus_temp = ofSigned 8 c % 256
      ∧ (trainPassStart n c s).fld (Reg.hbmStackStatus n) Fld.hbmStackStatus_trainTemp = ofSigned 8 c % 256
      ∧ (trainPassStart n c s).hbmPass n = { next := 0, due := false } ∧ RegsOnly [Reg.hbmStackStatus n] s (trainPassStart n c s) := by
  have measured : (s.setFld (Reg.hbmStackStatus n) Fld.hbmStackStatus_temp (ofSigned 8 c)).fld (Reg.hbmStackStatus n) Fld.hbmStackStatus_temp
      = ofSigned 8 c % 256 := fld_setFld_self _ _ _ _ (by decide)
  have still : (s.setFld (Reg.hbmStackStatus n) Fld.hbmStackStatus_temp (ofSigned 8 c)).flag (Reg.hbmStackStatus n) Fld.hbmStackStatus_passActive = false := by
    rw [State.flag, fld_setFld_apart _ _ _ (by decide)]; exact idle
  obtain ⟨active, temp, trained, pass, regs⟩ := passStart_spec still
  rw [measured] at temp trained
  exact ⟨active, temp, by rw [trainPassStart, trained, Nat.mod_mod], pass, (RegsOnly.setFld ..).trans_same regs⟩

theorem setPass_mode (s : State) (x n : Nat) (p : HbmPass) : SameMode x s (s.setPass n p) := SameMode.of_regs (by rfl) x

theorem passStart_mode (s : State) {x : Nat} (hx : x < 512) (n : Nat) : SameMode x s (s.passStart n) := by
  unfold State.passStart
  extract_lets st
  split
  · exact setPass_mode ..
  · exact ((SameMode.setFld _ _ _ (stackStatus_apart hx n)).trans (SameMode.setFld _ _ _ (stackStatus_apart hx n))).trans (setPass_mode ..)

theorem passNext_mode (s : State) {x : Nat} (hx : x < 512) (n : Nat) : SameMode x s (s.passNext n) := by
  have ended := (SameMode.setFld s Fld.hbmStackStatus_passActive 0 (stackStatus_apart hx n)).trans (setPass_mode _ x n { next := 0, due := false })
  unfold State.passNext
  extract_lets p u
  split
  · exact setPass_mode ..
  · split
    · exact ended.trans (passStart_mode u hx n)
    · exact ended

theorem passStart_hbm (s : State) (n : Nat) : (s.passStart n).hbm.ctls = s.hbm.ctls ∧ (s.passStart n).hbm.answers = s.hbm.answers := by
  unfold State.passStart
  extract_lets st
  split <;> exact ⟨rfl, rfl⟩

theorem passNext_hbm (s : State) (n : Nat) : (s.passNext n).hbm.ctls = s.hbm.ctls ∧ (s.passNext n).hbm.answers = s.hbm.answers := by
  unfold State.passNext
  extract_lets p u
  split
  · exact ⟨rfl, rfl⟩
  · split
    · exact passStart_hbm u n
    · exact ⟨rfl, rfl⟩

/-- The pass goes on to the next pseudo-channel while there is one. -/
theorem passNext_of_more {s : State} {n : Nat} (more : (s.hbmPass n).next < 63) :
    s.passNext n = s.setPass n { s.hbmPass n with next := (s.hbmPass n).next + 1 } := by
  simp only [State.passNext, if_pos more]

theorem Stopped.passNext {s t : State} {x cause : Nat} (h : Stopped s t x cause) (hx : x < 512) (n : Nat) : Stopped s (t.passNext n) x cause := by
  obtain ⟨ctls, answers⟩ := passNext_hbm t n
  exact h.keep (passNext_mode t hx n) (passNext_tame ..).only (by rw [State.ctl, ctls]; rfl) answers

/-- A command to the stack is kept for the capture, and changes nothing else that a freeze reads. -/
theorem ctl_hbmCmd (s : State) (x op bank row col tag cls : Nat) :
    ((s.hbmCmd x op bank row col tag cls).ctl x).queue = (s.ctl x).queue ∧ ((s.hbmCmd x op bank row col tag cls).ctl x).freezes = (s.ctl x).freezes :=
  ⟨(congrArg HbmCtl.queue (ctl_setCtl_self ..)).trans rfl, (congrArg HbmCtl.freezes (ctl_setCtl_self ..)).trans rfl⟩

/-- A freeze after a command to the stack. -/
theorem Stopped.of_hbmCmd {s t : State} {x cause op bank row col tag cls : Nat} (h : Stopped (s.hbmCmd x op bank row col tag cls) t x cause) :
    Stopped s t x cause := by
  obtain ⟨queue, freezes⟩ := ctl_hbmCmd s x op bank row col tag cls
  have recent : (s.hbmCmd x op bank row col tag cls).recentFreezes x = s.recentFreezes x := by rw [State.recentFreezes, freezes]; rfl
  obtain ⟨state, frozen, counted, recorded, emptied, answered⟩ := h
  rw [recent] at state
  rw [queue] at answered
  exact ⟨state, frozen, counted, recorded.of_tod rfl, emptied, answered⟩

/-- The pass's next pseudo-channel runs and is not under test: it pauses, or freezes with cause 4 (R279). -/
theorem trainPause_of_running {s : State} {x : Nat} (active : s.flag (Reg.hbmStackStatus (x / 64)) Fld.hbmStackStatus_passActive = true)
    (turn : (s.hbmPass (x / 64)).next = x % 64) (runs : s.hbmState x = 1) (untested : s.segTested (ctlSeg x) = false) (ok : Bool) :
    trainPause x ok s = if ok then ((s.hbmCmd x 10 0 0 0 0 0).setHbmState x 2).passNext (x / 64)
      else ((s.hbmCmd x 10 0 0 0 0 0).hbmFreeze x 4 none 0 0).passNext (x / 64) := by
  simp [trainPause, active, turn, runs, untested]

theorem trainPause_pauses {s : State} {x : Nat} (active : s.flag (Reg.hbmStackStatus (x / 64)) Fld.hbmStackStatus_passActive = true)
    (turn : (s.hbmPass (x / 64)).next = x % 64) (more : x % 64 < 63) (runs : s.hbmState x = 1) (untested : s.segTested (ctlSeg x) = false) :
    (trainPause x true s).hbmState x = 2 ∧ ((trainPause x true s).hbmPass (x / 64)).next = x % 64 + 1 ∧ RegsOnly [Reg.hbmStatus x] s (trainPause x true s) := by
  let u := (s.hbmCmd x 10 0 0 0 0 0).setHbmState x 2
  have next : (u.hbmPass (x / 64)).next = x % 64 := turn
  have pause : trainPause x true s = u.setPass (x / 64) { u.hbmPass (x / 64) with next := (u.hbmPass (x / 64)).next + 1 } := by
    rw [trainPause_of_running active turn runs untested, if_pos rfl, passNext_of_more (by rw [next]; exact more)]
  refine ⟨?_, ?_, ?_⟩
  · rw [pause, (setPass_mode ..).state, hbmState_setHbmState]
  · rw [pause, hbmPass_setPass_self, next]
  · rw [pause]; exact ⟨fun a ha => (setHbmState_regs (s.hbmCmd x 10 0 0 0 0 0) x 2).same a ha⟩

theorem trainPause_freezes {s : State} {x : Nat} (hx : x < 512) (active : s.flag (Reg.hbmStackStatus (x / 64)) Fld.hbmStackStatus_passActive = true)
    (turn : (s.hbmPass (x / 64)).next = x % 64) (runs : s.hbmState x = 1) (untested : s.segTested (ctlSeg x) = false) :
    Stopped s (trainPause x false s) x 4 := by
  rw [trainPause_of_running active turn runs untested, if_neg Bool.false_ne_true]
  exact ((hbmFreeze_stopped (s := s.hbmCmd x 10 0 0 0 0 0) hx (.inl runs) (by decide) none 0 0).of_hbmCmd).passNext hx _

/-! ### Diagnosis and return (R284 to R287) -/

/-- A frozen controller starts its return, and no other (R284). -/
theorem hbmReturn_spec (s : State) (x : Nat) :
    (s.hbmReturn x).hbmState x = (if s.hbmState x = 3 then 4 else s.hbmState x) ∧ RegsOnly [Reg.hbmStatus x] s (s.hbmReturn x) := by
  unfold State.hbmReturn
  split
  · exact ⟨hbmState_setHbmState .., ⟨fun a ha => (setHbmState_regs s x 4).same a ha⟩⟩
  · exact ⟨rfl, RegsOnly.refl ..⟩

theorem hbmReturn_of_frozen {s : State} {x : Nat} (frozen : s.hbmState x = 3) : ((s.hbmReturn x).ctl x).fails = 0 := by
  rw [State.hbmReturn, if_pos frozen, ctl_setCtl_self]

theorem hbmDiagnosis_spec (s : State) (x : Nat) :
    (s.hbmDiagnosis x).hbmState x = (if s.hbmState x = 3 ∧ s.flag (Reg.hbmCtrl x) Fld.hbmCtrl_freezeHold = false then 4 else s.hbmState x)
      ∧ RegsOnly [Reg.hbmStatus x] s (s.hbmDiagnosis x) := by
  obtain ⟨state, regs⟩ := hbmReturn_spec s x
  cases hold : s.flag (Reg.hbmCtrl x) Fld.hbmCtrl_freezeHold with
  | true => simp [State.hbmDiagnosis, hold, RegsOnly.refl]
  | false => simpa [State.hbmDiagnosis, hold] using ⟨state, regs⟩

/-- A retrain fails: the failure is counted, and the third retires the controller (R285). -/
theorem hbmRetrainDone_failed {s : State} {x us : Nat} (back : s.hbmState x = 4) :
    ((hbmRetrainDone x false us s).ctl x).fails = (s.ctl x).fails + 1
      ∧ (hbmRetrainDone x false us s).hbmState x = (if 2 ≤ (s.ctl x).fails then 5 else 4)
      ∧ (2 ≤ (s.ctl x).fails → Recorded s (hbmRetrainDone x false us s) 0x0703 (natBe 2 x ++ [1]))
      ∧ RegsOnly [Reg.hbmStatus x] s (hbmRetrainDone x false us s) := by
  let u := (s.count .hbmctlRetrain x).setCtl x { s.ctl x with fails := (s.ctl x).fails + 1 }
  have done : hbmRetrainDone x false us s = if 3 ≤ (s.ctl x).fails + 1 then u.hbmRetire x 1 else u := by
    rw [hbmRetrainDone, if_neg (by omega)]; rfl
  have fails : (u.ctl x).fails = (s.ctl x).fails + 1 := congrArg HbmCtl.fails (ctl_setCtl_self ..)
  rw [done]
  by_cases third : 2 ≤ (s.ctl x).fails
  · rw [if_pos (by omega), if_pos third]
    have event : Recorded u (u.hbmRetire x 1) 0x0703 (natBe 2 x ++ natBe 1 1) := (raise_recorded (u.setHbmState x 5) _ _).of_tod rfl
    refine ⟨by rw [ctl_congr (hbmRetire_reports u x 1).hbm, fails], hbmState_hbmRetire .., fun _ => event.of_tod rfl, ⟨fun a ha => ?_⟩⟩
    rw [State.hbmRetire, reg_raise]
    exact (setHbmState_regs u x 5).same a ha
  · rw [if_neg (by omega), if_neg third]
    exact ⟨fails, back, fun h => absurd h third, RegsOnly.of_same (by rfl) _⟩

/-- What follows the return of controller `x`: a buffer controller goes back to the pool, a table controller has its tables and counters rewritten
(R286, R287, R418). -/
def State.afterReturn (s : State) (x : Nat) : State :=
  if 128 ≤ x then s.taintTake (x - 128)
  else
    let s := (s.tableReturn x).counterRewrite x
    if s.obs.stale.contains ((x + 64) % 128) then s.counterRewrite ((x + 64) % 128) else s

theorem tableReturn_mode (s : State) (x : Nat) : SameMode x s (s.tableReturn x) := by
  refine (SameMode.of_regs ((shadowRestore_tame s x).only.same .regs (by decide)) x).trans (SameMode.foldl _ (fun t ht u => ?_) _)
  have apart : Reg.tableAgeCfg t ≠ Reg.hbmStatus x ∧ Reg.tableAgeCfg t ≠ Reg.hbmCtrl x := by
    have := List.mem_range.mp ht
    simp only [Reg.tableAgeCfg, Reg.hbmStatus, Reg.hbmCtrl]; omega
  split
  · exact SameMode.setFld u _ _ apart
  · exact SameMode.of_regs rfl x

theorem counterRewrite_reports (s : State) (x : Nat) : Reports 1 s (s.counterRewrite x) := by
  have rewritten (o : Obs) : Reports 0 s { s with obs := o } := Reports.of_only (Tame.set_obs (l := [.obs]) (Tame.refl ..) o (by decide)).only (by decide)
  unfold State.counterRewrite
  extract_lets y here fromTo o
  split
  · exact (rewritten _).trans (Reports.raise ..)
  · exact (Reports.refl s).mono (by decide)

theorem counterRewrite_mode (s : State) (x y : Nat) : SameMode y s (s.counterRewrite x) :=
  SameMode.of_regs ((counterRewrite_tame s x).only.same .regs (by decide)) y

theorem afterReturn_mode (s : State) (x : Nat) : SameMode x s (s.afterReturn x) := by
  unfold State.afterReturn
  split
  next buffer =>
    have taken := taintTake_mode s (x - 128)
    rwa [show 128 + (x - 128) = x by omega] at taken
  next =>
    have first := (tableReturn_mode s x).trans (counterRewrite_mode _ x x)
    extract_lets u
    split
    · exact first.trans (counterRewrite_mode ..)
    · exact first

theorem afterReturn_reports (s : State) (x : Nat) : Reports 2 s (s.afterReturn x) := by
  unfold State.afterReturn
  split
  · exact (taintTake_reports ..).mono (by decide)
  · have first := (Reports.of_only (tableReturn_tame s x).only (by decide)).trans (counterRewrite_reports _ x)
    extract_lets u
    split
    · exact first.trans (counterRewrite_reports ..)
    · exact first.mono (by decide)

/-- A retrain ends well: the controller runs again with 0x0702 (R284). -/
theorem hbmRetrainDone_trained {s : State} {x us : Nat} (hx : x < 512) (back : s.hbmState x = 4) :
    (hbmRetrainDone x true us s).hbmState x = 1 ∧ ((hbmRetrainDone x true us s).ctl x).lost = 0 ∧ Counted s (hbmRetrainDone x true us s) .hbmctlRetrain x 1
      ∧ Recorded s (hbmRetrainDone x true us s) 0x0702 (natBe 2 x ++ natBe 2 us ++ natBe 1 (s.ctl x).lost) := by
  let u := ((s.count .hbmctlRetrain x).setHbmState x 1).setCtl x { s.ctl x with lost := 0, fails := 0 }
  let v := u.raise 0x0702 (natBe 2 x ++ natBe 2 us ++ natBe 1 (s.ctl x).lost)
  have done : hbmRetrainDone x true us s = v.afterReturn x := by
    rw [hbmRetrainDone, if_neg (by omega)]; rfl
  have rest := afterReturn_reports v x
  have all : Reports 3 u (v.afterReturn x) := (Reports.raise ..).trans rest
  rw [done]
  refine ⟨?_, ?_, ?_, (rest.recorded (by decide)).of_tod rfl⟩
  · rw [(afterReturn_mode v x).state, hbmState_congr (raise_regs ..)]
    exact hbmState_setHbmState (s.count .hbmctlRetrain x) x 1
  · rw [ctl_congr all.hbm, ctl_setCtl_self]
  · have counted : u.ctr (ctrKey .hbmctlRetrain x) = (s.count .hbmctlRetrain x).ctr (ctrKey .hbmctlRetrain x) := rfl
    rw [Counted, all.ctr _ (quiet_ctrKey hx (by decide)), counted, ctr_count, if_pos rfl]

/-! ### The diagnosis read (R284, R403) -/

/-- Whether no replica of a block lies from `lo` to before `hi`, by its base and its outermost index. -/
def RegDesc.clearOf (d : RegDesc) (lo hi : Nat) : Bool :=
  decide (hi ≤ d.base) || match d.dims with
    | [] => decide (d.base < lo)
    | (n, st) :: _ => decide (0 < st) && decide (d.base + n * st ≤ lo)

theorem hit_of_clearOf {d : RegDesc} {lo hi a : Nat} (clear : d.clearOf lo hi = true) (ha : lo ≤ a ∧ a < hi) : d.hit a = false := by
  obtain ⟨base, dims, fields⟩ := d
  rw [RegDesc.hit, Bool.and_eq_false_iff, decide_eq_false_iff_not]
  simp only [RegDesc.clearOf, Bool.or_eq_true, decide_eq_true_eq] at clear
  rcases clear with above | below
  · exact .inl (by simp only; omega)
  · right
    cases dims with
    | nil =>
      have : base < lo := by simpa using below
      simp only [inDims, beq_eq_false_iff_ne]; omega
    | cons p dims =>
      obtain ⟨n, st⟩ := p
      have ⟨pos, far⟩ : 0 < st ∧ base + n * st ≤ lo := by simpa using below
      have outside : ¬ (a - base) / st < n := by rw [Nat.div_lt_iff_lt_mul pos]; omega
      simp only [inDims, outside, decide_false, Bool.false_and]

/-- The chapters before chapter 11 hold no register of an HBM controller. -/
theorem chapters_clearOf_hbm : ∀ l ∈ regChapters.take 10, ∀ d ∈ l, d.clearOf 0x60000000 0x60800000 = true := by decide +kernel

/-- The block of HBM_SYNDROME. -/
def syndromeDesc : RegDesc := regs11.getD 2 { base := 0, dims := [], fields := [] }

theorem regs11_find_hbmSyndrome : ∀ x < 512, regs11.find? (fun d => d.hit (Reg.hbmSyndrome x)) = some syndromeDesc := by decide +kernel

theorem findReg_hbmSyndrome {x : Nat} (hx : x < 512) : findReg (Reg.hbmSyndrome x) = some syndromeDesc := by
  have place : 0x60000000 ≤ Reg.hbmSyndrome x ∧ Reg.hbmSyndrome x < 0x60800000 := by simp only [Reg.hbmSyndrome]; omega
  have before : (regChapters.take 10).findSome? (fun c => c.find? (fun d => d.hit (Reg.hbmSyndrome x))) = none :=
    List.findSome?_eq_none_iff.mpr fun l hl => List.find?_eq_none.mpr fun d hd => by
      rw [hit_of_clearOf (chapters_clearOf_hbm l hl d hd) place]; exact Bool.false_ne_true
  have here : (regChapters.drop 10).findSome? (fun c => c.find? (fun d => d.hit (Reg.hbmSyndrome x))) = some syndromeDesc := by
    rw [show regChapters.drop 10 = regs11 :: regChapters.drop 11 from rfl, List.findSome?_cons, regs11_find_hbmSyndrome x hx]
  rw [findReg, ← List.take_append_drop 10 regChapters, List.findSome?_append, before, here]; rfl

theorem regAt_hbmSyndrome (s : State) {x : Nat} (hx : x < 512) : s.regAt (Reg.hbmSyndrome x) = some syndromeDesc := by
  have own : s.covered (Reg.hbmSyndrome x) = false := by
    rw [State.covered, if_neg (by simp only [Reg.hbmSyndrome]; omega), if_neg (by simp only [Reg.hbmSyndrome]; omega)]
  rw [State.regAt, own, if_neg Bool.false_ne_true, findReg_hbmSyndrome hx]

/-- HBM_SYNDROME has no field that reads zero, and no copy of another epoch. -/
theorem mgmtRead_hbmSyndrome (s : State) {x : Nat} (hx : x < 512) : s.mgmtRead (Reg.hbmSyndrome x) = s.reg (Reg.hbmSyndrome x) := by
  have place : Reg.hbmSyndrome x % 8 = 0 ∧ 0x60000010 ≤ Reg.hbmSyndrome x := by simp only [Reg.hbmSyndrome]; omega
  obtain ⟨aligned, low⟩ := place
  have unbanked : bankedLow (Reg.hbmSyndrome x) = none := by
    rw [bankedLow, if_neg (by simp only [Reg.epochBankSel]; omega), if_pos (by simp; omega)]
  have readable : ∀ f ∈ syndromeDesc.fields, (f.acc == Access.wo) = false := by decide +kernel
  have shown : ∀ l ⊆ syndromeDesc.fields, ∀ w : Word, l.foldl (fun w f => if f.acc == Access.wo then putField f.field 0 w else w) w = w := by
    intro l
    induction l with
    | nil => exact fun _ _ => rfl
    | cons f l ih =>
      intro sub w
      obtain ⟨field, rest⟩ := List.cons_subset.mp sub
      rw [List.foldl_cons, readable f field, if_neg Bool.false_ne_true, ih rest]
  simp only [State.mgmtRead, regAt_hbmSyndrome s hx]
  rw [if_neg (by omega), if_neg (by simp only [Reg.epochBankSelNext]; omega), State.regShown, shown _ (List.Subset.refl _), if_neg (by simp only [Reg.timeNow]; omega)]
  simp only [State.regPar, unbanked]

theorem syndromeOf_hbmSyndrome {x : Nat} (hx : x < 512) : syndromeOf (Reg.hbmSyndrome x) = some x := by
  have place : 0x6000_0010 ≤ Reg.hbmSyndrome x ∧ Reg.hbmSyndrome x < 0x6080_0010 ∧ (Reg.hbmSyndrome x - 0x6000_0010) % 0x4000 = 0 := by
    simp only [Reg.hbmSyndrome]; omega
  rw [syndromeOf, if_pos place]
  simp only [Reg.hbmSyndrome, Option.some.injEq]
  omega

theorem readWord_hbmSyndrome (s : State) {x : Nat} (hx : x < 512) : s.readWord true (Reg.hbmSyndrome x) = (s.reg (Reg.hbmSyndrome x), s.hbmDiagnosis x) := by
  have buffers : inBufferHbm (Reg.hbmSyndrome x) = false := by
    rw [inBufferHbm, decide_eq_false (by simp only [Reg.hbmSyndrome]; omega), Bool.false_and]
  rw [State.readWord, if_neg (by simp only [Reg.hbmSyndrome, Reg.timeNow]; omega), buffers, if_neg Bool.false_ne_true]
  simp only [syndromeOf_hbmSyndrome hx, mgmtRead_hbmSyndrome s hx, if_true]

/-- The state in which a granted read of HBM_SYNDROME does its work: the session's SEQ moved, the read counted in the filters (R422). -/
def State.syndromeAsked (s : State) (h : FcpHdr) (y : Session) (x : Nat) : State :=
  (s.setSession { y with rxSeq := h.seq }).filterCount 1 ((s.setSession { y with rxSeq := h.seq }).privOf h) (h.session - 1) (some (Reg.hbmSyndrome x)) none

theorem syndromeAsked_only (s : State) (h : FcpHdr) (y : Session) (x : Nat) : Only [.fcp, .counters] s (s.syndromeAsked h y x) :=
  ((setSession_tame ..).only.trans (filterCount_only ..))

/-- A granted diagnosis read is answered with the syndrome, and the controller diagnosed. -/
theorem hbmSyndromeRead_of_granted {s : State} {h : FcpHdr} {y : Session} {x : Nat} (hx : x < 512) (g : Granted s h y 0x10 privWrite)
    (clear : s.readBar (Reg.hbmSyndrome x) = 0) :
    hbmSyndromeRead h x s = ((s.syndromeAsked h y x).hbmDiagnosis x).answer h 0x10 0 (natBe 8 (s.reg (Reg.hbmSyndrome x)).toNat) := by
  have bar : (s.setSession { y with rxSeq := h.seq }).readBar (Reg.hbmSyndrome x) = 0 := clear
  have word : (s.syndromeAsked h y x).reg (Reg.hbmSyndrome x) = s.reg (Reg.hbmSyndrome x) := reg_congr ((syndromeAsked_only ..).same .regs (by decide)) _
  have read : ((s.setSession { y with rxSeq := h.seq }).readWords true ((s.setSession { y with rxSeq := h.seq }).privOf h) (h.session - 1) (Reg.hbmSyndrome x) 1)
      = ([s.reg (Reg.hbmSyndrome x)], (s.syndromeAsked h y x).hbmDiagnosis x) := by
    rw [← word]
    simp only [State.readWords, readWord_hbmSyndrome _ hx]; rfl
  rw [hbmSyndromeRead, regRead, fcpServe_granted g]
  simp [firstBar, bar, read]

theorem hbmSyndromeRead_spec {s : State} {h : FcpHdr} {y : Session} {x : Nat} (hx : x < 512) (g : Granted s h y 0x10 privWrite)
    (clear : s.readBar (Reg.hbmSyndrome x) = 0) :
    Replied (hbmSyndromeRead h x s) h 0x10 0 (natBe 8 (s.reg (Reg.hbmSyndrome x)).toNat)
      ∧ (hbmSyndromeRead h x s).hbmState x = (if s.hbmState x = 3 ∧ s.flag (Reg.hbmCtrl x) Fld.hbmCtrl_freezeHold = false then 4 else s.hbmState x)
      ∧ RegsOnly [Reg.hbmStatus x] s (hbmSyndromeRead h x s) := by
  let u := s.syndromeAsked h y x
  have regs : u.regs = s.regs := (syndromeAsked_only s h y x).same .regs (by decide)
  obtain ⟨state, written⟩ := hbmDiagnosis_spec u x
  rw [hbmState_congr regs, flag_congr regs] at state
  have session : (u.hbmDiagnosis x).session h.session = some { y with rxSeq := h.seq } := by
    have asked : u.fcp = (s.setSession { y with rxSeq := h.seq }).fcp := (filterCount_only ..).same .fcp (by decide)
    have kept : (u.hbmDiagnosis x).fcp = u.fcp := (hbmDiagnosis_tame u x).only.same .fcp (by decide)
    rw [State.session, kept.trans asked]
    have name : y.id = h.session := session_id g.accepted.known
    exact session_setSession g.accepted.known name
  rw [hbmSyndromeRead_of_granted hx g clear]
  refine ⟨answer_replied session .., ?_, ⟨fun a ha => ?_⟩⟩
  · rw [hbmState_congr (answer_regs ..), state]
  · rw [reg_congr (answer_regs ..), written.same a ha, reg_congr regs]

/-- The next pseudo-channel of no pass does nothing. -/
theorem trainPause_of_not_next {s : State} {x : Nat}
    (h : s.flag (Reg.hbmStackStatus (x / 64)) Fld.hbmStackStatus_passActive = false ∨ (s.hbmPass (x / 64)).next ≠ x % 64) (ok : Bool) : trainPause x ok s = s := by
  have skipped : (!s.flag (Reg.hbmStackStatus (x / 64)) Fld.hbmStackStatus_passActive || (s.hbmPass (x / 64)).next != x % 64) = true := by simpa using h
  simp only [trainPause, skipped, if_true]

/-- Settles O37. A freeze is cut at its event 0x0701: `halted_spec` says what stands before it, `Reports` what may follow it; the training pass, the diagnosis
read and the return each have their own specification. That HBM_CTRL.RELEASE starts the return whatever FREEZE_HOLD is log 76. -/
theorem hbmControllersFreezeAndReturn : Obligations.HbmControllersFreezeAndReturn := by
  unfold Obligations.HbmControllersFreezeAndReturn
  intro st active hold recent stopped diagnosed
  refine ⟨fun n c s hs _ idle => ?_, fun n s hs idle => ?_, fun n s hs running => ?_, fun x ok s skipped => ?_, fun x s hs _ running turn more runs untested => ?_,
    fun x s hs hx running turn runs untested => ?_, fun x s hs hx paused => ?_, fun x s hs hx runs => ?_, fun x tag w s hs hx runs queued => ?_,
    fun h y x s hs hx granted clear => ?_, fun x s hs hx => ?_, fun x s hs hx frozen => ?_, fun x us ok s elsewhere => ?_, fun x us s hs hx back => ?_,
    fun x us s hs hx back => ?_⟩
  · obtain ⟨begun, temp, trained, pass, regs⟩ := trainPassStart_spec c idle
    exact ⟨_, act_of_clocked hs _, begun, temp, trained, pass, regs, (trainPassStart_tame ..).only⟩
  · obtain ⟨begun, -, -, pass, regs⟩ := passStart_spec idle
    exact ⟨_, act_of_clocked hs _, begun, pass, regs, (trainNowWrite_tame ..).only⟩
  · refine ⟨_, act_of_clocked hs _, ?_, ?_⟩ <;> rw [trainNowWrite, passStart_of_active running]
    · exact hbmPass_setPass_self ..
    · exact (setPass_tame ..).only
  · have none : trainPause x ok s = s := trainPause_of_not_next skipped ok
    exact (congrArg s.act none).trans (act_self s)
  · obtain ⟨state, next, regs⟩ := trainPause_pauses running turn more runs untested
    refine ⟨_, act_of_clocked hs _, state, next, regs, ?_⟩
    rw [trainPause_of_running running turn runs untested, if_pos rfl]
    exact (((hbmCmd_tame ..).only.trans (setHbmState_tame ..).only).trans (passNext_tame ..).only).mono (by decide)
  · exact ⟨_, act_of_clocked hs _, trainPause_freezes hx running turn runs untested, (trainPause_tame ..).only⟩
  · have ends : trainingPauseEnds x s = s.setHbmState x 1 := if_pos paused
    refine ⟨_, act_of_clocked hs _, ?_, ?_, ?_⟩ <;> rw [ends]
    · exact hbmState_setHbmState ..
    · exact setHbmState_regs ..
    · exact (setHbmState_tame ..).only
  · have freeze : hbmCaParity x s = s.hbmFreeze x 2 none 0 0 := if_neg (by omega)
    refine ⟨_, act_of_clocked hs _, ?_, (hbmCaParity_tame ..).only⟩
    rw [freeze]
    exact hbmFreeze_stopped hx runs (by decide) ..
  · have freeze : hbmCmdTimeout x tag s = s.hbmFreeze x 3 (some w.r) w.r.burst 0 := by simp only [hbmCmdTimeout, queued]
    refine ⟨_, act_of_clocked hs _, ?_, (hbmCmdTimeout_tame ..).only⟩
    rw [freeze]
    exact hbmFreeze_stopped hx (.inl runs) (by decide) ..
  · obtain ⟨reply, state, regs⟩ := hbmSyndromeRead_spec hx granted clear
    exact ⟨_, act_of_clocked hs _, reply, state, regs, (hbmSyndromeRead_tame ..).only⟩
  · obtain ⟨state, regs⟩ := hbmDiagnosis_spec s x
    exact ⟨_, act_of_clocked hs _, state, regs, (hbmFreezeTimeout_tame ..).only⟩
  · obtain ⟨state, regs⟩ := hbmReturn_spec s x
    exact ⟨_, act_of_clocked hs _, state.trans (if_pos frozen), hbmReturn_of_frozen frozen, regs, (hbmRelease_tame ..).only⟩
  · have none : hbmRetrainDone x ok us s = s := if_pos elsewhere
    exact (congrArg s.act none).trans (act_self s)
  · obtain ⟨state, lost, counted, event⟩ := hbmRetrainDone_trained hx back
    exact ⟨_, act_of_clocked hs _, state, lost, counted, event, (hbmRetrainDone_tame ..).only⟩
  · obtain ⟨fails, state, event, regs⟩ := hbmRetrainDone_failed back
    exact ⟨_, act_of_clocked hs _, fails, state, event, regs⟩

end Sys2Proof.Machine
